-- ==== Sys2Proof/Word.lean ====
section
/-!
DEFINITION. The word types of the block: a byte, a string of bytes, a register word and a vector register.
-/

namespace Sys2Proof

/-- One byte (spec/00, "Notation and units"). -/
abbrev Byte := BitVec 8

/-- A string of bytes, first byte first. -/
abbrev Bytes := List Byte

/-- The contents of a register. A 32-bit register keeps its upper half zero (R9, R11). -/
abbrev RegWord := BitVec 64

/-- A vector register of a vector core: 128 lanes of 32 bits (R18). -/
abbrev VReg := BitVec 4096

end Sys2Proof
end

