-- ==== Sys2Proof/Syntax.lean ====
section
/-!
DEFINITION. The commands of the block: one constructor for each row of the table of operations and events, in the
table's order, with the row's operands.
-/

namespace Sys2Proof

/-- The masters of a register access: PF0, the management processor, the debug master (R11, R14, R454). -/
inductive Master where
  | pf0 | mp | dbg
deriving DecidableEq, Repr

/-- The address spaces that a host access names (R74): the three BARs, and the configuration-space settings. -/
inductive Space where
  | bar0 | bar2 | bar4 | cfg
deriving DecidableEq, Repr

/-- The units that report ready (R382): the endpoint, the PHC replicas, the recorder, the fetch engine, a die with its
agent, a cluster's golden copy, a vector core, an engine, a calender pipe, a port, a die's key store. -/
inductive ReadyUnit where
  | pcie | phc | recorder | fetch
  | die (d : Nat)
  | golden (cluster : Nat)
  | core (vc : Nat)
  | engine (k : Nat)
  | calender (d pipe : Nat)
  | port (p : Nat)
  | keyStore (d : Nat)
deriving DecidableEq, Repr

/-- What an address of DBG_ACCESS names (R386, R412, R414): the map of its 48-bit addresses is not published. A register
by its BAR0 offset; a region of Table 14.10 that lies outside BAR0; four bytes of a cluster's shared memory; four bytes of an
operand store; a vendor setting of Table 14.4 with its value (0 device identifier, 1 image-key hash, 2 debug key hash, 3 alarm
policy floor, one mask for each source); the run control of a core, an engine or a die agent. -/
inductive DbgTarget where
  | register (addr : Nat)
  | denied
  | shared (cluster addr : Nat)
  | store (vc addr : Nat)
  | otp (setting : Nat) (value : Bytes)
  | core (vc : Nat)
  | engine (k : Nat)
  | agent (d : Nat)
deriving DecidableEq, Repr

/-- What the host link has returned for R495 at acceptance: the In1 list, and the front of In1. -/
structure LeadBytes where
  list : Bytes
  front : Bytes
deriving DecidableEq, Repr

/-- The read data of one job's buffers, as the host link returned it (R70, R124): the list arrays of In0, In1 and Out
where the SQE has them, then the bytes of In0 and In1. -/
structure JobRead where
  job : Nat
  list0 : Bytes
  list1 : Bytes
  listOut : Bytes
  data0 : Bytes
  data1 : Bytes
deriving DecidableEq, Repr

/-- What a failed DMA read was for (R77): a buffer of a job (DETAIL 1 to 6 of R126), a ring's header, or an entry. -/
inductive DmaTarget where
  | jobBuffer (job : Nat) (which : Nat)
  | header (ring : Nat)
  | entry (ring : Nat) (idx : Nat)
deriving DecidableEq, Repr

/-- The fields of a kernel word other than its opcode and function, as the source wrote them (Table 06.2): element
width, predicate, polarity and zeroing, destination and sources, segment, order and mask bits, and immediate. -/
structure VFields where
  w : Nat
  pred : Nat
  pen : Nat
  zm : Nat
  vd : Nat
  va : Nat
  vb : Nat
  vc : Nat
  qs : Nat
  fn : Nat
  ss : Nat
  imm : Nat
deriving DecidableEq, Repr

/-- The security extension of a GOOSE or SV frame as IEC 62351-6 locates and decodes it (R284, Table 10.4): whether it is
located; algorithm, tag length, key identifier; timestamp seconds, fraction and quality; where in the frame the tag
begins; whether the header's length field agrees with the frame. -/
structure Extension where
  located : Bool
  alg : Nat
  tagLen : Nat
  keyId : Nat
  secs : Nat
  frac : Nat
  quality : Nat
  tagAt : Nat
  lengthOk : Bool
deriving DecidableEq, Repr

/-- What the parser extracts from a GOOSE or SV frame (R284, Table 10.4): the fields of the extension; the tag, the bytes
that it covers and the IV of AES-GMAC; and the counter: stNum and sqNum, or the smpCnt of the first and of the last ASDU.
-/
structure SecFields where
  located : Bool
  alg : Nat
  tagLen : Nat
  keyId : Nat
  secs : Nat
  frac : Nat
  quality : Nat
  tag : Bytes
  cover : Bytes
  iv : Bytes
  lengthOk : Bool
  counter : Option (Nat × Nat)
deriving DecidableEq, Repr

namespace Machine

/-- A stream context (Table 10.5). `vid` is the 16-bit field with VID_ANY in bit 15; the current key is its identifier and
form, the next key has its promotion time as well; the form of an HMAC key is its SHA-256 midstates (R269). `last` is the
last accepted counter, `hist` the last 32 with their LAN (true for B); `counts` are those of Table 10.16. -/
structure Stream where
  live : Bool
  owner : Nat
  dir : Nat
  cls : Nat
  mac : Bytes
  appid : Nat
  vid : Nat
  port : Nat
  pair : Bool
  alg : Nat
  tagLen : Nat
  unauth : Nat
  fail : Nat
  secRing : Nat
  window : Nat
  cntMod : Nat
  cur : Option (Nat × Bytes)
  next : Option (Nat × Bytes × Nat)
  last : Option (Nat × Nat)
  hist : List ((Nat × Nat) × Bool)
  subs : List Nat
  counts : List Nat
deriving DecidableEq, Repr

/-- The content of a mirror message (R337 to R345): the source gives what crosses, not the type codes. -/
inductive MirrorBody where
  | keyPut (ti slot gen typ usage : Nat) (stored : Bytes)
  | keyDelete (ti slot : Nat)
  | context (n : Nat) (x : Stream)
  | contextDelete (n : Nat)
  | syncBegin
  | syncEnd
  | heartbeat (role epoch state : Nat)
  | ack (seq : Nat) (accepted : Bool)
  | pair1 (data : Bytes)
  | pair2 (data : Bytes)
  | pair3 (data : Bytes)
deriving DecidableEq, Repr

end Machine

/-- The commands of the block. -/
inductive Instr where

  /-- POWER_ON_RESET (R372): PWRGOOD rising takes a device reset with the effects of Table 13.1 and latches cause POR. -/
  | powerOnReset
  /-- RESET_PIN (R372): RESET_N held low for at least 10 µs takes a device reset with cause PIN. -/
  | resetPin (low : Bool) (dt : Nat)
  /-- SUPPLY_RESET (R372): VDD_CORE or VDD_SRAM falling below its reset threshold takes a device reset with cause SUPPLY. -/
  | supplyReset (rail : Nat) (die : Nat) (mv : Nat)
  /-- THERMAL_SHUTDOWN (R479): A sensor reads 120 °C or more in two consecutive samples and the device is held in reset
  with cause THERMAL. -/
  | thermalShutdown (sensor : Nat) (first : Int) (second : Int)
  /-- THERMAL_SHUTDOWN_RELEASE (R479): Every sensor has read below 100 °C for 1 s and the device boots from T0. -/
  | thermalShutdownRelease (dt : Nat)
  /-- RESET_RELEASE (R378): At T0 the boot ROM reads OTP, decodes the life-cycle state, resumes any interrupted
  transition, trains the IDLs and begins image verification. -/
  | resetRelease (sel : Nat)
  /-- BOOT_VERDICT (R379): After the last component is read and compared, the verdict passes or the slot is rejected, with
  fallback under the A/B policy. -/
  | bootVerdict (dt : Nat)
  /-- LEAVE_BOOT (R385): At step 8 the firmware sets mailbox READY and chooses the first mode of Table 13.7 whose
  condition holds. -/
  | leaveBoot (dt : Nat)
  /-- UNIT_READY (R382): A unit finishes loading and its readiness bit is set, which raises MSI-X vector 4. -/
  | unitReady (unit : ReadyUnit)
  /-- MAIN_POWER_LOSS (R387): Main power is lost and the device enters RETENTION with only the AO domain on VBAT. -/
  | mainPowerLoss
  /-- VBAT_EXHAUSTED (R474): VBAT falls below 2.1 V with main power off, so the BBKS is erased and the AO domain stops. -/
  | vbatExhausted
  /-- PERST_ASSERT (R373): PERST_N low resets the endpoint and the mailbox and destroys every TI under R79. -/
  | perstAssert
  /-- PERST_DEASSERT (R373): PERST_N rises and the endpoint and mailbox come ready again. -/
  | perstDeassert
  /-- FUNCTION_LEVEL_RESET (R79): An FLR of PF0 destroys every TI without a CQE, resets the mailbox, masks the IMT and
  clears the MSI-X table. -/
  | functionLevelReset
  /-- BUS_MASTER_DISABLE (R78): Bus Master Enable is cleared, or PF0 enters D3hot, which stops DMA and fetching and holds
  writes. -/
  | busMasterDisable (d3 : Bool)
  /-- BUS_MASTER_ENABLE (R78): Bus Master Enable is set in D0, so waiting writes are issued in order and fetching resumes. -/
  | busMasterEnable (d3 : Bool)
  /-- MSIX_RELEASE (R94): MSI-X is enabled and unmasked, so a pending vector sends one message and clears its pending bit. -/
  | msixRelease (vector : Nat)
  /-- REGISTER_WRITE (R12): A host or MP write to a register without a row of its own acts by its access code, with deckle
  and integrity checks. -/
  | registerWrite (master : Master) (space : Space) (addr : Nat) (data : Bytes) (full : Bool) (code : Nat)
  /-- RC_REGISTER_READ (R12): A read of an RC field returns its value and clears it, except for the debug master. -/
  | rcRegisterRead (master : Master) (space : Space) (addr : Nat) (size : Nat) (code : Nat)
  /-- MAILBOX_GO (R96): A write of GO snapshots the command buffer, checks the header and executes the command, or sets
  OVERRUN if BUSY or not READY. -/
  | mailboxGo
  /-- MAILBOX_ABORT (R97): A write of MBX_CTL.ABORT abandons the running command if it is before its commit point. -/
  | mailboxAbort
  /-- MAILBOX_TIMEOUT (R97): A command reaches MBX_TIMEOUT.LIMIT_MS before its commit point and is answered TIMEOUT. -/
  | mailboxTimeout (dt : Nat)
  /-- DEV_INFO (R100): Returns the 64-byte device-information record. -/
  | devInfo
  /-- DEV_CAPS (R100): Returns ten capability counts. -/
  | devCaps
  /-- DEV_POOLS (R100): Returns the free pool counts. -/
  | devPools
  /-- ECHO (R100): Returns the command payload unchanged. -/
  | echo
  /-- TI_CREATE (R316): Creates a TI with its quotas, chooses its key die and creates its import key pair. -/
  | tiCreate
  /-- TI_BIND (R82): Binds a PASID to a CREATED TI, or rebinds a QUIESCED TI with REBIND. -/
  | tiBind
  /-- TI_SET_QUOTA (R89): Changes the named quotas atomically, refusing increases without room and decreases below current
  use. -/
  | tiSetQuota
  /-- TI_ADD_WINDOW (R85): Adds a non-overlapping DMA window to a TI. -/
  | tiAddWindow
  /-- TI_REMOVE_WINDOW (R87): Removes a window once the jobs checked against the old window set have completed. -/
  | tiRemoveWindow
  /-- TI_ASSIGN_IMT (R102): Assigns a range of IMT entries to a TI, all together or not at all. -/
  | tiAssignImt
  /-- TI_RELEASE_IMT (R93): Releases a range of IMT entries, masking them and clearing PEND. -/
  | tiReleaseImt
  /-- TI_QUIESCE (R103): Stops the fetching of a TI's rings, then drains or aborts its accepted jobs. -/
  | tiQuiesce
  /-- TI_RESUME (R103): Makes a TI BOUND, restarts its enabled rings and acts on the recorded doorbells. -/
  | tiResume
  /-- TI_DESTROY (R104): Runs the destroy sequence of Table 03.12 and returns the TI to FREE. -/
  | tiDestroy
  /-- TI_QUERY (R101): Returns a copy of the TI's register block. -/
  | tiQuery
  /-- DOORBELL (R111): A 32-bit write at offset 0 of a doorbell page names a ring and starts a header read, or is rejected
  and counted. -/
  | doorbell (offset : Nat) (data : Bytes)
  /-- HEADER_READ_COMPLETE (R112): A ring header read completes and the device acts on the tenant index and, if requested,
  on TENANT_CTL. -/
  | headerReadComplete (ring : Nat) (tidx : Nat) (ctl : Nat)
  /-- TENANT_ENABLE_REQUEST (R130): A TENANT_CTL with ENABLE_REQ enables the ring or is refused, and is acknowledged. -/
  | tenantEnableRequest (ring : Nat) (ctl : Nat)
  /-- TENANT_DISABLE_REQUEST (R131): A TENANT_CTL with DISABLE_REQ, with or without ABORT, moves the ring to DISABLING. -/
  | tenantDisableRequest (ring : Nat) (ctl : Nat)
  /-- TENANT_CTL_REFUSED (R132): A TENANT_CTL with both requests or neither is refused, acknowledged with REFUSED and
  recorded. -/
  | tenantCtlRefused (ring : Nat) (ctl : Nat)
  /-- CONSUMER_INDEX_POLL (R112): Every 1 µs, while a consumer ring is full with a held CQE or a dropped delivery, the
  device re-reads its consumer index. -/
  | consumerIndexPoll (ring : Nat) (tidx : Nat) (dt : Nat)
  /-- SQ_FETCH (R120): The weighted round-robin arbiter chooses an eligible SQ and fetches a burst of entries. -/
  | sqFetch (entries : List Bytes)
  /-- SQE_ACCEPT (R123): A fetched SQE passes the acceptance checks, is placed on a die under R143 and enters a ready
  list, or completes with its refusal status. -/
  | sqeAccept (ring : Nat) (lead : LeadBytes) (readFault : Nat)
  /-- PUBLISHED_HEAD_WRITE (R114): Within 1 µs of an acceptance, the device writes the merged published head of the SQ. -/
  | publishedHeadWrite (ring : Nat) (dt : Nat)
  /-- DISPATCH_PASS (R146): The dispatcher binds ready jobs to idle cores in class order and checks deadlines, requests
  yields, or offers jobs to the balancer. -/
  | dispatchPass (die : Nat) (reads : List JobRead)
  /-- KEY_ARRIVAL (R144): A masked key sent over the KEY class arrives for a job placed off its home die. -/
  | keyArrival (job : Nat) (dt : Nat)
  /-- JOB_COMPLETION (R134): A job reaches its release point after its release check, writes Out and its CQE or holds the
  CQE, and frees its core. -/
  | jobCompletion (job : Nat) (pass : Bool) (dt : Nat)
  /-- HELD_CQE_WRITE (R117): A CQ entry frees and the held CQEs are written in holding order. -/
  | heldCqeWrite (ring : Nat)
  /-- CQ_FULL_TIMEOUT (R118): The CQ_FULL_TIMEOUT clock reaches its limit and the CQ and its SQs enter ERROR. -/
  | cqFullTimeout (ring : Nat) (dt : Nat)
  /-- COALESCE_TIMER (R119): COAL_US passes since the first unsignalled CQE and the CQ fires its IMT entry. -/
  | coalesceTimer (ring : Nat) (dt : Nat)
  /-- IMT_UNMASK (R91): A write clearing IMT_CTL.MASK sends one message if PEND is set. -/
  | imtUnmask (entry : Nat)
  /-- RING_DISABLE_COMPLETE (R131): The last accepted job of a DISABLING ring ends and the ring enters DISABLED with its
  acknowledgement. -/
  | ringDisableComplete (ring : Nat)
  /-- DMA_READ_ERROR (R77): A tenant DMA read returns UR, CA or poison, and the job completes BUFFER_FAULT or the ring
  enters ERROR. -/
  | dmaReadError (target : DmaTarget) (kind : Nat) (addr : Nat)
  /-- DMA_COMPLETION_TIMEOUT (R77): An outstanding tenant DMA read reaches its completion time-out. -/
  | dmaCompletionTimeout (target : DmaTarget) (addr : Nat) (dt : Nat)
  /-- RING_CREATE (R140): Creates a ring of the given type in DISABLED. -/
  | ringCreate
  /-- RING_DESTROY (R139): Zeroises a DISABLED ring's registers and returns it to the pool. -/
  | ringDestroy
  /-- RING_ENABLE (R130): Enables a DISABLED ring by administrator command. -/
  | ringEnable
  /-- RING_DISABLE (R131): Disables a ring by administrator command, with optional ABORT and HOLD. -/
  | ringDisable
  /-- RING_SET_ARB (R121): Sets the WEIGHT and BURST of an SQ or FTX ring. -/
  | ringSetArb
  /-- RING_SET_INT (R139): Sets the interrupt and coalescing fields of a ring by its type. -/
  | ringSetInt
  /-- RING_QUERY (R139): Returns the ring's registers. -/
  | ringQuery
  /-- SCHED_SET_SHARE (R162): Sets a TI's share and ready limit. -/
  | schedSetShare
  /-- SCHED_SET_RESERVE (R163): Sets a TI's core reservation on a die, growing or shrinking without pre-emption. -/
  | schedSetReserve
  /-- SCHED_SET_BALANCE (R158): Sets the balancer period, threshold, move limit and enable. -/
  | schedSetBalance
  /-- SCHED_SET_WAIT (R161): Sets the four internal wait time-outs. -/
  | schedSetWait
  /-- SCHED_QUERY (R166): Returns a die's scheduling block. -/
  | schedQuery
  /-- BALANCER_PERIOD (R158): Every BAL_PERIOD the balancer moves unstarted jobs from the most to the least loaded die. -/
  | balancerPeriod (dt : Nat)
  /-- CLOCK_MEASUREMENT_WINDOW (R151): At the end of each 10 µs window each VC's clock is measured and SLOW is marked or
  cleared. -/
  | clockMeasurementWindow (vc : Nat) (mhz : Nat) (dt : Nat)
  /-- JOB_PREEMPT_SAVE (R156): At a yield point with a pre-emption request, the victim's state is refreshed and saved to a
  save slot. -/
  | jobPreemptSave (job : Nat) (dt : Nat)
  /-- JOB_RESTORE (R156): A pre-empted job bound to a core has its state restored with fresh masks. -/
  | jobRestore (job : Nat) (vc : Nat) (dt : Nat)
  /-- WAIT_TIMEOUT (R161): An internal wait exceeds its time-out and the job is cleared with WAIT_TIMEOUT and PARTIAL. -/
  | waitTimeout (job : Nat) (dt : Nat)
  /-- HOLD_END (R391): 100 µs after the last monitored condition recovers, HOLD ends and secret service resumes. -/
  | holdEnd (dt : Nat)
  /-- TIME_SET (R168): A commit of TIME_SET schedules an absolute step 2 µs later. -/
  | timeSet (value : Nat)
  /-- TIME_STEP (R168): A commit of TIME_STEP schedules a signed step 2 µs later. -/
  | timeStep (value : Nat)
  /-- STEP_TAKES_EFFECT (R37): The pending PHC step takes effect on every die, cancels the slew and sets STEPPED. -/
  | stepTakesEffect (dt : Nat)
  /-- TIME_SLEW (R168): A write of TIME_SLEW replaces the remaining slew offset. -/
  | timeSlew (value : Nat)
  /-- TIME_NOW_CAPTURE_READ (R169): A capturing read of TIME_NOW stores the fraction and high half into the master's
  shadow. -/
  | timeNowCaptureRead (master : Master) (wide : Bool)
  /-- TIME_TARGET (R171): A write of TIME_TARGET arms the target, setting TARGET at once if it is past. -/
  | timeTarget (value : Nat)
  /-- TARGET_REACHED (R171): The PHC reaches the armed target and TARGET is set. -/
  | targetReached (dt : Nat)
  /-- PPS_OUT_EDGE (R170): The PHC passes a whole second plus PPS_OFFSET and PPS_OUT rises. -/
  | ppsOutEdge (dt : Nat)
  /-- PPS_IN_EDGE (R170): An edge on PPS_IN captures the PHC into TIME_PPS_IN. -/
  | ppsInEdge (falling : Bool) (dt : Nat)
  /-- PPS_IN_LOST (R170): No PPS_IN edge is captured for 1.1 s and PPS_LOST is set. -/
  | ppsInLost (dt : Nat)
  /-- REPLICA_CORRECTION (R35): Once per microsecond die 0 corrects every PHC replica over the time sideband. -/
  | replicaCorrection (dt : Nat)
  /-- IDL_CLOCK_LOSS (R25): An IDL loses its forwarded clock and the package enters LOCKDOWN. -/
  | idlClockLoss (a : Nat) (b : Nat)
  /-- SHA2_DIGEST (R54): Computes a SHA-2 digest of In0. -/
  | sha2Digest (job : Nat)
  /-- SHA3_DIGEST (R54): Computes a SHA3 digest of In0. -/
  | sha3Digest (job : Nat)
  /-- SHAKE_OUTPUT (R54): Computes SHAKE128 or SHAKE256 output of the requested length. -/
  | shakeOutput (job : Nat)
  /-- CSHAKE_OUTPUT (R258): Computes cSHAKE output with the bytepad prefix from In1. -/
  | cshakeOutput (job : Nat)
  /-- HMAC_TAG (R269): Computes an HMAC tag from the key's midstates. -/
  | hmacTag (job : Nat)
  /-- HMAC_VERIFY (R269): Verifies an HMAC tag in the constant-time comparator. -/
  | hmacVerify (job : Nat)
  /-- KMAC_TAG (R270): Computes a KMAC128 or KMAC256 tag. -/
  | kmacTag (job : Nat)
  /-- KMAC_VERIFY (R54): Parses In1 and verifies a KMAC tag. -/
  | kmacVerify (job : Nat)
  /-- GCM_ENCRYPT (R56): AES-GCM encryption with the ciphertext and 16-byte tag written to Out. -/
  | gcmEncrypt (job : Nat)
  /-- GCM_DECRYPT (R56): AES-GCM decryption released only if the tag passes. -/
  | gcmDecrypt (job : Nat)
  /-- GMAC_GENERATE (R56): Computes a GMAC tag. -/
  | gmacGenerate (job : Nat)
  /-- GMAC_VERIFY (R56): Verifies a GMAC tag. -/
  | gmacVerify (job : Nat)
  /-- KEY_WRAP (R56): RFC 3394 key wrap. -/
  | keyWrap (job : Nat)
  /-- KEY_UNWRAP (R56): RFC 3394 key unwrap with an integrity check. -/
  | keyUnwrap (job : Nat)
  /-- KEY_WRAP_PAD (R56): RFC 5649 key wrap with padding. -/
  | keyWrapPad (job : Nat)
  /-- KEY_UNWRAP_PAD (R56): RFC 5649 key unwrap with padding. -/
  | keyUnwrapPad (job : Nat)
  /-- ML_KEM_KEYGEN (R59): Generates an ML-KEM key pair into a target slot. -/
  | mlKemKeygen (job : Nat)
  /-- ML_KEM_ENCAPS (R59): Encapsulates to an ML-KEM public key and stores the shared secret. -/
  | mlKemEncaps (job : Nat)
  /-- ML_KEM_DECAPS (R58): Decapsulates with implicit rejection and stores the secret. -/
  | mlKemDecaps (job : Nat)
  /-- ML_DSA_KEYGEN (R59): Generates an ML-DSA key pair. -/
  | mlDsaKeygen (job : Nat)
  /-- ML_DSA_SIGN (R53): Hedged ML-DSA signing, charged at the 99.99th-percentile bound. -/
  | mlDsaSign (job : Nat)
  /-- ML_DSA_VERIFY (R59): Verifies an ML-DSA signature. -/
  | mlDsaVerify (job : Nat)
  /-- ML_DSA_PREHASH_SIGN (R59): Signs a pre-hashed digest with ML-DSA. -/
  | mlDsaPrehashSign (job : Nat)
  /-- ML_DSA_PREHASH_VERIFY (R59): Verifies a pre-hash ML-DSA signature. -/
  | mlDsaPrehashVerify (job : Nat)
  /-- SLH_DSA_KEYGEN (R59): Generates an SLH-DSA key pair. -/
  | slhDsaKeygen (job : Nat)
  /-- SLH_DSA_SIGN (R58): SLH-DSA signing with opt_rand from the die DRBG. -/
  | slhDsaSign (job : Nat)
  /-- SLH_DSA_VERIFY (R59): Verifies an SLH-DSA signature. -/
  | slhDsaVerify (job : Nat)
  /-- SLH_DSA_PREHASH_SIGN (R59): Signs a pre-hashed digest with SLH-DSA. -/
  | slhDsaPrehashSign (job : Nat)
  /-- SLH_DSA_PREHASH_VERIFY (R59): Verifies a pre-hash SLH-DSA signature. -/
  | slhDsaPrehashVerify (job : Nat)
  /-- LMS_VERIFY (R60): Verifies an LMS signature. -/
  | lmsVerify (job : Nat)
  /-- HSS_VERIFY (R60): Verifies an HSS signature over all levels. -/
  | hssVerify (job : Nat)
  /-- XMSS_VERIFY (R60): Verifies an XMSS signature. -/
  | xmssVerify (job : Nat)
  /-- XMSS_MT_VERIFY (R60): Verifies an XMSS^MT signature. -/
  | xmssMtVerify (job : Nat)
  /-- HQC_KEYGEN (R61): Generates an HQC key pair. -/
  | hqcKeygen (job : Nat)
  /-- HQC_ENCAPS (R61): HQC encapsulation. -/
  | hqcEncaps (job : Nat)
  /-- HQC_DECAPS (R61): HQC decapsulation. -/
  | hqcDecaps (job : Nat)
  /-- MCELIECE_KEYGEN (R62): Classic McEliece key generation binding all eight VCs of a cluster. -/
  | mcelieceKeygen (job : Nat)
  /-- MCELIECE_ENCAPS (R61): Classic McEliece encapsulation. -/
  | mcelieceEncaps (job : Nat)
  /-- MCELIECE_DECAPS (R61): Classic McEliece decapsulation. -/
  | mcelieceDecaps (job : Nat)
  /-- RSA_PSS_SIGN (R63): RSA-PSS signing on a LIE. -/
  | rsaPssSign (job : Nat)
  /-- RSA_PSS_VERIFY (R63): RSA-PSS verification. -/
  | rsaPssVerify (job : Nat)
  /-- RSA_PKCS1_SIGN (R63): PKCS#1 v1.5 signing. -/
  | rsaPkcs1Sign (job : Nat)
  /-- RSA_PKCS1_VERIFY (R63): PKCS#1 v1.5 verification. -/
  | rsaPkcs1Verify (job : Nat)
  /-- RSA_OAEP_DECRYPT (R63): OAEP decryption, ENCODING_INVALID after full time on decoding failure. -/
  | rsaOaepDecrypt (job : Nat)
  /-- RSA_OAEP_ENCRYPT (R63): OAEP encryption. -/
  | rsaOaepEncrypt (job : Nat)
  /-- EC_KEYGEN (R64): Elliptic-curve key generation. -/
  | ecKeygen (job : Nat)
  /-- EC_SIGN (R64): ECDSA or EdDSA signing. -/
  | ecSign (job : Nat)
  /-- EC_VERIFY (R64): ECDSA or EdDSA verification. -/
  | ecVerify (job : Nat)
  /-- EC_DERIVE (R64): ECDH or X-function derivation storing a generic secret. -/
  | ecDerive (job : Nat)
  /-- HYBRID_KEYGEN (R65): Generates a hybrid key pair on a VC and LIE together. -/
  | hybridKeygen (job : Nat)
  /-- HYBRID_ENCAPS_OR_SIGN (R66): Hybrid encapsulation or signing. -/
  | hybridEncapsOrSign (job : Nat)
  /-- HYBRID_DECAPS_OR_VERIFY (R66): Hybrid decapsulation or verification. -/
  | hybridDecapsOrVerify (job : Nat)
  /-- GENERATE_SECRET_KEY (R67): Generates a secret key of the target's type. -/
  | generateSecretKey (job : Nat)
  /-- KEY_IMPORT (R323): Imports a wrapped key through the TI's import key by the steps of Table 11.2. -/
  | keyImport (job : Nat)
  /-- EXPORT_WRAPPED (R325): Exports a key's stored form wrapped under an AES key with wrap only. -/
  | exportWrapped (job : Nat)
  /-- KMAC_DERIVE (R67): Derives a new key with KMAC256 from a label and context. -/
  | kmacDerive (job : Nat)
  /-- DELETE_AND_ZEROISE (R50): Zeroises a key at its release point. -/
  | deleteAndZeroise (job : Nat)
  /-- READ_PUBLIC_KEY (R67): Returns the public key of a private key or of the import key. -/
  | readPublicKey (job : Nat)
  /-- MAKE_PUBLIC_KEY_RESIDENT (R67): Validates a public key and makes it resident. -/
  | makePublicKeyResident (job : Nat)
  /-- KEY_INFORMATION (R50): Returns a key's 16-byte information record. -/
  | keyInformation (job : Nat)
  /-- RANDOM_BYTES (R68): Returns random bytes from the die DRBG. -/
  | randomBytes (job : Nat)
  /-- RANDOM_BYTES_PR (R362): Returns random bytes after a reseed with a fresh seed. -/
  | randomBytesPr (job : Nat)
  /-- ATTESTATION_QUOTE (R333): Assembles and signs an attestation quote with the identity key on die 0. -/
  | attestationQuote (job : Nat)
  /-- INSTALL_NEXT_STREAM_KEY (R291): Installs or replaces a stream's next key with its promotion time. -/
  | installNextStreamKey (job : Nat)
  /-- REPLACE_CURRENT_STREAM_KEY (R291): Replaces a stream's current key at once. -/
  | replaceCurrentStreamKey (job : Nat)
  /-- OWNER_KERNEL_CALL (R230): Stages the inputs and runs an owner kernel entry point. -/
  | ownerKernelCall (job : Nat)
  /-- VADD (R179): Elementwise add. -/
  | vadd (vc : Nat) (f : VFields)
  /-- VSUB (R179): Elementwise subtract. -/
  | vsub (vc : Nat) (f : VFields)
  /-- VAND (R179): Bitwise AND. -/
  | vand (vc : Nat) (f : VFields)
  /-- VOR (R179): Bitwise OR. -/
  | vor (vc : Nat) (f : VFields)
  /-- VXOR (R179): Bitwise XOR. -/
  | vxor (vc : Nat) (f : VFields)
  /-- VANDN (R179): VA AND NOT VB. -/
  | vandn (vc : Nat) (f : VFields)
  /-- VMINU (R179): Unsigned minimum. -/
  | vminu (vc : Nat) (f : VFields)
  /-- VMAXU (R179): Unsigned maximum. -/
  | vmaxu (vc : Nat) (f : VFields)
  /-- VMIN (R179): Signed minimum. -/
  | vmin (vc : Nat) (f : VFields)
  /-- VMAX (R179): Signed maximum. -/
  | vmax (vc : Nat) (f : VFields)
  /-- VNEG (R179): Negation. -/
  | vneg (vc : Nat) (f : VFields)
  /-- VSEL (R179): Select by predicate. -/
  | vsel (vc : Nat) (f : VFields)
  /-- VADDI (R179): Add an immediate. -/
  | vaddi (vc : Nat) (f : VFields)
  /-- VSLL (R179): Shift left by an immediate. -/
  | vsll (vc : Nat) (f : VFields)
  /-- VSRL (R179): Logical shift right by an immediate. -/
  | vsrl (vc : Nat) (f : VFields)
  /-- VSRA (R179): Arithmetic shift right by an immediate. -/
  | vsra (vc : Nat) (f : VFields)
  /-- VROL (R179): Rotate left by an immediate. -/
  | vrol (vc : Nat) (f : VFields)
  /-- VSLLV (R179): Shift left by element. -/
  | vsllv (vc : Nat) (f : VFields)
  /-- VSRLV (R179): Logical shift right by element. -/
  | vsrlv (vc : Nat) (f : VFields)
  /-- VSRAV (R179): Arithmetic shift right by element. -/
  | vsrav (vc : Nat) (f : VFields)
  /-- VROLV (R179): Rotate left by element. -/
  | vrolv (vc : Nat) (f : VFields)
  /-- VCEQ (R179): Compare equal to a predicate. -/
  | vceq (vc : Nat) (f : VFields)
  /-- VCNE (R179): Compare not equal. -/
  | vcne (vc : Nat) (f : VFields)
  /-- VCLTU (R179): Compare unsigned less than. -/
  | vcltu (vc : Nat) (f : VFields)
  /-- VCGEU (R179): Compare unsigned greater or equal. -/
  | vcgeu (vc : Nat) (f : VFields)
  /-- VCLT (R179): Compare signed less than. -/
  | vclt (vc : Nat) (f : VFields)
  /-- VCGE (R179): Compare signed greater or equal. -/
  | vcge (vc : Nat) (f : VFields)
  /-- VMULL (R179): Low bits of the product. -/
  | vmull (vc : Nat) (f : VFields)
  /-- VMULHU (R179): High bits of the unsigned product. -/
  | vmulhu (vc : Nat) (f : VFields)
  /-- VMULHS (R179): High bits of the signed product. -/
  | vmulhs (vc : Nat) (f : VFields)
  /-- VMULWEU (R179): Widening unsigned multiply of even elements. -/
  | vmulweu (vc : Nat) (f : VFields)
  /-- VMULWOU (R179): Widening unsigned multiply of odd elements. -/
  | vmulwou (vc : Nat) (f : VFields)
  /-- VMULWES (R179): Widening signed multiply of even elements. -/
  | vmulwes (vc : Nat) (f : VFields)
  /-- VMULWOS (R179): Widening signed multiply of odd elements. -/
  | vmulwos (vc : Nat) (f : VFields)
  /-- VMACL (R179): Multiply-accumulate of the low bits. -/
  | vmacl (vc : Nat) (f : VFields)
  /-- VDOT4B (R180): Unsigned 4-way byte dot product. -/
  | vdot4b (vc : Nat) (f : VFields)
  /-- VDOT4BS (R180): Signed 4-way byte dot product. -/
  | vdot4bs (vc : Nat) (f : VFields)
  /-- VDOT2H (R180): Unsigned 2-way halfword dot product. -/
  | vdot2h (vc : Nat) (f : VFields)
  /-- VDOT2HS (R180): Signed 2-way halfword dot product. -/
  | vdot2hs (vc : Nat) (f : VFields)
  /-- VDOT4H (R180): Unsigned 4-way halfword dot product into 64 bits. -/
  | vdot4h (vc : Nat) (f : VFields)
  /-- VDOT4HS (R180): Signed 4-way halfword dot product into 64 bits. -/
  | vdot4hs (vc : Nat) (f : VFields)
  /-- VCLMUL (R180): Carry-less multiply into a register pair. -/
  | vclmul (vc : Nat) (f : VFields)
  /-- VCLMULX (R180): Carry-less multiply XOR-accumulated. -/
  | vclmulx (vc : Nat) (f : VFields)
  /-- VPERMV (R181): Permute by an index vector. -/
  | vpermv (vc : Nat) (f : VFields)
  /-- VSLIDEUP (R181): Slide up by an immediate. -/
  | vslideup (vc : Nat) (f : VFields)
  /-- VSLIDEUPS (R181): Slide up by a scalar. -/
  | vslideups (vc : Nat) (f : VFields)
  /-- VSLIDEDN (R181): Slide down by an immediate. -/
  | vslidedn (vc : Nat) (f : VFields)
  /-- VSLIDEDNS (R181): Slide down by a scalar. -/
  | vslidedns (vc : Nat) (f : VFields)
  /-- VBCAST (R181): Broadcast one element. -/
  | vbcast (vc : Nat) (f : VFields)
  /-- VZIPLO (R181): Interleave the low halves. -/
  | vziplo (vc : Nat) (f : VFields)
  /-- VZIPHI (R181): Interleave the high halves. -/
  | vziphi (vc : Nat) (f : VFields)
  /-- VUNZIPE (R181): De-interleave even elements. -/
  | vunzipe (vc : Nat) (f : VFields)
  /-- VUNZIPO (R181): De-interleave odd elements. -/
  | vunzipo (vc : Nat) (f : VFields)
  /-- VTR32 (R181): 32 × 32 bit transpose. -/
  | vtr32 (vc : Nat) (f : VFields)
  /-- VTR8 (R181): 8 × 8 bit transpose in each 64-bit element. -/
  | vtr8 (vc : Nat) (f : VFields)
  /-- VPOPC (R181): Population count. -/
  | vpopc (vc : Nat) (f : VFields)
  /-- VBREV (R181): Bit reversal. -/
  | vbrev (vc : Nat) (f : VFields)
  /-- VBITSEL (R181): Bitwise select. -/
  | vbitsel (vc : Nat) (f : VFields)
  /-- VMOV (R181): Register move. -/
  | vmov (vc : Nat) (f : VFields)
  /-- VMOVI (R181): Broadcast an immediate. -/
  | vmovi (vc : Nat) (f : VFields)
  /-- VMOVS (R181): Broadcast a scalar. -/
  | vmovs (vc : Nat) (f : VFields)
  /-- VEXT (R181): Extract an element to a scalar. -/
  | vext (vc : Nat) (f : VFields)
  /-- VINS (R181): Insert a scalar into an element. -/
  | vins (vc : Nat) (f : VFields)
  /-- VZERO (R189): Zero a register and clear its tag. -/
  | vzero (vc : Nat) (f : VFields)
  /-- PAND (R181): Predicate AND. -/
  | pand (vc : Nat) (f : VFields)
  /-- POR (R181): Predicate OR. -/
  | por (vc : Nat) (f : VFields)
  /-- PXOR (R181): Predicate XOR. -/
  | pxor (vc : Nat) (f : VFields)
  /-- PNOT (R181): Predicate NOT. -/
  | pnot (vc : Nat) (f : VFields)
  /-- PSET (R181): Set the first IMM elements active. -/
  | pset (vc : Nat) (f : VFields)
  /-- PCNT (R181): Count active elements. -/
  | pcnt (vc : Nat) (f : VFields)
  /-- QSET (R182): Load a modulus and compute its constants. -/
  | qset (vc : Nat) (f : VFields)
  /-- QRD (R182): Read a modulus-register field. -/
  | qrd (vc : Nat) (f : VFields)
  /-- MADD (R183): Modular add. -/
  | madd (vc : Nat) (f : VFields)
  /-- MSUB (R183): Modular subtract. -/
  | msub (vc : Nat) (f : VFields)
  /-- MNEG (R183): Modular negate. -/
  | mneg (vc : Nat) (f : VFields)
  /-- MRED (R183): Barrett reduction. -/
  | mred (vc : Nat) (f : VFields)
  /-- MMULM (R183): Montgomery multiply. -/
  | mmulm (vc : Nat) (f : VFields)
  /-- MMULB (R183): Barrett multiply. -/
  | mmulb (vc : Nat) (f : VFields)
  /-- MTOM (R183): Convert to Montgomery form. -/
  | mtom (vc : Nat) (f : VFields)
  /-- MFROMM (R183): Convert from Montgomery form. -/
  | mfromm (vc : Nat) (f : VFields)
  /-- MCSUB (R183): Conditional subtract of q. -/
  | mcsub (vc : Nat) (f : VFields)
  /-- MCENTER (R183): Centred reduction. -/
  | mcenter (vc : Nat) (f : VFields)
  /-- BFCT (R184): Cooley-Tukey butterfly across registers. -/
  | bfct (vc : Nat) (f : VFields)
  /-- BFGS (R184): Gentleman-Sande butterfly across registers. -/
  | bfgs (vc : Nat) (f : VFields)
  /-- BFCTI (R184): In-register Cooley-Tukey butterfly. -/
  | bfcti (vc : Nat) (f : VFields)
  /-- BFGSI (R184): In-register Gentleman-Sande butterfly. -/
  | bfgsi (vc : Nat) (f : VFields)
  /-- S2INIT (R185): Initialise a SHA-2 compressor. -/
  | s2init (vc : Nat) (f : VFields)
  /-- S2ABS (R185): Absorb bytes into a SHA-2 compressor. -/
  | s2abs (vc : Nat) (f : VFields)
  /-- S2FIN (R259): Pad, finish and write the SHA-2 digest, then restart silently. -/
  | s2fin (vc : Nat) (f : VFields)
  /-- S2LDS (R257): Load a SHA-2 midstate and count. -/
  | s2lds (vc : Nat) (f : VFields)
  /-- S2STS (R185): Store a SHA-2 midstate. -/
  | s2sts (vc : Nat) (f : VFields)
  /-- KINIT (R185): Initialise a Keccak unit in a mode. -/
  | kinit (vc : Nat) (f : VFields)
  /-- KABS (R185): Absorb bytes into a Keccak unit. -/
  | kabs (vc : Nat) (f : VFields)
  /-- KFIN (R259): Pad and permute a Keccak unit. -/
  | kfin (vc : Nat) (f : VFields)
  /-- KSQZ (R185): Squeeze bytes from a Keccak unit. -/
  | ksqz (vc : Nat) (f : VFields)
  /-- KPERM (R185): Apply Keccak-f[1600] to the raw state. -/
  | kperm (vc : Nat) (f : VFields)
  /-- KLDS (R185): Load a Keccak state. -/
  | klds (vc : Nat) (f : VFields)
  /-- KSTS (R185): Store a Keccak state. -/
  | ksts (vc : Nat) (f : VFields)
  /-- AKEY (R185): Load and expand an AES key. -/
  | akey (vc : Nat) (f : VFields)
  /-- AENC (R185): AES-ECB encrypt 32 blocks. -/
  | aenc (vc : Nat) (f : VFields)
  /-- ADEC (R185): AES-ECB decrypt 32 blocks. -/
  | adec (vc : Nat) (f : VFields)
  /-- ACTR (R185): AES counter-mode keystream. -/
  | actr (vc : Nat) (f : VFields)
  /-- MRD (R185): Read 4,096 fresh mask bits. -/
  | mrd (vc : Nat) (f : VFields)
  /-- MSTAT (R185): Read the MGEN status. -/
  | mstat (vc : Nat) (f : VFields)
  /-- HASH_UNIT_COMPLETE (R185): A unit operation that runs beside the datapath finishes and frees its unit. -/
  | hashUnitComplete (vc : Nat) (unit : Nat)
  /-- TAGV (R191): Set T on a vector register. -/
  | tagv (vc : Nat) (f : VFields)
  /-- TAGS (R191): Set T on a scalar register. -/
  | tags (vc : Nat) (f : VFields)
  /-- TAGRD (R191): Read a register's tag state. -/
  | tagrd (vc : Nat) (f : VFields)
  /-- SPLIT (R191): Share a value into a new share group. -/
  | split (vc : Nat) (f : VFields)
  /-- REFRESH (R192): Refresh a share set, or raise two shares to three. -/
  | refresh (vc : Nat) (f : VFields)
  /-- GMULQ (R191): Masked modular multiply gadget. -/
  | gmulq (vc : Nat) (f : VFields)
  /-- GAND (R191): Masked AND gadget. -/
  | gand (vc : Nat) (f : VFields)
  /-- GA2B (R191): Arithmetic-to-Boolean share conversion. -/
  | ga2b (vc : Nat) (f : VFields)
  /-- GB2A (R191): Boolean-to-arithmetic share conversion. -/
  | gb2a (vc : Nat) (f : VFields)
  /-- DECLV (R193): Declassify a vector at a declared site. -/
  | declv (vc : Nat) (f : VFields)
  /-- DECLS (R193): Declassify a scalar at a declared site. -/
  | decls (vc : Nat) (f : VFields)
  /-- VLD (R201): Unit-stride load. -/
  | vld (vc : Nat) (f : VFields)
  /-- VLDS (R201): Strided load. -/
  | vlds (vc : Nat) (f : VFields)
  /-- VLDFF (R202): First-fault load. -/
  | vldff (vc : Nat) (f : VFields)
  /-- VLDSH (R205): Load a share set from blocks with share records. -/
  | vldsh (vc : Nat) (f : VFields)
  /-- VST (R201): Unit-stride store. -/
  | vst (vc : Nat) (f : VFields)
  /-- VSTS (R201): Strided store. -/
  | vsts (vc : Nat) (f : VFields)
  /-- VSTSH (R205): Store a share set with share records. -/
  | vstsh (vc : Nat) (f : VFields)
  /-- VGATHER (R203): Gather, oblivious if the index is tagged. -/
  | vgather (vc : Nat) (f : VFields)
  /-- VSCATTER (R203): Scatter, oblivious if the index is tagged. -/
  | vscatter (vc : Nat) (f : VFields)
  /-- KEYLOAD (R206): Load a key chunk as a share group or a public register. -/
  | keyload (vc : Nat) (f : VFields)
  /-- SLD (R201): Scalar load. -/
  | sld (vc : Nat) (f : VFields)
  /-- SST (R201): Scalar store. -/
  | sst (vc : Nat) (f : VFields)
  /-- SADD (R207): Scalar add. -/
  | sadd (vc : Nat) (f : VFields)
  /-- SSUB (R207): Scalar subtract. -/
  | ssub (vc : Nat) (f : VFields)
  /-- SAND (R207): Scalar AND. -/
  | sand (vc : Nat) (f : VFields)
  /-- SOR (R207): Scalar OR. -/
  | sor (vc : Nat) (f : VFields)
  /-- SXOR (R207): Scalar XOR. -/
  | sxor (vc : Nat) (f : VFields)
  /-- SSLL (R207): Scalar shift left. -/
  | ssll (vc : Nat) (f : VFields)
  /-- SSRL (R207): Scalar logical shift right. -/
  | ssrl (vc : Nat) (f : VFields)
  /-- SSRA (R207): Scalar arithmetic shift right. -/
  | ssra (vc : Nat) (f : VFields)
  /-- SMUL (R207): Scalar multiply. -/
  | smul (vc : Nat) (f : VFields)
  /-- SADDI (R207): Scalar add immediate. -/
  | saddi (vc : Nat) (f : VFields)
  /-- SLUI (R207): Place an immediate in a 16-bit field. -/
  | slui (vc : Nat) (f : VFields)
  /-- SLTU (R207): Scalar unsigned set-less-than. -/
  | sltu (vc : Nat) (f : VFields)
  /-- SLT (R207): Scalar signed set-less-than. -/
  | slt (vc : Nat) (f : VFields)
  /-- B (R207): Unconditional branch. -/
  | branch (vc : Nat) (f : VFields)
  /-- BEQZ (R208): Branch if zero. -/
  | beqz (vc : Nat) (f : VFields)
  /-- BNEZ (R208): Branch if not zero. -/
  | bnez (vc : Nat) (f : VFields)
  /-- BLTZ (R208): Branch if negative. -/
  | bltz (vc : Nat) (f : VFields)
  /-- BGEZ (R208): Branch if not negative. -/
  | bgez (vc : Nat) (f : VFields)
  /-- LOOP (R208): Decrement and branch if non-zero. -/
  | loopOp (vc : Nat) (f : VFields)
  /-- CALL (R208): Push the return address and branch. -/
  | callOp (vc : Nat) (f : VFields)
  /-- RET (R208): Pop and return. -/
  | retOp (vc : Nat) (f : VFields)
  /-- YIELD (R209): Yield point; saves the job if a pre-emption request is pending. -/
  | yieldOp (vc : Nat) (f : VFields)
  /-- END (R211): Ends the entry with a status and a result length. -/
  | endOp (vc : Nat) (f : VFields)
  /-- FENCE (R207): Waits until no unit instruction runs. -/
  | fence (vc : Nat) (f : VFields)
  /-- NOP (R207): No operation. -/
  | nop (vc : Nat) (f : VFields)
  /-- SPARAM (R207): Read a job parameter into a scalar. -/
  | sparam (vc : Nat) (f : VFields)
  /-- YIELD_INTERVAL_EXCEEDED (R210): A pre-emptible owner kernel's count since its last yield point reaches 3,000 cycles
  and it takes a kernel fault. -/
  | yieldIntervalExceeded (vc : Nat)
  /-- DECLARED_COUNT_PASSED (R211): An owner-kernel job passes its declared cycle count and event 0x8204 is written. -/
  | declaredCountPassed (vc : Nat)
  /-- RUN_LIMIT_REACHED (R211): An owner-kernel job reaches four times its declared count and takes a kernel fault. -/
  | runLimitReached (vc : Nat)
  /-- MGEN_BLOCK (R187): Every 24 sequencer cycles the MGEN produces a 1,088-bit block into the mask buffer unless it is
  full. -/
  | mgenBlock (vc : Nat) (dt : Nat)
  /-- MGEN_RESEED_REQUEST (R188): After 64,512 blocks the MGEN requests its next seed from the die DRBG. -/
  | mgenReseedRequest (vc : Nat)
  /-- MGEN_SEED_APPLY (R188): At 65,536 blocks the MGEN applies the new seed, or stalls and records 0x8104. -/
  | mgenSeedApply (vc : Nat)
  /-- MGEN_SEED_ARRIVAL (R188): A requested seed arrives and a stalled MGEN resumes. -/
  | mgenSeedArrival (vc : Nat)
  /-- CONTROL_STORE_SCRUB (R216): Once in 64 fetch-free cycles a control-store word is read and its parity checked. -/
  | controlStoreScrub (vc : Nat) (cause : Nat) (groups : Nat) (addr : Nat)
  /-- CONTROL_STORE_RELOAD_DONE (R218): A control-store reload from the golden copy completes and the core returns to
  dispatch or is retired. -/
  | controlStoreReloadDone (vc : Nat) (good : Bool) (corrected : Nat) (bad : Nat) (dt : Nat)
  /-- KERNEL_STORE_REWRITE_DONE (R217): The kernel store is rewritten from the MP's copies after an uncorrectable error. -/
  | kernelStoreRewriteDone (vc : Nat) (dt : Nat)
  /-- GOLDEN_COPY_REWRITE_DONE (R219): The die agent rewrites a golden copy after an uncorrectable word and waiting
  reloads proceed. -/
  | goldenCopyRewriteDone (cluster : Nat) (dt : Nat)
  /-- KERNEL_STAGE_OPEN (R227): Opens the kernel stage area, discarding any earlier image. -/
  | kernelStageOpen
  /-- KERNEL_STAGE_DATA (R227): Appends image data in ascending offsets while DGE channel 1 measures it. -/
  | kernelStageData
  /-- KERNEL_COMMIT (R228): Checks, verifies and installs a staged kernel into every kernel store. -/
  | kernelCommit
  /-- KERNEL_REMOVE (R229): Makes a kernel uncallable and zeroises it after its running calls end. -/
  | kernelRemove
  /-- KERNEL_QUERY (R226): Returns a kernel's header and measurement. -/
  | kernelQuery
  /-- LIE_COMPLETION (R246): A LIE command passes K or refuses in V and raises its completion interrupt to the dispatcher. -/
  | lieCompletion (engine : Nat) (pass : Bool) (dt : Nat)
  /-- LIE_CLEAR_DONE (R247): A LIE finishes clearing a job's slots and returns to idle. -/
  | lieClearDone (engine : Nat) (dt : Nat)
  /-- LIE_ECC_UNCORRECTABLE (R250): An uncorrectable operand-memory word clears the job or takes the engine out for a
  table rewrite. -/
  | lieEccUncorrectable (engine : Nat) (slot : Nat) (word : Nat) (single : Bool)
  /-- LIE_TABLES_REWRITTEN (R250): The MP finishes rewriting the public tables and the engine returns to dispatch. -/
  | lieTablesRewritten (engine : Nat) (good : Bool) (dt : Nat)
  /-- LIE_SLOT_WORDS_WRITE (R252): A write of SLOT_WORDS in idle DIAG clears every slot and changes the slot length. -/
  | lieSlotWordsWrite (master : Master) (engine : Nat) (value : Nat)
  /-- DIRECT_RSA_PRIVATE (R253): Direct command 0x01 runs an RSA private operation on the slot positions. -/
  | directRsaPrivate (master : Master) (engine : Nat) (size : Nat) (base : Nat)
  /-- DIRECT_RSA_PUBLIC (R253): Direct command 0x02 runs an RSA public operation. -/
  | directRsaPublic (master : Master) (engine : Nat) (size : Nat) (base : Nat)
  /-- DIRECT_ECDSA_KEYGEN (R253): Direct command 0x11. -/
  | directEcdsaKeygen (master : Master) (engine : Nat) (size : Nat) (base : Nat)
  /-- DIRECT_ECDSA_SIGN (R253): Direct command 0x12. -/
  | directEcdsaSign (master : Master) (engine : Nat) (size : Nat) (base : Nat)
  /-- DIRECT_ECDSA_VERIFY (R253): Direct command 0x13. -/
  | directEcdsaVerify (master : Master) (engine : Nat) (size : Nat) (base : Nat)
  /-- DIRECT_ECDH (R253): Direct command 0x14. -/
  | directEcdh (master : Master) (engine : Nat) (size : Nat) (base : Nat)
  /-- DIRECT_EDDSA_KEYGEN (R253): Direct command 0x21. -/
  | directEddsaKeygen (master : Master) (engine : Nat) (size : Nat) (base : Nat)
  /-- DIRECT_EDDSA_SIGN (R253): Direct command 0x22. -/
  | directEddsaSign (master : Master) (engine : Nat) (size : Nat) (base : Nat)
  /-- DIRECT_EDDSA_VERIFY (R253): Direct command 0x23. -/
  | directEddsaVerify (master : Master) (engine : Nat) (size : Nat) (base : Nat)
  /-- DIRECT_X_KEYGEN (R253): Direct command 0x31. -/
  | directXKeygen (master : Master) (engine : Nat) (size : Nat) (base : Nat)
  /-- DIRECT_X_DERIVE (R253): Direct command 0x32. -/
  | directXDerive (master : Master) (engine : Nat) (size : Nat) (base : Nat)
  /-- DIRECT_COMMAND_DONE (R253): A direct command completes and sets LIE_DONE with its status. -/
  | directCommandDone (engine : Nat) (dt : Nat)
  /-- DGE_INIT (R262): DGE_CTL.INIT loads the initial state of FUNC and zeroes the count. -/
  | dgeInit (chan : Nat) (func : Nat)
  /-- DGE_DATA (R262): A write of DGE_DATA absorbs NBYTES + 1 bytes, stalling while the buffer is full, or sets ERR. -/
  | dgeData (chan : Nat) (word : Nat)
  /-- DGE_FIN (R259): DGE_CTL.FIN pads and finishes the digest, advances DGE_FIN_SEQ and restarts. -/
  | dgeFin (chan : Nat)
  /-- DGE_COMPARE (R272): DGE_CMP.GO starts a doubled comparison of the digest and the expected value. -/
  | dgeCompare (chan : Nat) (len : Nat)
  /-- DGE_COMPARE_DONE (R273): 10 ns later both verdict words and DONE are set, and a disagreement is recorded. -/
  | dgeCompareDone (chan : Nat) (faultA : Nat) (faultB : Nat) (dt : Nat)
  /-- SNOOP_SELF_FINISH (R263): The last byte of the bound range is absorbed and the channel finishes by itself. -/
  | snoopSelfFinish (chan : Nat)
  /-- PORT_CONFIG (R276): Sets a port's mode, FEC, role, options and rings. -/
  | portConfig
  /-- PRP_PAIR (R280): Pairs or unpairs two ports as a PRP pair. -/
  | prpPair
  /-- STREAM_CREATE (R286): Creates a stream context on the port's die. -/
  | streamCreate
  /-- STREAM_MODIFY (R288): Changes a context's policies, security ring and window. -/
  | streamModify
  /-- STREAM_SUBSCRIBE (R312): Subscribes or unsubscribes an FRX ring. -/
  | streamSubscribe
  /-- STREAM_DESTROY (R288): Zeroises a context's keys and returns it to its owner's quota. -/
  | streamDestroy
  /-- STREAM_RESET_STATE (R295): Resets a context's replay state. -/
  | streamResetState
  /-- STREAM_CLEAR_KEYS (R292): Zeroises both keys of a context. -/
  | streamClearKeys
  /-- FP_SET_GLOBAL (R312): Sets the frame share, UTC_OFFSET, FRX_MAX_WAIT and TX_SLIP. -/
  | fpSetGlobal
  /-- STREAM_QUERY (R313): Returns a context and its counters, then clears the counters. -/
  | streamQuery
  /-- PORT_QUERY (R312): Returns a port's register block. -/
  | portQuery
  /-- LINK_CHANGE (R276): A port's link comes up or goes down. -/
  | linkChange (port : Nat) (up : Bool) (speed : Nat)
  /-- FRAME_RECEIVED (R282): A frame's last byte reaches the MAC and it is checked, timestamped, parsed, looked up and
  hashed. -/
  | frameReceived (port : Nat) (data : Bytes) (fcsOk : Bool) (lineNs : Nat) (parsed : Extension)
  /-- VERDICT_POST (R298): The verdict is posted with its complement, committing replay state and any key promotion. -/
  | verdictPost (frame : Nat) (disagree : Bool) (dt : Nat)
  /-- FRAME_BUDGET_EXPIRY (R298): A frame's 250 ns budget expires, so its computation is abandoned and it is LATE. -/
  | frameBudgetExpiry (frame : Nat) (dt : Nat)
  /-- FRX_DELIVERY (R301): A frame is written to a subscriber's FRX ring with its entry, index and interrupt, or dropped. -/
  | frxDelivery (frame : Nat) (ring : Nat) (dt : Nat)
  /-- FRX_MAX_WAIT_EXPIRY (R303): A delivery has waited FRX_MAX_WAIT for the host link and is dropped. -/
  | frxMaxWaitExpiry (frame : Nat) (ring : Nat) (dt : Nat)
  /-- PROMOTION_TIME_REACHED (R292): The PHC reaches a next key's promotion time and the key becomes current. -/
  | promotionTimeReached (context : Nat) (dt : Nat)
  /-- FTX_FETCH (R308): The FTX arbiter fetches entries from an FTX ring. -/
  | ftxFetch (entries : List Bytes)
  /-- FTX_FRAME_READ (R309): An FTX frame is read and tagged, or refused with a report CQE. -/
  | ftxFrameRead (frame : Nat) (data : Bytes) (fault : Nat) (dt : Nat)
  /-- FTX_LAUNCH (R309): A tagged frame starts on the wire at its planned time. -/
  | ftxLaunch (frame : Nat) (port : Nat) (dt : Nat)
  /-- TX_SLIP_EXPIRY (R310): A frame cannot start within TX_SLIP of its LAUNCH and is not sent. -/
  | txSlipExpiry (frame : Nat) (port : Nat) (dt : Nat)
  /-- KEY_INFO (R346): Reports a slot's key information. -/
  | keyInfo
  /-- KEY_DELETE (R346): Zeroises an occupied key by administrator command. -/
  | keyDelete
  /-- KEY_MOVE_HOME (R334): Moves every key of a TI to a new key die. -/
  | keyMoveHome
  /-- KEY_PLACE_COPY (R335): Adds or removes a copy of a resident Classic McEliece key. -/
  | keyPlaceCopy
  /-- KEY_SEAL (R330): Returns a sealed blob of a key under K_seal. -/
  | keySeal
  /-- KEY_UNSEAL (R331): Restores a sealed blob into an empty slot. -/
  | keyUnseal
  /-- IMPORT_KEY_ROTATE (R322): Replaces a TI's import key pair and advances its generation. -/
  | importKeyRotate
  /-- ROOT_PROVISION (R328): Creates a new root epoch in the lowest free slot. -/
  | rootProvision
  /-- IDENTITY_READ (R332): Returns the identity public key. -/
  | identityRead
  /-- KS_QUERY (R346): Returns a die's key-store block. -/
  | ksQuery
  /-- KEY_REMASK_PASS (R320): Once per second both shares of every occupied granule are re-randomised, or the pass is
  skipped. -/
  | keyRemaskPass (die : Nat) (dt : Nat)
  /-- KEY_STORE_ECC_LOSS (R321): An uncorrectable key-store error zeroises the whole key and sends a deletion to the
  standby. -/
  | keyStoreEccLoss (ti : Nat) (slot : Nat) (single : Bool)
  /-- DUPLEX_CONFIG (R336): Names the mirror ports and heartbeat and acknowledgement settings. -/
  | duplexConfig
  /-- DUPLEX_PAIR (R337): Starts the pairing handshake as initiator or responder. -/
  | duplexPair
  /-- DUPLEX_UNPAIR (R347): Zeroises the pair record and clears the hold. -/
  | duplexUnpair
  /-- DUPLEX_MIRROR_TI (R339): Marks or unmarks a TI for mirroring. -/
  | duplexMirrorTi
  /-- DUPLEX_PROMOTE (R344): Promotes a standby to ACTIVE. -/
  | duplexPromote
  /-- DUPLEX_DEMOTE (R345): Demotes a package to STANDBY. -/
  | duplexDemote
  /-- DUPLEX_QUERY (R347): Returns the duplex registers. -/
  | duplexQuery
  /-- PAIR_1 (R337): The responder receives the initiator's first handshake message. -/
  | pair1 (link : Nat) (mac : Bytes) (data : Bytes)
  /-- PAIR_2 (R337): The initiator receives and checks the responder's signed message. -/
  | pair2 (link : Nat) (mac : Bytes) (data : Bytes)
  /-- PAIR_3 (R337): The responder receives the initiator's signature and the pair is established. -/
  | pair3 (link : Nat) (mac : Bytes) (data : Bytes)
  /-- PAIRING_TIMEOUT (R337): A handshake not finished within 10 s leaves the package UNPAIRED. -/
  | pairingTimeout (dt : Nat)
  /-- MIRROR_MESSAGE (R338): A mirror message is received, checked, deduplicated and applied. -/
  | mirrorMessage (link : Nat) (seq : Nat) (authentic : Bool) (body : Machine.MirrorBody)
  /-- KEY_PUT (R339): The standby applies a mirrored key write and acknowledges it. -/
  | keyPut (link : Nat) (seq : Nat) (ti : Nat) (slot : Nat) (gen : Nat) (typ : Nat) (usage : Nat) (stored : Bytes)
  /-- MIRROR_ACK (R340): The active receives the standby's acknowledgement and releases the waiting CQE. -/
  | mirrorAck (link : Nat) (seq : Nat) (of_ : Nat) (accepted : Bool)
  /-- MIRROR_ACK_TIMEOUT (R340): ACK_MS passes without an acknowledgement and the pair enters DEGRADED. -/
  | mirrorAckTimeout (dt : Nat)
  /-- SYNC_BEGIN (R342): The standby receives the start of a resync. -/
  | syncBegin (link : Nat) (seq : Nat)
  /-- SYNC_END (R342): The standby deletes unnamed mirrored state and the pair becomes IN_SYNC. -/
  | syncEnd (link : Nat) (seq : Nat)
  /-- HEARTBEAT (R343): Every HB_PERIOD a package sends its role, role epoch and state. -/
  | heartbeat (dt : Nat)
  /-- HEARTBEAT_RECEIVED (R343): A peer heartbeat is received, detecting split or both-standby and starting a resync. -/
  | heartbeatReceived (link : Nat) (seq : Nat) (role : Nat) (epoch : Nat) (state : Nat)
  /-- MIRROR_LINK_LOST (R343): No valid message for HB_MISS periods, so LINK_LOST is entered and automatic promotion may
  follow. -/
  | mirrorLinkLost (dt : Nat)
  /-- PAIR_REKEY (R338): After 2³² messages or 24 hours the pair secret is re-established. -/
  | pairRekey (dt : Nat)
  /-- RNG_QUERY (R370): Returns a die's RNG block. -/
  | rngQuery
  /-- RNG_SET (R370): Sets borrowing, lending, retry and wait limits. -/
  | rngSet
  /-- RNG_BANK (R370): Excludes a bank or readmits it by a fresh start-up test. -/
  | rngBank (fail : Nat)
  /-- ENTROPY_ENABLE (R367): The die agent enables entropy and start-up tests begin. -/
  | entropyEnable (die : Nat)
  /-- STARTUP_TEST_END (R351): The 1,024-sample start-up tests end and failing banks are excluded. -/
  | startupTestEnd (die : Nat) (failRct : Nat) (failApt : Nat)
  /-- BANK_HEALTH_FAILURE (R352): A bank fails a health test, is excluded, and the seed in assembly is discarded. -/
  | bankHealthFailure (die : Nat) (bank : Nat) (test : Nat)
  /-- BANK_RETRY (R353): RNG_RETRY_MS after exclusion a bank is retested, then readmitted or retired. -/
  | bankRetry (die : Nat) (bank : Nat) (fail : Nat) (dt : Nat)
  /-- INTAKE_ROUND (R354): Every 3.5 µs the conditioner takes one word from each ready bank and finishes a seed when the
  credit reaches 768. -/
  | intakeRound (die : Nat) (arrived : List Nat) (dt : Nat)
  /-- DRBG_GENERATE (R361): The DRBG serves the next waiting request in class order. -/
  | drbgGenerate (die : Nat)
  /-- DRBG_RESEED (R360): After 4,096 requests the DRBG reseeds, or stalls if no seed is present. -/
  | drbgReseed (die : Nat)
  /-- BORROWED_SEED_ARRIVAL (R364): A seed lent by a donor die arrives over the KEY class. -/
  | borrowedSeedArrival (die : Nat)
  /-- RANDOM_WAIT_TIMEOUT (R363): A random-input wait exceeds its limit and the consumer fails by its class. -/
  | randomWaitTimeout (die : Nat) (cls : Nat) (job : Nat) (dt : Nat)
  /-- FW_STAGE_OPEN (R393): Erases the target slot for staging. -/
  | fwStageOpen
  /-- FW_STAGE_DATA (R393): Writes image data in ascending offsets. -/
  | fwStageData
  /-- FW_INSTALL (R393): Reads back and verifies the staged slot, answering IN_PROGRESS. -/
  | fwInstall
  /-- FW_INSTALL_DONE (R393): Verification of the staged slot ends and FW_QUERY reports its outcome. -/
  | fwInstallDone (dt : Nat)
  /-- FW_ACTIVATE (R393): Sets PREFERRED to an installed slot and starts a trial. -/
  | fwActivate
  /-- FW_CONFIRM (R393): Clears TRIAL after the trial boot. -/
  | fwConfirm
  /-- FW_ADVANCE_SVN (R395): Raises the OTP security-version counter to the running version. -/
  | fwAdvanceSvn
  /-- FW_QUERY (R396): Returns firmware slot and version state. -/
  | fwQuery
  /-- MODE_ENTER (R387): Requests a mode transition of Table 13.8. -/
  | modeEnter
  /-- DEV_RESET (R372): Writes the response and takes a device reset with cause COMMAND. -/
  | devReset
  /-- DIAG_LIE (R252): Enters or leaves DIAG on an engine. -/
  | diagLie
  /-- DIAG_RNG_CAPTURE (R397): Captures raw bits from a bank in TEST or RETURNED. -/
  | diagRngCapture (bits : Bytes) (fail : Nat)
  /-- DIAG_BIST (R397): Starts a memory built-in test, answering IN_PROGRESS. -/
  | diagBist
  /-- DIAG_BIST_DONE (R397): A memory built-in test ends and its result is kept. -/
  | diagBistDone (bad : Option Nat) (dt : Nat)
  /-- DIAG_RESULT (R396): Returns the last diagnostic result. -/
  | diagResult
  /-- LCS_QUERY (R407): Returns the LCS block. -/
  | lcsQuery
  /-- AUTH_NONCE (R406): Issues a new owner-authentication nonce. -/
  | authNonce
  /-- OWNER_CLAIM (R407): Programs the owner key hash into owner slot 0. -/
  | ownerClaim
  /-- OWNER_SET_KEYS (R408): Programs the kernel and debug key hashes of the current slot. -/
  | ownerSetKeys
  /-- OWNER_TRANSFER (R408): Programs a new owner slot, revokes the current one, zeroises the BBKS share and resets. -/
  | ownerTransfer
  /-- RETURN_AUTHORISE (R409): Sets the volatile return permit. -/
  | returnAuthorise
  /-- DBG_CHALLENGE (R411): Issues a debug challenge over the mailbox. -/
  | dbgChallenge
  /-- DBG_UNLOCK (R411): Checks a debug token and grants its level, locking the key store at level 2 in OWNED. -/
  | dbgUnlock
  /-- DBG_RELOCK (R412): Drops the debug level to 0 over the mailbox. -/
  | dbgRelock
  /-- LCS_TO_TEST (R402): A LCS_REQUEST write naming TEST commits BLANK to TEST and resets. -/
  | lcsToTest (master : Master)
  /-- LCS_TO_SEALED (R402): A LCS_REQUEST write commits TEST to SEALED. -/
  | lcsToSealed (master : Master)
  /-- LCS_TO_OWNED (R402): A LCS_REQUEST write commits SEALED to OWNED. -/
  | lcsToOwned (master : Master)
  /-- LCS_TO_RETURNED (R402): A LCS_REQUEST write commits OWNED to RETURNED with its side effects. -/
  | lcsToReturned (master : Master)
  /-- LCS_TO_SCRAP (R402): A LCS_REQUEST write commits SCRAP, erases and resets. -/
  | lcsToScrap (master : Master)
  /-- TAP_RESET (R410): TRST_N or Test-Logic-Reset selects IDCODE. -/
  | tapReset
  /-- IDCODE (R410): Shifts out the 32-bit identification code. -/
  | idcode
  /-- SAMPLE_PRELOAD (R410): Samples or preloads the boundary. -/
  | samplePreload (bits : Nat) (pins : Nat) (preload : Nat)
  /-- BYPASS (R410): Selects the 1-bit bypass register. -/
  | bypass (bits : Nat) (value : Nat)
  /-- EXTEST (R410): Drives the boundary in TEST and RETURNED. -/
  | extest (bits : Nat) (pins : Nat) (preload : Nat)
  /-- TAP_DBG_CHAL (R410): Issues and shifts out a debug challenge. -/
  | tapDbgChal
  /-- TAP_DBG_TOKEN (R411): Checks a debug token at Update-DR. -/
  | tapDbgToken (token : Bytes)
  /-- TAP_DBG_STATUS (R410): Shifts out DBG_STATE. -/
  | tapDbgStatus
  /-- DBG_ACCESS (R414): Performs a debug-master memory or register access, denied for the regions of Table 14.10. -/
  | dbgAccess (address : Nat) (target : DbgTarget) (write : Bool) (data : Nat)
  /-- TAP_DBG_RELOCK (R412): Drops the debug level to 0 from the TAP. -/
  | tapDbgRelock
  /-- DEBUG_GRANT_EXPIRY (R412): The PHC reaches DBG_EXPIRY and the debug level falls to 0. -/
  | debugGrantExpiry (dt : Nat)
  /-- CASE_SWITCH_OPEN (R418): An armed case switch reads open for 4 AO samples and its condition is present. -/
  | caseSwitchOpen (sw : Nat) (isOpen : Bool)
  /-- LOOP_OPEN (R419): An armed static loop reads open for 4 AO samples. -/
  | loopOpen (loop : Nat) (isOpen : Bool)
  /-- WATERMARK_MISMATCH (R419): A watermark loop bit mismatches, is counted, and a second within eight bits makes the
  condition present. -/
  | watermarkMismatch (loop : Nat) (dt : Nat)
  /-- SUPPLY_WARNING (R416): A supply stays below its warning threshold for 4 ns. -/
  | supplyWarning (rail : Nat) (die : Nat) (mv : Nat)
  /-- OVERVOLTAGE (R416): A supply exceeds 1.10 times its set point for 4 ns. -/
  | overvoltage (rail : Nat) (die : Nat) (mv : Nat)
  /-- VBAT_LOW (R416): VBAT stays below 2.3 V for 1 s. -/
  | vbatLow (mv : Nat)
  /-- TEMPERATURE_LIMIT (R416): A temperature sample falls outside the TEMP_LOW or TEMP_HIGH limit. -/
  | temperatureLimit (sensor : Nat) (c : Int)
  /-- REFCLOCK_FAULT (R416): A reference clock leaves ±2% for 10 µs or glitches. -/
  | refclockFault (clock : Nat) (die : Nat) (kind : Nat)
  /-- AO_XTAL_STOP (R416): The AO crystal stops for 1 ms. -/
  | aoXtalStop (stopped : Bool)
  /-- ALARM_EVALUATION (R424): Every 10 ns pending alarms are latched and answered together with the union of their
  mappings. -/
  | alarmEvaluation (dt : Nat)
  /-- ERASE_COMPLETE (R428): Every die reports its erase done, LOCKDOWN is entered and 0x3060 is written. -/
  | eraseComplete (dt : Nat)
  /-- PROT_ALARM_CLEAR (R424): A W1C write of PROT_ALARM clears a latched bit, which relatches if the condition persists. -/
  | protAlarmClear (mask : Nat)
  /-- BIST_CHANNEL_TEST (R421): A 50 µs stimulus test of one monitor channel ends and passes or fails. -/
  | bistChannelTest (pass : Bool) (dt : Nat)
  /-- F2_SECOND_EVALUATION (R431): After delay D the doubled decision is re-evaluated, and the action follows or LOCKDOWN
  on disagreement. -/
  | f2SecondEvaluation (decision : Nat) (delay : Nat) (agree : Bool) (dt : Nat)
  /-- PROT_QUERY (R432): Returns the protection registers. -/
  | protQuery
  /-- PROT_SET_MAP (R423): Sets a source's response mapping above its floor. -/
  | protSetMap
  /-- PROT_ARM (R420): Arms case switches and loops, seeding watermark loops. -/
  | protArm
  /-- PROT_BIST (R421): Starts a monitor built-in test run. -/
  | protBist
  /-- PROT_F2_SET (R5): Programs the F2 compatibility OTP bit. -/
  | protF2Set
  /-- DKL_DISABLE (R441): Clearing DKL_CTL.EN starts holding later accesses for a rule update. -/
  | dklDisable (deckle : Nat) (writer : Nat)
  /-- DKL_ENABLE (R441): Setting DKL_CTL.EN checks the held accesses under the new rules in arrival order. -/
  | dklEnable (deckle : Nat) (writer : Nat)
  /-- DKL_REGION_WRITE (R441): A region register write takes effect while EN is clear, or is ignored and sets ERR. -/
  | dklRegionWrite (deckle : Nat) (region : Nat) (word : Nat) (value : Nat) (writer : Nat)
  /-- HELD_ACCESS_TIMEOUT (R441): A held access reaches 2 µs and is refused. -/
  | heldAccessTimeout (deckle : Nat) (dt : Nat)
  /-- ACL_QUERY (R444): Returns a deckle's rules and counters. -/
  | aclQuery
  /-- ACL_TEST (R444): Evaluates an access against the rules without moving data. -/
  | aclTest
  /-- ACL_RECORD (R444): Sets whether PF0 refusals are recorded. -/
  | aclRecord
  /-- EVENT_COMMIT (R453): Every 20 ns the intake FIFO commits one event, coalescing, appending, overwriting or dropping
  it. -/
  | eventCommit
  /-- EVR_WINDOW0_READ (R454): A read of EVR_WINDOW0 snapshots the record at the master's cursor. -/
  | evrWindow0Read (master : Master)
  /-- EVR_WINDOW7_READ (R454): A read of EVR_WINDOW7 returns the snapshot and advances the cursor. -/
  | evrWindow7Read (master : Master)
  /-- EVR_QUERY (R458): Returns the channel counts without clearing them. -/
  | evrQuery
  /-- EVR_READ (R454): Returns up to 511 records of a channel. -/
  | evrRead
  /-- EVR_CLEAR (R456): Empties a channel, with OWNER_AUTH for channels 30 and 31. -/
  | evrClear
  /-- EVR_SET (R447): Sets a channel's quota or threshold. -/
  | evrSet
  /-- POWER_CAP_EVALUATION (R476): Every 1 ms the averaged power is compared with the cap and one die is stepped down or
  up. -/
  | powerCapEvaluation (pkg : Nat) (dies : List Nat) (dt : Nat)
  /-- THERMAL_SAMPLE (R477): Every 100 µs sensors are sampled and throttling, THERM_N and recovery are updated. -/
  | thermalSample (temps : List Int) (dt : Nat)
  /-- REGULATOR_SETTLED (R472): READ_VOUT lies within 1% of target and the step-up frequency change follows. -/
  | regulatorSettled (die : Nat) (dt : Nat)
  /-- REGULATOR_TIMEOUT (R472): A regulator does not acknowledge or settle within 1 ms and the die stays at the lower
  point. -/
  | regulatorTimeout (die : Nat) (kind : Nat) (dt : Nat)
  /-- SMBUS_MODE (R480): SMBus command 0x01 returns the mode and HOLD. -/
  | smbusMode (withPec : Bool)
  /-- SMBUS_READY (R480): SMBus command 0x02 returns readiness bits. -/
  | smbusReady (withPec : Bool)
  /-- SMBUS_TEMPERATURE (R480): SMBus command 0x03 returns the highest sensor reading. -/
  | smbusTemperature (withPec : Bool)
  /-- SMBUS_POWER (R480): SMBus command 0x04 returns package power. -/
  | smbusPower (withPec : Bool)
  /-- SMBUS_ALARM_SUMMARY (R480): SMBus command 0x05 returns ALARM_SUMMARY. -/
  | smbusAlarmSummary (withPec : Bool)
  /-- SMBUS_LIFECYCLE (R480): SMBus command 0x06 returns the life-cycle state. -/
  | smbusLifecycle (withPec : Bool)
  /-- SMBUS_FIRMWARE (R480): SMBus command 0x07 returns the firmware version. -/
  | smbusFirmware (withPec : Bool)
  /-- SMBUS_ALERT_RESPONSE (R480): The Alert Response Address is answered and SMB_ALERT_N is released. -/
  | smbusAlertResponse
  /-- VBAT_APPLIED (R469): The backup cell is applied, independently of main power, and the AO domain starts on it with
  its first-application reset values. -/
  | vbatApplied
  /-- PWRGOOD_FALL (R469): PWRGOOD falls and the device is held in reset until it rises again. -/
  | pwrgoodFall
  /-- PPS_OUT_PULSE_END (R170): PPS_WIDTH_MS after its rising edge, PPS_OUT falls. -/
  | ppsOutPulseEnd (dt : Nat)
deriving DecidableEq, Repr

end Sys2Proof
end

