-- ==== Sys2Proof/Decode.lean ====
section
/-!
DEFINITION. The decoder of the table's words. The table gives its rows no bits: a command comes from outside, by a register
access, a pin, a message or a tick, and no word spells one. Log entry 3.
-/

namespace Sys2Proof

/-- The command that a word of the table's bits spells: none. -/
def decodeTableWord (_nbits _w : Nat) : Option Instr := none

end Sys2Proof
end

