-- ==== Sys2Proof/Machine/Bits.lean ====
section
/-!
DEFINITION. Bit fields, byte order and saturation, stated once and used by every other file.
-/

namespace Sys2Proof.Machine

/-- The field at bits `hi` down to `lo` of a word, as a number. -/
def fieldOf (w : RegWord) (hi lo : Nat) : Nat := (w.toNat >>> lo) % 2 ^ (hi + 1 - lo)

/-- The word `w` with the field at bits `hi` down to `lo` holding `v`, cut to the field's width. -/
def withField (w : RegWord) (hi lo v : Nat) : RegWord :=
  (w &&& ~~~(BitVec.ofNat 64 ((2 ^ (hi + 1 - lo) - 1) <<< lo))) |||
    BitVec.ofNat 64 ((v % 2 ^ (hi + 1 - lo)) <<< lo)

/-- Bits `hi` down to `lo` of a number. -/
def natBits (n hi lo : Nat) : Nat := (n >>> lo) % 2 ^ (hi + 1 - lo)

/-- A two's complement number of `w` bits, read as an integer. -/
def signedOf (w n : Nat) : Int :=
  if n % 2 ^ w < 2 ^ (w - 1) then ((n % 2 ^ w : Nat) : Int) else ((n % 2 ^ w : Nat) : Int) - ((2 ^ w : Nat) : Int)

/-- An integer as a two's complement number of `w` bits. -/
def unsignedOf (w : Nat) (i : Int) : Nat := (i % ((2 ^ w : Nat) : Int)).toNat

/-- `a + b`, held at `top` (the saturating counters of every chapter). -/
def satAdd (top a b : Nat) : Nat := min top (a + b)

/-- The little-endian number that a string of bytes spells. -/
def leNat : Bytes → Nat
  | [] => 0
  | b :: bs => b.toNat + 256 * leNat bs

/-- The big-endian number that a string of bytes spells. -/
def beNat (bs : Bytes) : Nat := bs.foldl (fun a b => a * 256 + b.toNat) 0

/-- `k` little-endian bytes of a number. -/
def leBytes : Nat → Nat → Bytes
  | 0, _ => []
  | k + 1, n => BitVec.ofNat 8 n :: leBytes k (n / 256)

/-- `k` big-endian bytes of a number. -/
def beBytes (k n : Nat) : Bytes := (leBytes k n).reverse

/-- The `n` bytes of a string from offset `o`, zero bytes standing where the string has ended. -/
def sliceZ (bs : Bytes) (o n : Nat) : Bytes :=
  let c := (bs.drop o).take n
  c ++ List.replicate (n - c.length) 0

/-- The little-endian number of `n` bytes at offset `o`. -/
def leAt (bs : Bytes) (o n : Nat) : Nat := leNat (sliceZ bs o n)

/-- Byte `o` of a string, zero beyond its end. -/
def byteAt (bs : Bytes) (o : Nat) : Nat := (bs.getD o 0).toNat

/-- Whether every byte of a string is zero. -/
def allZero (bs : Bytes) : Bool := bs.all (· == 0)

/-- Byte by byte exclusive or, as long as the first string. -/
def xorBytes : Bytes → Bytes → Bytes
  | [], _ => []
  | a :: as, [] => a :: as
  | a :: as, b :: bs => (a ^^^ b) :: xorBytes as bs

/-- A string cut into pieces of `k` bytes, the last one shorter; `fuel` bounds the number of pieces. -/
def chunksOf (k : Nat) : Nat → Bytes → List Bytes
  | 0, _ => []
  | fuel + 1, bs => if bs.isEmpty then [] else bs.take k :: chunksOf k fuel (bs.drop k)

/-- A string cut into pieces of `k` bytes, the last one shorter. -/
def pieces (k : Nat) (bs : Bytes) : List Bytes := chunksOf k (bs.length + 1) bs

/-- `a` rounded up to a multiple of `k`, divided by `k`. -/
def ceilDiv (a k : Nat) : Nat := if k = 0 then 0 else (a + k - 1) / k

/-- A number clamped to a range, as the registers with clamped fields do. -/
def clampNat (lo hi n : Nat) : Nat := if n < lo then lo else if hi < n then hi else n

/-- The number of one bits in the low `n` bits of a number. -/
def popCount : Nat → Nat → Nat
  | 0, _ => 0
  | n + 1, v => v % 2 + popCount n (v / 2)

/-- The position of the lowest one bit among the first `n`, if there is one. -/
def lowestBit (n v : Nat) : Option Nat := (List.range n).find? (fun i => v.testBit i)

end Sys2Proof.Machine
end

