-- ==== Sys2Proof/Machine/Aes.lean ====
section
/-!
DEFINITION. AES of FIPS 197, GCM and GMAC of SP 800-38D, and the key wraps of RFC 3394 and RFC 5649 (R56, R185).
-/

namespace Sys2Proof.Machine

/-- Multiplication by x in the AES field. -/
def xtime (a : Nat) : Nat := if a * 2 ≥ 256 then (a * 2 - 256) ^^^ 0x1B else a * 2

/-- Multiplication in the AES field: the low `n` bits of `b` times `a`. -/
def gfMul : Nat → Nat → Nat → Nat
  | 0, _, _ => 0
  | n + 1, a, b => (if b % 2 = 1 then a else 0) ^^^ gfMul n (xtime a) (b / 2)

/-- The square, repeated `n` times. -/
def gfSq : Nat → Nat → Nat
  | 0, a => a
  | n + 1, a => gfSq n (gfMul 8 a a)

/-- The inverse in the AES field, with 0 its own: the product of the squares a², a⁴ up to a¹²⁸. -/
def gfInv (a : Nat) : Nat := (List.range 7).foldl (fun r i => gfMul 8 r (gfSq (i + 1) a)) 1

/-- Rotation left of a byte. -/
def rotl8 (n x : Nat) : Nat := ((x <<< n) % 256) ||| (x >>> (8 - n))

/-- The S-box. -/
def aesSbox (x : Byte) : Byte :=
  let b := if x.toNat = 0 then 0 else gfInv x.toNat
  BitVec.ofNat 8 (b ^^^ rotl8 1 b ^^^ rotl8 2 b ^^^ rotl8 3 b ^^^ rotl8 4 b ^^^ 0x63)

/-- The inverse S-box. -/
def aesInvSbox (x : Byte) : Byte :=
  let y := x.toNat
  let b := rotl8 1 y ^^^ rotl8 3 y ^^^ rotl8 6 y ^^^ 0x05
  BitVec.ofNat 8 (if b = 0 then 0 else gfInv b)

/-- The round constant number `i`, from 1. -/
def aesRcon : Nat → Nat
  | 0 => 1
  | 1 => 1
  | i + 1 => xtime (aesRcon i)

/-- Four bytes exclusive-ored. -/
def xor4 (a b : Bytes) : Bytes := List.zipWith (· ^^^ ·) a b

/-- The key schedule: `n` more words after those in `acc`, newest first; `nk` key words. -/
def aesExpand (nk : Nat) : Nat → Nat → List Bytes → List Bytes
  | 0, _, acc => acc
  | n + 1, i, acc =>
    let t := acc.headD []
    let t :=
      if i % nk = 0 then
        match (t.drop 1 ++ t.take 1).map aesSbox with
        | [] => []
        | b :: bs => (b ^^^ BitVec.ofNat 8 (aesRcon (i / nk))) :: bs
      else if nk > 6 && i % nk = 4 then t.map aesSbox
      else t
    aesExpand nk n (i + 1) (xor4 (acc.getD (nk - 1) []) t :: acc)

/-- The round keys of a key of 16, 24 or 32 bytes, 16 bytes each. -/
def aesKeys (k : Bytes) : List Bytes :=
  let nk := k.length / 4
  let total := 4 * (nk + 7)
  pieces 16 ((aesExpand nk (total - nk) nk (pieces 4 k).reverse).reverse.flatten)

/-- ShiftRows, `dir` 1 forwards and 3 backwards. -/
def aesShift (dir : Nat) (b : Bytes) : Bytes :=
  (List.range 16).map (fun i => b.getD (((i / 4 + dir * (i % 4)) % 4) * 4 + i % 4) 0)

/-- MixColumns with the coefficients of the first row. -/
def aesMix (cs : List Nat) (b : Bytes) : Bytes :=
  (List.range 16).map (fun i =>
    BitVec.ofNat 8 ((List.range 4).foldl (fun a j =>
      a ^^^ gfMul 8 (b.getD (i / 4 * 4 + j) 0).toNat (cs.getD ((j + 4 - i % 4) % 4) 0)) 0))

/-- Encryption of a block under a key schedule. -/
def aesEncKeys (ks : List Bytes) (b : Bytes) : Bytes :=
  let b := xorBytes b (ks.headD [])
  let mid := (ks.drop 1).dropLast
  let b := mid.foldl (fun b k => xorBytes (aesMix [2, 3, 1, 1] (aesShift 1 (b.map aesSbox))) k) b
  xorBytes (aesShift 1 (b.map aesSbox)) (ks.getLastD [])

/-- Decryption of a block under a key schedule. -/
def aesDecKeys (ks : List Bytes) (b : Bytes) : Bytes :=
  let b := (aesShift 3 (xorBytes b (ks.getLastD []))).map aesInvSbox
  let mid := (ks.drop 1).dropLast.reverse
  let b := mid.foldl (fun b k => (aesShift 3 (aesMix [14, 11, 13, 9] (xorBytes b k))).map aesInvSbox) b
  xorBytes b (ks.headD [])

/-- AES encryption of one block. -/
def aesEnc (k b : Bytes) : Bytes := aesEncKeys (aesKeys k) b

/-- AES decryption of one block. -/
def aesDec (k b : Bytes) : Bytes := aesDecKeys (aesKeys k) b

/-- Multiplication in the field of GHASH, on big-endian 128-bit numbers: the bits of `x` from the top. -/
def ghashMulGo : Nat → Nat → Nat → Nat
  | 0, _, _ => 0
  | n + 1, x, v =>
    (if x.testBit n then v else 0) ^^^
      ghashMulGo n x (if v % 2 = 1 then (v / 2) ^^^ (0xE1 * 2 ^ 120) else v / 2)

/-- The product of two GHASH elements. -/
def ghashMul (x y : Nat) : Nat := ghashMulGo 128 x y

/-- A string padded with zeros to whole blocks of 16. -/
def pad16 (b : Bytes) : Bytes := b ++ List.replicate ((16 - b.length % 16) % 16) 0

/-- GHASH of a string of whole blocks. -/
def ghash (h : Nat) (bs : Bytes) : Nat := (pieces 16 bs).foldl (fun y b => ghashMul (y ^^^ beNat b) h) 0

/-- The counter block of an IV of 12 bytes. -/
def gcmCtr (iv : Bytes) (i : Nat) : Bytes := iv ++ beBytes 4 i

/-- Counter mode from counter `i`. -/
def gcmCrypt (ks : List Bytes) (iv : Bytes) : Nat → List Bytes → Bytes
  | _, [] => []
  | i, b :: bs => xorBytes b (aesEncKeys ks (gcmCtr iv i)) ++ gcmCrypt ks iv (i + 1) bs

/-- The GCM tag of AAD and ciphertext. -/
def gcmTag (ks : List Bytes) (iv aad ct : Bytes) : Bytes :=
  let h := beNat (aesEncKeys ks (List.replicate 16 0))
  let s := ghash h (pad16 aad ++ pad16 ct ++ beBytes 8 (aad.length * 8) ++ beBytes 8 (ct.length * 8))
  xorBytes (beBytes 16 s) (aesEncKeys ks (gcmCtr iv 1))

/-- GCM encryption: ciphertext then tag. -/
def gcmEncrypt (k iv aad pt : Bytes) : Bytes :=
  let ks := aesKeys k
  let ct := gcmCrypt ks iv 2 (pieces 16 pt)
  ct ++ gcmTag ks iv aad ct

/-- GCM decryption of ciphertext then tag: the plaintext when the tag agrees. -/
def gcmDecrypt (k iv aad ctTag : Bytes) : Option Bytes :=
  let ks := aesKeys k
  let n := ctTag.length - 16
  let ct := ctTag.take n
  if gcmTag ks iv aad ct = ctTag.drop n then some (gcmCrypt ks iv 2 (pieces 16 ct)) else none

/-- One pass of RFC 3394 wrapping over the semiblocks: the integrity register, the counter and the semiblocks. -/
def wrapPass (ks : List Bytes) : Bytes → Nat → List Bytes → Bytes × List Bytes
  | a, _, [] => (a, [])
  | a, t, r :: rs =>
    let b := aesEncKeys ks (a ++ r)
    let a' := xorBytes (b.take 8) (beBytes 8 t)
    let (a'', rs') := wrapPass ks a' (t + 1) rs
    (a'', b.drop 8 :: rs')

/-- The six passes of RFC 3394 wrapping. -/
def wrapPasses (ks : List Bytes) (n : Nat) : Nat → Nat → Bytes → List Bytes → Bytes × List Bytes
  | 0, _, a, rs => (a, rs)
  | k + 1, j, a, rs => let (a', rs') := wrapPass ks a (n * j + 1) rs; wrapPasses ks n k (j + 1) a' rs'

/-- The wrapping function W of RFC 3394 on an integrity block and data of at least two semiblocks. -/
def wrapW (k iv pt : Bytes) : Bytes :=
  let rs := pieces 8 pt
  let (a, rs) := wrapPasses (aesKeys k) rs.length 6 0 iv rs
  a ++ rs.flatten

/-- One pass of unwrapping; the semiblocks are given last first. -/
def unwrapPass (ks : List Bytes) : Bytes → Nat → List Bytes → Bytes × List Bytes
  | a, _, [] => (a, [])
  | a, t, r :: rs =>
    let b := aesDecKeys ks (xorBytes a (beBytes 8 t) ++ r)
    let (a', rs') := unwrapPass ks (b.take 8) (t - 1) rs
    (a', b.drop 8 :: rs')

/-- The six passes of unwrapping. -/
def unwrapPasses (ks : List Bytes) (n : Nat) : Nat → Bytes → List Bytes → Bytes × List Bytes
  | 0, a, rs => (a, rs)
  | j + 1, a, rs =>
    let (a', rev) := unwrapPass ks a (n * (j + 1)) rs.reverse
    unwrapPasses ks n j a' rev.reverse

/-- The unwrapping function: the integrity block and the data. -/
def unwrapW (k ct : Bytes) : Bytes × Bytes :=
  let rs := pieces 8 (ct.drop 8)
  let (a, rs) := unwrapPasses (aesKeys k) rs.length 6 (ct.take 8) rs
  (a, rs.flatten)

/-- RFC 3394 wrap. -/
def keyWrap (k pt : Bytes) : Bytes := wrapW k (List.replicate 8 0xA6) pt

/-- RFC 3394 unwrap. -/
def keyUnwrap (k ct : Bytes) : Option Bytes :=
  let (a, p) := unwrapW k ct
  if a = List.replicate 8 0xA6 then some p else none

/-- RFC 5649 wrap with padding. -/
def keyWrapPad (k pt : Bytes) : Bytes :=
  let iv := [0xA6, 0x59, 0x59, 0xA6] ++ beBytes 4 pt.length
  let p := pt ++ List.replicate ((8 - pt.length % 8) % 8) 0
  if p.length ≤ 8 then aesEnc k (iv ++ p) else wrapW k iv p

/-- RFC 5649 unwrap: the data when its header and padding are right. -/
def keyUnwrapPad (k ct : Bytes) : Option Bytes :=
  let (a, p) := if ct.length ≤ 16 then let b := aesDec k ct; (b.take 8, b.drop 8) else unwrapW k ct
  let n := beNat (a.drop 4)
  if a.take 4 = [0xA6, 0x59, 0x59, 0xA6] && n ≤ p.length && p.length < n + 8 && allZero (p.drop n) then
    some (p.take n)
  else none

end Sys2Proof.Machine
end

