-- ==== Sys2Proof/Machine/Keccak.lean ====
section
/-!
DEFINITION. Keccak-f[1600], SHA-3, SHAKE, cSHAKE and KMAC of FIPS 202 and SP 800-185 (R54, R185, R258, R270).
A state is 25 lanes of 64 bits, lane x + 5y.
-/

namespace Sys2Proof.Machine

/-- Rotation left of a 64-bit lane. -/
def rotl64 (n x : Nat) : Nat := if n % 64 = 0 then x else ((x <<< (n % 64)) % 2 ^ 64) ||| (x >>> (64 - n % 64))

/-- One bit of the round-constant sequence: the linear feedback register after `n` steps. -/
def keccakLfsr : Nat → Nat
  | 0 => 1
  | n + 1 => let r := keccakLfsr n * 2; if r ≥ 256 then (r - 256) ^^^ 0x71 else r

/-- The iota constant of round `i`. -/
def keccakRc (i : Nat) : Nat :=
  (List.range 7).foldl (fun a j => if (keccakLfsr (j + 7 * i)) % 2 = 1 then a ||| (1 <<< (2 ^ j - 1)) else a) 0

/-- The rotation offsets of rho, by lane. -/
def keccakRho : List Nat :=
  [0, 1, 62, 28, 27] ++ [36, 44, 6, 55, 20] ++ [3, 10, 43, 25, 39] ++ [41, 45, 15, 21, 8] ++ [18, 2, 61, 56, 14]

/-- One round. -/
def keccakRound (a : List Nat) (rc : Nat) : List Nat :=
  let l := fun x y => a.getD (x % 5 + 5 * (y % 5)) 0
  let c := (List.range 5).map (fun x => l x 0 ^^^ l x 1 ^^^ l x 2 ^^^ l x 3 ^^^ l x 4)
  let d := (List.range 5).map (fun x => c.getD ((x + 4) % 5) 0 ^^^ rotl64 1 (c.getD ((x + 1) % 5) 0))
  let t := (List.range 25).map (fun i => rotl64 (keccakRho.getD i 0) (a.getD i 0 ^^^ d.getD (i % 5) 0))
  let b := (List.range 25).map (fun i => let x := i % 5; let y := i / 5; t.getD ((x + 3 * y) % 5 + 5 * x) 0)
  let g := fun x y => b.getD (x % 5 + 5 * y) 0
  let r := (List.range 25).map (fun i =>
    let x := i % 5; let y := i / 5
    g x y ^^^ ((2 ^ 64 - 1 - g (x + 1) y) &&& g (x + 2) y))
  match r with
  | [] => []
  | h :: rest => (h ^^^ rc) :: rest

/-- Keccak-f[1600]. -/
def keccakF (a : List Nat) : List Nat := (List.range 24).foldl (fun s i => keccakRound s (keccakRc i)) a

/-- The all-zero state. -/
def keccakZero : List Nat := List.replicate 25 0

/-- A block of bytes exclusive-ored into the first lanes. -/
def keccakXor (a : List Nat) (b : Bytes) : List Nat :=
  (List.range 25).map (fun i => a.getD i 0 ^^^ leNat ((b.drop (8 * i)).take 8))

/-- The bytes of a state. -/
def keccakBytes (a : List Nat) : Bytes := a.flatMap (fun x => leBytes 8 x)

/-- Padding to a whole number of rate blocks, after the domain bits `dom`. -/
def keccakPad (rate : Nat) (dom : Nat) (len : Nat) : Bytes :=
  let z := rate - 1 - len % rate
  if z = 0 then [BitVec.ofNat 8 (dom + 0x80)] else BitVec.ofNat 8 dom :: (List.replicate (z - 1) 0 ++ [0x80])

/-- Rate blocks absorbed. -/
def keccakAbsorb (rate : Nat) (a : List Nat) (bs : Bytes) : List Nat :=
  (pieces rate bs).foldl (fun s b => keccakF (keccakXor s b)) a

/-- Output squeezed: `n` rate blocks. -/
def keccakSqueeze (rate : Nat) : Nat → List Nat → Bytes
  | 0, _ => []
  | n + 1, a => (keccakBytes a).take rate ++ keccakSqueeze rate n (keccakF a)

/-- The sponge: `n` output bytes of a message. -/
def sponge (rate dom : Nat) (m : Bytes) (n : Nat) : Bytes :=
  (keccakSqueeze rate (ceilDiv n rate) (keccakAbsorb rate keccakZero (m ++ keccakPad rate dom m.length))).take n

/-- SHA-3 with a digest of `n` bytes. -/
def sha3 (n : Nat) (m : Bytes) : Bytes := sponge (200 - 2 * n) 0x06 m n

/-- SHAKE with security `c` bits (128 or 256). -/
def shake (c : Nat) (m : Bytes) (n : Nat) : Bytes := sponge (200 - c / 4) 0x1F m n

/-- The number of bytes that a number needs, at least one. -/
def byteCount (x : Nat) : Nat := max 1 (ceilDiv (Nat.log2 x + 1) 8)

/-- left_encode of SP 800-185. -/
def leftEncode (x : Nat) : Bytes := BitVec.ofNat 8 (byteCount x) :: beBytes (byteCount x) x

/-- right_encode of SP 800-185. -/
def rightEncode (x : Nat) : Bytes := beBytes (byteCount x) x ++ [BitVec.ofNat 8 (byteCount x)]

/-- encode_string of SP 800-185. -/
def encodeString (s : Bytes) : Bytes := leftEncode (s.length * 8) ++ s

/-- bytepad of SP 800-185. -/
def bytepad (x : Bytes) (w : Nat) : Bytes :=
  let t := leftEncode w ++ x
  t ++ List.replicate ((w - t.length % w) % w) 0

/-- cSHAKE on the two encoded strings N and S, as In1 carries them (Table 02.5). -/
def cshakeEnc (c : Nat) (m ns : Bytes) (n : Nat) : Bytes :=
  if ns = [1, 0, 1, 0] then shake c m n else sponge (200 - c / 4) 0x04 (bytepad ns (200 - c / 4) ++ m) n

/-- cSHAKE of SP 800-185. -/
def cshake (c : Nat) (m nm s : Bytes) (n : Nat) : Bytes := cshakeEnc c m (encodeString nm ++ encodeString s) n

/-- The function name of KMAC. -/
def kmacName : Bytes := [0x4B, 0x4D, 0x41, 0x43]

/-- KMAC of SP 800-185 with security `c` bits and an output of `n` bytes. -/
def kmac (c : Nat) (k x : Bytes) (n : Nat) (s : Bytes) : Bytes :=
  cshake c (bytepad (encodeString k) (200 - c / 4) ++ x ++ rightEncode (n * 8)) kmacName s n

end Sys2Proof.Machine
end

