-- ==== Sys2Proof/Machine/Sha2.lean ====
section
/-!
DEFINITION. The SHA-2 functions of FIPS 180-4 and HMAC of FIPS 198-1, as the hash units and the operations use them
(R54, R185, R268, R269). Words are numbers below 2 to the word size.
-/

namespace Sys2Proof.Machine

/-- The round constants of SHA-512; those of SHA-256 are the upper halves of the first 64. -/
def sha2K : List Nat :=
  [0x428a2f98d728ae22, 0x7137449123ef65cd, 0xb5c0fbcfec4d3b2f, 0xe9b5dba58189dbbc] ++
  [0x3956c25bf348b538, 0x59f111f1b605d019, 0x923f82a4af194f9b, 0xab1c5ed5da6d8118] ++
  [0xd807aa98a3030242, 0x12835b0145706fbe, 0x243185be4ee4b28c, 0x550c7dc3d5ffb4e2] ++
  [0x72be5d74f27b896f, 0x80deb1fe3b1696b1, 0x9bdc06a725c71235, 0xc19bf174cf692694] ++
  [0xe49b69c19ef14ad2, 0xefbe4786384f25e3, 0x0fc19dc68b8cd5b5, 0x240ca1cc77ac9c65] ++
  [0x2de92c6f592b0275, 0x4a7484aa6ea6e483, 0x5cb0a9dcbd41fbd4, 0x76f988da831153b5] ++
  [0x983e5152ee66dfab, 0xa831c66d2db43210, 0xb00327c898fb213f, 0xbf597fc7beef0ee4] ++
  [0xc6e00bf33da88fc2, 0xd5a79147930aa725, 0x06ca6351e003826f, 0x142929670a0e6e70] ++
  [0x27b70a8546d22ffc, 0x2e1b21385c26c926, 0x4d2c6dfc5ac42aed, 0x53380d139d95b3df] ++
  [0x650a73548baf63de, 0x766a0abb3c77b2a8, 0x81c2c92e47edaee6, 0x92722c851482353b] ++
  [0xa2bfe8a14cf10364, 0xa81a664bbc423001, 0xc24b8b70d0f89791, 0xc76c51a30654be30] ++
  [0xd192e819d6ef5218, 0xd69906245565a910, 0xf40e35855771202a, 0x106aa07032bbd1b8] ++
  [0x19a4c116b8d2d0c8, 0x1e376c085141ab53, 0x2748774cdf8eeb99, 0x34b0bcb5e19b48a8] ++
  [0x391c0cb3c5c95a63, 0x4ed8aa4ae3418acb, 0x5b9cca4f7763e373, 0x682e6ff3d6b2b8a3] ++
  [0x748f82ee5defb2fc, 0x78a5636f43172f60, 0x84c87814a1f0ab72, 0x8cc702081a6439ec] ++
  [0x90befffa23631e28, 0xa4506cebde82bde9, 0xbef9a3f7b2c67915, 0xc67178f2e372532b] ++
  [0xca273eceea26619c, 0xd186b8c721c0c207, 0xeada7dd6cde0eb1e, 0xf57d4f7fee6ed178] ++
  [0x06f067aa72176fba, 0x0a637dc5a2c898a6, 0x113f9804bef90dae, 0x1b710b35131c471b] ++
  [0x28db77f523047d84, 0x32caab7b40c72493, 0x3c9ebe0a15c9bebc, 0x431d67c49c100d4c] ++
  [0x4cc5d4becb3e42b6, 0x597f299cfc657e2a, 0x5fcb6fab3ad6faec, 0x6c44198c4a475817]

/-- The initial value of SHA-512; that of SHA-256 is the upper halves. -/
def sha2H512 : List Nat :=
  [0x6a09e667f3bcc908, 0xbb67ae8584caa73b, 0x3c6ef372fe94f82b, 0xa54ff53a5f1d36f1] ++
  [0x510e527fade682d1, 0x9b05688c2b3e6c1f, 0x1f83d9abfb41bd6b, 0x5be0cd19137e2179]

/-- The initial value of SHA-384; that of SHA-224 is the lower halves. -/
def sha2H384 : List Nat :=
  [0xcbbb9d5dc1059ed8, 0x629a292a367cd507, 0x9159015a3070dd17, 0x152fecd8f70e5939] ++
  [0x67332667ffc00b31, 0x8eb44a8768581511, 0xdb0c2e0d64f98fa7, 0x47b5481dbefa4fa4]

/-- The initial value of SHA-512/256. -/
def sha2H512t256 : List Nat :=
  [0x22312194fc2bf72c, 0x9f555fa3c84c64c2, 0x2393b86b6f53b151, 0x963877195940eabd] ++
  [0x96283ee2a88effe3, 0xbe5e1e2553863992, 0x2b0199fc2c85b8aa, 0x0eb72ddc81c52ca2]

/-- The five SHA-2 functions of Table 02.5, in opcode order. -/
inductive Sha2 where
  | sha224 | sha256 | sha384 | sha512 | sha512t256
deriving DecidableEq, Repr

/-- The word size in bits. -/
def Sha2.word : Sha2 → Nat
  | .sha224 | .sha256 => 32
  | _ => 64

/-- The block size in bytes. -/
def Sha2.block (h : Sha2) : Nat := h.word * 2

/-- The digest length in bytes. -/
def Sha2.len : Sha2 → Nat
  | .sha224 => 28 | .sha256 => 32 | .sha384 => 48 | .sha512 => 64 | .sha512t256 => 32

/-- The initial value. -/
def Sha2.init : Sha2 → List Nat
  | .sha224 => sha2H384.map (· % 2 ^ 32)
  | .sha256 => sha2H512.map (· / 2 ^ 32)
  | .sha384 => sha2H384
  | .sha512 => sha2H512
  | .sha512t256 => sha2H512t256

/-- Rotation right of a `w`-bit word. -/
def rotr (w n x : Nat) : Nat := (x >>> n) ||| ((x <<< (w - n)) % 2 ^ w)

/-- The two big and two small sigma functions by word size. -/
def sha2Sigma (w : Nat) (which : Nat) (x : Nat) : Nat :=
  if w = 32 then
    match which with
    | 0 => rotr 32 2 x ^^^ rotr 32 13 x ^^^ rotr 32 22 x
    | 1 => rotr 32 6 x ^^^ rotr 32 11 x ^^^ rotr 32 25 x
    | 2 => rotr 32 7 x ^^^ rotr 32 18 x ^^^ (x >>> 3)
    | _ => rotr 32 17 x ^^^ rotr 32 19 x ^^^ (x >>> 10)
  else
    match which with
    | 0 => rotr 64 28 x ^^^ rotr 64 34 x ^^^ rotr 64 39 x
    | 1 => rotr 64 14 x ^^^ rotr 64 18 x ^^^ rotr 64 41 x
    | 2 => rotr 64 1 x ^^^ rotr 64 8 x ^^^ (x >>> 7)
    | _ => rotr 64 19 x ^^^ rotr 64 61 x ^^^ (x >>> 6)

/-- The message schedule, extended `n` words beyond the sixteen given; the newest word first. -/
def sha2Schedule (w : Nat) : Nat → List Nat → List Nat
  | 0, acc => acc
  | n + 1, acc =>
    let x := sha2Sigma w 3 (acc.getD 1 0) + acc.getD 6 0 + sha2Sigma w 2 (acc.getD 14 0) + acc.getD 15 0
    sha2Schedule w n (x % 2 ^ w :: acc)

/-- One round on the eight working words. -/
def sha2Round (w : Nat) (v : List Nat) (k m : Nat) : List Nat :=
  match v with
  | [a, b, c, d, e, f, g, h] =>
    let ch := (e &&& f) ^^^ ((2 ^ w - 1 - e) &&& g)
    let t1 := h + sha2Sigma w 1 e + ch + k + m
    let t2 := sha2Sigma w 0 a + ((a &&& b) ^^^ (a &&& c) ^^^ (b &&& c))
    [(t1 + t2) % 2 ^ w, a, b, c, (d + t1) % 2 ^ w, e, f, g]
  | _ => v

/-- The rounds of one compression. -/
def sha2Rounds (w : Nat) : List Nat → List Nat → List Nat → List Nat
  | k :: ks, m :: ms, v => sha2Rounds w ks ms (sha2Round w v k m)
  | _, _, v => v

/-- The big-endian words of a block. -/
def blockWords (w : Nat) (b : Bytes) : List Nat := (List.range 16).map (fun i => beNat (sliceZ b (i * (w / 8)) (w / 8)))

/-- One compression of a block into a chaining value. -/
def sha2Compress (w : Nat) (hv : List Nat) (b : Bytes) : List Nat :=
  let n := if w = 32 then 64 else 80
  let ks := if w = 32 then (sha2K.take 64).map (· / 2 ^ 32) else sha2K
  let ms := (sha2Schedule w (n - 16) (blockWords w b).reverse).reverse
  (List.zip hv (sha2Rounds w ks ms hv)).map (fun p => (p.1 + p.2) % 2 ^ w)

/-- The padding of a message of `len` bytes, of which `rest` bytes are not yet absorbed. -/
def sha2Pad (w len : Nat) : Bytes :=
  let blk := w * 2
  let lf := w / 4
  let z := (blk - (len + 1 + lf) % blk) % blk
  0x80 :: (List.replicate z 0 ++ beBytes lf (len * 8))

/-- Whole blocks absorbed. -/
def sha2Absorb (w : Nat) (hv : List Nat) (bs : Bytes) : List Nat := (pieces (w * 2) bs).foldl (sha2Compress w) hv

/-- The bytes of a chaining value. -/
def sha2Out (w : Nat) (hv : List Nat) : Bytes := hv.flatMap (fun x => beBytes (w / 8) x)

/-- The digest of a message that follows `before` bytes already absorbed into `hv`. -/
def sha2Finish (h : Sha2) (hv : List Nat) (before : Nat) (m : Bytes) : Bytes :=
  (sha2Out h.word (sha2Absorb h.word hv (m ++ sha2Pad h.word (before + m.length)))).take h.len

/-- The digest of a message. -/
def sha2 (h : Sha2) (m : Bytes) : Bytes := sha2Finish h h.init 0 m

/-- The key block of HMAC: a key longer than the block is hashed first (R54). -/
def hmacBlock (h : Sha2) (k : Bytes) : Bytes :=
  let k := if h.block < k.length then sha2 h k else k
  k ++ List.replicate (h.block - k.length) 0

/-- HMAC: the full tag. -/
def hmac (h : Sha2) (k m : Bytes) : Bytes :=
  let kb := hmacBlock h k
  sha2 h (kb.map (· ^^^ 0x5C) ++ sha2 h (kb.map (· ^^^ 0x36) ++ m))

end Sys2Proof.Machine
end

