-- ==== Sys2Proof/Machine/Ec.lean ====
section
/-!
DEFINITION. Modular arithmetic and the elliptic curves of Table 02.15: ECDSA and ECDH on the Weierstrass curves,
EdDSA of RFC 8032, and the X functions of RFC 7748 (R64).
-/

namespace Sys2Proof.Machine

/-- `b` to the power of the low `n` bits of `e`, modulo `m`. -/
def powBits : Nat → Nat → Nat → Nat → Nat
  | 0, _, _, m => 1 % m
  | n + 1, b, e, m =>
    let r := powBits n (b * b % m) (e / 2) m
    if e % 2 = 1 then b * r % m else r

/-- The number of bits of a number. -/
def bitLen (n : Nat) : Nat := if n = 0 then 0 else Nat.log2 n + 1

/-- `b` to the power `e` modulo `m`. -/
def powMod (b e m : Nat) : Nat := powBits (bitLen e) (b % m) e m

/-- The inverse modulo a prime. -/
def invPrime (a p : Nat) : Nat := powMod a (p - 2) p

/-- `a - b` modulo `p`. -/
def subMod (a b p : Nat) : Nat := (a % p + (p - b % p)) % p

/-- The curves in the order of Table 02.15. -/
inductive Curve where
  | p256 | p384 | p521 | ed25519 | ed448 | x25519 | x448
deriving DecidableEq, Repr

/-- A curve by its index c. -/
def curveOf : Nat → Option Curve
  | 0 => some .p256 | 1 => some .p384 | 2 => some .p521 | 3 => some .ed25519 | 4 => some .ed448
  | 5 => some .x25519 | 6 => some .x448 | _ => none

/-- The field prime. -/
def Curve.p : Curve → Nat
  | .p256 => 2 ^ 256 - 2 ^ 224 + 2 ^ 192 + 2 ^ 96 - 1
  | .p384 => 2 ^ 384 - 2 ^ 128 - 2 ^ 96 + 2 ^ 32 - 1
  | .p521 => 2 ^ 521 - 1
  | .ed25519 | .x25519 => 2 ^ 255 - 19
  | .ed448 | .x448 => 2 ^ 448 - 2 ^ 224 - 1

/-- The order of the base point. -/
def Curve.n : Curve → Nat
  | .p256 => 0xffffffff00000000ffffffffffffffffbce6faada7179e84f3b9cac2fc632551
  | .p384 => 0xffffffffffffffffffffffffffffffffffffffffffffffffc7634d81f4372ddf581a0db248b0a77aecec196accc52973
  | .p521 => 2 ^ 521 - 657877501894328237357444332315020117536923257219387276263472201219398408051703
  | .ed25519 | .x25519 => 2 ^ 252 + 27742317777372353535851937790883648493
  | .ed448 | .x448 => 2 ^ 446 - 13818066809895115352007386748515426880336692474882178609894547503885

/-- The constant b of a Weierstrass curve. -/
def Curve.b : Curve → Nat
  | .p256 => 0x5ac635d8aa3a93e7b3ebbd55769886bc651d06b0cc53b0f63bce3c3e27d2604b
  | .p384 => 0xb3312fa7e23ee7e4988e056be3f82d19181d9c6efe8141120314088f5013875ac656398d8a2ed19d2a85c8edd3ec2aef
  | .p521 => 0x0051953eb9618e1c9a1f929a21a0b68540eea2da725b99b315f3b8b489918ef109e156193951ec7e937b1652c0bd3bb1bf073573df883d2c34f1ef451fd46b503f00
  | _ => 0

/-- The base point. -/
def Curve.base : Curve → Nat × Nat
  | .p256 => (0x6b17d1f2e12c4247f8bce6e563a440f277037d812deb33a0f4a13945d898c296,
              0x4fe342e2fe1a7f9b8ee7eb4a7c0f9e162bce33576b315ececbb6406837bf51f5)
  | .p384 => (0xaa87ca22be8b05378eb1c71ef320ad746e1d3b628ba79b9859f741e082542a385502f25dbf55296c3a545e3872760ab7,
              0x3617de4a96262c6f5d9e98bf9292dc29f8f41dbd289a147ce9da3113b5f0b8c00a60b1ce1d7e819d7a431d7c90ea0e5f)
  | .p521 => (0x00c6858e06b70404e9cd9e3ecb662395b4429c648139053fb521f828af606b4d3dbaa14b5e77efe75928fe1dc127a2ffa8de3348b3c1856a429bf97e7e31c2e5bd66,
              0x011839296a789a3bc0045c8a5fb42c7d1bd998f54449579b446817afbd17273e662c97ee72995ef42640c550b9013fad0761353c7086a272c24088be94769fd16650)
  | .ed25519 => (15112221349535400772501151409588531511454012693041857206046113283949847762202,
                 46316835694926478169428394003475163141307993866256225615783033603165251855960)
  | .ed448 => (224580040295924300187604334099896036246789641632564134246125461686950415467406032909029192869357953282578032075146446173674602635247710,
               298819210078481492676017930443930673437544040154080242095928241372331506189835876003536878655418784733982303233503462500531545062832660)
  | _ => (0, 0)

/-- Lengths of a coordinate or field element, of the private form and of the public key (Table 02.15). -/
def Curve.fieldLen : Curve → Nat
  | .p256 => 32 | .p384 => 48 | .p521 => 66 | .ed25519 => 32 | .ed448 => 57 | .x25519 => 32 | .x448 => 56

def Curve.pubLen : Curve → Nat
  | .p256 => 65 | .p384 => 97 | .p521 => 133 | .ed25519 => 32 | .ed448 => 57 | .x25519 => 32 | .x448 => 56

/-- Whether the curve is a Weierstrass curve. -/
def Curve.weier : Curve → Bool
  | .p256 | .p384 | .p521 => true
  | _ => false

/-- Addition on a Weierstrass curve with a = −3; `none` is infinity. -/
def wAdd (c : Curve) (u v : Option (Nat × Nat)) : Option (Nat × Nat) :=
  match u, v with
  | none, v => v
  | u, none => u
  | some (x1, y1), some (x2, y2) =>
    let p := c.p
    if x1 = x2 && (y1 + y2) % p = 0 then none
    else
      let l := if x1 = x2 then (3 * x1 * x1 + p - 3) % p * invPrime (2 * y1) p % p
               else subMod y2 y1 p * invPrime (subMod x2 x1 p) p % p
      let x3 := subMod (l * l) (x1 + x2) p
      some (x3, subMod (l * subMod x1 x3 p) y1 p)

/-- The multiple of a point by the low `n` bits of a scalar. -/
def wMul (c : Curve) : Nat → Nat → Option (Nat × Nat) → Option (Nat × Nat)
  | 0, _, _ => none
  | n + 1, k, pt =>
    let r := wMul c n (k / 2) (wAdd c pt pt)
    if k % 2 = 1 then wAdd c pt r else r

/-- A multiple of the base point. -/
def wBase (c : Curve) (k : Nat) : Option (Nat × Nat) := wMul c (bitLen k) k (some c.base)

/-- Whether a point lies on a Weierstrass curve. -/
def onCurve (c : Curve) (x y : Nat) : Bool := (y * y) % c.p == (x * x * x + (c.p - 3) * x + c.b) % c.p

/-- SEC1 uncompressed encoding. -/
def sec1 (c : Curve) : Option (Nat × Nat) → Bytes
  | none => [0]
  | some (x, y) => 4 :: (beBytes c.fieldLen x ++ beBytes c.fieldLen y)

/-- The point that an uncompressed encoding spells. -/
def sec1Point (c : Curve) (b : Bytes) : Nat × Nat :=
  (beNat ((b.drop 1).take c.fieldLen), beNat (b.drop (1 + c.fieldLen)))

/-- A digest as ECDSA uses it: its leftmost bits, as many as n has (R64). -/
def ecdsaHash (c : Curve) (h : Bytes) : Nat :=
  let z := beNat h
  if bitLen c.n < h.length * 8 then z >>> (h.length * 8 - bitLen c.n) else z

/-- An ECDSA signature r ‖ s with nonce `k`. -/
def ecdsaSign (c : Curve) (d k : Nat) (h : Bytes) : Bytes :=
  let r := match wBase c k with
    | none => 0
    | some (x, _) => x % c.n
  let s := invPrime k c.n * (ecdsaHash c h + r * d) % c.n
  beBytes c.fieldLen r ++ beBytes c.fieldLen s

/-- ECDSA verification of r and s already in range. -/
def ecdsaVerify (c : Curve) (q : Nat × Nat) (h : Bytes) (r s : Nat) : Bool :=
  let w := invPrime s c.n
  let u1 := ecdsaHash c h * w % c.n
  let u2 := r * w % c.n
  match wAdd c (wBase c u1) (wMul c (bitLen u2) u2 (some q)) with
  | none => false
  | some (x, _) => x % c.n == r

/-- The constant d of an Edwards curve. -/
def edD (c : Curve) : Nat :=
  if c = .ed25519 then subMod 0 (121665 * invPrime 121666 c.p) c.p else c.p - 39081

/-- The constant a of an Edwards curve. -/
def edA (c : Curve) : Nat := if c = .ed25519 then c.p - 1 else 1

/-- Addition on an Edwards curve. -/
def edAdd (c : Curve) (u v : Nat × Nat) : Nat × Nat :=
  let p := c.p
  let t := edD c * (u.1 * v.1 % p) % p * (u.2 * v.2 % p) % p
  ((u.1 * v.2 + u.2 * v.1) % p * invPrime (1 + t) p % p,
   subMod (u.2 * v.2) (edA c * (u.1 * v.1 % p)) p * invPrime (subMod 1 t p) p % p)

/-- The multiple of a point by the low `n` bits of a scalar. -/
def edMul (c : Curve) : Nat → Nat → Nat × Nat → Nat × Nat
  | 0, _, _ => (0, 1)
  | n + 1, k, pt =>
    let r := edMul c n (k / 2) (edAdd c pt pt)
    if k % 2 = 1 then edAdd c pt r else r

/-- The encoding of a point: y, with the low bit of x on top. -/
def edEncode (c : Curve) (q : Nat × Nat) : Bytes :=
  leBytes c.fieldLen (q.2 + (q.1 % 2) * 2 ^ (8 * c.fieldLen - 1))

/-- A square root modulo the field prime, when there is one. -/
def fieldSqrt (c : Curve) (a : Nat) : Option Nat :=
  let p := c.p
  let r := if p % 4 = 3 then powMod a ((p + 1) / 4) p
           else
             let t := powMod a ((p + 3) / 8) p
             if t * t % p = a % p then t else t * powMod 2 ((p - 1) / 4) p % p
  if r * r % p = a % p then some r else none

/-- The point that an encoding spells; `none` when it is not canonical or spells no point. -/
def edDecode (c : Curve) (b : Bytes) : Option (Nat × Nat) :=
  let p := c.p
  let v := leNat b
  let sgn := v >>> (8 * c.fieldLen - 1)
  let y := v % 2 ^ (8 * c.fieldLen - 1)
  if p ≤ y then none
  else
    let u := subMod (y * y) 1 p
    let w := subMod (edD c * (y * y % p)) (edA c) p
    match fieldSqrt c (u * invPrime w p % p) with
    | none => none
    | some x =>
      if x = 0 then (if sgn = 1 then none else some (0, y))
      else some (if x % 2 = sgn then x else p - x, y)

/-- The hash of EdDSA, twice the encoding long. -/
def edHash (c : Curve) (m : Bytes) : Nat × Bytes :=
  let h := if c = .ed25519 then sha2 .sha512 m
           else shake 256 ([0x53, 0x69, 0x67, 0x45, 0x64, 0x34, 0x34, 0x38, 0, 0] ++ m) 114
  (leNat h, h)

/-- The secret scalar and the prefix of a seed. -/
def edSecret (c : Curve) (seed : Bytes) : Nat × Bytes :=
  let h := if c = .ed25519 then sha2 .sha512 seed else shake 256 seed 114
  let a := leNat (h.take c.fieldLen)
  let a := if c = .ed25519 then 2 ^ 254 + (a % 2 ^ 254) / 8 * 8 else 2 ^ 447 + (a % 2 ^ 447) / 4 * 4
  (a, h.drop c.fieldLen)

/-- The base point's multiple. -/
def edBase (c : Curve) (k : Nat) : Nat × Nat := edMul c (bitLen k) k c.base

/-- The public key of a seed. -/
def edPublic (c : Curve) (seed : Bytes) : Bytes := edEncode c (edBase c (edSecret c seed).1)

/-- An EdDSA signature R ‖ S. -/
def edSign (c : Curve) (seed m : Bytes) : Bytes :=
  let (a, pre) := edSecret c seed
  let pk := edEncode c (edBase c a)
  let r := (edHash c (pre ++ m)).1 % c.n
  let rr := edEncode c (edBase c r)
  let k := (edHash c (rr ++ pk ++ m)).1 % c.n
  rr ++ leBytes c.fieldLen ((r + k * a) % c.n)

/-- EdDSA verification with a decoded key and S below the order. -/
def edVerify (c : Curve) (q : Nat × Nat) (pk m sig : Bytes) : Bool :=
  let rr := sig.take c.fieldLen
  let s := leNat (sig.drop c.fieldLen)
  let k := (edHash c (rr ++ pk ++ m)).1 % c.n
  match edDecode c rr with
  | none => false
  | some r => edBase c s == edAdd c r (edMul c (bitLen k) k q)

/-- Whether a point has small order: its multiple by the cofactor is the identity. -/
def edSmall (c : Curve) (q : Nat × Nat) : Bool := edMul c 4 (if c = .ed25519 then 8 else 4) q == (0, 1)

/-- One step of the Montgomery ladder: the pair of projective points and the base u. -/
def ladderStep (p a24 u : Nat) (s : (Nat × Nat) × (Nat × Nat)) : (Nat × Nat) × (Nat × Nat) :=
  let (x2, z2) := s.1
  let (x3, z3) := s.2
  let a := (x2 + z2) % p
  let b := subMod x2 z2 p
  let aa := a * a % p
  let bb := b * b % p
  let e := subMod aa bb p
  let da := subMod x3 z3 p * a % p
  let cb := (x3 + z3) % p * b % p
  let t := subMod da cb p
  ((aa * bb % p, e * ((aa + a24 * e) % p) % p), ((da + cb) % p * ((da + cb) % p) % p, u * (t * t % p) % p))

/-- The ladder over `n` bits of the scalar from the top. -/
def ladder (p a24 u k : Nat) : Nat → (Nat × Nat) × (Nat × Nat) → (Nat × Nat) × (Nat × Nat)
  | 0, s => s
  | n + 1, s =>
    let s := if k.testBit n then
      let t := ladderStep p a24 u (s.2, s.1)
      (t.2, t.1)
    else ladderStep p a24 u s
    ladder p a24 u k n s

/-- The u-coordinate of a multiple. -/
def xMul (c : Curve) (k u : Nat) : Nat :=
  let p := c.p
  let a24 := if c = .x25519 then 121665 else 39081
  let r := ladder p a24 u k (bitLen k) ((1, 0), (u, 1))
  r.1.1 * invPrime r.1.2 p % p

/-- A scalar as RFC 7748 clamps it. -/
def xClamp (c : Curve) (b : Bytes) : Nat :=
  let k := leNat b
  if c = .x25519 then 2 ^ 254 + (k % 2 ^ 254) / 8 * 8 else 2 ^ 447 + (k % 2 ^ 447) / 4 * 4

/-- The X function. -/
def xFunc (c : Curve) (scalar : Bytes) (u : Nat) : Bytes := leBytes c.fieldLen (xMul c (xClamp c scalar) u)

/-- The public key of an X scalar. -/
def xPublic (c : Curve) (scalar : Bytes) : Bytes := xFunc c scalar (if c = .x25519 then 9 else 5)

/-- Whether a u-coordinate has small order. -/
def xSmall (c : Curve) (u : Nat) : Bool := xMul c (if c = .x25519 then 8 else 4) u == 0

/-- The public key of any elliptic-curve private form (R64). -/
def ecPublic (c : Curve) (priv : Bytes) : Bytes :=
  if c.weier then sec1 c (wBase c (beNat priv))
  else if c = .ed25519 || c = .ed448 then edPublic c priv
  else xPublic c priv

end Sys2Proof.Machine
end

