-- ==== Sys2Proof/Machine/Rsa.lean ====
section
/-!
DEFINITION. RSA of RFC 8017 as R63 offers it: PSS, PKCS#1 v1.5 signatures and OAEP.
-/

namespace Sys2Proof.Machine

/-- The modulus length in bytes by size index (Table 02.14). -/
def rsaK : Nat → Nat
  | 0 => 256 | 1 => 384 | 2 => 512 | _ => 1024

/-- The hash that the hash field selects (Table 02.2). -/
def rsaHash : Nat → Option Sha2
  | 0 => some .sha256 | 1 => some .sha384 | 2 => some .sha512 | _ => none

/-- MGF1: blocks from counter `i`. -/
def mgf1Go (h : Sha2) (seed : Bytes) : Nat → Nat → Bytes
  | 0, _ => []
  | n + 1, i => sha2 h (seed ++ beBytes 4 i) ++ mgf1Go h seed n (i + 1)

/-- MGF1. -/
def mgf1 (h : Sha2) (seed : Bytes) (n : Nat) : Bytes := (mgf1Go h seed (ceilDiv n h.len) 0).take n

/-- EMSA-PSS encoding of a digest in `k` bytes, the modulus having exactly 8k bits. -/
def pssEncode (h : Sha2) (k : Nat) (dig salt : Bytes) : Bytes :=
  let hh := sha2 h (List.replicate 8 0 ++ dig ++ salt)
  let dbLen := k - h.len - 1
  let db := List.replicate (dbLen - salt.length - 1) 0 ++ [1] ++ salt
  let m := xorBytes db (mgf1 h hh dbLen)
  let m := match m with
    | [] => []
    | b :: bs => (b &&& 0x7F) :: bs
  m ++ hh ++ [0xBC]

/-- EMSA-PSS verification with a salt as long as the hash. -/
def pssCheck (h : Sha2) (k : Nat) (dig em : Bytes) : Bool :=
  let dbLen := k - h.len - 1
  let md := em.take dbLen
  let hh := (em.drop dbLen).take h.len
  let db := xorBytes md (mgf1 h hh dbLen)
  let db := match db with
    | [] => []
    | b :: bs => (b &&& 0x7F) :: bs
  let zs := dbLen - h.len - 1
  em.getLastD 0 == 0xBC && decide ((em.headD 0).toNat < 128) && allZero (db.take zs) && db.getD zs 0 == 1 &&
    sha2 h (List.replicate 8 0 ++ dig ++ db.drop (zs + 1)) == hh

/-- The DigestInfo prefix of a hash. -/
def digestInfo (h : Sha2) : Bytes :=
  let id : Byte := match h with
    | .sha256 => 1 | .sha384 => 2 | .sha512 => 3 | .sha224 => 4 | .sha512t256 => 6
  [0x30, BitVec.ofNat 8 (17 + h.len), 0x30, 0x0D, 0x06, 0x09, 0x60, 0x86, 0x48, 0x01, 0x65, 0x03, 0x04, 0x02, id,
   0x05, 0x00, 0x04, BitVec.ofNat 8 h.len]

/-- EMSA-PKCS1-v1_5 encoding. -/
def pkcs1Encode (h : Sha2) (k : Nat) (dig : Bytes) : Bytes :=
  let t := digestInfo h ++ dig
  [0, 1] ++ List.replicate (k - t.length - 3) 0xFF ++ [0] ++ t

/-- OAEP encoding with an empty label. -/
def oaepEncode (h : Sha2) (k : Nat) (m seed : Bytes) : Bytes :=
  let lh := sha2 h []
  let dbLen := k - h.len - 1
  let db := lh ++ List.replicate (dbLen - h.len - m.length - 1) 0 ++ [1] ++ m
  let mdb := xorBytes db (mgf1 h seed dbLen)
  0 :: (xorBytes seed (mgf1 h mdb h.len) ++ mdb)

/-- OAEP decoding: the message when the block is well formed. -/
def oaepDecode (h : Sha2) (k : Nat) (em : Bytes) : Option Bytes :=
  let dbLen := k - h.len - 1
  let ms := (em.drop 1).take h.len
  let mdb := em.drop (1 + h.len)
  let db := xorBytes mdb (mgf1 h (xorBytes ms (mgf1 h mdb h.len)) dbLen)
  let rest := (db.drop h.len).dropWhile (· == 0)
  if em.headD 1 == 0 && db.take h.len == sha2 h [] && rest.headD 0 == 1 then some (rest.drop 1) else none

/-- The private form by parts (R63): n, e, p, q, dP, dQ, qInv. -/
structure RsaPrivate where
  n : Nat
  e : Nat
  p : Nat
  q : Nat
  dp : Nat
  dq : Nat
  qinv : Nat
deriving DecidableEq, Repr

/-- The parts of a stored private form. -/
def rsaParts (k : Nat) (b : Bytes) : RsaPrivate :=
  let at' := fun o n => beNat (sliceZ b o n)
  let h := k / 2
  { n := at' 0 k, e := at' k 4, p := at' (k + 4) h, q := at' (k + 4 + h) h, dp := at' (k + 4 + 2 * h) h,
    dq := at' (k + 4 + 3 * h) h, qinv := at' (k + 4 + 4 * h) h }

/-- The private operation by the Chinese remainder theorem. -/
def rsaPrivateOp (r : RsaPrivate) (c : Nat) : Nat :=
  let m1 := powMod c r.dp r.p
  let m2 := powMod c r.dq r.q
  m2 + r.q * (r.qinv * subMod m1 m2 r.p % r.p)

/-- The public key that a private form contains: n then e. -/
def rsaPublicOf (k : Nat) (b : Bytes) : Bytes := b.take (k + 4)

end Sys2Proof.Machine
end

