-- ==== Sys2Proof/Machine/Catalogue.lean ====
section
/-!
DEFINITION. The operation catalogue as tables: opcodes, key types, sizes, usages, times and validation times
(R42 to R72). Times are picoseconds at P0.
-/

namespace Sys2Proof.Machine

/-! ## Opcodes (R42, R43, Tables 02.1, 02.2, 02.5, 02.7, 02.11, 02.17) -/

/-- An operation of the catalogue. `kem` is a key-encapsulation family by its high byte (3, 7, 8) and `sig` a signature
family (4, 5), each with its set; `ph` is the pre-hash: 0 none, 1 SHA-256, 2 SHA-512, 3 SHAKE256. -/
inductive Oper where
  | digest (h : Sha2)
  | digest3 (n : Nat)
  | shake (c : Nat)
  | cshake (c : Nat)
  | hmac (h : Sha2) (verify : Bool)
  | kmac (c : Nat) (verify : Bool)
  | gcm (decrypt : Bool)
  | gmac (verify : Bool)
  | wrap (pad unwrap : Bool)
  | kemKeygen (fam set : Nat)
  | kemEncaps (fam set : Nat)
  | kemDecaps (fam set : Nat)
  | sigKeygen (fam set : Nat)
  | sigSign (fam set ph : Nat)
  | sigVerify (fam set ph : Nat)
  | hbs (which : Nat)
  | rsaSign (size hash : Nat) (pss : Bool)
  | rsaVerify (size hash : Nat) (pss : Bool)
  | rsaDecrypt (size hash : Nat)
  | rsaEncrypt (size hash : Nat)
  | ecKeygen (c : Nat)
  | ecSign (c : Nat)
  | ecVerify (c : Nat)
  | ecDerive (c : Nat)
  | hybKeygen (h : Nat)
  | hybFirst (h : Nat)
  | hybSecond (h : Nat)
  | generate
  | importKey
  | exportKey
  | kdf
  | delete
  | readPublic
  | resident
  | keyInfo
  | random
  | randomPr
  | quote
  | streamNext
  | streamNow
  | kernel (index entry : Nat)
deriving DecidableEq, Repr

/-- The SHA-2 functions in the order of 0x0101 to 0x0105. -/
def sha2At : Nat → Option Sha2
  | 1 => some .sha224 | 2 => some .sha256 | 3 => some .sha384 | 4 => some .sha512 | 5 => some .sha512t256 | _ => none

/-- Family 0x01 (Table 02.5). -/
def operDigest (lo : Nat) : Option Oper :=
  if lo < 0x10 then (sha2At lo).map .digest
  else match lo with
    | 0x11 => some (.digest3 28) | 0x12 => some (.digest3 32) | 0x13 => some (.digest3 48) | 0x14 => some (.digest3 64)
    | 0x18 => some (.shake 128) | 0x19 => some (.shake 256) | 0x1A => some (.cshake 128) | 0x1B => some (.cshake 256)
    | 0x31 => some (.kmac 128 false) | 0x32 => some (.kmac 256 false)
    | 0x39 => some (.kmac 128 true) | 0x3A => some (.kmac 256 true)
    | _ =>
      if 0x21 ≤ lo && lo ≤ 0x25 then (sha2At (lo - 0x20)).map (fun h => .hmac h false)
      else if 0x29 ≤ lo && lo ≤ 0x2D then (sha2At (lo - 0x28)).map (fun h => .hmac h true)
      else none

/-- Family 0x02 (Table 02.7). -/
def operAes : Nat → Option Oper
  | 0x01 => some (.gcm false) | 0x02 => some (.gcm true) | 0x03 => some (.gmac false) | 0x04 => some (.gmac true)
  | 0x11 => some (.wrap false false) | 0x12 => some (.wrap false true)
  | 0x13 => some (.wrap true false) | 0x14 => some (.wrap true true) | _ => none

/-- Sets of the structured families: ML-KEM 3, ML-DSA 3, SLH-DSA 12, HQC 3, Classic McEliece 10. -/
def setCount : Nat → Nat
  | 3 => 3 | 4 => 3 | 5 => 12 | 7 => 3 | 8 => 10 | _ => 0

/-- Key-encapsulation families. -/
def operKem (fam set op : Nat) : Option Oper :=
  if setCount fam ≤ set then none
  else match op with
    | 1 => some (.kemKeygen fam set) | 2 => some (.kemEncaps fam set) | 3 => some (.kemDecaps fam set) | _ => none

/-- Signature families. -/
def operSig (fam set op : Nat) : Option Oper :=
  if setCount fam ≤ set then none
  else match op with
    | 1 => some (.sigKeygen fam set) | 2 => some (.sigSign fam set 0) | 3 => some (.sigVerify fam set 0)
    | 4 => some (.sigSign fam set 1) | 5 => some (.sigVerify fam set 1) | 6 => some (.sigSign fam set 2)
    | 7 => some (.sigVerify fam set 2) | 8 => some (.sigSign fam set 3) | 9 => some (.sigVerify fam set 3) | _ => none

/-- Family 0x09. -/
def operRsa (size hash op : Nat) : Option Oper :=
  if 3 ≤ hash then none
  else match op with
    | 1 => some (.rsaSign size hash true) | 2 => some (.rsaVerify size hash true)
    | 3 => some (.rsaSign size hash false) | 4 => some (.rsaVerify size hash false)
    | 5 => some (.rsaDecrypt size hash) | 6 => some (.rsaEncrypt size hash) | _ => none

/-- Family 0x0A, with the operations that Table 02.15 offers. -/
def operEc (c op : Nat) : Option Oper :=
  if 7 ≤ c then none
  else match op with
    | 1 => some (.ecKeygen c)
    | 2 => if c < 5 then some (.ecSign c) else none
    | 3 => if c < 5 then some (.ecVerify c) else none
    | 4 => if c = 0 || c = 1 || c = 5 || c = 6 then some (.ecDerive c) else none
    | _ => none

/-- Family 0x0B. -/
def operHybrid (h op : Nat) : Option Oper :=
  if 8 ≤ h then none
  else match op with
    | 1 => some (.hybKeygen h) | 2 => some (.hybFirst h) | 3 => some (.hybSecond h) | _ => none

/-- The operation of an opcode; `none` is an opcode that the catalogue does not define. -/
def operOf (op : Nat) : Option Oper :=
  let lo := op % 256
  match op / 256 with
  | 0x01 => operDigest lo
  | 0x02 => operAes lo
  | 0x03 => operKem 3 (lo / 16) (lo % 16)
  | 0x04 => operSig 4 (lo / 16) (lo % 16)
  | 0x05 => operSig 5 (lo / 16) (lo % 16)
  | 0x06 => match lo with
    | 0x01 => some (.hbs 0) | 0x02 => some (.hbs 1) | 0x11 => some (.hbs 2) | 0x12 => some (.hbs 3) | _ => none
  | 0x07 => operKem 7 (lo / 16) (lo % 16)
  | 0x08 => operKem 8 (lo / 16) (lo % 16)
  | 0x09 => operRsa (lo / 64) (lo / 16 % 4) (lo % 16)
  | 0x0A => operEc (lo / 16) (lo % 16)
  | 0x0B => operHybrid (lo / 16) (lo % 16)
  | 0x0C => match lo with
    | 1 => some .generate | 2 => some .importKey | 3 => some .exportKey | 4 => some .kdf | 5 => some .delete
    | 6 => some .readPublic | 7 => some .resident | 8 => some .keyInfo | _ => none
  | 0x0D => match lo with
    | 1 => some .random | 2 => some .randomPr | _ => none
  | 0x0E => if lo = 1 then some .quote else none
  | 0x0F => some (.kernel (lo / 8) (lo % 8))
  | 0x10 => match lo with
    | 1 => some .streamNext | 2 => some .streamNow | _ => none
  | _ => none

/-! ## Key types (R48, Table 02.4) -/

/-- What a key type code names. -/
inductive KeyType where
  | hmac | kmac
  | aes (n : Nat)
  | generic | streamHmac | streamGmac
  /-- A public or private key of a set: family as in the opcode (3, 4, 5, 7, 8). -/
  | pq (fam set : Nat) (pub : Bool)
  | hbs (which : Nat)
  | rsa (size : Nat) (pub : Bool)
  | ec (c : Nat) (pub : Bool)
  | hybrid (h : Nat) (pub : Bool)
  | importPair
deriving DecidableEq, Repr

/-- The type of a code; `none` is a code that is not listed. -/
def keyTypeOf (t : Nat) : Option KeyType :=
  let pub := t % 2 == 1
  if t = 1 then some .hmac else if t = 2 then some .kmac
  else if t = 3 then some (.aes 16) else if t = 4 then some (.aes 24) else if t = 5 then some (.aes 32)
  else if t = 6 then some .generic else if t = 7 then some .streamHmac else if t = 8 then some .streamGmac
  else if 0x10 ≤ t && t < 0x16 then some (.pq 3 ((t - 0x10) / 2) pub)
  else if 0x18 ≤ t && t < 0x1E then some (.pq 4 ((t - 0x18) / 2) pub)
  else if 0x20 ≤ t && t < 0x38 then some (.pq 5 ((t - 0x20) / 2) pub)
  else if 0x40 ≤ t && t < 0x43 then some (.hbs (t - 0x40))
  else if 0x48 ≤ t && t < 0x4E then some (.pq 7 ((t - 0x48) / 2) pub)
  else if 0x50 ≤ t && t < 0x64 then some (.pq 8 ((t - 0x50) / 2) pub)
  else if 0x70 ≤ t && t < 0x78 then some (.rsa ((t - 0x70) / 2) pub)
  else if 0x80 ≤ t && t < 0x8E then some (.ec ((t - 0x80) / 2) pub)
  else if 0xA0 ≤ t && t < 0xB0 then some (.hybrid ((t - 0xA0) / 2) pub)
  else if t = 0xC0 then some .importPair
  else none

/-- First code of a post-quantum family. -/
def famBase : Nat → Nat
  | 3 => 0x10 | 4 => 0x18 | 5 => 0x20 | 7 => 0x48 | _ => 0x50

/-- The private and the public code of a set. -/
def pqCode (fam set : Nat) (pub : Bool) : Nat := famBase fam + 2 * set + (if pub then 1 else 0)
def rsaCode (size : Nat) (pub : Bool) : Nat := 0x70 + 2 * size + (if pub then 1 else 0)
def ecCode (c : Nat) (pub : Bool) : Nat := 0x80 + 2 * c + (if pub then 1 else 0)
def hybCode (h : Nat) (pub : Bool) : Nat := 0xA0 + 2 * h + (if pub then 1 else 0)

/-- A type that holds a secret. -/
def KeyType.secret : KeyType → Bool
  | .pq _ _ p => !p
  | .hbs _ => false
  | .rsa _ p => !p
  | .ec _ p => !p
  | .hybrid _ p => !p
  | _ => true

/-! ### Sizes (Tables 02.8, 02.9, 02.10, 02.12 to 02.16) -/

/-- SLH-DSA level of a set in bytes: 16, 24 or 32. -/
def slhN (s : Nat) : Nat := if s < 4 then 16 else if s < 8 then 24 else 32

/-- Public key bytes of a post-quantum set. -/
def pqPub (fam s : Nat) : Nat :=
  match fam with
  | 3 => [800, 1184, 1568].getD s 0
  | 4 => [1312, 1952, 2592].getD s 0
  | 5 => 2 * slhN s
  | 7 => [2249, 4522, 7245].getD s 0
  | _ => [261120, 524160, 1044992, 1047319, 1357824].getD (s / 2) 0

/-- Stored private bytes of a post-quantum set. -/
def pqPriv (fam s : Nat) : Nat :=
  match fam with
  | 3 => 64
  | 4 => 32
  | 5 => 4 * slhN s
  | 7 => [2305, 4586, 7317].getD s 0
  | _ => [6492, 13608, 13932, 13948, 14120].getD (s / 2) 0

/-- Ciphertext bytes of a key-encapsulation set. -/
def pqCipher (fam s : Nat) : Nat :=
  match fam with
  | 3 => [768, 1088, 1568].getD s 0
  | 7 => [4433, 8978, 14421].getD s 0
  | _ => [96, 156, 208, 194, 208].getD (s / 2) 0

/-- Shared-secret bytes of a key-encapsulation set. -/
def pqSecret (fam : Nat) : Nat := if fam = 7 then 64 else 32

/-- Signature bytes of a signature set. -/
def pqSig (fam s : Nat) : Nat :=
  match fam with
  | 4 => [2420, 3309, 4627].getD s 0
  | _ => [7856, 7856, 17088, 17088, 16224, 16224, 35664, 35664, 29792, 29792, 49856, 49856].getD s 0

/-- Elliptic-curve sizes by index (Table 02.15). -/
def ecPriv (c : Nat) : Nat := [32, 48, 66, 32, 57, 32, 56].getD c 0
def ecPub (c : Nat) : Nat := [65, 97, 133, 32, 57, 32, 56].getD c 0
def ecSig (c : Nat) : Nat := [64, 96, 132, 64, 114].getD c 0
def ecOut (c : Nat) : Nat := [32, 48, 0, 0, 0, 32, 56].getD c 0

/-- Stored private form of RSA (R63). -/
def rsaPriv (size : Nat) : Nat := rsaK size + 4 + 5 * (rsaK size / 2)

/-- The halves of a hybrid combination: lattice family and set, then the curve (Table 02.16). -/
def hybHalves : Nat → Nat × Nat × Nat
  | 0 => (3, 1, 5) | 1 => (3, 2, 6) | 2 => (3, 1, 0) | 3 => (3, 2, 1)
  | 4 => (4, 0, 3) | 5 => (4, 1, 0) | 6 => (4, 1, 1) | _ => (4, 2, 1)

/-- A hybrid key-encapsulation combination. -/
def hybKem (h : Nat) : Bool := h < 4

def hybPub (h : Nat) : Nat := let (f, s, c) := hybHalves h; pqPub f s + ecPub c
def hybPriv (h : Nat) : Nat := let (f, s, c) := hybHalves h; pqPriv f s + ecPriv c
def hybCipher (h : Nat) : Nat := let (f, s, c) := hybHalves h; pqCipher f s + ecPub c
def hybSig (h : Nat) : Nat := let (f, s, c) := hybHalves h; pqSig f s + ecSig c

/-- The stored length of a type whose length is fixed; `none` for the types with a range. -/
def KeyType.len : KeyType → Option Nat
  | .hmac => some 512
  | .kmac => none
  | .aes n => some n
  | .generic => none
  | .streamHmac => some 32
  | .streamGmac => some 16
  | .pq f s p => some (if p then pqPub f s else pqPriv f s)
  | .hbs _ => none
  | .rsa z p => some (if p then rsaK z + 4 else rsaPriv z)
  | .ec c p => some (if p then ecPub c else ecPriv c)
  | .hybrid h p => some (if p then hybPub h else hybPriv h)
  | .importPair => some 120

/-- Granules of a key of a type and stored length (R317, Table 11.1). -/
def KeyType.granules (t : KeyType) (len : Nat) : Nat :=
  match t with
  | .pq 8 _ true => 1
  | .hybrid h p =>
    let (f, s, c) := hybHalves h
    if p then ceilDiv (pqPub f s) 64 + ceilDiv (ecPub c) 64 else ceilDiv (pqPriv f s) 64 + ceilDiv (ecPriv c) 64
  | _ => ceilDiv len 64

/-- The length that generation and derivation give a secret type (R67). -/
def KeyType.genLen : KeyType → Option Nat
  | .hmac => some 64
  | .kmac | .generic => some 32
  | .aes n => some n
  | .streamHmac => some 32
  | .streamGmac => some 16
  | _ => none

/-! ### Usages (R49) -/

abbrev uSign : Nat := 0
abbrev uVerify : Nat := 1
abbrev uEncaps : Nat := 2
abbrev uDecaps : Nat := 3
abbrev uDerive : Nat := 4
abbrev uWrap : Nat := 5
abbrev uUnwrap : Nat := 6
abbrev uMac : Nat := 7
abbrev uExport : Nat := 8
abbrev uMirror : Nat := 9
abbrev uStream : Nat := 10

/-- Principal usages of a type (Table 02.4). -/
def KeyType.usages : KeyType → List Nat
  | .hmac => [uMac]
  | .kmac => [uMac, uDerive]
  | .aes _ => [uWrap, uUnwrap, uMac]
  | .generic => [uDerive]
  | .streamHmac | .streamGmac => [uStream]
  | .pq f _ p => if f = 4 || f = 5 then (if p then [uVerify] else [uSign]) else (if p then [uEncaps] else [uDecaps])
  | .hbs _ => [uVerify]
  | .rsa _ p => if p then [uVerify, uWrap] else [uSign, uUnwrap]
  | .ec _ p => if p then [uVerify] else [uSign, uDerive]
  | .hybrid h p => if hybKem h then (if p then [uEncaps] else [uDecaps]) else (if p then [uVerify] else [uSign])
  | .importPair => [uUnwrap]

/-- Whether KEY_USAGE is allowed for a created type. -/
def KeyType.usageOk (t : KeyType) (u : Nat) : Bool :=
  (List.range 16).all (fun b => !u.testBit b || t.usages.contains b || ((b == uExport || b == uMirror) && t != .importPair))

/-! ## What an operation creates and needs -/

/-- The type code that an operation creates when the opcode fixes it (R123 check 5). -/
def Oper.creates : Oper → Option Nat
  | .kemKeygen f s => some (pqCode f s false)
  | .kemEncaps _ _ | .kemDecaps _ _ | .ecDerive _ => some 6
  | .sigKeygen f s => some (pqCode f s false)
  | .ecKeygen c => some (ecCode c false)
  | .hybKeygen h => some (hybCode h false)
  | .hybFirst h | .hybSecond h => if hybKem h then some 6 else none
  | _ => none

/-- Operations that create a key of the type that the target handle names (R123). -/
def Oper.byTarget : Oper → Bool
  | .generate | .importKey | .kdf | .resident => true
  | _ => false

/-- Operations that create a key. -/
def Oper.makesKey (o : Oper) : Bool := o.creates.isSome || o.byTarget

/-- A key handle: 0 not used, 1 needed, 2 a resident public key or zero. -/
def Oper.keyUse : Oper → Nat
  | .hmac _ _ | .kmac _ _ | .gcm _ | .gmac _ | .wrap _ _ => 1
  | .kemEncaps _ _ | .sigVerify _ _ _ | .hbs _ | .rsaVerify _ _ _ | .rsaEncrypt _ _ | .ecVerify _ => 2
  | .kemDecaps _ _ | .sigSign _ _ _ | .rsaSign _ _ _ | .rsaDecrypt _ _ | .ecSign _ | .ecDerive _ => 1
  | .hybFirst h => if hybKem h then 2 else 1
  | .hybSecond h => if hybKem h then 1 else 2
  | .importKey | .exportKey | .kdf | .delete | .readPublic | .keyInfo | .streamNext | .streamNow => 1
  | _ => 0

/-- The type codes that fit the opcode's key (check 4). -/
def Oper.keyFits (o : Oper) (t : Nat) : Bool :=
  match o with
  | .hmac _ _ => t == 1
  | .kmac _ _ => t == 2
  | .gcm _ | .gmac _ | .wrap _ _ => 3 ≤ t && t ≤ 5
  | .kemEncaps f s => t == pqCode f s true
  | .kemDecaps f s => t == pqCode f s false
  | .sigSign f s _ => t == pqCode f s false
  | .sigVerify f s _ => t == pqCode f s true
  | .hbs w => t == (if w < 2 then 0x40 else 0x40 + w - 1)
  | .rsaSign z _ _ | .rsaDecrypt z _ => t == rsaCode z false
  | .rsaVerify z _ _ | .rsaEncrypt z _ => t == rsaCode z true
  | .ecSign c | .ecDerive c => t == ecCode c false
  | .ecVerify c => t == ecCode c true
  | .hybFirst h => t == hybCode h (hybKem h)
  | .hybSecond h => t == hybCode h (!hybKem h)
  | .importKey => t == 0xC0
  | .exportKey => t != 0xC0
  | .kdf => t == 2 || t == 6
  | .delete | .keyInfo => t != 0xC0
  | .readPublic => match keyTypeOf t with
    | some (.pq _ _ p) => !p
    | some (.rsa _ p) => !p
    | some (.ec _ p) => !p
    | some (.hybrid _ p) => !p
    | some .importPair => true
    | _ => false
  | .streamNext | .streamNow => t == 7 || t == 8
  | _ => true

/-- The usage flag that the key must carry (check 5). -/
def Oper.usage : Oper → Option Nat
  | .hmac _ _ | .kmac _ _ | .gmac _ => some uMac
  | .gcm d => some (if d then uUnwrap else uWrap)
  | .wrap _ u => some (if u then uUnwrap else uWrap)
  | .kemEncaps _ _ => some uEncaps
  | .kemDecaps _ _ => some uDecaps
  | .sigSign _ _ _ | .rsaSign _ _ _ | .ecSign _ => some uSign
  | .sigVerify _ _ _ | .hbs _ | .rsaVerify _ _ _ | .ecVerify _ => some uVerify
  | .rsaDecrypt _ _ => some uUnwrap
  | .rsaEncrypt _ _ => some uWrap
  | .ecDerive _ | .kdf => some uDerive
  | .hybFirst h => some (if hybKem h then uEncaps else uSign)
  | .hybSecond h => some (if hybKem h then uDecaps else uVerify)
  | .importKey => none
  | .exportKey => some uExport
  | .streamNext | .streamNow => some uStream
  | _ => none

/-- The bytes of a passed public key that lead In0 or In1, by operation (Table 02.3). -/
def Oper.passed : Oper → Nat
  | .kemEncaps f s => pqPub f s
  | .sigVerify f s _ => pqPub f s
  | .rsaVerify z _ _ | .rsaEncrypt z _ => rsaK z + 4
  | .ecVerify c => ecPub c
  | .hybFirst h | .hybSecond h => hybPub h
  | _ => 0

/-! ## Units (R62, R65, R147) -/

/-- What a job binds. -/
inductive UnitKind where
  | vc | lie | hybrid | cluster
deriving DecidableEq, Repr

/-- The units of an operation; the key's type decides for read public key and import (R67). -/
def Oper.units (o : Oper) (keyType : Nat) : UnitKind :=
  match o with
  | .rsaSign _ _ _ | .rsaVerify _ _ _ | .rsaDecrypt _ _ | .rsaEncrypt _ _ => .lie
  | .ecKeygen _ | .ecSign _ | .ecVerify _ | .ecDerive _ => .lie
  | .hybKeygen _ | .hybFirst _ | .hybSecond _ | .importKey | .quote => .hybrid
  | .kemKeygen 8 _ => .cluster
  | .readPublic => match keyTypeOf keyType with
    | some (.pq 8 _ false) => .cluster
    | some (.ec _ false) => .lie
    | some (.hybrid _ false) | some .importPair => .hybrid
    | _ => .vc
  | _ => .vc

/-! ## Times (R51 to R55, R59 to R67, R495) -/

/-- Microseconds and nanoseconds in picoseconds. -/
def psUs (n : Nat) : Nat := n * 1000000
def psNs (n : Nat) : Nat := n * 1000

/-- The fixed part of a symmetric operation. -/
def psFixed : Nat := 1125000

/-- The time of the checks 1 to 6 and of the acceptance checks. -/
def psCheck : Nat := 200000

/-- Compressions of a SHA-2 message of `n` bytes, padding included, after whole blocks already absorbed. -/
def sha2Blocks (h : Sha2) (n : Nat) : Nat := ceilDiv (n + 1 + h.block / 8) h.block

/-- Time of one compression. -/
def sha2Ps (h : Sha2) : Nat := if h.block = 64 then 25000 else 30000

/-- Permutations of a sponge: `n` bytes absorbed with padding, `out` squeezed. -/
def spongePerms (rate n out : Nat) : Nat := n / rate + 1 + (ceilDiv out rate - 1)

/-- Further blocks beyond 64 bytes (R52). -/
def further (len r : Nat) : Nat := ceilDiv (len - 64) r

/-- Keygen, encapsulation, decapsulation of a key-encapsulation set in nanoseconds. -/
def kemNs (fam s : Nat) : Nat × Nat × Nat :=
  match fam with
  | 3 => [(9000, 10000, 14000), (13000, 15000, 21000), (19000, 21000, 30000)].getD s (0, 0, 0)
  | 7 => [(40000, 55000, 90000), (76000, 104500, 171000), (128000, 176000, 288000)].getD s (0, 0, 0)
  | _ => [(9000000, 45000, 110000), (6000000, 45000, 110000), (25000000, 90000, 180000), (16000000, 90000, 180000),
          (55000000, 170000, 250000), (36000000, 170000, 250000), (60000000, 180000, 260000), (40000000, 180000, 260000),
          (60000000, 180000, 260000), (40000000, 180000, 260000)].getD s (0, 0, 0)

/-- Keygen, sign, verify of a signature set in nanoseconds. -/
def sigNs (fam s : Nat) : Nat × Nat × Nat :=
  match fam with
  | 4 => [(30000, 110000, 8000), (45000, 160000, 12000), (70000, 230000, 18000)].getD s (0, 0, 0)
  | _ => [(1500000, 15000000, 30000), (1950000, 19500000, 39000), (20000, 900000, 70000), (26000, 1170000, 91000),
          (3000000, 30000000, 60000), (3900000, 39000000, 78000), (40000, 1800000, 140000), (52000, 2340000, 182000),
          (5250000, 52500000, 105000), (6825000, 68250000, 136500), (70000, 3150000, 245000), (91000, 4095000, 318500)].getD s (0, 0, 0)

/-- RSA private and public times in nanoseconds. -/
def rsaNs : Nat → Nat × Nat
  | 0 => (120000, 6000) | 1 => (380000, 12000) | 2 => (820000, 20000) | _ => (5900000, 75000)

/-- Keygen, sign, verify, derive of a curve in nanoseconds. -/
def ecNs (c : Nat) : Nat × Nat × Nat × Nat :=
  [(11000, 14000, 28000, 24000), (33000, 38000, 75000, 66000), (85000, 95000, 190000, 0), (10000, 11000, 24000, 0),
   (36000, 40000, 80000, 0), (21000, 0, 0, 21000), (65000, 0, 0, 65000)].getD c (0, 0, 0, 0)

/-- The three times of a hybrid combination in nanoseconds (Table 02.16). -/
def hybNs (h : Nat) : Nat × Nat × Nat :=
  [(22000, 43000, 22000), (66000, 131000, 66000), (14000, 36000, 25000), (34000, 100000, 67000), (31000, 111000, 25000),
   (46000, 161000, 29000), (46000, 161000, 76000), (71000, 231000, 76000)].getD h (0, 0, 0)

/-- The message hash of a signature operation: rate or block and time per block in picoseconds. -/
def sigHash (fam s : Nat) : Nat × Nat :=
  if fam = 4 || s % 2 = 1 then (136, 12000) else if s < 4 then (64, 25000) else (128, 30000)

/-- The message hash of EdDSA. -/
def edHashTime (c : Nat) : Nat × Nat := if c = 3 then (128, 30000) else (136, 12000)

/-- The further blocks of a hybrid signature's two halves (R52). -/
def hybFurther (h len : Nat) (signing : Bool) : Nat :=
  let (_, _, c) := hybHalves h
  let ec := if c = 3 then further len 128 * 30000 * (if signing then 2 else 1)
            else if c = 0 then further len 64 * 25000 else further len 128 * 30000
  further len 136 * 12000 + ec

/-- The validation time of a public key of a type (Table 02.19). -/
def KeyType.validPs : KeyType → Nat
  | .pq 3 s _ => [800000, 1000000, 1200000].getD s 0
  | .pq _ _ _ => 200000
  | .hbs _ => 200000
  | .rsa z _ => [300000, 400000, 500000, 1000000].getD z 0
  | .ec c _ => [2000000, 4000000, 7000000, 3000000, 6000000, 500000, 1000000].getD c 0
  | .hybrid h _ =>
    let (f, s, c) := hybHalves h
    (if f = 3 then [800000, 1000000, 1200000].getD s 0 else 200000) +
      [2000000, 4000000, 7000000, 3000000, 6000000, 500000, 1000000].getD c 0
  | _ => 0

/-- The keygen time of a private type (R67, Table 11.3). -/
def KeyType.keygenPs : KeyType → Nat
  | .pq f s _ => psNs (if f = 4 || f = 5 then (sigNs f s).1 else (kemNs f s).1)
  | .ec c _ => psNs (ecNs c).1
  | .hybrid h _ => psNs (hybNs h).1
  | .importPair => psUs 66
  | _ => 0

/-- The time that the import check of a type adds (Table 11.3). -/
def KeyType.importPs : KeyType → Nat
  | .hmac => 300000
  | .pq f s _ => if f = 7 || f = 8 then psNs ((kemNs f s).2.1 + (kemNs f s).2.2) else psNs (if f = 3 then (kemNs f s).1 else (sigNs f s).1)
  | .rsa z _ => psNs ((rsaNs z).1 + (rsaNs z).2)
  | .ec c _ => psNs (ecNs c).1
  | .hybrid h _ =>
    let (f, s, c) := hybHalves h
    psNs (max (if f = 3 then (kemNs f s).1 else (sigNs f s).1) (ecNs c).1 + 1000)
  | _ => 0

/-- Read public key: the keygen time where the stored form lacks the public key, 1.125 µs otherwise (R67). -/
def KeyType.readPs : KeyType → Nat
  | .pq f s p => if f = 3 || f = 4 || f = 8 then (KeyType.pq f s p).keygenPs else psFixed
  | .ec c p => (KeyType.ec c p).keygenPs
  | .hybrid h p => (KeyType.hybrid h p).keygenPs
  | .importPair => psUs 66
  | _ => psFixed

/-- The rate of a SHA-3 digest of `n` bytes. -/
def sha3Rate (n : Nat) : Nat := 200 - 2 * n

/-- The rate of SHAKE, cSHAKE or KMAC of a strength. -/
def xofRate (c : Nat) : Nat := 200 - c / 4

/-- Permutations of cSHAKE: the padded prefix of In1, then the message. -/
def cshakePerms (c len0 len1 out : Nat) : Nat := spongePerms (xofRate c) (ceilDiv (2 + len1) (xofRate c) * xofRate c + len0) out

/-- Permutations of KMAC: the prefix of name and customisation, the key block, the message and the encoded length. -/
def kmacPerms (c len0 lenS out : Nat) : Nat :=
  let r := xofRate c
  let enc := fun n => 1 + byteCount (8 * n) + n
  spongePerms r (ceilDiv (2 + enc 4 + enc lenS) r * r + r + len0 + 1 + byteCount (8 * out)) out

/-- The lengths on which a catalogue time depends, as far as they are known: In0, In1, Out, the key's type and stored
length, the target's type, the customisation length of a KMAC verification, whether a cSHAKE has empty strings, the time
of a hash-based verification's sets, the owner kernel's declared count. -/
structure CostIn where
  len0 : Nat
  len1 : Nat
  out : Nat
  keyType : Nat
  keyLen : Nat
  target : Nat
  lenS : Nat
  plain : Bool
  sets : Nat
  declared : Nat
deriving DecidableEq, Repr

/-- The catalogue time of an operation in picoseconds at P0. -/
def Oper.cost (o : Oper) (x : CostIn) : Nat :=
  match o with
  | .digest h => psFixed + sha2Blocks h x.len0 * sha2Ps h
  | .digest3 n => psFixed + spongePerms (sha3Rate n) x.len0 n * 12000
  | .shake c => psFixed + spongePerms (xofRate c) x.len0 x.out * 12000
  | .cshake c =>
    psFixed + (if x.plain then spongePerms (xofRate c) x.len0 x.out else cshakePerms c x.len0 x.len1 x.out) * 12000
  | .hmac h _ => psFixed + (sha2Blocks h x.len0 + 1) * sha2Ps h
  | .kmac c v => psFixed + kmacPerms c x.len0 (if v then x.lenS else x.len1) (if v then x.len1 - 2 - x.lenS else x.out) * 12000
  | .gcm d => psFixed + (ceilDiv (x.len0 - 12) 16 + ceilDiv (if d then x.len1 - 16 else x.len1) 16 + 2) * 6000
  | .gmac _ => psFixed + (ceilDiv (x.len0 - 12) 16 + 2) * 6000
  | .wrap _ u => psFixed + (if u then ceilDiv x.len0 8 - 1 else ceilDiv x.len0 8) * 36000
  | .kemKeygen f s => psNs (kemNs f s).1
  | .kemEncaps f s => psNs (kemNs f s).2.1
  | .kemDecaps f s => psNs (kemNs f s).2.2
  | .sigKeygen f s => psNs (sigNs f s).1
  | .sigSign f s _ => psNs (sigNs f s).2.1 + further x.len0 (sigHash f s).1 * (sigHash f s).2 * (if f = 5 then 2 else 1)
  | .sigVerify f s _ => psNs (sigNs f s).2.2 + further x.len0 (sigHash f s).1 * (sigHash f s).2
  | .hbs _ => x.sets
  | .rsaSign z _ _ | .rsaDecrypt z _ => psNs (rsaNs z).1
  | .rsaVerify z _ _ | .rsaEncrypt z _ => psNs (rsaNs z).2
  | .ecKeygen c => psNs (ecNs c).1
  | .ecSign c => psNs (ecNs c).2.1 + (if 3 ≤ c then further x.len0 (edHashTime c).1 * (edHashTime c).2 * 2 else 0)
  | .ecVerify c => psNs (ecNs c).2.2.1 + (if 3 ≤ c then further x.len0 (edHashTime c).1 * (edHashTime c).2 else 0)
  | .ecDerive c => psNs (ecNs c).2.2.2
  | .hybKeygen h => psNs (hybNs h).1
  | .hybFirst h => psNs (hybNs h).2.1 + (if hybKem h then 0 else hybFurther h x.len0 true)
  | .hybSecond h => psNs (hybNs h).2.2 + (if hybKem h then 0 else hybFurther h x.len0 false)
  | .generate => psUs 2
  | .importKey => psUs 67 + (ceilDiv (x.len0 - 1624) 8 - 1) * 36000 + ((keyTypeOf x.target).map KeyType.importPs).getD 0
  | .exportKey => psFixed + ceilDiv x.keyLen 8 * 36000
  | .kdf => 1500000
  | .delete | .keyInfo => 500000
  | .readPublic => ((keyTypeOf x.keyType).map KeyType.readPs).getD psFixed
  | .resident => psFixed + ((keyTypeOf x.target).map KeyType.validPs).getD 0
  | .random => psFixed + ceilDiv x.out 16 * 2000
  | .randomPr => 16125000 + ceilDiv x.out 16 * 2000
  | .quote => psUs 233
  | .streamNext | .streamNow => psUs 3
  | .kernel _ _ => x.declared * 2000 / 3

/-- A secret job (R135); an owner kernel's header decides for its calls, and a key that the handle names for exports. -/
def Oper.isSecret : Oper → Bool
  | .hmac _ _ | .kmac _ _ | .gcm _ | .gmac _ | .wrap _ _ => true
  | .kemKeygen _ _ | .kemDecaps _ _ | .sigKeygen _ _ | .sigSign _ _ _ => true
  | .rsaSign _ _ _ | .rsaDecrypt _ _ | .ecKeygen _ | .ecSign _ | .ecDerive _ => true
  | .hybKeygen _ => true
  | .hybFirst h => !hybKem h
  | .hybSecond h => hybKem h
  | .generate | .importKey | .exportKey | .kdf | .readPublic | .quote | .streamNext | .streamNow => true
  | _ => false

end Sys2Proof.Machine
end

