-- ==== Sys2Proof/Machine/Hbs.lean ====
section
/-!
DEFINITION. The parameter sets of LMS, HSS, XMSS and XMSS^MT as their type codes name them, and the time of a
verification (R60, R495, Table 02.11). The codes are those of RFC 8554, RFC 8391 and SP 800-208.
-/

namespace Sys2Proof.Machine

/-- An LMS type: node bytes, height, SHAKE. -/
def lmsType (t : Nat) : Option (Nat × Nat × Bool) :=
  if 5 ≤ t && t < 25 then
    let g := (t - 5) / 5
    some (if g % 2 = 0 then 32 else 24, 5 * ((t - 5) % 5 + 1), decide (2 ≤ g))
  else none

/-- An LM-OTS type: bytes, chains, Winternitz time in picoseconds, SHAKE. -/
def otsType (t : Nat) : Option (Nat × Nat × Nat × Bool) :=
  if 1 ≤ t && t < 17 then
    let g := (t - 1) / 4
    let w := (t - 1) % 4
    some (if g % 2 = 0 then 32 else 24,
          (if g % 2 = 0 then [265, 133, 67, 34] else [200, 101, 51, 26]).getD w 0,
          [1400000, 2100000, 5500000, 47000000].getD w 0, decide (2 ≤ g))
  else none

/-- The time of one tree; SHAKE sets take 1.3 times. -/
def treePs (base : Nat) (shake : Bool) : Nat := if shake then base * 13 / 10 else base

/-- The time of one LMS tree, if its two types are supported and agree. -/
def lmsPs (t o : Nat) : Option Nat :=
  match lmsType t, otsType o with
  | some (m, h, sk), some (n, _, w, sk') => if m = n && sk == sk' then some (treePs (2400000 + w + 5000 * h) sk) else none
  | _, _ => none

/-- The bytes of an LMS signature of two types. -/
def lmsSigLen (t o : Nat) : Nat :=
  match lmsType t, otsType o with
  | some (m, h, _), some (n, p, _, _) => 4 + (4 + n + p * n) + 4 + h * m
  | _, _ => 0

/-- What the type codes of a verification say: the time of the levels read, and the fault that ends the reading:
0 none, 1 in the public key, 2 in the signature; and whether the set that hashes the message is SHAKE. -/
structure HbsSets where
  ps : Nat
  fault : Nat
  shake : Bool
deriving DecidableEq, Repr

/-- The time of a verification of `n` bytes: the further blocks that its message hash absorbs are added (R52). -/
def HbsSets.total (x : HbsSets) (n : Nat) : Nat :=
  if x.fault ≠ 0 then x.ps
  else x.ps + (if x.shake then ceilDiv (n - 64) 136 * 12000 else ceilDiv (n - 64) 64 * 25000)

/-- Whether an LMS type is SHAKE. -/
def lmsShake (t : Nat) : Bool := (lmsType t).any (fun x => x.2.2)

/-- The lower levels of an HSS signature from offset `o`, the current level having types `t` and `w`. -/
def hssLevels (sig : Bytes) : Nat → Nat → Nat → Nat → Nat → HbsSets
  | 0, _, t, _, acc => ⟨acc, 0, lmsShake t⟩
  | n + 1, o, t, w, acc =>
    let o' := o + lmsSigLen t w
    if sig.length < o' + 8 then ⟨acc + psCheck, 2, false⟩
    else
      let t' := beNat (sliceZ sig o' 4)
      let w' := beNat (sliceZ sig (o' + 4) 4)
      match lmsType t', lmsPs t' w' with
      | some (m, _, _), some p => hssLevels sig n (o' + 24 + m) t' w' (acc + p)
      | _, _ => ⟨acc + psCheck, 2, false⟩

/-- An XMSS set by its code: bytes, height, layers, SHAKE. -/
def xmssType (t : Nat) : Option (Nat × Nat × Nat × Bool) :=
  let h := fun k => [10, 16, 20].getD k 0
  if 1 ≤ t && t ≤ 3 then some (32, h (t - 1), 1, false)
  else if 0x0D ≤ t && t ≤ 0x0F then some (24, h (t - 0x0D), 1, false)
  else if 0x10 ≤ t && t ≤ 0x12 then some (32, h (t - 0x10), 1, true)
  else if 0x13 ≤ t && t ≤ 0x15 then some (24, h (t - 0x13), 1, true)
  else none

/-- An XMSS^MT set by its code. -/
def xmssMtType (t : Nat) : Option (Nat × Nat × Nat × Bool) :=
  let hd := fun k => [(20, 2), (20, 4), (40, 2), (40, 4), (40, 8), (60, 3), (60, 6), (60, 12)].getD k (0, 0)
  if 1 ≤ t && t ≤ 8 then some (32, (hd (t - 1)).1, (hd (t - 1)).2, false)
  else if 0x21 ≤ t && t ≤ 0x28 then some (24, (hd (t - 0x21)).1, (hd (t - 0x21)).2, false)
  else if 0x29 ≤ t && t ≤ 0x30 then some (32, (hd (t - 0x29)).1, (hd (t - 0x29)).2, true)
  else if 0x31 ≤ t && t ≤ 0x38 then some (24, (hd (t - 0x31)).1, (hd (t - 0x31)).2, true)
  else none

/-- The sets of a verification (R495): `which` is 0 LMS, 1 HSS, 2 XMSS, 3 XMSS^MT. -/
def hbsSets (which : Nat) (pk sig : Bytes) : HbsSets :=
  let bad : HbsSets := ⟨psCheck, 1, false⟩
  let at4 := fun o => beNat (sliceZ pk o 4)
  match which with
  | 0 =>
    if pk.length < 8 then bad
    else match lmsPs (at4 0) (at4 4) with
      | some p => ⟨p, 0, lmsShake (at4 0)⟩
      | none => bad
  | 1 =>
    if pk.length < 12 || at4 0 = 0 || 8 < at4 0 then bad
    else match lmsPs (at4 4) (at4 8) with
      | some p => hssLevels sig (at4 0 - 1) 4 (at4 4) (at4 8) p
      | none => bad
  | w =>
    if pk.length < 4 then bad
    else match (if w = 2 then xmssType (at4 0) else xmssMtType (at4 0)) with
      | some (_, h, d, sk) => ⟨treePs (9400000 * d + 30000 * h) sk, 0, sk⟩
      | none => bad

/-- Where the type codes of the lower HSS levels stand in In1, of `len` bytes, whose signature begins at `base`. -/
def hssReads (sig : Bytes) (len base : Nat) : Nat → Nat → Nat → Nat → List (Nat × Nat)
  | 0, _, _, _ => []
  | n + 1, o, t, w =>
    let o' := o + lmsSigLen t w
    if len < base + o' + 8 then []
    else
      let t' := beNat (sliceZ sig o' 4)
      let w' := beNat (sliceZ sig (o' + 4) 4)
      (base + o', 8) :: (match lmsType t', lmsPs t' w' with
        | some (m, _, _), some _ => hssReads sig len base n (o' + 24 + m) t' w'
        | _, _ => [])

/-- The length of a public key by its types, where they are known. -/
def hbsPubLen (which : Nat) (pk : Bytes) : Option Nat :=
  let at4 := fun o => beNat (sliceZ pk o 4)
  match which with
  | 0 => (lmsType (at4 0)).map (fun x => 24 + x.1)
  | 1 => (lmsType (at4 4)).map (fun x => 28 + x.1)
  | w => (if w = 2 then xmssType (at4 0) else xmssMtType (at4 0)).map (fun x => 4 + 2 * x.1)

/-- What R495 reads of In1, of `len` bytes: offset and length of each read. `key` is a resident public key. -/
def hbsReads (which : Nat) (key : Option Bytes) (in1 : Bytes) (len : Nat) : List (Nat × Nat) :=
  let pk := key.getD in1
  let n := if which = 1 then 12 else if which = 0 then 8 else 4
  let head := if key.isSome || len < n then [] else [(0, n)]
  let at4 := fun o => beNat (sliceZ pk o 4)
  if which ≠ 1 || (key.isNone && len < n) || at4 0 = 0 || 8 < at4 0 || (lmsPs (at4 4) (at4 8)).isNone then head
  else
    let base := if key.isSome then 0 else (hbsPubLen 1 pk).getD 0
    head ++ hssReads (in1.drop base) len base (at4 0 - 1) 4 (at4 4) (at4 8)

/-- The types in an LMS or HSS signature match the public key (R60); XMSS signatures carry none. -/
def hbsTypesMatch (which : Nat) (pk sig : Bytes) : Bool :=
  let o := if which = 1 then 4 else 0
  if which < 2 then
    let t := beNat (sliceZ pk o 4)
    let w := beNat (sliceZ pk (o + 4) 4)
    let n := ((otsType w).map (fun x => x.1 + x.2.1 * x.1)).getD 0
    beNat (sliceZ sig (o + 4) 4) == w && beNat (sliceZ sig (o + 8 + n) 4) == t &&
      (which = 0 || beNat (sliceZ sig 0 4) + 1 == beNat (sliceZ pk 0 4))
  else true

end Sys2Proof.Machine
end

