-- ==== Sys2Proof/Config.lean ====
section
/-!
DEFINITION. What an implementation fixes and what the spec leaves open: the variant and the grade of the part,
and the free values, each an opaque constant that nothing can evaluate.
-/

namespace Sys2Proof

/-- The variants of the family (R2). -/
inductive Part where
  | zv2800 | zv4800 | zv8800
deriving DecidableEq, Repr

/-- The grades (R3): extended, commercial. -/
inductive Grade where
  | extended | commercial
deriving DecidableEq, Repr

namespace Part

/-- Dies of the variant (Table 00.1). -/
def dies : Part → Nat
  | zv2800 => 2 | zv4800 => 4 | zv8800 => 8

/-- Rings of the variant (Table 00.1). -/
def rings : Part → Nat
  | zv2800 => 4096 | zv4800 => 8192 | zv8800 => 16384

/-- Tenants of the variant (Table 00.1). -/
def tenants : Part → Nat
  | zv2800 => 256 | zv4800 => 512 | zv8800 => 1024

/-- Thermal design power in watts (Table 00.1). -/
def tdp : Part → Nat
  | zv2800 => 85 | zv4800 => 150 | zv8800 => 280

/-- The PCIe Device ID, DEV_ID.DEVICE (Table 19.2). -/
def device : Part → Nat
  | zv2800 => 0x2800 | zv4800 => 0x4800 | zv8800 => 0x8800

end Part

/-- The grade's limit of junction temperature in degrees Celsius (Table 00.2). -/
def Grade.limit : Grade → Nat
  | .extended => 110 | .commercial => 105

/-- A free value: the number that the hardware produces where the spec gives none. The argument is the
state's own counter, so that each draw is fresh. Log entry 1. -/
opaque Config.freeNat : Nat → Nat

/-- The vendor's PCI-SIG identifier, which the spec names without its value (Table 03.1). Log entry 91. -/
opaque Config.vendorId : Nat

/-! What the standards leave to chance and their bounds cut off (FIPS 203, Appendix B; FIPS 204, Appendix C). Log entry 92. -/

/-- A coefficient that rejection sampling would draw past the bound of its stream: the seed and the position. -/
opaque Config.sampleRest : Bytes → Nat → Nat

/-- An ML-DSA signature of which no attempt within the 16-bit counter succeeded. -/
opaque Config.noSignature : Bytes → Bytes → Bytes

/-! The code-based algorithms, whose byte strings the firmware's algorithm manifest fixes (02, "Lattice, hash-based and
code-based operations"): uninterpreted functions of their inputs and of the randomness drawn for them. The device cuts or
pads every result to the length of its table. Log entry 2. -/

/-- Whether no candidate of a Classic McEliece key generation's seed material passes the systematic-form test (R62). -/
opaque Config.codeFails : Nat → Bytes → Bool

/-- HQC and Classic McEliece (family 7 or 8) key pair of seed material, by set: public key and private key. -/
opaque Config.codeKeygen : Nat → Nat → Bytes → Bytes × Bytes

/-- The public key of a code-based private key, by family and set. -/
opaque Config.codePublic : Nat → Nat → Bytes → Bytes

/-- Code-based encapsulation with given randomness: ciphertext and shared secret. -/
opaque Config.codeEncaps : Nat → Nat → Bytes → Bytes → Bytes × Bytes

/-- Code-based decapsulation. -/
opaque Config.codeDecaps : Nat → Nat → Bytes → Bytes → Bytes

/-! What the vendor does not publish of its microprograms (R197, R213). Log entry 93. -/

/-- The 144 data bits of a control-store word, as component 3 of a firmware image holds it: the component and the address. -/
opaque Config.microWord : Bytes → Nat → BitVec 144

/-- The first microword of the operation of an opcode. -/
opaque Config.microStart : Nat → Nat

/-- The microword at which the decode microroutine carries out a kernel word. -/
opaque Config.microDecode : Nat → Nat

/-- A vendor status bit that a condition select 0x20 to 0x3F reads, each time that it is read. -/
opaque Config.vendorStatus : Nat → Nat → Bool

/-- The segments that vendor microcode sets for an opcode: the word of segment 0 to 3 in the layout of Table 07.9. -/
opaque Config.vendorSeg : Nat → Nat → Nat

/-- A byte of the public tables of an engine's operand memory, by address (R238): not published. Log entry 2. -/
opaque Config.lieTable : Nat → Byte

/-- Where vendor microcode keeps the classical secret of a hybrid in the operand store (R249): not published. Log entry 96. -/
opaque Config.hybridSet : Nat

/-- A frame to send with its header length rewritten and the security extension of IEC 62351-6 appended up to its tag:
algorithm, tag length, key identifier, seconds, fraction, frame (R309). Log entry 2. -/
opaque Config.secExtend : Nat → Nat → Nat → Nat → Nat → Bytes → Bytes

/-- The 12-byte IV of AES-GMAC that an extended frame's fields form (R289). Log entry 2. -/
opaque Config.secIv : Bytes → Bytes

/-- The index that a firmware image, named by its header, assigns to its n-th default kernel (R229): the form of the
assignment is not given. Log entry 2. -/
opaque Config.kernelIndex : Bytes → Nat → Nat

/-- The region, modulo 16, of a deckle in which Uzothal 3.2 holds the n-th grant of Table 16.2 (R436): not published. Log
entry 2. -/
opaque Config.uzRegion : Nat → Nat → Nat

/-- A word of a region register as Uzothal 3.2 loads it, by deckle and by region × 10 + word: not published. Log entry 2. -/
opaque Config.uzWord : Nat → Nat → Nat

/-- The slot directory within the offsets of a die's key-store target (Table 16.2): not published. Log entry 2. -/
opaque Config.slotDirectory : Nat → Bool

/-- The first byte of the area that the firmware reserves in a cluster's shared memory (R41): not published. Log entry 2. -/
opaque Config.reservedArea : Nat

/-- The JEDEC manufacturer code in IDCODE (Table 14.5): not published. Log entry 2. -/
opaque Config.jedec : Nat

end Sys2Proof
end

