-- ==== Sys2Proof/Machine/RegMap.lean ====
section
/-!
DEFINITION. The registers of BAR0: their names, places, widths, reset values, access codes and fields, written
from the register index (spec/19, Tables 19.1 to 19.12) and the field tables of the chapters.
-/

namespace Sys2Proof.Machine

/-- Every register of the register index (R490), by its own name. The command and response buffers of the
mailbox are listed with them. -/
inductive RegKind where
  | DEV_ID | DEV_MODE | DEV_READY | DEV_BOOT | DEV_RESET_CAUSE | DEV_FW_SLOT
  | DEV_HOLD | DEV_READY_MAP | DEV_READY_VC | PWR_CAP | PWR_STAT | PWR_DIE
  | PWR_PMB | THM_TEMP | THM_CTL | THM_STAT | MBX_DOORBELL | MBX_STATUS
  | MBX_CTL | MBX_TIMEOUT | MBX_COUNT | MBX_CMD | MBX_RSP | EVR_CURSOR
  | EVR_STATUS | EVR_INT | EVR_INT_EN | EVR_WINDOW | EVR_OVERWRITE | EVR_SEQ
  | EVR_AO_NOW | EVR_COUNT | EVR_LOST | EVR_DROPPED | EVR_THRESH | EVR_THRESH_HIT
  | TIME_CTL | TIME_NOW | TIME_NOW_FRAC | TIME_SET | TIME_STEP | TIME_INCR
  | TIME_SLEW | TIME_PPS_IN | TIME_PPS_OUT | TIME_TARGET | TIME_INT | TIME_INT_EN
  | LCS_STATE | LCS_REQUEST | LCS_STATUS | LCS_PERMIT | LCS_OTP_LEFT | LCS_OWNER
  | DBG_STATE | DBG_EXPIRY | DBG_FAILS | DBG_CHAL_TTL | PROT_COND | PROT_ALARM
  | PROT_TAMPER_CFG | PROT_LOOP_ERR | PROT_BIST_RESULT | PROT_BIST_STAT | PROT_BIC | PROT_ERASE
  | PROT_F2 | PROT_VTHR | PROT_MAP | DIE_SCHED_STATE | DIE_SCHED_CLASS | DIE_SCHED_LOAD
  | DIE_SCHED_HOLD | DIE_VC_CLOCK | CLU_GOLD_STAT | VC_MGEN_STAT | VC_MGEN_BLOCKS | VC_MGEN_RESEEDS
  | VC_FAULTS | VC_STATE | VC_SEG | VC_MC_COUNT | VC_MC_LAST | VC_CS_SCRUB
  | VC_YIELD_MAX | VC_RUN_CYCLES | PORT_CFG | PORT_STATUS | PORT_RINGS | PORT_TS_RX_ADJ
  | PORT_TS_TX_ADJ | PORT_RX_FRAMES | PORT_RX_BYTES | PORT_TX_FRAMES | PORT_TX_BYTES | PORT_RX_FCS
  | PORT_RX_OVERSIZE | PORT_RX_BUF_DROPS | PORT_RX_DISCARDED | PORT_PAUSE_RX | PORT_PAUSE_TX | PORT_TX_LATE
  | PORT_ALG_MISMATCH | PORT_PRP_WRONG_LAN | PORT_PRP_SEQ | CAL_STAT | CAL_FRAMES | CAL_LATE
  | CAL_MAX_LAT | CAL_DISAGREE | FB_STAT | RNG_CTL | RNG_STATUS | RNG_BANKS
  | RNG_SEEDS | RNG_RESEEDS | RNG_REQS | RNG_BORROW | RNG_RETRY | RNG_WAIT
  | RNG_BANK_FAILS | DKL_CTL | DKL_STAT | DKL_REFUSED | DKL_HOLD_TO | DKL_SPLIT
  | DKL_HELD_TOTAL | DKL_LAST | DKL_RGN_BASE | DKL_RGN_SIZE | DKL_RGN_RD | DKL_RGN_WR
  | DGE_CTL | DGE_STAT | DGE_COUNT | DGE_DATA | DGE_FIN_SEQ | DGE_LAST_LEN
  | DGE_BLOCKS | DGE_RESTARTS | DGE_DIGEST | DGE_EXPECT | DGE_CMP | DGE_VERDICT_A
  | DGE_VERDICT_B | LIE_CFG | LIE_STATE | LIE_SLOT_SEL | LIE_CMD | LIE_DONE
  | LIE_JOBS | LIE_REFUSED | LIE_CLEARED | LIE_ECC | LIE_WINDOW | KS_GRANULES
  | KS_STATE | KS_REMASK | KS_ECC | KS_JOB_KEYS | KS_ROOT | DUPLEX_STATUS
  | DUPLEX_EPOCH | DUPLEX_LAG | DUPLEX_TX_SEQ | DUPLEX_RX_SEQ | DUPLEX_ERRORS | RING_CFG
  | RING_STATE | RING_HDR_ADDR | RING_BASE | RING_ARB | RING_INT | RING_TIME
  | RING_BIND | RING_TIDX | RING_DIDX | RING_FETCH | RING_OUTSTANDING | RING_DL_FAULTS
  | RING_DROPS | RING_ERR_INFO | TI_STATUS | TI_RING | TI_STREAM | TI_IMT
  | TI_KEY_QUOTA | TI_KEY_USED | TI_KEY_TOP | TI_KEY_HOME | TI_DB_REJECT | TI_BUF_FAULTS
  | TI_DL_FAULTS | TI_SCHED | TI_WIN_BASE | TI_WIN_CTL | TI_RESV | IMT_ADDR
  | IMT_DATA | IMT_CTL
deriving DecidableEq, Repr

/-- Whether PF0 may write a register (the PF0 column of R490): never, always, or while its engine is in DIAG. -/
inductive Pf0Right where
  | none | write | diag
deriving DecidableEq, Repr

/-- One register's row: BAR0 offset, the counts and strides of its indices (outermost first), width in bits,
PF0 right, and the bits that carry each access code of R12. -/
structure RegRow where
  base : Nat
  dims : List (Nat × Nat)
  width : Nat
  pf0 : Pf0Right
  rw : Nat
  wo : Nat
  w1c : Nat
  w1s : Nat
  rc : Nat
deriving DecidableEq, Repr

/-- The row of each register (Tables 19.3 to 19.12). -/
def regRow : RegKind → RegRow
  | .DEV_ID => ⟨0x0, [], 32, .none, 0x0, 0x0, 0x0, 0x0, 0x0⟩
  | .DEV_MODE => ⟨0x100, [], 32, .none, 0x0, 0x0, 0x0, 0x0, 0x0⟩
  | .DEV_READY => ⟨0x104, [], 32, .none, 0x0, 0x0, 0x0, 0x0, 0x0⟩
  | .DEV_BOOT => ⟨0x108, [], 32, .none, 0x0, 0x0, 0x0, 0x0, 0x0⟩
  | .DEV_RESET_CAUSE => ⟨0x10c, [], 32, .write, 0x0, 0x0, 0x1f, 0x0, 0x0⟩
  | .DEV_FW_SLOT => ⟨0x110, [], 32, .none, 0x0, 0x0, 0x0, 0x0, 0x0⟩
  | .DEV_HOLD => ⟨0x114, [], 32, .none, 0x0, 0x0, 0x0, 0x0, 0xffff0000⟩
  | .DEV_READY_MAP => ⟨0x140, [(8, 0x4)], 32, .none, 0x0, 0x0, 0x0, 0x0, 0x0⟩
  | .DEV_READY_VC => ⟨0x160, [(8, 0x4)], 32, .none, 0x0, 0x0, 0x0, 0x0, 0x0⟩
  | .PWR_CAP => ⟨0x200, [], 32, .write, 0x1ff, 0x0, 0x0, 0x0, 0x0⟩
  | .PWR_STAT => ⟨0x204, [], 32, .none, 0x0, 0x0, 0x0, 0x0, 0x0⟩
  | .PWR_DIE => ⟨0x210, [(8, 0x4)], 32, .none, 0x0, 0x0, 0x0, 0x0, 0x0⟩
  | .PWR_PMB => ⟨0x230, [], 32, .write, 0x7f, 0x0, 0x0, 0x0, 0xff00⟩
  | .THM_TEMP => ⟨0x300, [(9, 0x4)], 32, .none, 0x0, 0x0, 0x0, 0x0, 0x0⟩
  | .THM_CTL => ⟨0x340, [], 32, .write, 0xff, 0x0, 0x0, 0x0, 0x0⟩
  | .THM_STAT => ⟨0x344, [], 32, .none, 0x0, 0x0, 0x0, 0x0, 0xffff0000⟩
  | .MBX_DOORBELL => ⟨0x10000, [], 32, .write, 0x0, 0x1, 0x0, 0x0, 0x0⟩
  | .MBX_STATUS => ⟨0x10004, [], 32, .write, 0x0, 0x0, 0x6, 0x0, 0x0⟩
  | .MBX_CTL => ⟨0x10008, [], 32, .write, 0x1, 0x0, 0x0, 0x2, 0x0⟩
  | .MBX_TIMEOUT => ⟨0x1000c, [], 32, .write, 0xffff, 0x0, 0x0, 0x0, 0x0⟩
  | .MBX_COUNT => ⟨0x10010, [], 32, .none, 0x0, 0x0, 0x0, 0x0, 0xffffffff⟩
  | .MBX_CMD => ⟨0x14000, [(4096, 0x4)], 32, .write, 0xffffffff, 0x0, 0x0, 0x0, 0x0⟩
  | .MBX_RSP => ⟨0x18000, [(4096, 0x4)], 32, .none, 0x0, 0x0, 0x0, 0x0, 0x0⟩
  | .EVR_CURSOR => ⟨0x20000, [], 32, .write, 0x1f001fff, 0x0, 0x0, 0x0, 0x0⟩
  | .EVR_STATUS => ⟨0x20004, [], 32, .none, 0x0, 0x0, 0x0, 0x0, 0x0⟩
  | .EVR_INT => ⟨0x20008, [], 32, .write, 0x0, 0x0, 0x7, 0x0, 0x0⟩
  | .EVR_INT_EN => ⟨0x2000c, [], 32, .write, 0x7, 0x0, 0x0, 0x0, 0x0⟩
  | .EVR_WINDOW => ⟨0x20010, [(8, 0x4)], 32, .none, 0x0, 0x0, 0x0, 0x0, 0x0⟩
  | .EVR_OVERWRITE => ⟨0x20030, [], 32, .none, 0x0, 0x0, 0x0, 0x0, 0xffffffff⟩
  | .EVR_SEQ => ⟨0x20040, [], 32, .none, 0x0, 0x0, 0x0, 0x0, 0x0⟩
  | .EVR_AO_NOW => ⟨0x20048, [], 64, .none, 0x0, 0x0, 0x0, 0x0, 0x0⟩
  | .EVR_COUNT => ⟨0x20100, [(32, 0x4)], 32, .none, 0x0, 0x0, 0x0, 0x0, 0x0⟩
  | .EVR_LOST => ⟨0x20200, [(32, 0x4)], 32, .none, 0x0, 0x0, 0x0, 0x0, 0xffffffff⟩
  | .EVR_DROPPED => ⟨0x20280, [(32, 0x4)], 32, .none, 0x0, 0x0, 0x0, 0x0, 0xffffffff⟩
  | .EVR_THRESH => ⟨0x20300, [(32, 0x4)], 32, .write, 0x3fff, 0x0, 0x0, 0x0, 0x0⟩
  | .EVR_THRESH_HIT => ⟨0x20380, [], 32, .write, 0x0, 0x0, 0xffffffff, 0x0, 0x0⟩
  | .TIME_CTL => ⟨0x30000, [], 32, .write, 0x3ff0007, 0x0, 0x0, 0x0, 0x0⟩
  | .TIME_NOW => ⟨0x30008, [], 64, .none, 0x0, 0x0, 0x0, 0x0, 0x0⟩
  | .TIME_NOW_FRAC => ⟨0x30010, [], 32, .none, 0x0, 0x0, 0x0, 0x0, 0x0⟩
  | .TIME_SET => ⟨0x30018, [], 64, .write, 0x0, 0xffffffffffffffff, 0x0, 0x0, 0x0⟩
  | .TIME_STEP => ⟨0x30020, [], 64, .write, 0x0, 0xffffffffffffffff, 0x0, 0x0, 0x0⟩
  | .TIME_INCR => ⟨0x30028, [], 64, .write, 0xffffffffffff, 0x0, 0x0, 0x0, 0x0⟩
  | .TIME_SLEW => ⟨0x30030, [], 32, .write, 0xffffffff, 0x0, 0x0, 0x0, 0x0⟩
  | .TIME_PPS_IN => ⟨0x30038, [], 64, .none, 0x0, 0x0, 0x0, 0x0, 0x0⟩
  | .TIME_PPS_OUT => ⟨0x30040, [], 32, .write, 0xffffffff, 0x0, 0x0, 0x0, 0x0⟩
  | .TIME_TARGET => ⟨0x30048, [], 64, .write, 0xffffffffffffffff, 0x0, 0x0, 0x0, 0x0⟩
  | .TIME_INT => ⟨0x30050, [], 32, .write, 0x0, 0x0, 0xf, 0x0, 0x0⟩
  | .TIME_INT_EN => ⟨0x30054, [], 32, .write, 0xf, 0x0, 0x0, 0x0, 0x0⟩
  | .LCS_STATE => ⟨0x40000, [], 32, .none, 0x0, 0x0, 0x0, 0x0, 0x0⟩
  | .LCS_REQUEST => ⟨0x40004, [], 32, .write, 0x0, 0xf, 0x0, 0x0, 0x0⟩
  | .LCS_STATUS => ⟨0x40008, [], 32, .none, 0x0, 0x0, 0x2, 0x0, 0x0⟩
  | .LCS_PERMIT => ⟨0x4000c, [], 32, .none, 0x0, 0x0, 0x0, 0x0, 0x0⟩
  | .LCS_OTP_LEFT => ⟨0x40010, [], 32, .none, 0x0, 0x0, 0x0, 0x0, 0x0⟩
  | .LCS_OWNER => ⟨0x40014, [], 32, .none, 0x0, 0x0, 0x0, 0x0, 0x0⟩
  | .DBG_STATE => ⟨0x40100, [], 32, .none, 0x0, 0x0, 0x0, 0x0, 0x0⟩
  | .DBG_EXPIRY => ⟨0x40108, [], 64, .none, 0x0, 0x0, 0x0, 0x0, 0x0⟩
  | .DBG_FAILS => ⟨0x40110, [], 32, .none, 0x0, 0x0, 0x0, 0x0, 0x0⟩
  | .DBG_CHAL_TTL => ⟨0x40114, [], 32, .write, 0xfff, 0x0, 0x0, 0x0, 0x0⟩
  | .PROT_COND => ⟨0x40200, [], 32, .none, 0x0, 0x0, 0x0, 0x0, 0x0⟩
  | .PROT_ALARM => ⟨0x40204, [], 32, .write, 0x0, 0x0, 0x3ffffff, 0x0, 0x0⟩
  | .PROT_TAMPER_CFG => ⟨0x40208, [], 32, .none, 0x0, 0x0, 0x0, 0x0, 0x0⟩
  | .PROT_LOOP_ERR => ⟨0x40210, [], 32, .none, 0x0, 0x0, 0x0, 0x0, 0xffffffff⟩
  | .PROT_BIST_RESULT => ⟨0x40218, [], 64, .none, 0x0, 0x0, 0x0, 0x0, 0x0⟩
  | .PROT_BIST_STAT => ⟨0x40220, [], 32, .write, 0x0, 0x0, 0x2, 0x0, 0xffff0000⟩
  | .PROT_BIC => ⟨0x40230, [], 32, .none, 0x0, 0x0, 0x0, 0x0, 0xffff0000⟩
  | .PROT_ERASE => ⟨0x40238, [], 32, .none, 0x0, 0x0, 0x0, 0x0, 0x0⟩
  | .PROT_F2 => ⟨0x4023c, [], 32, .none, 0x0, 0x0, 0x0, 0x0, 0xffff⟩
  | .PROT_VTHR => ⟨0x40240, [(3, 0x8)], 64, .none, 0x0, 0x0, 0x0, 0x0, 0x0⟩
  | .PROT_MAP => ⟨0x40280, [(26, 0x4)], 32, .none, 0x0, 0x0, 0x0, 0x0, 0x0⟩
  | .DIE_SCHED_STATE => ⟨0x100100, [(8, 0x100000)], 32, .none, 0x0, 0x0, 0x0, 0x0, 0x0⟩
  | .DIE_SCHED_CLASS => ⟨0x100104, [(8, 0x100000), (4, 0x4)], 32, .none, 0x0, 0x0, 0x0, 0x0, 0x0⟩
  | .DIE_SCHED_LOAD => ⟨0x100114, [(8, 0x100000)], 32, .none, 0x0, 0x0, 0x0, 0x0, 0x0⟩
  | .DIE_SCHED_HOLD => ⟨0x100118, [(8, 0x100000)], 32, .none, 0x0, 0x0, 0x0, 0x0, 0x0⟩
  | .DIE_VC_CLOCK => ⟨0x100140, [(8, 0x100000), (16, 0x4)], 32, .none, 0x0, 0x0, 0x0, 0x0, 0x0⟩
  | .CLU_GOLD_STAT => ⟨0x110010, [(8, 0x100000), (2, 0x10000)], 32, .none, 0x0, 0x0, 0x0, 0x0, 0xffff0000⟩
  | .VC_MGEN_STAT => ⟨0x110400, [(8, 0x100000), (2, 0x10000), (8, 0x40)], 32, .none, 0x0, 0x0, 0x0, 0x0, 0x0⟩
  | .VC_MGEN_BLOCKS => ⟨0x110404, [(8, 0x100000), (2, 0x10000), (8, 0x40)], 32, .none, 0x0, 0x0, 0x0, 0x0, 0x0⟩
  | .VC_MGEN_RESEEDS => ⟨0x110408, [(8, 0x100000), (2, 0x10000), (8, 0x40)], 32, .none, 0x0, 0x0, 0x0, 0x0, 0xffffffff⟩
  | .VC_FAULTS => ⟨0x11040c, [(8, 0x100000), (2, 0x10000), (8, 0x40)], 32, .none, 0x0, 0x0, 0x0, 0x0, 0xffffffff⟩
  | .VC_STATE => ⟨0x110410, [(8, 0x100000), (2, 0x10000), (8, 0x40)], 32, .none, 0x0, 0x0, 0x0, 0x0, 0x0⟩
  | .VC_SEG => ⟨0x110414, [(8, 0x100000), (2, 0x10000), (8, 0x40), (4, 0x4)], 32, .none, 0x0, 0x0, 0x0, 0x0, 0x0⟩
  | .VC_MC_COUNT => ⟨0x110424, [(8, 0x100000), (2, 0x10000), (8, 0x40)], 32, .none, 0x0, 0x0, 0x0, 0x0, 0xffffffff⟩
  | .VC_MC_LAST => ⟨0x110428, [(8, 0x100000), (2, 0x10000), (8, 0x40)], 32, .none, 0x0, 0x0, 0x0, 0x0, 0x0⟩
  | .VC_CS_SCRUB => ⟨0x11042c, [(8, 0x100000), (2, 0x10000), (8, 0x40)], 32, .none, 0x80000000, 0x0, 0x0, 0x0, 0x0⟩
  | .VC_YIELD_MAX => ⟨0x110430, [(8, 0x100000), (2, 0x10000), (8, 0x40)], 32, .none, 0x0, 0x0, 0x0, 0x0, 0xfff⟩
  | .VC_RUN_CYCLES => ⟨0x110434, [(8, 0x100000), (2, 0x10000), (8, 0x40)], 32, .none, 0x0, 0x0, 0x0, 0x0, 0x0⟩
  | .PORT_CFG => ⟨0x130000, [(8, 0x100000), (16, 0x1000)], 32, .none, 0x0, 0x0, 0x0, 0x0, 0x0⟩
  | .PORT_STATUS => ⟨0x130004, [(8, 0x100000), (16, 0x1000)], 32, .write, 0x0, 0x0, 0x2, 0x0, 0x0⟩
  | .PORT_RINGS => ⟨0x130008, [(8, 0x100000), (16, 0x1000)], 64, .none, 0x0, 0x0, 0x0, 0x0, 0x0⟩
  | .PORT_TS_RX_ADJ => ⟨0x130010, [(8, 0x100000), (16, 0x1000)], 32, .write, 0xffff, 0x0, 0x0, 0x0, 0x0⟩
  | .PORT_TS_TX_ADJ => ⟨0x130014, [(8, 0x100000), (16, 0x1000)], 32, .write, 0xffff, 0x0, 0x0, 0x0, 0x0⟩
  | .PORT_RX_FRAMES => ⟨0x130020, [(8, 0x100000), (16, 0x1000)], 64, .none, 0x0, 0x0, 0x0, 0x0, 0x0⟩
  | .PORT_RX_BYTES => ⟨0x130028, [(8, 0x100000), (16, 0x1000)], 64, .none, 0x0, 0x0, 0x0, 0x0, 0x0⟩
  | .PORT_TX_FRAMES => ⟨0x130030, [(8, 0x100000), (16, 0x1000)], 64, .none, 0x0, 0x0, 0x0, 0x0, 0x0⟩
  | .PORT_TX_BYTES => ⟨0x130038, [(8, 0x100000), (16, 0x1000)], 64, .none, 0x0, 0x0, 0x0, 0x0, 0x0⟩
  | .PORT_RX_FCS => ⟨0x130040, [(8, 0x100000), (16, 0x1000)], 32, .none, 0x0, 0x0, 0x0, 0x0, 0xffffffff⟩
  | .PORT_RX_OVERSIZE => ⟨0x130044, [(8, 0x100000), (16, 0x1000)], 32, .none, 0x0, 0x0, 0x0, 0x0, 0xffffffff⟩
  | .PORT_RX_BUF_DROPS => ⟨0x130048, [(8, 0x100000), (16, 0x1000)], 32, .none, 0x0, 0x0, 0x0, 0x0, 0xffffffff⟩
  | .PORT_RX_DISCARDED => ⟨0x13004c, [(8, 0x100000), (16, 0x1000)], 32, .none, 0x0, 0x0, 0x0, 0x0, 0xffffffff⟩
  | .PORT_PAUSE_RX => ⟨0x130050, [(8, 0x100000), (16, 0x1000)], 32, .none, 0x0, 0x0, 0x0, 0x0, 0xffffffff⟩
  | .PORT_PAUSE_TX => ⟨0x130054, [(8, 0x100000), (16, 0x1000)], 32, .none, 0x0, 0x0, 0x0, 0x0, 0xffffffff⟩
  | .PORT_TX_LATE => ⟨0x130058, [(8, 0x100000), (16, 0x1000)], 32, .none, 0x0, 0x0, 0x0, 0x0, 0xffffffff⟩
  | .PORT_ALG_MISMATCH => ⟨0x13005c, [(8, 0x100000), (16, 0x1000)], 32, .none, 0x0, 0x0, 0x0, 0x0, 0xffffffff⟩
  | .PORT_PRP_WRONG_LAN => ⟨0x130060, [(8, 0x100000), (16, 0x1000)], 32, .none, 0x0, 0x0, 0x0, 0x0, 0xffffffff⟩
  | .PORT_PRP_SEQ => ⟨0x130064, [(8, 0x100000), (16, 0x1000)], 32, .none, 0x0, 0x0, 0x0, 0x0, 0x0⟩
  | .CAL_STAT => ⟨0x140000, [(8, 0x100000), (4, 0x400)], 32, .none, 0x0, 0x0, 0x0, 0x0, 0x0⟩
  | .CAL_FRAMES => ⟨0x140008, [(8, 0x100000), (4, 0x400)], 64, .none, 0x0, 0x0, 0x0, 0x0, 0x0⟩
  | .CAL_LATE => ⟨0x140010, [(8, 0x100000), (4, 0x400)], 32, .none, 0x0, 0x0, 0x0, 0x0, 0xffffffff⟩
  | .CAL_MAX_LAT => ⟨0x140014, [(8, 0x100000), (4, 0x400)], 32, .none, 0x0, 0x0, 0x0, 0x0, 0xffffffff⟩
  | .CAL_DISAGREE => ⟨0x140018, [(8, 0x100000), (4, 0x400)], 32, .none, 0x0, 0x0, 0x0, 0x0, 0xffffffff⟩
  | .FB_STAT => ⟨0x141000, [(8, 0x100000)], 32, .none, 0x0, 0x0, 0x0, 0x0, 0xffff0000⟩
  | .RNG_CTL => ⟨0x150000, [(8, 0x100000)], 32, .none, 0x7, 0x0, 0x0, 0x0, 0x0⟩
  | .RNG_STATUS => ⟨0x150004, [(8, 0x100000)], 32, .none, 0x0, 0x0, 0x0, 0x0, 0x0⟩
  | .RNG_BANKS => ⟨0x150008, [(8, 0x100000)], 32, .none, 0x0, 0x0, 0x0, 0x0, 0x0⟩
  | .RNG_SEEDS => ⟨0x15000c, [(8, 0x100000)], 32, .none, 0x0, 0x0, 0x0, 0x0, 0x0⟩
  | .RNG_RESEEDS => ⟨0x150010, [(8, 0x100000)], 32, .none, 0x0, 0x0, 0x0, 0x0, 0xffffffff⟩
  | .RNG_REQS => ⟨0x150014, [(8, 0x100000)], 32, .none, 0x0, 0x0, 0x0, 0x0, 0x0⟩
  | .RNG_BORROW => ⟨0x150018, [(8, 0x100000)], 32, .none, 0x0, 0x0, 0x0, 0x0, 0xffff⟩
  | .RNG_RETRY => ⟨0x15001c, [(8, 0x100000)], 32, .none, 0x0, 0x0, 0x0, 0x0, 0x0⟩
  | .RNG_WAIT => ⟨0x150020, [(8, 0x100000), (3, 0x4)], 32, .none, 0x0, 0x0, 0x0, 0x0, 0xffff0000⟩
  | .RNG_BANK_FAILS => ⟨0x150040, [(8, 0x100000), (7, 0x4)], 32, .none, 0x0, 0x0, 0x0, 0x0, 0xffffffff⟩
  | .DKL_CTL => ⟨0x160000, [(8, 0x100000), (8, 0x800)], 32, .none, 0x1, 0x0, 0x0, 0x0, 0x0⟩
  | .DKL_STAT => ⟨0x160004, [(8, 0x100000), (8, 0x800)], 32, .none, 0x0, 0x0, 0x1, 0x0, 0x0⟩
  | .DKL_REFUSED => ⟨0x160008, [(8, 0x100000), (8, 0x800)], 32, .none, 0x0, 0x0, 0x0, 0x0, 0xffffffff⟩
  | .DKL_HOLD_TO => ⟨0x16000c, [(8, 0x100000), (8, 0x800)], 32, .none, 0x0, 0x0, 0x0, 0x0, 0xffffffff⟩
  | .DKL_SPLIT => ⟨0x160010, [(8, 0x100000), (8, 0x800)], 32, .none, 0x0, 0x0, 0x0, 0x0, 0xffffffff⟩
  | .DKL_HELD_TOTAL => ⟨0x160014, [(8, 0x100000), (8, 0x800)], 32, .none, 0x0, 0x0, 0x0, 0x0, 0xffffffff⟩
  | .DKL_LAST => ⟨0x160018, [(8, 0x100000), (8, 0x800)], 64, .none, 0x0, 0x0, 0x0, 0x0, 0x0⟩
  | .DKL_RGN_BASE => ⟨0x160100, [(8, 0x100000), (8, 0x800), (16, 0x40)], 32, .none, 0xffffffff, 0x0, 0x0, 0x0, 0x0⟩
  | .DKL_RGN_SIZE => ⟨0x160104, [(8, 0x100000), (8, 0x800), (16, 0x40)], 32, .none, 0xffffffff, 0x0, 0x0, 0x0, 0x0⟩
  | .DKL_RGN_RD => ⟨0x160110, [(8, 0x100000), (8, 0x800), (16, 0x40), (4, 0x4)], 32, .none, 0xffffffff, 0x0, 0x0, 0x0, 0x0⟩
  | .DKL_RGN_WR => ⟨0x160120, [(8, 0x100000), (8, 0x800), (16, 0x40), (4, 0x4)], 32, .none, 0xffffffff, 0x0, 0x0, 0x0, 0x0⟩
  | .DGE_CTL => ⟨0x170000, [(8, 0x100000), (4, 0x400)], 32, .none, 0x300f, 0x300, 0x0, 0x0, 0x0⟩
  | .DGE_STAT => ⟨0x170004, [(8, 0x100000), (4, 0x400)], 32, .none, 0x0, 0x0, 0x200, 0x0, 0x0⟩
  | .DGE_COUNT => ⟨0x170008, [(8, 0x100000), (4, 0x400)], 64, .none, 0x0, 0x0, 0x0, 0x0, 0x0⟩
  | .DGE_DATA => ⟨0x170010, [(8, 0x100000), (4, 0x400)], 32, .none, 0x0, 0xffffffff, 0x0, 0x0, 0x0⟩
  | .DGE_FIN_SEQ => ⟨0x170018, [(8, 0x100000), (4, 0x400)], 32, .none, 0x0, 0x0, 0x0, 0x0, 0x0⟩
  | .DGE_LAST_LEN => ⟨0x170020, [(8, 0x100000), (4, 0x400)], 64, .none, 0x0, 0x0, 0x0, 0x0, 0x0⟩
  | .DGE_BLOCKS => ⟨0x170028, [(8, 0x100000), (4, 0x400)], 32, .none, 0x0, 0x0, 0x0, 0x0, 0xffffffff⟩
  | .DGE_RESTARTS => ⟨0x17002c, [(8, 0x100000), (4, 0x400)], 32, .none, 0x0, 0x0, 0x0, 0x0, 0xffffffff⟩
  | .DGE_DIGEST => ⟨0x170040, [(8, 0x100000), (4, 0x400), (16, 0x4)], 32, .none, 0x0, 0x0, 0x0, 0x0, 0x0⟩
  | .DGE_EXPECT => ⟨0x170080, [(8, 0x100000), (4, 0x400), (16, 0x4)], 32, .none, 0xffffffff, 0x0, 0x0, 0x0, 0x0⟩
  | .DGE_CMP => ⟨0x1700c0, [(8, 0x100000), (4, 0x400)], 32, .none, 0x7f, 0x100, 0x0, 0x0, 0x0⟩
  | .DGE_VERDICT_A => ⟨0x1700c4, [(8, 0x100000), (4, 0x400)], 32, .none, 0x0, 0x0, 0x0, 0x0, 0x0⟩
  | .DGE_VERDICT_B => ⟨0x1700c8, [(8, 0x100000), (4, 0x400)], 32, .none, 0x0, 0x0, 0x0, 0x0, 0x0⟩
  | .LIE_CFG => ⟨0x180000, [(8, 0x100000), (2, 0x8000)], 32, .diag, 0xff, 0x0, 0x0, 0x0, 0x0⟩
  | .LIE_STATE => ⟨0x180004, [(8, 0x100000), (2, 0x8000)], 32, .none, 0x0, 0x0, 0x0, 0x0, 0x0⟩
  | .LIE_SLOT_SEL => ⟨0x180008, [(8, 0x100000), (2, 0x8000)], 32, .diag, 0x7ff, 0x0, 0x0, 0x0, 0x0⟩
  | .LIE_CMD => ⟨0x18000c, [(8, 0x100000), (2, 0x8000)], 32, .diag, 0x0, 0x7ff7ff, 0x0, 0x0, 0x0⟩
  | .LIE_DONE => ⟨0x180010, [(8, 0x100000), (2, 0x8000)], 32, .diag, 0x0, 0x0, 0x3, 0x0, 0x0⟩
  | .LIE_JOBS => ⟨0x180014, [(8, 0x100000), (2, 0x8000)], 32, .none, 0x0, 0x0, 0x0, 0x0, 0xffffffff⟩
  | .LIE_REFUSED => ⟨0x180018, [(8, 0x100000), (2, 0x8000)], 32, .none, 0x0, 0x0, 0x0, 0x0, 0xffffffff⟩
  | .LIE_CLEARED => ⟨0x18001c, [(8, 0x100000), (2, 0x8000)], 32, .none, 0x0, 0x0, 0x0, 0x0, 0xffffffff⟩
  | .LIE_ECC => ⟨0x180020, [(8, 0x100000), (2, 0x8000)], 32, .none, 0x0, 0x0, 0x0, 0x0, 0xffffffff⟩
  | .LIE_WINDOW => ⟨0x181000, [(8, 0x100000), (2, 0x8000), (144, 0x8)], 64, .diag, 0xffffffffffffffff, 0x0, 0x0, 0x0, 0x0⟩
  | .KS_GRANULES => ⟨0x190000, [(8, 0x100000)], 32, .none, 0x0, 0x0, 0x0, 0x0, 0x0⟩
  | .KS_STATE => ⟨0x190004, [(8, 0x100000)], 32, .none, 0x0, 0x0, 0x0, 0x0, 0x0⟩
  | .KS_REMASK => ⟨0x190008, [(8, 0x100000)], 32, .none, 0x0, 0x0, 0x0, 0x0, 0xffffffff⟩
  | .KS_ECC => ⟨0x19000c, [(8, 0x100000)], 32, .none, 0x0, 0x0, 0x0, 0x0, 0xffffffff⟩
  | .KS_JOB_KEYS => ⟨0x190010, [(8, 0x100000)], 32, .none, 0x0, 0x0, 0x0, 0x0, 0xffffffff⟩
  | .KS_ROOT => ⟨0x190100, [], 32, .none, 0x0, 0x0, 0x0, 0x0, 0x0⟩
  | .DUPLEX_STATUS => ⟨0x190104, [], 32, .none, 0x0, 0x0, 0x0, 0x0, 0x0⟩
  | .DUPLEX_EPOCH => ⟨0x190108, [], 32, .none, 0x0, 0x0, 0x0, 0x0, 0x0⟩
  | .DUPLEX_LAG => ⟨0x19010c, [], 32, .none, 0x0, 0x0, 0x0, 0x0, 0x0⟩
  | .DUPLEX_TX_SEQ => ⟨0x190110, [], 64, .none, 0x0, 0x0, 0x0, 0x0, 0x0⟩
  | .DUPLEX_RX_SEQ => ⟨0x190118, [], 64, .none, 0x0, 0x0, 0x0, 0x0, 0x0⟩
  | .DUPLEX_ERRORS => ⟨0x190120, [], 32, .none, 0x0, 0x0, 0x0, 0x0, 0xffffffff⟩
  | .RING_CFG => ⟨0x1000000, [(16384, 0x400)], 32, .none, 0x0, 0x0, 0x0, 0x0, 0x0⟩
  | .RING_STATE => ⟨0x1000004, [(16384, 0x400)], 32, .none, 0x0, 0x0, 0x0, 0x0, 0x0⟩
  | .RING_HDR_ADDR => ⟨0x1000008, [(16384, 0x400)], 64, .none, 0x0, 0x0, 0x0, 0x0, 0x0⟩
  | .RING_BASE => ⟨0x1000010, [(16384, 0x400)], 64, .none, 0x0, 0x0, 0x0, 0x0, 0x0⟩
  | .RING_ARB => ⟨0x1000018, [(16384, 0x400)], 32, .none, 0x0, 0x0, 0x0, 0x0, 0x0⟩
  | .RING_INT => ⟨0x100001c, [(16384, 0x400)], 32, .none, 0x0, 0x0, 0x0, 0x0, 0x0⟩
  | .RING_TIME => ⟨0x1000020, [(16384, 0x400)], 32, .none, 0x0, 0x0, 0x0, 0x0, 0x0⟩
  | .RING_BIND => ⟨0x1000028, [(16384, 0x400)], 64, .none, 0x0, 0x0, 0x0, 0x0, 0x0⟩
  | .RING_TIDX => ⟨0x1000030, [(16384, 0x400)], 32, .none, 0x0, 0x0, 0x0, 0x0, 0x0⟩
  | .RING_DIDX => ⟨0x1000034, [(16384, 0x400)], 32, .none, 0x0, 0x0, 0x0, 0x0, 0x0⟩
  | .RING_FETCH => ⟨0x1000038, [(16384, 0x400)], 32, .none, 0x0, 0x0, 0x0, 0x0, 0x0⟩
  | .RING_OUTSTANDING => ⟨0x100003c, [(16384, 0x400)], 32, .none, 0x0, 0x0, 0x0, 0x0, 0x0⟩
  | .RING_DL_FAULTS => ⟨0x1000040, [(16384, 0x400)], 32, .none, 0x0, 0x0, 0x0, 0x0, 0xffffffff⟩
  | .RING_DROPS => ⟨0x1000044, [(16384, 0x400)], 32, .none, 0x0, 0x0, 0x0, 0x0, 0xffffffff⟩
  | .RING_ERR_INFO => ⟨0x1000048, [(16384, 0x400)], 64, .none, 0x0, 0x0, 0x0, 0x0, 0x0⟩
  | .TI_STATUS => ⟨0x2000000, [(1024, 0x1000)], 32, .none, 0x0, 0x0, 0x0, 0x0, 0x0⟩
  | .TI_RING => ⟨0x2000010, [(1024, 0x1000)], 32, .none, 0x0, 0x0, 0x0, 0x0, 0x0⟩
  | .TI_STREAM => ⟨0x2000014, [(1024, 0x1000)], 32, .none, 0x0, 0x0, 0x0, 0x0, 0x0⟩
  | .TI_IMT => ⟨0x2000018, [(1024, 0x1000)], 32, .none, 0x0, 0x0, 0x0, 0x0, 0x0⟩
  | .TI_KEY_QUOTA => ⟨0x2000020, [(1024, 0x1000)], 32, .none, 0x0, 0x0, 0x0, 0x0, 0x0⟩
  | .TI_KEY_USED => ⟨0x2000024, [(1024, 0x1000)], 32, .none, 0x0, 0x0, 0x0, 0x0, 0x0⟩
  | .TI_KEY_TOP => ⟨0x2000028, [(1024, 0x1000)], 32, .none, 0x0, 0x0, 0x0, 0x0, 0x0⟩
  | .TI_KEY_HOME => ⟨0x200002c, [(1024, 0x1000)], 32, .none, 0x0, 0x0, 0x0, 0x0, 0x0⟩
  | .TI_DB_REJECT => ⟨0x2000030, [(1024, 0x1000)], 32, .none, 0x0, 0x0, 0x0, 0x0, 0xffffffff⟩
  | .TI_BUF_FAULTS => ⟨0x2000034, [(1024, 0x1000)], 32, .none, 0x0, 0x0, 0x0, 0x0, 0xffffffff⟩
  | .TI_DL_FAULTS => ⟨0x2000038, [(1024, 0x1000)], 32, .none, 0x0, 0x0, 0x0, 0x0, 0xffffffff⟩
  | .TI_SCHED => ⟨0x200003c, [(1024, 0x1000)], 32, .none, 0x0, 0x0, 0x0, 0x0, 0x0⟩
  | .TI_WIN_BASE => ⟨0x2000100, [(1024, 0x1000), (16, 0x10)], 64, .none, 0x0, 0x0, 0x0, 0x0, 0x0⟩
  | .TI_WIN_CTL => ⟨0x2000108, [(1024, 0x1000), (16, 0x10)], 32, .none, 0x0, 0x0, 0x0, 0x0, 0x0⟩
  | .TI_RESV => ⟨0x2000200, [(1024, 0x1000), (8, 0x4)], 32, .none, 0x0, 0x0, 0x0, 0x0, 0x0⟩
  | .IMT_ADDR => ⟨0x2400000, [(4096, 0x10)], 64, .write, 0xfffffffffffffffc, 0x0, 0x0, 0x0, 0x0⟩
  | .IMT_DATA => ⟨0x2400008, [(4096, 0x10)], 32, .write, 0xffffffff, 0x0, 0x0, 0x0, 0x0⟩
  | .IMT_CTL => ⟨0x240000c, [(4096, 0x10)], 32, .write, 0x1, 0x0, 0x0, 0x0, 0x0⟩

/-- The quotas of the recorder's channels after reset (Table 17.1). -/
def evrDefaultQuota (c : Nat) : Nat :=
  if c ≤ 13 then 512 else if c = 30 then 1024 else if c = 31 then 256 else 0

/-- The whole-register reset value (the Reset column of R490) of register `k` at index `i`, by variant and grade. -/
def regReset (p : Part) (g : Grade) (k : RegKind) (i : Nat) : Nat :=
  match k with
  | .DEV_ID => p.device * 0x10000 + p.dies * 0x100 + 0xB1
  | .DEV_MODE => 1
  | .PWR_CAP => p.tdp
  | .PWR_DIE => 0x00352000
  | .PWR_PMB => 0x40
  | .THM_CTL => g.limit - 5
  | .MBX_CTL => 1
  | .MBX_TIMEOUT => 0x3E8
  | .EVR_INT_EN => 7
  | .EVR_SEQ => 1
  | .EVR_COUNT => evrDefaultQuota i * 0x10000
  | .TIME_CTL => 0x00640000
  | .TIME_INCR => 0x0000800000000000
  | .TIME_PPS_OUT => 0x19000000
  | .LCS_OTP_LEFT => 0x00401004
  | .DBG_CHAL_TTL => 0x3C
  | .DIE_SCHED_STATE => 0x0BB80000
  | .DIE_SCHED_HOLD => 4
  | .VC_STATE => 0xFF000000
  | .VC_CS_SCRUB => 0x80000000
  | .PORT_RINGS => 0x0000FFFFFFFFFFFF
  | .RNG_CTL => 6
  | .RNG_RETRY => 0x64
  | .RNG_WAIT => 0xC8
  | .DKL_CTL => 3 + 0x10 * (i % 8)
  | .DGE_CTL => 0x3001
  | .DGE_CMP => 0x20
  | .LIE_CFG => 0x00E30024
  | .IMT_CTL => 1
  | _ => 0

/-- Part 0 of `allRegKinds`. -/
def regKinds0 : List RegKind :=
  [.DEV_ID, .DEV_MODE, .DEV_READY, .DEV_BOOT, .DEV_RESET_CAUSE, .DEV_FW_SLOT, .DEV_HOLD, .DEV_READY_MAP, .DEV_READY_VC, .PWR_CAP, .PWR_STAT, .PWR_DIE, .PWR_PMB, .THM_TEMP, .THM_CTL, .THM_STAT, .MBX_DOORBELL, .MBX_STATUS, .MBX_CTL, .MBX_TIMEOUT]

/-- Part 1 of `allRegKinds`. -/
def regKinds1 : List RegKind :=
  [.MBX_COUNT, .MBX_CMD, .MBX_RSP, .EVR_CURSOR, .EVR_STATUS, .EVR_INT, .EVR_INT_EN, .EVR_WINDOW, .EVR_OVERWRITE, .EVR_SEQ, .EVR_AO_NOW, .EVR_COUNT, .EVR_LOST, .EVR_DROPPED, .EVR_THRESH, .EVR_THRESH_HIT, .TIME_CTL, .TIME_NOW, .TIME_NOW_FRAC, .TIME_SET]

/-- Part 2 of `allRegKinds`. -/
def regKinds2 : List RegKind :=
  [.TIME_STEP, .TIME_INCR, .TIME_SLEW, .TIME_PPS_IN, .TIME_PPS_OUT, .TIME_TARGET, .TIME_INT, .TIME_INT_EN, .LCS_STATE, .LCS_REQUEST, .LCS_STATUS, .LCS_PERMIT, .LCS_OTP_LEFT, .LCS_OWNER, .DBG_STATE, .DBG_EXPIRY, .DBG_FAILS, .DBG_CHAL_TTL, .PROT_COND, .PROT_ALARM]

/-- Part 3 of `allRegKinds`. -/
def regKinds3 : List RegKind :=
  [.PROT_TAMPER_CFG, .PROT_LOOP_ERR, .PROT_BIST_RESULT, .PROT_BIST_STAT, .PROT_BIC, .PROT_ERASE, .PROT_F2, .PROT_VTHR, .PROT_MAP, .DIE_SCHED_STATE, .DIE_SCHED_CLASS, .DIE_SCHED_LOAD, .DIE_SCHED_HOLD, .DIE_VC_CLOCK, .CLU_GOLD_STAT, .VC_MGEN_STAT, .VC_MGEN_BLOCKS, .VC_MGEN_RESEEDS, .VC_FAULTS, .VC_STATE]

/-- Part 4 of `allRegKinds`. -/
def regKinds4 : List RegKind :=
  [.VC_SEG, .VC_MC_COUNT, .VC_MC_LAST, .VC_CS_SCRUB, .VC_YIELD_MAX, .VC_RUN_CYCLES, .PORT_CFG, .PORT_STATUS, .PORT_RINGS, .PORT_TS_RX_ADJ, .PORT_TS_TX_ADJ, .PORT_RX_FRAMES, .PORT_RX_BYTES, .PORT_TX_FRAMES, .PORT_TX_BYTES, .PORT_RX_FCS, .PORT_RX_OVERSIZE, .PORT_RX_BUF_DROPS, .PORT_RX_DISCARDED, .PORT_PAUSE_RX]

/-- Part 5 of `allRegKinds`. -/
def regKinds5 : List RegKind :=
  [.PORT_PAUSE_TX, .PORT_TX_LATE, .PORT_ALG_MISMATCH, .PORT_PRP_WRONG_LAN, .PORT_PRP_SEQ, .CAL_STAT, .CAL_FRAMES, .CAL_LATE, .CAL_MAX_LAT, .CAL_DISAGREE, .FB_STAT, .RNG_CTL, .RNG_STATUS, .RNG_BANKS, .RNG_SEEDS, .RNG_RESEEDS, .RNG_REQS, .RNG_BORROW, .RNG_RETRY, .RNG_WAIT]

/-- Part 6 of `allRegKinds`. -/
def regKinds6 : List RegKind :=
  [.RNG_BANK_FAILS, .DKL_CTL, .DKL_STAT, .DKL_REFUSED, .DKL_HOLD_TO, .DKL_SPLIT, .DKL_HELD_TOTAL, .DKL_LAST, .DKL_RGN_BASE, .DKL_RGN_SIZE, .DKL_RGN_RD, .DKL_RGN_WR, .DGE_CTL, .DGE_STAT, .DGE_COUNT, .DGE_DATA, .DGE_FIN_SEQ, .DGE_LAST_LEN, .DGE_BLOCKS, .DGE_RESTARTS]

/-- Part 7 of `allRegKinds`. -/
def regKinds7 : List RegKind :=
  [.DGE_DIGEST, .DGE_EXPECT, .DGE_CMP, .DGE_VERDICT_A, .DGE_VERDICT_B, .LIE_CFG, .LIE_STATE, .LIE_SLOT_SEL, .LIE_CMD, .LIE_DONE, .LIE_JOBS, .LIE_REFUSED, .LIE_CLEARED, .LIE_ECC, .LIE_WINDOW, .KS_GRANULES, .KS_STATE, .KS_REMASK, .KS_ECC, .KS_JOB_KEYS]

/-- Part 8 of `allRegKinds`. -/
def regKinds8 : List RegKind :=
  [.KS_ROOT, .DUPLEX_STATUS, .DUPLEX_EPOCH, .DUPLEX_LAG, .DUPLEX_TX_SEQ, .DUPLEX_RX_SEQ, .DUPLEX_ERRORS, .RING_CFG, .RING_STATE, .RING_HDR_ADDR, .RING_BASE, .RING_ARB, .RING_INT, .RING_TIME, .RING_BIND, .RING_TIDX, .RING_DIDX, .RING_FETCH, .RING_OUTSTANDING, .RING_DL_FAULTS]

/-- Part 9 of `allRegKinds`. -/
def regKinds9 : List RegKind :=
  [.RING_DROPS, .RING_ERR_INFO, .TI_STATUS, .TI_RING, .TI_STREAM, .TI_IMT, .TI_KEY_QUOTA, .TI_KEY_USED, .TI_KEY_TOP, .TI_KEY_HOME, .TI_DB_REJECT, .TI_BUF_FAULTS, .TI_DL_FAULTS, .TI_SCHED, .TI_WIN_BASE, .TI_WIN_CTL, .TI_RESV, .IMT_ADDR, .IMT_DATA, .IMT_CTL]

/-- The registers in the order of the index; their places in this list number them. -/
def allRegKinds : List RegKind :=
  [regKinds0, regKinds1, regKinds2, regKinds3, regKinds4, regKinds5, regKinds6, regKinds7, regKinds8, regKinds9].flatten

/-- A field of a register: its register and its bits. -/
structure Fld where
  reg : RegKind
  hi : Nat
  lo : Nat
deriving DecidableEq, Repr

namespace Fld

/-- DEV_ID.DEVICE, bits [31:16]. -/
abbrev DEV_ID_DEVICE : Fld := ⟨.DEV_ID, 31, 16⟩
/-- DEV_ID.DIES, bits [11:8]. -/
abbrev DEV_ID_DIES : Fld := ⟨.DEV_ID, 11, 8⟩
/-- DEV_ID.REV, bits [7:0]. -/
abbrev DEV_ID_REV : Fld := ⟨.DEV_ID, 7, 0⟩
/-- DEV_MODE.LOCK_CAUSE, bits [7:4]. -/
abbrev DEV_MODE_LOCK_CAUSE : Fld := ⟨.DEV_MODE, 7, 4⟩
/-- DEV_MODE.HOLD, bits [3:3]. -/
abbrev DEV_MODE_HOLD : Fld := ⟨.DEV_MODE, 3, 3⟩
/-- DEV_MODE.MODE, bits [2:0]. -/
abbrev DEV_MODE_MODE : Fld := ⟨.DEV_MODE, 2, 0⟩
/-- DEV_READY.ALL, bits [31:31]. -/
abbrev DEV_READY_ALL : Fld := ⟨.DEV_READY, 31, 31⟩
/-- DEV_READY.FETCH, bits [5:5]. -/
abbrev DEV_READY_FETCH : Fld := ⟨.DEV_READY, 5, 5⟩
/-- DEV_READY.ROOT, bits [4:4]. -/
abbrev DEV_READY_ROOT : Fld := ⟨.DEV_READY, 4, 4⟩
/-- DEV_READY.EVR, bits [3:3]. -/
abbrev DEV_READY_EVR : Fld := ⟨.DEV_READY, 3, 3⟩
/-- DEV_READY.PHC, bits [2:2]. -/
abbrev DEV_READY_PHC : Fld := ⟨.DEV_READY, 2, 2⟩
/-- DEV_READY.PCIE, bits [1:1]. -/
abbrev DEV_READY_PCIE : Fld := ⟨.DEV_READY, 1, 1⟩
/-- DEV_READY.MBX, bits [0:0]. -/
abbrev DEV_READY_MBX : Fld := ⟨.DEV_READY, 0, 0⟩
/-- DEV_BOOT.SVN, bits [31:24]. -/
abbrev DEV_BOOT_SVN : Fld := ⟨.DEV_BOOT, 31, 24⟩
/-- DEV_BOOT.FAIL_STEP, bits [23:16]. -/
abbrev DEV_BOOT_FAIL_STEP : Fld := ⟨.DEV_BOOT, 23, 16⟩
/-- DEV_BOOT.BOOT_SEL, bits [7:6]. -/
abbrev DEV_BOOT_BOOT_SEL : Fld := ⟨.DEV_BOOT, 7, 6⟩
/-- DEV_BOOT.OWNER_CS, bits [5:5]. -/
abbrev DEV_BOOT_OWNER_CS : Fld := ⟨.DEV_BOOT, 5, 5⟩
/-- DEV_BOOT.FALLBACK, bits [4:4]. -/
abbrev DEV_BOOT_FALLBACK : Fld := ⟨.DEV_BOOT, 4, 4⟩
/-- DEV_BOOT.SLOT, bits [0:0]. -/
abbrev DEV_BOOT_SLOT : Fld := ⟨.DEV_BOOT, 0, 0⟩
/-- DEV_RESET_CAUSE.THERMAL, bits [4:4]. -/
abbrev DEV_RESET_CAUSE_THERMAL : Fld := ⟨.DEV_RESET_CAUSE, 4, 4⟩
/-- DEV_RESET_CAUSE.SUPPLY, bits [3:3]. -/
abbrev DEV_RESET_CAUSE_SUPPLY : Fld := ⟨.DEV_RESET_CAUSE, 3, 3⟩
/-- DEV_RESET_CAUSE.COMMAND, bits [2:2]. -/
abbrev DEV_RESET_CAUSE_COMMAND : Fld := ⟨.DEV_RESET_CAUSE, 2, 2⟩
/-- DEV_RESET_CAUSE.PIN, bits [1:1]. -/
abbrev DEV_RESET_CAUSE_PIN : Fld := ⟨.DEV_RESET_CAUSE, 1, 1⟩
/-- DEV_RESET_CAUSE.POR, bits [0:0]. -/
abbrev DEV_RESET_CAUSE_POR : Fld := ⟨.DEV_RESET_CAUSE, 0, 0⟩
/-- DEV_FW_SLOT.TRIES, bits [3:3]. -/
abbrev DEV_FW_SLOT_TRIES : Fld := ⟨.DEV_FW_SLOT, 3, 3⟩
/-- DEV_FW_SLOT.TRIAL, bits [2:2]. -/
abbrev DEV_FW_SLOT_TRIAL : Fld := ⟨.DEV_FW_SLOT, 2, 2⟩
/-- DEV_FW_SLOT.PREFERRED, bits [0:0]. -/
abbrev DEV_FW_SLOT_PREFERRED : Fld := ⟨.DEV_FW_SLOT, 0, 0⟩
/-- DEV_HOLD.COUNT, bits [31:16]. -/
abbrev DEV_HOLD_COUNT : Fld := ⟨.DEV_HOLD, 31, 16⟩
/-- DEV_HOLD.LAST_US, bits [15:0]. -/
abbrev DEV_HOLD_LAST_US : Fld := ⟨.DEV_HOLD, 15, 0⟩
/-- DEV_READY_MAP.MGEN, bits [31:31]. -/
abbrev DEV_READY_MAP_MGEN : Fld := ⟨.DEV_READY_MAP, 31, 31⟩
/-- DEV_READY_MAP.KS, bits [30:30]. -/
abbrev DEV_READY_MAP_KS : Fld := ⟨.DEV_READY_MAP, 30, 30⟩
/-- DEV_READY_MAP.RNG, bits [29:29]. -/
abbrev DEV_READY_MAP_RNG : Fld := ⟨.DEV_READY_MAP, 29, 29⟩
/-- DEV_READY_MAP.PORT, bits [28:13]. -/
abbrev DEV_READY_MAP_PORT : Fld := ⟨.DEV_READY_MAP, 28, 13⟩
/-- DEV_READY_MAP.CAL, bits [12:9]. -/
abbrev DEV_READY_MAP_CAL : Fld := ⟨.DEV_READY_MAP, 12, 9⟩
/-- DEV_READY_MAP.LIE, bits [8:7]. -/
abbrev DEV_READY_MAP_LIE : Fld := ⟨.DEV_READY_MAP, 8, 7⟩
/-- DEV_READY_MAP.VCGRP, bits [6:3]. -/
abbrev DEV_READY_MAP_VCGRP : Fld := ⟨.DEV_READY_MAP, 6, 3⟩
/-- DEV_READY_MAP.CLUSTER, bits [2:1]. -/
abbrev DEV_READY_MAP_CLUSTER : Fld := ⟨.DEV_READY_MAP, 2, 1⟩
/-- DEV_READY_MAP.DIE, bits [0:0]. -/
abbrev DEV_READY_MAP_DIE : Fld := ⟨.DEV_READY_MAP, 0, 0⟩
/-- DEV_READY_VC.VC, bits [15:0]. -/
abbrev DEV_READY_VC_VC : Fld := ⟨.DEV_READY_VC, 15, 0⟩
/-- PWR_CAP.CAP_W, bits [8:0]. -/
abbrev PWR_CAP_CAP_W : Fld := ⟨.PWR_CAP, 8, 0⟩
/-- PWR_STAT.CAP_UNMET, bits [31:31]. -/
abbrev PWR_STAT_CAP_UNMET : Fld := ⟨.PWR_STAT, 31, 31⟩
/-- PWR_STAT.CAPPING, bits [30:30]. -/
abbrev PWR_STAT_CAPPING : Fld := ⟨.PWR_STAT, 30, 30⟩
/-- PWR_STAT.POWER, bits [15:0]. -/
abbrev PWR_STAT_POWER : Fld := ⟨.PWR_STAT, 15, 0⟩
/-- PWR_DIE.THERMAL, bits [31:31]. -/
abbrev PWR_DIE_THERMAL : Fld := ⟨.PWR_DIE, 31, 31⟩
/-- PWR_DIE.CAP, bits [30:30]. -/
abbrev PWR_DIE_CAP : Fld := ⟨.PWR_DIE, 30, 30⟩
/-- PWR_DIE.POINT, bits [29:28]. -/
abbrev PWR_DIE_POINT : Fld := ⟨.PWR_DIE, 29, 28⟩
/-- PWR_DIE.VCORE_MV, bits [23:12]. -/
abbrev PWR_DIE_VCORE_MV : Fld := ⟨.PWR_DIE, 23, 12⟩
/-- PWR_DIE.POWER, bits [11:0]. -/
abbrev PWR_DIE_POWER : Fld := ⟨.PWR_DIE, 11, 0⟩
/-- PWR_PMB.FAULTS, bits [15:8]. -/
abbrev PWR_PMB_FAULTS : Fld := ⟨.PWR_PMB, 15, 8⟩
/-- PWR_PMB.BASE, bits [6:0]. -/
abbrev PWR_PMB_BASE : Fld := ⟨.PWR_PMB, 6, 0⟩
/-- THM_TEMP.TEMP, bits [15:0]. -/
abbrev THM_TEMP_TEMP : Fld := ⟨.THM_TEMP, 15, 0⟩
/-- THM_CTL.WARN_C, bits [7:0]. -/
abbrev THM_CTL_WARN_C : Fld := ⟨.THM_CTL, 7, 0⟩
/-- THM_STAT.MAX_C, bits [31:16]. -/
abbrev THM_STAT_MAX_C : Fld := ⟨.THM_STAT, 31, 16⟩
/-- THM_STAT.THROTTLED, bits [15:8]. -/
abbrev THM_STAT_THROTTLED : Fld := ⟨.THM_STAT, 15, 8⟩
/-- THM_STAT.THERM, bits [0:0]. -/
abbrev THM_STAT_THERM : Fld := ⟨.THM_STAT, 0, 0⟩
/-- MBX_DOORBELL.GO, bits [0:0]. -/
abbrev MBX_DOORBELL_GO : Fld := ⟨.MBX_DOORBELL, 0, 0⟩
/-- MBX_STATUS.READY, bits [3:3]. -/
abbrev MBX_STATUS_READY : Fld := ⟨.MBX_STATUS, 3, 3⟩
/-- MBX_STATUS.OVERRUN, bits [2:2]. -/
abbrev MBX_STATUS_OVERRUN : Fld := ⟨.MBX_STATUS, 2, 2⟩
/-- MBX_STATUS.DONE, bits [1:1]. -/
abbrev MBX_STATUS_DONE : Fld := ⟨.MBX_STATUS, 1, 1⟩
/-- MBX_STATUS.BUSY, bits [0:0]. -/
abbrev MBX_STATUS_BUSY : Fld := ⟨.MBX_STATUS, 0, 0⟩
/-- MBX_CTL.ABORT, bits [1:1]. -/
abbrev MBX_CTL_ABORT : Fld := ⟨.MBX_CTL, 1, 1⟩
/-- MBX_CTL.DONE_IE, bits [0:0]. -/
abbrev MBX_CTL_DONE_IE : Fld := ⟨.MBX_CTL, 0, 0⟩
/-- MBX_TIMEOUT.LIMIT_MS, bits [15:0]. -/
abbrev MBX_TIMEOUT_LIMIT_MS : Fld := ⟨.MBX_TIMEOUT, 15, 0⟩
/-- MBX_COUNT.REFUSED, bits [31:16]. -/
abbrev MBX_COUNT_REFUSED : Fld := ⟨.MBX_COUNT, 31, 16⟩
/-- MBX_COUNT.COMPLETED, bits [15:0]. -/
abbrev MBX_COUNT_COMPLETED : Fld := ⟨.MBX_COUNT, 15, 0⟩
/-- EVR_CURSOR.CHANNEL, bits [28:24]. -/
abbrev EVR_CURSOR_CHANNEL : Fld := ⟨.EVR_CURSOR, 28, 24⟩
/-- EVR_CURSOR.INDEX, bits [12:0]. -/
abbrev EVR_CURSOR_INDEX : Fld := ⟨.EVR_CURSOR, 12, 0⟩
/-- EVR_STATUS.RUNNING, bits [31:31]. -/
abbrev EVR_STATUS_RUNNING : Fld := ⟨.EVR_STATUS, 31, 31⟩
/-- EVR_STATUS.FIFO, bits [6:0]. -/
abbrev EVR_STATUS_FIFO : Fld := ⟨.EVR_STATUS, 6, 0⟩
/-- EVR_INT.THRESHOLD, bits [2:2]. -/
abbrev EVR_INT_THRESHOLD : Fld := ⟨.EVR_INT, 2, 2⟩
/-- EVR_INT.RETENTION, bits [1:1]. -/
abbrev EVR_INT_RETENTION : Fld := ⟨.EVR_INT, 1, 1⟩
/-- EVR_INT.SECURITY, bits [0:0]. -/
abbrev EVR_INT_SECURITY : Fld := ⟨.EVR_INT, 0, 0⟩
/-- EVR_INT_EN.THRESHOLD, bits [2:2]. -/
abbrev EVR_INT_EN_THRESHOLD : Fld := ⟨.EVR_INT_EN, 2, 2⟩
/-- EVR_INT_EN.RETENTION, bits [1:1]. -/
abbrev EVR_INT_EN_RETENTION : Fld := ⟨.EVR_INT_EN, 1, 1⟩
/-- EVR_INT_EN.SECURITY, bits [0:0]. -/
abbrev EVR_INT_EN_SECURITY : Fld := ⟨.EVR_INT_EN, 0, 0⟩
/-- EVR_WINDOW.BYTES, bits [31:0]. -/
abbrev EVR_WINDOW_BYTES : Fld := ⟨.EVR_WINDOW, 31, 0⟩
/-- EVR_OVERWRITE.RETENTION, bits [31:16]. -/
abbrev EVR_OVERWRITE_RETENTION : Fld := ⟨.EVR_OVERWRITE, 31, 16⟩
/-- EVR_OVERWRITE.SECURITY, bits [15:0]. -/
abbrev EVR_OVERWRITE_SECURITY : Fld := ⟨.EVR_OVERWRITE, 15, 0⟩
/-- EVR_SEQ.NEXT, bits [31:0]. -/
abbrev EVR_SEQ_NEXT : Fld := ⟨.EVR_SEQ, 31, 0⟩
/-- EVR_AO_NOW.TICKS, bits [62:0]. -/
abbrev EVR_AO_NOW_TICKS : Fld := ⟨.EVR_AO_NOW, 62, 0⟩
/-- EVR_COUNT.QUOTA, bits [29:16]. -/
abbrev EVR_COUNT_QUOTA : Fld := ⟨.EVR_COUNT, 29, 16⟩
/-- EVR_COUNT.RECORDS, bits [13:0]. -/
abbrev EVR_COUNT_RECORDS : Fld := ⟨.EVR_COUNT, 13, 0⟩
/-- EVR_LOST.COUNT, bits [31:0]. -/
abbrev EVR_LOST_COUNT : Fld := ⟨.EVR_LOST, 31, 0⟩
/-- EVR_DROPPED.COUNT, bits [31:0]. -/
abbrev EVR_DROPPED_COUNT : Fld := ⟨.EVR_DROPPED, 31, 0⟩
/-- EVR_THRESH.THRESH, bits [13:0]. -/
abbrev EVR_THRESH_THRESH : Fld := ⟨.EVR_THRESH, 13, 0⟩
/-- EVR_THRESH_HIT.CHANNEL, bits [31:0]. -/
abbrev EVR_THRESH_HIT_CHANNEL : Fld := ⟨.EVR_THRESH_HIT, 31, 0⟩
/-- TIME_CTL.STEP_PENDING, bits [31:31]. -/
abbrev TIME_CTL_STEP_PENDING : Fld := ⟨.TIME_CTL, 31, 31⟩
/-- TIME_CTL.SLEW_PPM, bits [25:16]. -/
abbrev TIME_CTL_SLEW_PPM : Fld := ⟨.TIME_CTL, 25, 16⟩
/-- TIME_CTL.PPS_IN_EDGE, bits [2:2]. -/
abbrev TIME_CTL_PPS_IN_EDGE : Fld := ⟨.TIME_CTL, 2, 2⟩
/-- TIME_CTL.PPS_IN_EN, bits [1:1]. -/
abbrev TIME_CTL_PPS_IN_EN : Fld := ⟨.TIME_CTL, 1, 1⟩
/-- TIME_CTL.PPS_OUT_EN, bits [0:0]. -/
abbrev TIME_CTL_PPS_OUT_EN : Fld := ⟨.TIME_CTL, 0, 0⟩
/-- TIME_NOW.NS, bits [63:0]. -/
abbrev TIME_NOW_NS : Fld := ⟨.TIME_NOW, 63, 0⟩
/-- TIME_NOW_FRAC.FRAC, bits [15:0]. -/
abbrev TIME_NOW_FRAC_FRAC : Fld := ⟨.TIME_NOW_FRAC, 15, 0⟩
/-- TIME_SET.NS, bits [63:0]. -/
abbrev TIME_SET_NS : Fld := ⟨.TIME_SET, 63, 0⟩
/-- TIME_STEP.NS, bits [63:0]. -/
abbrev TIME_STEP_NS : Fld := ⟨.TIME_STEP, 63, 0⟩
/-- TIME_INCR.INCR, bits [47:0]. -/
abbrev TIME_INCR_INCR : Fld := ⟨.TIME_INCR, 47, 0⟩
/-- TIME_SLEW.OFFSET, bits [31:0]. -/
abbrev TIME_SLEW_OFFSET : Fld := ⟨.TIME_SLEW, 31, 0⟩
/-- TIME_PPS_IN.NS, bits [63:0]. -/
abbrev TIME_PPS_IN_NS : Fld := ⟨.TIME_PPS_IN, 63, 0⟩
/-- TIME_PPS_OUT.PPS_WIDTH_MS, bits [31:22]. -/
abbrev TIME_PPS_OUT_PPS_WIDTH_MS : Fld := ⟨.TIME_PPS_OUT, 31, 22⟩
/-- TIME_PPS_OUT.PPS_OFFSET, bits [21:0]. -/
abbrev TIME_PPS_OUT_PPS_OFFSET : Fld := ⟨.TIME_PPS_OUT, 21, 0⟩
/-- TIME_TARGET.NS, bits [63:0]. -/
abbrev TIME_TARGET_NS : Fld := ⟨.TIME_TARGET, 63, 0⟩
/-- TIME_INT.STEPPED, bits [3:3]. -/
abbrev TIME_INT_STEPPED : Fld := ⟨.TIME_INT, 3, 3⟩
/-- TIME_INT.PPS_LOST, bits [2:2]. -/
abbrev TIME_INT_PPS_LOST : Fld := ⟨.TIME_INT, 2, 2⟩
/-- TIME_INT.PPS_IN, bits [1:1]. -/
abbrev TIME_INT_PPS_IN : Fld := ⟨.TIME_INT, 1, 1⟩
/-- TIME_INT.TARGET, bits [0:0]. -/
abbrev TIME_INT_TARGET : Fld := ⟨.TIME_INT, 0, 0⟩
/-- TIME_INT_EN.STEPPED, bits [3:3]. -/
abbrev TIME_INT_EN_STEPPED : Fld := ⟨.TIME_INT_EN, 3, 3⟩
/-- TIME_INT_EN.PPS_LOST, bits [2:2]. -/
abbrev TIME_INT_EN_PPS_LOST : Fld := ⟨.TIME_INT_EN, 2, 2⟩
/-- TIME_INT_EN.PPS_IN, bits [1:1]. -/
abbrev TIME_INT_EN_PPS_IN : Fld := ⟨.TIME_INT_EN, 1, 1⟩
/-- TIME_INT_EN.TARGET, bits [0:0]. -/
abbrev TIME_INT_EN_TARGET : Fld := ⟨.TIME_INT_EN, 0, 0⟩
/-- LCS_STATE.MARKS, bits [20:16]. -/
abbrev LCS_STATE_MARKS : Fld := ⟨.LCS_STATE, 20, 16⟩
/-- LCS_STATE.LOST, bits [4:4]. -/
abbrev LCS_STATE_LOST : Fld := ⟨.LCS_STATE, 4, 4⟩
/-- LCS_STATE.STATE, bits [3:0]. -/
abbrev LCS_STATE_STATE : Fld := ⟨.LCS_STATE, 3, 0⟩
/-- LCS_REQUEST.TARGET, bits [3:0]. -/
abbrev LCS_REQUEST_TARGET : Fld := ⟨.LCS_REQUEST, 3, 0⟩
/-- LCS_STATUS.RESUMED, bits [2:2]. -/
abbrev LCS_STATUS_RESUMED : Fld := ⟨.LCS_STATUS, 2, 2⟩
/-- LCS_STATUS.REFUSED, bits [1:1]. -/
abbrev LCS_STATUS_REFUSED : Fld := ⟨.LCS_STATUS, 1, 1⟩
/-- LCS_STATUS.BUSY, bits [0:0]. -/
abbrev LCS_STATUS_BUSY : Fld := ⟨.LCS_STATUS, 0, 0⟩
/-- LCS_PERMIT.RETURN, bits [0:0]. -/
abbrev LCS_PERMIT_RETURN : Fld := ⟨.LCS_PERMIT, 0, 0⟩
/-- LCS_OTP_LEFT.F2_SET, bits [24:24]. -/
abbrev LCS_OTP_LEFT_F2_SET : Fld := ⟨.LCS_OTP_LEFT, 24, 24⟩
/-- LCS_OTP_LEFT.SVN_LEFT, bits [23:16]. -/
abbrev LCS_OTP_LEFT_SVN_LEFT : Fld := ⟨.LCS_OTP_LEFT, 23, 16⟩
/-- LCS_OTP_LEFT.EPOCHS_LEFT, bits [15:8]. -/
abbrev LCS_OTP_LEFT_EPOCHS_LEFT : Fld := ⟨.LCS_OTP_LEFT, 15, 8⟩
/-- LCS_OTP_LEFT.OWNER_LEFT, bits [2:0]. -/
abbrev LCS_OTP_LEFT_OWNER_LEFT : Fld := ⟨.LCS_OTP_LEFT, 2, 0⟩
/-- LCS_OWNER.REVOKED, bits [15:12]. -/
abbrev LCS_OWNER_REVOKED : Fld := ⟨.LCS_OWNER, 15, 12⟩
/-- LCS_OWNER.DEBUG_SET, bits [11:8]. -/
abbrev LCS_OWNER_DEBUG_SET : Fld := ⟨.LCS_OWNER, 11, 8⟩
/-- LCS_OWNER.KERNEL_SET, bits [7:4]. -/
abbrev LCS_OWNER_KERNEL_SET : Fld := ⟨.LCS_OWNER, 7, 4⟩
/-- LCS_OWNER.CURRENT_VALID, bits [3:3]. -/
abbrev LCS_OWNER_CURRENT_VALID : Fld := ⟨.LCS_OWNER, 3, 3⟩
/-- LCS_OWNER.CURRENT, bits [1:0]. -/
abbrev LCS_OWNER_CURRENT : Fld := ⟨.LCS_OWNER, 1, 0⟩
/-- DBG_STATE.ERR_CODE, bits [15:12]. -/
abbrev DBG_STATE_ERR_CODE : Fld := ⟨.DBG_STATE, 15, 12⟩
/-- DBG_STATE.KS_LOCKED, bits [8:8]. -/
abbrev DBG_STATE_KS_LOCKED : Fld := ⟨.DBG_STATE, 8, 8⟩
/-- DBG_STATE.KEY, bits [4:4]. -/
abbrev DBG_STATE_KEY : Fld := ⟨.DBG_STATE, 4, 4⟩
/-- DBG_STATE.LEVEL, bits [1:0]. -/
abbrev DBG_STATE_LEVEL : Fld := ⟨.DBG_STATE, 1, 0⟩
/-- DBG_EXPIRY.NS, bits [63:0]. -/
abbrev DBG_EXPIRY_NS : Fld := ⟨.DBG_EXPIRY, 63, 0⟩
/-- DBG_FAILS.BLOCKED, bits [31:31]. -/
abbrev DBG_FAILS_BLOCKED : Fld := ⟨.DBG_FAILS, 31, 31⟩
/-- DBG_FAILS.COUNT, bits [3:0]. -/
abbrev DBG_FAILS_COUNT : Fld := ⟨.DBG_FAILS, 3, 0⟩
/-- DBG_CHAL_TTL.SECONDS, bits [11:0]. -/
abbrev DBG_CHAL_TTL_SECONDS : Fld := ⟨.DBG_CHAL_TTL, 11, 0⟩
/-- PROT_COND.PRESENT, bits [25:0]. -/
abbrev PROT_COND_PRESENT : Fld := ⟨.PROT_COND, 25, 0⟩
/-- PROT_ALARM.LATCHED, bits [25:0]. -/
abbrev PROT_ALARM_LATCHED : Fld := ⟨.PROT_ALARM, 25, 0⟩
/-- PROT_TAMPER_CFG.WATERMARK, bits [23:16]. -/
abbrev PROT_TAMPER_CFG_WATERMARK : Fld := ⟨.PROT_TAMPER_CFG, 23, 16⟩
/-- PROT_TAMPER_CFG.LOOP_ARMED, bits [15:8]. -/
abbrev PROT_TAMPER_CFG_LOOP_ARMED : Fld := ⟨.PROT_TAMPER_CFG, 15, 8⟩
/-- PROT_TAMPER_CFG.CASE_ARMED, bits [3:0]. -/
abbrev PROT_TAMPER_CFG_CASE_ARMED : Fld := ⟨.PROT_TAMPER_CFG, 3, 0⟩
/-- PROT_LOOP_ERR.COUNT, bits [31:0]. -/
abbrev PROT_LOOP_ERR_COUNT : Fld := ⟨.PROT_LOOP_ERR, 31, 0⟩
/-- PROT_BIST_RESULT.FAIL_B, bits [57:32]. -/
abbrev PROT_BIST_RESULT_FAIL_B : Fld := ⟨.PROT_BIST_RESULT, 57, 32⟩
/-- PROT_BIST_RESULT.FAIL_A, bits [25:0]. -/
abbrev PROT_BIST_RESULT_FAIL_A : Fld := ⟨.PROT_BIST_RESULT, 25, 0⟩
/-- PROT_BIST_STAT.RUNS, bits [31:16]. -/
abbrev PROT_BIST_STAT_RUNS : Fld := ⟨.PROT_BIST_STAT, 31, 16⟩
/-- PROT_BIST_STAT.UNDER_TEST, bits [8:3]. -/
abbrev PROT_BIST_STAT_UNDER_TEST : Fld := ⟨.PROT_BIST_STAT, 8, 3⟩
/-- PROT_BIST_STAT.CHANNEL, bits [2:2]. -/
abbrev PROT_BIST_STAT_CHANNEL : Fld := ⟨.PROT_BIST_STAT, 2, 2⟩
/-- PROT_BIST_STAT.DONE, bits [1:1]. -/
abbrev PROT_BIST_STAT_DONE : Fld := ⟨.PROT_BIST_STAT, 1, 1⟩
/-- PROT_BIST_STAT.RUNNING, bits [0:0]. -/
abbrev PROT_BIST_STAT_RUNNING : Fld := ⟨.PROT_BIST_STAT, 0, 0⟩
/-- PROT_BIC.MISMATCHES, bits [31:16]. -/
abbrev PROT_BIC_MISMATCHES : Fld := ⟨.PROT_BIC, 31, 16⟩
/-- PROT_BIC.WINDOW, bits [4:0]. -/
abbrev PROT_BIC_WINDOW : Fld := ⟨.PROT_BIC, 4, 0⟩
/-- PROT_ERASE.LATCHED, bits [31:31]. -/
abbrev PROT_ERASE_LATCHED : Fld := ⟨.PROT_ERASE, 31, 31⟩
/-- PROT_ERASE.ON_VBAT, bits [30:30]. -/
abbrev PROT_ERASE_ON_VBAT : Fld := ⟨.PROT_ERASE, 30, 30⟩
/-- PROT_ERASE.COUNT, bits [15:8]. -/
abbrev PROT_ERASE_COUNT : Fld := ⟨.PROT_ERASE, 15, 8⟩
/-- PROT_ERASE.DONE, bits [7:0]. -/
abbrev PROT_ERASE_DONE : Fld := ⟨.PROT_ERASE, 7, 0⟩
/-- PROT_F2.SET, bits [31:31]. -/
abbrev PROT_F2_SET : Fld := ⟨.PROT_F2, 31, 31⟩
/-- PROT_F2.LAST_DELAY, bits [25:16]. -/
abbrev PROT_F2_LAST_DELAY : Fld := ⟨.PROT_F2, 25, 16⟩
/-- PROT_F2.DECISIONS, bits [15:0]. -/
abbrev PROT_F2_DECISIONS : Fld := ⟨.PROT_F2, 15, 0⟩
/-- PROT_VTHR.OVER_MV, bits [43:32]. -/
abbrev PROT_VTHR_OVER_MV : Fld := ⟨.PROT_VTHR, 43, 32⟩
/-- PROT_VTHR.RESET_MV, bits [27:16]. -/
abbrev PROT_VTHR_RESET_MV : Fld := ⟨.PROT_VTHR, 27, 16⟩
/-- PROT_VTHR.WARN_MV, bits [11:0]. -/
abbrev PROT_VTHR_WARN_MV : Fld := ⟨.PROT_VTHR, 11, 0⟩
/-- PROT_MAP.FLOOR, bits [20:16]. -/
abbrev PROT_MAP_FLOOR : Fld := ⟨.PROT_MAP, 20, 16⟩
/-- PROT_MAP.EFFECTIVE, bits [4:0]. -/
abbrev PROT_MAP_EFFECTIVE : Fld := ⟨.PROT_MAP, 4, 0⟩
/-- DIE_SCHED_STATE.DVFS, bits [29:28]. -/
abbrev DIE_SCHED_STATE_DVFS : Fld := ⟨.DIE_SCHED_STATE, 29, 28⟩
/-- DIE_SCHED_STATE.SET_MHZ, bits [27:16]. -/
abbrev DIE_SCHED_STATE_SET_MHZ : Fld := ⟨.DIE_SCHED_STATE, 27, 16⟩
/-- DIE_SCHED_STATE.READY_USED, bits [12:0]. -/
abbrev DIE_SCHED_STATE_READY_USED : Fld := ⟨.DIE_SCHED_STATE, 12, 0⟩
/-- DIE_SCHED_CLASS.COUNT, bits [12:0]. -/
abbrev DIE_SCHED_CLASS_COUNT : Fld := ⟨.DIE_SCHED_CLASS, 12, 0⟩
/-- DIE_SCHED_LOAD.LOAD_NS, bits [31:0]. -/
abbrev DIE_SCHED_LOAD_LOAD_NS : Fld := ⟨.DIE_SCHED_LOAD, 31, 0⟩
/-- DIE_SCHED_HOLD.MC_DRAIN, bits [3:3]. -/
abbrev DIE_SCHED_HOLD_MC_DRAIN : Fld := ⟨.DIE_SCHED_HOLD, 3, 3⟩
/-- DIE_SCHED_HOLD.MGEN_WAIT, bits [2:2]. -/
abbrev DIE_SCHED_HOLD_MGEN_WAIT : Fld := ⟨.DIE_SCHED_HOLD, 2, 2⟩
/-- DIE_SCHED_HOLD.HOLD, bits [1:1]. -/
abbrev DIE_SCHED_HOLD_HOLD : Fld := ⟨.DIE_SCHED_HOLD, 1, 1⟩
/-- DIE_SCHED_HOLD.SAVE_FULL, bits [0:0]. -/
abbrev DIE_SCHED_HOLD_SAVE_FULL : Fld := ⟨.DIE_SCHED_HOLD, 0, 0⟩
/-- DIE_VC_CLOCK.SLOW, bits [17:17]. -/
abbrev DIE_VC_CLOCK_SLOW : Fld := ⟨.DIE_VC_CLOCK, 17, 17⟩
/-- DIE_VC_CLOCK.EXCLUDED, bits [16:16]. -/
abbrev DIE_VC_CLOCK_EXCLUDED : Fld := ⟨.DIE_VC_CLOCK, 16, 16⟩
/-- DIE_VC_CLOCK.MHZ, bits [11:0]. -/
abbrev DIE_VC_CLOCK_MHZ : Fld := ⟨.DIE_VC_CLOCK, 11, 0⟩
/-- CLU_GOLD_STAT.CORRECTED, bits [31:16]. -/
abbrev CLU_GOLD_STAT_CORRECTED : Fld := ⟨.CLU_GOLD_STAT, 31, 16⟩
/-- CLU_GOLD_STAT.QUEUED, bits [7:4]. -/
abbrev CLU_GOLD_STAT_QUEUED : Fld := ⟨.CLU_GOLD_STAT, 7, 4⟩
/-- CLU_GOLD_STAT.VALID, bits [0:0]. -/
abbrev CLU_GOLD_STAT_VALID : Fld := ⟨.CLU_GOLD_STAT, 0, 0⟩
/-- VC_MGEN_STAT.SEEDED, bits [31:31]. -/
abbrev VC_MGEN_STAT_SEEDED : Fld := ⟨.VC_MGEN_STAT, 31, 31⟩
/-- VC_MGEN_STAT.STALLED, bits [30:30]. -/
abbrev VC_MGEN_STAT_STALLED : Fld := ⟨.VC_MGEN_STAT, 30, 30⟩
/-- VC_MGEN_STAT.FILL, bits [16:0]. -/
abbrev VC_MGEN_STAT_FILL : Fld := ⟨.VC_MGEN_STAT, 16, 0⟩
/-- VC_MGEN_BLOCKS.BLOCKS, bits [16:0]. -/
abbrev VC_MGEN_BLOCKS_BLOCKS : Fld := ⟨.VC_MGEN_BLOCKS, 16, 0⟩
/-- VC_MGEN_RESEEDS.COUNT, bits [31:0]. -/
abbrev VC_MGEN_RESEEDS_COUNT : Fld := ⟨.VC_MGEN_RESEEDS, 31, 0⟩
/-- VC_FAULTS.KERNEL, bits [31:16]. -/
abbrev VC_FAULTS_KERNEL : Fld := ⟨.VC_FAULTS, 31, 16⟩
/-- VC_FAULTS.SECRECY, bits [15:0]. -/
abbrev VC_FAULTS_SECRECY : Fld := ⟨.VC_FAULTS, 15, 0⟩
/-- VC_STATE.KERNEL, bits [31:24]. -/
abbrev VC_STATE_KERNEL : Fld := ⟨.VC_STATE, 31, 24⟩
/-- VC_STATE.STATE, bits [2:0]. -/
abbrev VC_STATE_STATE : Fld := ⟨.VC_STATE, 2, 0⟩
/-- VC_SEG.VALID, bits [31:31]. -/
abbrev VC_SEG_VALID : Fld := ⟨.VC_SEG, 31, 31⟩
/-- VC_SEG.SECRET, bits [30:30]. -/
abbrev VC_SEG_SECRET : Fld := ⟨.VC_SEG, 30, 30⟩
/-- VC_SEG.WRITE, bits [29:29]. -/
abbrev VC_SEG_WRITE : Fld := ⟨.VC_SEG, 29, 29⟩
/-- VC_SEG.BASE, bits [13:8]. -/
abbrev VC_SEG_BASE : Fld := ⟨.VC_SEG, 13, 8⟩
/-- VC_SEG.PAGES, bits [6:0]. -/
abbrev VC_SEG_PAGES : Fld := ⟨.VC_SEG, 6, 0⟩
/-- VC_MC_COUNT.RELOADS, bits [31:16]. -/
abbrev VC_MC_COUNT_RELOADS : Fld := ⟨.VC_MC_COUNT, 31, 16⟩
/-- VC_MC_COUNT.KS_CORRECTED, bits [15:0]. -/
abbrev VC_MC_COUNT_KS_CORRECTED : Fld := ⟨.VC_MC_COUNT, 15, 0⟩
/-- VC_MC_LAST.CAUSE, bits [31:24]. -/
abbrev VC_MC_LAST_CAUSE : Fld := ⟨.VC_MC_LAST, 31, 24⟩
/-- VC_MC_LAST.GROUPS, bits [23:16]. -/
abbrev VC_MC_LAST_GROUPS : Fld := ⟨.VC_MC_LAST, 23, 16⟩
/-- VC_MC_LAST.UADDR, bits [13:0]. -/
abbrev VC_MC_LAST_UADDR : Fld := ⟨.VC_MC_LAST, 13, 0⟩
/-- VC_CS_SCRUB.EN, bits [31:31]. -/
abbrev VC_CS_SCRUB_EN : Fld := ⟨.VC_CS_SCRUB, 31, 31⟩
/-- VC_CS_SCRUB.NEXT, bits [13:0]. -/
abbrev VC_CS_SCRUB_NEXT : Fld := ⟨.VC_CS_SCRUB, 13, 0⟩
/-- VC_YIELD_MAX.CYCLES, bits [11:0]. -/
abbrev VC_YIELD_MAX_CYCLES : Fld := ⟨.VC_YIELD_MAX, 11, 0⟩
/-- VC_RUN_CYCLES.CYCLES, bits [31:0]. -/
abbrev VC_RUN_CYCLES_CYCLES : Fld := ⟨.VC_RUN_CYCLES, 31, 0⟩
/-- PORT_CFG.PRP_LAN_B, bits [23:23]. -/
abbrev PORT_CFG_PRP_LAN_B : Fld := ⟨.PORT_CFG, 23, 23⟩
/-- PORT_CFG.PAIRED, bits [22:22]. -/
abbrev PORT_CFG_PAIRED : Fld := ⟨.PORT_CFG, 22, 22⟩
/-- PORT_CFG.PARTNER, bits [21:16]. -/
abbrev PORT_CFG_PARTNER : Fld := ⟨.PORT_CFG, 21, 16⟩
/-- PORT_CFG.AN, bits [10:10]. -/
abbrev PORT_CFG_AN : Fld := ⟨.PORT_CFG, 10, 10⟩
/-- PORT_CFG.JUMBO, bits [9:9]. -/
abbrev PORT_CFG_JUMBO : Fld := ⟨.PORT_CFG, 9, 9⟩
/-- PORT_CFG.PAUSE_GEN, bits [8:8]. -/
abbrev PORT_CFG_PAUSE_GEN : Fld := ⟨.PORT_CFG, 8, 8⟩
/-- PORT_CFG.ROLE, bits [7:6]. -/
abbrev PORT_CFG_ROLE : Fld := ⟨.PORT_CFG, 7, 6⟩
/-- PORT_CFG.FEC, bits [5:4]. -/
abbrev PORT_CFG_FEC : Fld := ⟨.PORT_CFG, 5, 4⟩
/-- PORT_CFG.MODE, bits [2:0]. -/
abbrev PORT_CFG_MODE : Fld := ⟨.PORT_CFG, 2, 0⟩
/-- PORT_STATUS.SPEED, bits [7:4]. -/
abbrev PORT_STATUS_SPEED : Fld := ⟨.PORT_STATUS, 7, 4⟩
/-- PORT_STATUS.PAUSED, bits [3:3]. -/
abbrev PORT_STATUS_PAUSED : Fld := ⟨.PORT_STATUS, 3, 3⟩
/-- PORT_STATUS.FEC_LOCK, bits [2:2]. -/
abbrev PORT_STATUS_FEC_LOCK : Fld := ⟨.PORT_STATUS, 2, 2⟩
/-- PORT_STATUS.LINK_CHANGED, bits [1:1]. -/
abbrev PORT_STATUS_LINK_CHANGED : Fld := ⟨.PORT_STATUS, 1, 1⟩
/-- PORT_STATUS.LINK, bits [0:0]. -/
abbrev PORT_STATUS_LINK : Fld := ⟨.PORT_STATUS, 0, 0⟩
/-- PORT_RINGS.RAW_TI, bits [47:32]. -/
abbrev PORT_RINGS_RAW_TI : Fld := ⟨.PORT_RINGS, 47, 32⟩
/-- PORT_RINGS.PTP_RING, bits [31:16]. -/
abbrev PORT_RINGS_PTP_RING : Fld := ⟨.PORT_RINGS, 31, 16⟩
/-- PORT_RINGS.DEFAULT_RING, bits [15:0]. -/
abbrev PORT_RINGS_DEFAULT_RING : Fld := ⟨.PORT_RINGS, 15, 0⟩
/-- PORT_TS_RX_ADJ.ADJ_NS, bits [15:0]. -/
abbrev PORT_TS_RX_ADJ_ADJ_NS : Fld := ⟨.PORT_TS_RX_ADJ, 15, 0⟩
/-- PORT_TS_TX_ADJ.ADJ_NS, bits [15:0]. -/
abbrev PORT_TS_TX_ADJ_ADJ_NS : Fld := ⟨.PORT_TS_TX_ADJ, 15, 0⟩
/-- PORT_RX_FRAMES.COUNT, bits [63:0]. -/
abbrev PORT_RX_FRAMES_COUNT : Fld := ⟨.PORT_RX_FRAMES, 63, 0⟩
/-- PORT_RX_BYTES.COUNT, bits [63:0]. -/
abbrev PORT_RX_BYTES_COUNT : Fld := ⟨.PORT_RX_BYTES, 63, 0⟩
/-- PORT_TX_FRAMES.COUNT, bits [63:0]. -/
abbrev PORT_TX_FRAMES_COUNT : Fld := ⟨.PORT_TX_FRAMES, 63, 0⟩
/-- PORT_TX_BYTES.COUNT, bits [63:0]. -/
abbrev PORT_TX_BYTES_COUNT : Fld := ⟨.PORT_TX_BYTES, 63, 0⟩
/-- PORT_RX_FCS.COUNT, bits [31:0]. -/
abbrev PORT_RX_FCS_COUNT : Fld := ⟨.PORT_RX_FCS, 31, 0⟩
/-- PORT_RX_OVERSIZE.COUNT, bits [31:0]. -/
abbrev PORT_RX_OVERSIZE_COUNT : Fld := ⟨.PORT_RX_OVERSIZE, 31, 0⟩
/-- PORT_RX_BUF_DROPS.COUNT, bits [31:0]. -/
abbrev PORT_RX_BUF_DROPS_COUNT : Fld := ⟨.PORT_RX_BUF_DROPS, 31, 0⟩
/-- PORT_RX_DISCARDED.COUNT, bits [31:0]. -/
abbrev PORT_RX_DISCARDED_COUNT : Fld := ⟨.PORT_RX_DISCARDED, 31, 0⟩
/-- PORT_PAUSE_RX.COUNT, bits [31:0]. -/
abbrev PORT_PAUSE_RX_COUNT : Fld := ⟨.PORT_PAUSE_RX, 31, 0⟩
/-- PORT_PAUSE_TX.COUNT, bits [31:0]. -/
abbrev PORT_PAUSE_TX_COUNT : Fld := ⟨.PORT_PAUSE_TX, 31, 0⟩
/-- PORT_TX_LATE.COUNT, bits [31:0]. -/
abbrev PORT_TX_LATE_COUNT : Fld := ⟨.PORT_TX_LATE, 31, 0⟩
/-- PORT_ALG_MISMATCH.COUNT, bits [31:0]. -/
abbrev PORT_ALG_MISMATCH_COUNT : Fld := ⟨.PORT_ALG_MISMATCH, 31, 0⟩
/-- PORT_PRP_WRONG_LAN.COUNT, bits [31:0]. -/
abbrev PORT_PRP_WRONG_LAN_COUNT : Fld := ⟨.PORT_PRP_WRONG_LAN, 31, 0⟩
/-- PORT_PRP_SEQ.SEQ, bits [15:0]. -/
abbrev PORT_PRP_SEQ_SEQ : Fld := ⟨.PORT_PRP_SEQ, 15, 0⟩
/-- CAL_STAT.QUEUED, bits [31:16]. -/
abbrev CAL_STAT_QUEUED : Fld := ⟨.CAL_STAT, 31, 16⟩
/-- CAL_STAT.BUSY, bits [3:0]. -/
abbrev CAL_STAT_BUSY : Fld := ⟨.CAL_STAT, 3, 0⟩
/-- CAL_FRAMES.COUNT, bits [63:0]. -/
abbrev CAL_FRAMES_COUNT : Fld := ⟨.CAL_FRAMES, 63, 0⟩
/-- CAL_LATE.VALUE, bits [31:0]. -/
abbrev CAL_LATE_VALUE : Fld := ⟨.CAL_LATE, 31, 0⟩
/-- CAL_MAX_LAT.VALUE, bits [31:0]. -/
abbrev CAL_MAX_LAT_VALUE : Fld := ⟨.CAL_MAX_LAT, 31, 0⟩
/-- CAL_DISAGREE.VALUE, bits [31:0]. -/
abbrev CAL_DISAGREE_VALUE : Fld := ⟨.CAL_DISAGREE, 31, 0⟩
/-- FB_STAT.HIGH_KIB, bits [31:16]. -/
abbrev FB_STAT_HIGH_KIB : Fld := ⟨.FB_STAT, 31, 16⟩
/-- FB_STAT.USED_KIB, bits [15:0]. -/
abbrev FB_STAT_USED_KIB : Fld := ⟨.FB_STAT, 15, 0⟩
/-- RNG_CTL.LEND_EN, bits [2:2]. -/
abbrev RNG_CTL_LEND_EN : Fld := ⟨.RNG_CTL, 2, 2⟩
/-- RNG_CTL.BORROW_EN, bits [1:1]. -/
abbrev RNG_CTL_BORROW_EN : Fld := ⟨.RNG_CTL, 1, 1⟩
/-- RNG_CTL.EN, bits [0:0]. -/
abbrev RNG_CTL_EN : Fld := ⟨.RNG_CTL, 0, 0⟩
/-- RNG_STATUS.FIFO, bits [11:8]. -/
abbrev RNG_STATUS_FIFO : Fld := ⟨.RNG_STATUS, 11, 8⟩
/-- RNG_STATUS.DRBG_STALLED, bits [5:5]. -/
abbrev RNG_STATUS_DRBG_STALLED : Fld := ⟨.RNG_STATUS, 5, 5⟩
/-- RNG_STATUS.DRBG_READY, bits [4:4]. -/
abbrev RNG_STATUS_DRBG_READY : Fld := ⟨.RNG_STATUS, 4, 4⟩
/-- RNG_STATUS.STATE, bits [2:0]. -/
abbrev RNG_STATUS_STATE : Fld := ⟨.RNG_STATUS, 2, 0⟩
/-- RNG_BANKS.RETIRED, bits [22:16]. -/
abbrev RNG_BANKS_RETIRED : Fld := ⟨.RNG_BANKS, 22, 16⟩
/-- RNG_BANKS.EXCLUDED, bits [14:8]. -/
abbrev RNG_BANKS_EXCLUDED : Fld := ⟨.RNG_BANKS, 14, 8⟩
/-- RNG_BANKS.ACTIVE, bits [6:0]. -/
abbrev RNG_BANKS_ACTIVE : Fld := ⟨.RNG_BANKS, 6, 0⟩
/-- RNG_SEEDS.COUNT, bits [31:0]. -/
abbrev RNG_SEEDS_COUNT : Fld := ⟨.RNG_SEEDS, 31, 0⟩
/-- RNG_RESEEDS.COUNT, bits [31:0]. -/
abbrev RNG_RESEEDS_COUNT : Fld := ⟨.RNG_RESEEDS, 31, 0⟩
/-- RNG_REQS.COUNT, bits [12:0]. -/
abbrev RNG_REQS_COUNT : Fld := ⟨.RNG_REQS, 12, 0⟩
/-- RNG_BORROW.BORROWING, bits [31:31]. -/
abbrev RNG_BORROW_BORROWING : Fld := ⟨.RNG_BORROW, 31, 31⟩
/-- RNG_BORROW.DONOR, bits [26:24]. -/
abbrev RNG_BORROW_DONOR : Fld := ⟨.RNG_BORROW, 26, 24⟩
/-- RNG_BORROW.SEEDS, bits [15:0]. -/
abbrev RNG_BORROW_SEEDS : Fld := ⟨.RNG_BORROW, 15, 0⟩
/-- RNG_RETRY.RETRY_MS, bits [13:0]. -/
abbrev RNG_RETRY_RETRY_MS : Fld := ⟨.RNG_RETRY, 13, 0⟩
/-- RNG_WAIT.TIMEOUTS, bits [31:16]. -/
abbrev RNG_WAIT_TIMEOUTS : Fld := ⟨.RNG_WAIT, 31, 16⟩
/-- RNG_WAIT.LIMIT_US, bits [13:0]. -/
abbrev RNG_WAIT_LIMIT_US : Fld := ⟨.RNG_WAIT, 13, 0⟩
/-- RNG_BANK_FAILS.APT, bits [31:16]. -/
abbrev RNG_BANK_FAILS_APT : Fld := ⟨.RNG_BANK_FAILS, 31, 16⟩
/-- RNG_BANK_FAILS.RCT, bits [15:0]. -/
abbrev RNG_BANK_FAILS_RCT : Fld := ⟨.RNG_BANK_FAILS, 15, 0⟩
/-- DKL_CTL.INSTANCE, bits [7:4]. -/
abbrev DKL_CTL_INSTANCE : Fld := ⟨.DKL_CTL, 7, 4⟩
/-- DKL_CTL.BOOT_RULE, bits [1:1]. -/
abbrev DKL_CTL_BOOT_RULE : Fld := ⟨.DKL_CTL, 1, 1⟩
/-- DKL_CTL.EN, bits [0:0]. -/
abbrev DKL_CTL_EN : Fld := ⟨.DKL_CTL, 0, 0⟩
/-- DKL_STAT.HELD, bits [7:1]. -/
abbrev DKL_STAT_HELD : Fld := ⟨.DKL_STAT, 7, 1⟩
/-- DKL_STAT.ERR, bits [0:0]. -/
abbrev DKL_STAT_ERR : Fld := ⟨.DKL_STAT, 0, 0⟩
/-- DKL_REFUSED.COUNT, bits [31:0]. -/
abbrev DKL_REFUSED_COUNT : Fld := ⟨.DKL_REFUSED, 31, 0⟩
/-- DKL_HOLD_TO.COUNT, bits [31:0]. -/
abbrev DKL_HOLD_TO_COUNT : Fld := ⟨.DKL_HOLD_TO, 31, 0⟩
/-- DKL_SPLIT.COUNT, bits [31:0]. -/
abbrev DKL_SPLIT_COUNT : Fld := ⟨.DKL_SPLIT, 31, 0⟩
/-- DKL_HELD_TOTAL.COUNT, bits [31:0]. -/
abbrev DKL_HELD_TOTAL_COUNT : Fld := ⟨.DKL_HELD_TOTAL, 31, 0⟩
/-- DKL_LAST.OFFSET, bits [63:16]. -/
abbrev DKL_LAST_OFFSET : Fld := ⟨.DKL_LAST, 63, 16⟩
/-- DKL_LAST.MASTER, bits [15:0]. -/
abbrev DKL_LAST_MASTER : Fld := ⟨.DKL_LAST, 15, 0⟩
/-- DKL_RGN_BASE.GRANULES, bits [31:0]. -/
abbrev DKL_RGN_BASE_GRANULES : Fld := ⟨.DKL_RGN_BASE, 31, 0⟩
/-- DKL_RGN_SIZE.GRANULES, bits [31:0]. -/
abbrev DKL_RGN_SIZE_GRANULES : Fld := ⟨.DKL_RGN_SIZE, 31, 0⟩
/-- DKL_RGN_RD.MASK, bits [31:16]. -/
abbrev DKL_RGN_RD_MASK : Fld := ⟨.DKL_RGN_RD, 31, 16⟩
/-- DKL_RGN_RD.ID, bits [15:0]. -/
abbrev DKL_RGN_RD_ID : Fld := ⟨.DKL_RGN_RD, 15, 0⟩
/-- DKL_RGN_WR.MASK, bits [31:16]. -/
abbrev DKL_RGN_WR_MASK : Fld := ⟨.DKL_RGN_WR, 31, 16⟩
/-- DKL_RGN_WR.ID, bits [15:0]. -/
abbrev DKL_RGN_WR_ID : Fld := ⟨.DKL_RGN_WR, 15, 0⟩
/-- DGE_CTL.NBYTES, bits [13:12]. -/
abbrev DGE_CTL_NBYTES : Fld := ⟨.DGE_CTL, 13, 12⟩
/-- DGE_CTL.FIN, bits [9:9]. -/
abbrev DGE_CTL_FIN : Fld := ⟨.DGE_CTL, 9, 9⟩
/-- DGE_CTL.INIT, bits [8:8]. -/
abbrev DGE_CTL_INIT : Fld := ⟨.DGE_CTL, 8, 8⟩
/-- DGE_CTL.FUNC, bits [3:0]. -/
abbrev DGE_CTL_FUNC : Fld := ⟨.DGE_CTL, 3, 0⟩
/-- DGE_STAT.ERR, bits [9:9]. -/
abbrev DGE_STAT_ERR : Fld := ⟨.DGE_STAT, 9, 9⟩
/-- DGE_STAT.MASKED, bits [8:8]. -/
abbrev DGE_STAT_MASKED : Fld := ⟨.DGE_STAT, 8, 8⟩
/-- DGE_STAT.SOURCE, bits [7:4]. -/
abbrev DGE_STAT_SOURCE : Fld := ⟨.DGE_STAT, 7, 4⟩
/-- DGE_STAT.STATE, bits [2:0]. -/
abbrev DGE_STAT_STATE : Fld := ⟨.DGE_STAT, 2, 0⟩
/-- DGE_COUNT.BYTES, bits [63:0]. -/
abbrev DGE_COUNT_BYTES : Fld := ⟨.DGE_COUNT, 63, 0⟩
/-- DGE_DATA.DATA, bits [31:0]. -/
abbrev DGE_DATA_DATA : Fld := ⟨.DGE_DATA, 31, 0⟩
/-- DGE_FIN_SEQ.COUNT, bits [31:0]. -/
abbrev DGE_FIN_SEQ_COUNT : Fld := ⟨.DGE_FIN_SEQ, 31, 0⟩
/-- DGE_LAST_LEN.BYTES, bits [63:0]. -/
abbrev DGE_LAST_LEN_BYTES : Fld := ⟨.DGE_LAST_LEN, 63, 0⟩
/-- DGE_BLOCKS.COUNT, bits [31:0]. -/
abbrev DGE_BLOCKS_COUNT : Fld := ⟨.DGE_BLOCKS, 31, 0⟩
/-- DGE_RESTARTS.COUNT, bits [31:0]. -/
abbrev DGE_RESTARTS_COUNT : Fld := ⟨.DGE_RESTARTS, 31, 0⟩
/-- DGE_DIGEST.BYTES, bits [31:0]. -/
abbrev DGE_DIGEST_BYTES : Fld := ⟨.DGE_DIGEST, 31, 0⟩
/-- DGE_EXPECT.BYTES, bits [31:0]. -/
abbrev DGE_EXPECT_BYTES : Fld := ⟨.DGE_EXPECT, 31, 0⟩
/-- DGE_CMP.DONE, bits [31:31]. -/
abbrev DGE_CMP_DONE : Fld := ⟨.DGE_CMP, 31, 31⟩
/-- DGE_CMP.GO, bits [8:8]. -/
abbrev DGE_CMP_GO : Fld := ⟨.DGE_CMP, 8, 8⟩
/-- DGE_CMP.LEN, bits [6:0]. -/
abbrev DGE_CMP_LEN : Fld := ⟨.DGE_CMP, 6, 0⟩
/-- DGE_VERDICT_A.WORD, bits [31:0]. -/
abbrev DGE_VERDICT_A_WORD : Fld := ⟨.DGE_VERDICT_A, 31, 0⟩
/-- DGE_VERDICT_B.WORD, bits [31:0]. -/
abbrev DGE_VERDICT_B_WORD : Fld := ⟨.DGE_VERDICT_B, 31, 0⟩
/-- LIE_CFG.SLOT_COUNT, bits [27:16]. -/
abbrev LIE_CFG_SLOT_COUNT : Fld := ⟨.LIE_CFG, 27, 16⟩
/-- LIE_CFG.SLOT_WORDS, bits [7:0]. -/
abbrev LIE_CFG_SLOT_WORDS : Fld := ⟨.LIE_CFG, 7, 0⟩
/-- LIE_STATE.TI, bits [31:22]. -/
abbrev LIE_STATE_TI : Fld := ⟨.LIE_STATE, 31, 22⟩
/-- LIE_STATE.TI_VALID, bits [21:21]. -/
abbrev LIE_STATE_TI_VALID : Fld := ⟨.LIE_STATE, 21, 21⟩
/-- LIE_STATE.COMMAND, bits [15:8]. -/
abbrev LIE_STATE_COMMAND : Fld := ⟨.LIE_STATE, 15, 8⟩
/-- LIE_STATE.STATE, bits [2:0]. -/
abbrev LIE_STATE_STATE : Fld := ⟨.LIE_STATE, 2, 0⟩
/-- LIE_SLOT_SEL.SLOT, bits [10:0]. -/
abbrev LIE_SLOT_SEL_SLOT : Fld := ⟨.LIE_SLOT_SEL, 10, 0⟩
/-- LIE_CMD.BASE, bits [22:12]. -/
abbrev LIE_CMD_BASE : Fld := ⟨.LIE_CMD, 22, 12⟩
/-- LIE_CMD.SIZE, bits [10:8]. -/
abbrev LIE_CMD_SIZE : Fld := ⟨.LIE_CMD, 10, 8⟩
/-- LIE_CMD.CODE, bits [7:0]. -/
abbrev LIE_CMD_CODE : Fld := ⟨.LIE_CMD, 7, 0⟩
/-- LIE_DONE.STATUS, bits [31:16]. -/
abbrev LIE_DONE_STATUS : Fld := ⟨.LIE_DONE, 31, 16⟩
/-- LIE_DONE.ERR, bits [1:1]. -/
abbrev LIE_DONE_ERR : Fld := ⟨.LIE_DONE, 1, 1⟩
/-- LIE_DONE.DONE, bits [0:0]. -/
abbrev LIE_DONE_DONE : Fld := ⟨.LIE_DONE, 0, 0⟩
/-- LIE_JOBS.COUNT, bits [31:0]. -/
abbrev LIE_JOBS_COUNT : Fld := ⟨.LIE_JOBS, 31, 0⟩
/-- LIE_REFUSED.COUNT, bits [31:0]. -/
abbrev LIE_REFUSED_COUNT : Fld := ⟨.LIE_REFUSED, 31, 0⟩
/-- LIE_CLEARED.COUNT, bits [31:0]. -/
abbrev LIE_CLEARED_COUNT : Fld := ⟨.LIE_CLEARED, 31, 0⟩
/-- LIE_ECC.CORRECTED, bits [31:16]. -/
abbrev LIE_ECC_CORRECTED : Fld := ⟨.LIE_ECC, 31, 16⟩
/-- LIE_ECC.UNCORRECTED, bits [15:0]. -/
abbrev LIE_ECC_UNCORRECTED : Fld := ⟨.LIE_ECC, 15, 0⟩
/-- LIE_WINDOW.WORD, bits [63:0]. -/
abbrev LIE_WINDOW_WORD : Fld := ⟨.LIE_WINDOW, 63, 0⟩
/-- KS_GRANULES.RESERVED_Q, bits [31:16]. -/
abbrev KS_GRANULES_RESERVED_Q : Fld := ⟨.KS_GRANULES, 31, 16⟩
/-- KS_GRANULES.OCCUPIED, bits [15:0]. -/
abbrev KS_GRANULES_OCCUPIED : Fld := ⟨.KS_GRANULES, 15, 0⟩
/-- KS_STATE.DEBUG_LOCKED, bits [1:1]. -/
abbrev KS_STATE_DEBUG_LOCKED : Fld := ⟨.KS_STATE, 1, 1⟩
/-- KS_STATE.READY, bits [0:0]. -/
abbrev KS_STATE_READY : Fld := ⟨.KS_STATE, 0, 0⟩
/-- KS_REMASK.PASSES, bits [31:16]. -/
abbrev KS_REMASK_PASSES : Fld := ⟨.KS_REMASK, 31, 16⟩
/-- KS_REMASK.CORRECTED, bits [31:16]. -/
abbrev KS_REMASK_CORRECTED : Fld := ⟨.KS_REMASK, 31, 16⟩
/-- KS_REMASK.SKIPS, bits [15:0]. -/
abbrev KS_REMASK_SKIPS : Fld := ⟨.KS_REMASK, 15, 0⟩
/-- KS_REMASK.UNCORRECTED, bits [15:0]. -/
abbrev KS_REMASK_UNCORRECTED : Fld := ⟨.KS_REMASK, 15, 0⟩
/-- KS_ECC.PASSES, bits [31:16]. -/
abbrev KS_ECC_PASSES : Fld := ⟨.KS_ECC, 31, 16⟩
/-- KS_ECC.CORRECTED, bits [31:16]. -/
abbrev KS_ECC_CORRECTED : Fld := ⟨.KS_ECC, 31, 16⟩
/-- KS_ECC.SKIPS, bits [15:0]. -/
abbrev KS_ECC_SKIPS : Fld := ⟨.KS_ECC, 15, 0⟩
/-- KS_ECC.UNCORRECTED, bits [15:0]. -/
abbrev KS_ECC_UNCORRECTED : Fld := ⟨.KS_ECC, 15, 0⟩
/-- KS_JOB_KEYS.COUNT, bits [31:0]. -/
abbrev KS_JOB_KEYS_COUNT : Fld := ⟨.KS_JOB_KEYS, 31, 0⟩
/-- KS_ROOT.VALID, bits [31:31]. -/
abbrev KS_ROOT_VALID : Fld := ⟨.KS_ROOT, 31, 31⟩
/-- KS_ROOT.EPOCH, bits [20:16]. -/
abbrev KS_ROOT_EPOCH : Fld := ⟨.KS_ROOT, 20, 16⟩
/-- KS_ROOT.SLOTS, bits [15:0]. -/
abbrev KS_ROOT_SLOTS : Fld := ⟨.KS_ROOT, 15, 0⟩
/-- DUPLEX_STATUS.AUTO_PROMOTE, bits [16:16]. -/
abbrev DUPLEX_STATUS_AUTO_PROMOTE : Fld := ⟨.DUPLEX_STATUS, 16, 16⟩
/-- DUPLEX_STATUS.LINK_B, bits [9:9]. -/
abbrev DUPLEX_STATUS_LINK_B : Fld := ⟨.DUPLEX_STATUS, 9, 9⟩
/-- DUPLEX_STATUS.LINK_A, bits [8:8]. -/
abbrev DUPLEX_STATUS_LINK_A : Fld := ⟨.DUPLEX_STATUS, 8, 8⟩
/-- DUPLEX_STATUS.ROLE, bits [5:4]. -/
abbrev DUPLEX_STATUS_ROLE : Fld := ⟨.DUPLEX_STATUS, 5, 4⟩
/-- DUPLEX_STATUS.STATE, bits [2:0]. -/
abbrev DUPLEX_STATUS_STATE : Fld := ⟨.DUPLEX_STATUS, 2, 0⟩
/-- DUPLEX_EPOCH.VALUE, bits [31:0]. -/
abbrev DUPLEX_EPOCH_VALUE : Fld := ⟨.DUPLEX_EPOCH, 31, 0⟩
/-- DUPLEX_LAG.VALUE, bits [31:0]. -/
abbrev DUPLEX_LAG_VALUE : Fld := ⟨.DUPLEX_LAG, 31, 0⟩
/-- DUPLEX_TX_SEQ.SEQ, bits [63:0]. -/
abbrev DUPLEX_TX_SEQ_SEQ : Fld := ⟨.DUPLEX_TX_SEQ, 63, 0⟩
/-- DUPLEX_RX_SEQ.SEQ, bits [63:0]. -/
abbrev DUPLEX_RX_SEQ_SEQ : Fld := ⟨.DUPLEX_RX_SEQ, 63, 0⟩
/-- DUPLEX_ERRORS.VALUE, bits [31:0]. -/
abbrev DUPLEX_ERRORS_VALUE : Fld := ⟨.DUPLEX_ERRORS, 31, 0⟩
/-- RING_CFG.OWNER, bits [31:22]. -/
abbrev RING_CFG_OWNER : Fld := ⟨.RING_CFG, 31, 22⟩
/-- RING_CFG.LOG2_SIZE, bits [21:17]. -/
abbrev RING_CFG_LOG2_SIZE : Fld := ⟨.RING_CFG, 21, 17⟩
/-- RING_CFG.TYPE, bits [16:15]. -/
abbrev RING_CFG_TYPE : Fld := ⟨.RING_CFG, 16, 15⟩
/-- RING_CFG.DL_INT, bits [14:14]. -/
abbrev RING_CFG_DL_INT : Fld := ⟨.RING_CFG, 14, 14⟩
/-- RING_CFG.LATE_POLICY, bits [13:13]. -/
abbrev RING_CFG_LATE_POLICY : Fld := ⟨.RING_CFG, 13, 13⟩
/-- RING_CFG.CLASS_MASK, bits [12:9]. -/
abbrev RING_CFG_CLASS_MASK : Fld := ⟨.RING_CFG, 12, 9⟩
/-- RING_CFG.ALLOCATED, bits [0:0]. -/
abbrev RING_CFG_ALLOCATED : Fld := ⟨.RING_CFG, 0, 0⟩
/-- RING_STATE.ERR_CODE, bits [31:24]. -/
abbrev RING_STATE_ERR_CODE : Fld := ⟨.RING_STATE, 31, 24⟩
/-- RING_STATE.ADMIN_HELD, bits [4:4]. -/
abbrev RING_STATE_ADMIN_HELD : Fld := ⟨.RING_STATE, 4, 4⟩
/-- RING_STATE.ABORTING, bits [3:3]. -/
abbrev RING_STATE_ABORTING : Fld := ⟨.RING_STATE, 3, 3⟩
/-- RING_STATE.STATE, bits [2:0]. -/
abbrev RING_STATE_STATE : Fld := ⟨.RING_STATE, 2, 0⟩
/-- RING_HDR_ADDR.ADDR, bits [63:0]. -/
abbrev RING_HDR_ADDR_ADDR : Fld := ⟨.RING_HDR_ADDR, 63, 0⟩
/-- RING_BASE.ADDR, bits [63:0]. -/
abbrev RING_BASE_ADDR : Fld := ⟨.RING_BASE, 63, 0⟩
/-- RING_ARB.CREDIT, bits [31:24]. -/
abbrev RING_ARB_CREDIT : Fld := ⟨.RING_ARB, 31, 24⟩
/-- RING_ARB.BURST, bits [15:8]. -/
abbrev RING_ARB_BURST : Fld := ⟨.RING_ARB, 15, 8⟩
/-- RING_ARB.WEIGHT, bits [7:0]. -/
abbrev RING_ARB_WEIGHT : Fld := ⟨.RING_ARB, 7, 0⟩
/-- RING_INT.COAL_COUNT, bits [31:24]. -/
abbrev RING_INT_COAL_COUNT : Fld := ⟨.RING_INT, 31, 24⟩
/-- RING_INT.IMT_VALID, bits [15:15]. -/
abbrev RING_INT_IMT_VALID : Fld := ⟨.RING_INT, 15, 15⟩
/-- RING_INT.IMT, bits [11:0]. -/
abbrev RING_INT_IMT : Fld := ⟨.RING_INT, 11, 0⟩
/-- RING_TIME.FULL_MS, bits [29:16]. -/
abbrev RING_TIME_FULL_MS : Fld := ⟨.RING_TIME, 29, 16⟩
/-- RING_TIME.COAL_US, bits [9:0]. -/
abbrev RING_TIME_COAL_US : Fld := ⟨.RING_TIME, 9, 0⟩
/-- RING_BIND.CQ3, bits [63:48]. -/
abbrev RING_BIND_CQ3 : Fld := ⟨.RING_BIND, 63, 48⟩
/-- RING_BIND.CQ2, bits [47:32]. -/
abbrev RING_BIND_CQ2 : Fld := ⟨.RING_BIND, 47, 32⟩
/-- RING_BIND.CQ1, bits [31:16]. -/
abbrev RING_BIND_CQ1 : Fld := ⟨.RING_BIND, 31, 16⟩
/-- RING_BIND.CQ0, bits [15:0]. -/
abbrev RING_BIND_CQ0 : Fld := ⟨.RING_BIND, 15, 0⟩
/-- RING_TIDX.INDEX, bits [31:0]. -/
abbrev RING_TIDX_INDEX : Fld := ⟨.RING_TIDX, 31, 0⟩
/-- RING_DIDX.INDEX, bits [31:0]. -/
abbrev RING_DIDX_INDEX : Fld := ⟨.RING_DIDX, 31, 0⟩
/-- RING_FETCH.INDEX, bits [31:0]. -/
abbrev RING_FETCH_INDEX : Fld := ⟨.RING_FETCH, 31, 0⟩
/-- RING_OUTSTANDING.HELD, bits [23:17]. -/
abbrev RING_OUTSTANDING_HELD : Fld := ⟨.RING_OUTSTANDING, 23, 17⟩
/-- RING_OUTSTANDING.COUNT, bits [16:0]. -/
abbrev RING_OUTSTANDING_COUNT : Fld := ⟨.RING_OUTSTANDING, 16, 0⟩
/-- RING_DL_FAULTS.COUNT, bits [31:0]. -/
abbrev RING_DL_FAULTS_COUNT : Fld := ⟨.RING_DL_FAULTS, 31, 0⟩
/-- RING_DROPS.COUNT, bits [31:0]. -/
abbrev RING_DROPS_COUNT : Fld := ⟨.RING_DROPS, 31, 0⟩
/-- RING_ERR_INFO.INDEX, bits [63:32]. -/
abbrev RING_ERR_INFO_INDEX : Fld := ⟨.RING_ERR_INFO, 63, 32⟩
/-- RING_ERR_INFO.ENDED, bits [31:16]. -/
abbrev RING_ERR_INFO_ENDED : Fld := ⟨.RING_ERR_INFO, 31, 16⟩
/-- TI_STATUS.PASID, bits [31:12]. -/
abbrev TI_STATUS_PASID : Fld := ⟨.TI_STATUS, 31, 12⟩
/-- TI_STATUS.PASID_VALID, bits [3:3]. -/
abbrev TI_STATUS_PASID_VALID : Fld := ⟨.TI_STATUS, 3, 3⟩
/-- TI_STATUS.STATE, bits [2:0]. -/
abbrev TI_STATUS_STATE : Fld := ⟨.TI_STATUS, 2, 0⟩
/-- TI_RING.USED, bits [31:16]. -/
abbrev TI_RING_USED : Fld := ⟨.TI_RING, 31, 16⟩
/-- TI_RING.QUOTA, bits [15:0]. -/
abbrev TI_RING_QUOTA : Fld := ⟨.TI_RING, 15, 0⟩
/-- TI_STREAM.USED, bits [31:16]. -/
abbrev TI_STREAM_USED : Fld := ⟨.TI_STREAM, 31, 16⟩
/-- TI_STREAM.QUOTA, bits [15:0]. -/
abbrev TI_STREAM_QUOTA : Fld := ⟨.TI_STREAM, 15, 0⟩
/-- TI_IMT.USED, bits [31:16]. -/
abbrev TI_IMT_USED : Fld := ⟨.TI_IMT, 31, 16⟩
/-- TI_IMT.QUOTA, bits [15:0]. -/
abbrev TI_IMT_QUOTA : Fld := ⟨.TI_IMT, 15, 0⟩
/-- TI_KEY_QUOTA.VALUE, bits [31:0]. -/
abbrev TI_KEY_QUOTA_VALUE : Fld := ⟨.TI_KEY_QUOTA, 31, 0⟩
/-- TI_KEY_USED.VALUE, bits [31:0]. -/
abbrev TI_KEY_USED_VALUE : Fld := ⟨.TI_KEY_USED, 31, 0⟩
/-- TI_KEY_TOP.VALUE, bits [31:0]. -/
abbrev TI_KEY_TOP_VALUE : Fld := ⟨.TI_KEY_TOP, 31, 0⟩
/-- TI_KEY_HOME.MIRRORED, bits [31:31]. -/
abbrev TI_KEY_HOME_MIRRORED : Fld := ⟨.TI_KEY_HOME, 31, 31⟩
/-- TI_KEY_HOME.DUPLEX_HELD, bits [30:30]. -/
abbrev TI_KEY_HOME_DUPLEX_HELD : Fld := ⟨.TI_KEY_HOME, 30, 30⟩
/-- TI_KEY_HOME.DIE, bits [2:0]. -/
abbrev TI_KEY_HOME_DIE : Fld := ⟨.TI_KEY_HOME, 2, 0⟩
/-- TI_DB_REJECT.COUNT, bits [31:0]. -/
abbrev TI_DB_REJECT_COUNT : Fld := ⟨.TI_DB_REJECT, 31, 0⟩
/-- TI_BUF_FAULTS.COUNT, bits [31:0]. -/
abbrev TI_BUF_FAULTS_COUNT : Fld := ⟨.TI_BUF_FAULTS, 31, 0⟩
/-- TI_DL_FAULTS.COUNT, bits [31:0]. -/
abbrev TI_DL_FAULTS_COUNT : Fld := ⟨.TI_DL_FAULTS, 31, 0⟩
/-- TI_SCHED.READY_LIMIT, bits [28:16]. -/
abbrev TI_SCHED_READY_LIMIT : Fld := ⟨.TI_SCHED, 28, 16⟩
/-- TI_SCHED.SHARE, bits [9:0]. -/
abbrev TI_SCHED_SHARE : Fld := ⟨.TI_SCHED, 9, 0⟩
/-- TI_WIN_BASE.BASE, bits [63:12]. -/
abbrev TI_WIN_BASE_BASE : Fld := ⟨.TI_WIN_BASE, 63, 12⟩
/-- TI_WIN_CTL.WRITE, bits [31:31]. -/
abbrev TI_WIN_CTL_WRITE : Fld := ⟨.TI_WIN_CTL, 31, 31⟩
/-- TI_WIN_CTL.READ, bits [30:30]. -/
abbrev TI_WIN_CTL_READ : Fld := ⟨.TI_WIN_CTL, 30, 30⟩
/-- TI_WIN_CTL.PAGES, bits [27:0]. -/
abbrev TI_WIN_CTL_PAGES : Fld := ⟨.TI_WIN_CTL, 27, 0⟩
/-- TI_RESV.LEND, bits [31:31]. -/
abbrev TI_RESV_LEND : Fld := ⟨.TI_RESV, 31, 31⟩
/-- TI_RESV.HELD, bits [12:8]. -/
abbrev TI_RESV_HELD : Fld := ⟨.TI_RESV, 12, 8⟩
/-- TI_RESV.COUNT, bits [4:0]. -/
abbrev TI_RESV_COUNT : Fld := ⟨.TI_RESV, 4, 0⟩
/-- IMT_ADDR.ADDR, bits [63:2]. -/
abbrev IMT_ADDR_ADDR : Fld := ⟨.IMT_ADDR, 63, 2⟩
/-- IMT_DATA.DATA, bits [31:0]. -/
abbrev IMT_DATA_DATA : Fld := ⟨.IMT_DATA, 31, 0⟩
/-- IMT_CTL.ASSIGNED, bits [31:31]. -/
abbrev IMT_CTL_ASSIGNED : Fld := ⟨.IMT_CTL, 31, 31⟩
/-- IMT_CTL.OWNER, bits [25:16]. -/
abbrev IMT_CTL_OWNER : Fld := ⟨.IMT_CTL, 25, 16⟩
/-- IMT_CTL.PEND, bits [1:1]. -/
abbrev IMT_CTL_PEND : Fld := ⟨.IMT_CTL, 1, 1⟩
/-- IMT_CTL.MASK, bits [0:0]. -/
abbrev IMT_CTL_MASK : Fld := ⟨.IMT_CTL, 0, 0⟩

end Fld

end Sys2Proof.Machine
end

