-- ==== Sys2Proof/Machine/Drbg.lean ====
section
/-!
DEFINITION. CTR_DRBG with AES-256 and the derivation function (R359).
-/

namespace Sys2Proof.Machine

/-- The working state: key and V. -/
structure Drbg where
  key : Bytes
  v : Bytes
deriving DecidableEq, Repr

/-- The chain of the derivation function: each block is added to the state and enciphered. -/
def bcc (ks : List Bytes) (b : Bytes) : Bytes :=
  (pieces 16 b).foldl (fun x y => aesEncKeys ks (xorBytes x y)) (List.replicate 16 0)

/-- `n` blocks of output feedback from `x`. -/
def ofbBlocks (ks : List Bytes) : Nat → Bytes → Bytes
  | 0, _ => []
  | n + 1, x => let y := aesEncKeys ks x; y ++ ofbBlocks ks n y

/-- The derivation function to 48 bytes. -/
def drbgDf (input : Bytes) : Bytes :=
  let s := pad16 (beBytes 4 input.length ++ beBytes 4 48 ++ input ++ [0x80])
  let k0 := aesKeys ((List.range 32).map (fun i => BitVec.ofNat 8 i))
  let t := (List.range 3).flatMap (fun i => bcc k0 (beBytes 4 i ++ List.replicate 12 0 ++ s))
  ofbBlocks (aesKeys (t.take 32)) 3 (t.drop 32)

/-- V advanced `n` times, each value enciphered. -/
def ctrBlocks (ks : List Bytes) : Nat → Bytes → Bytes × Bytes
  | 0, v => ([], v)
  | n + 1, v =>
    let v := beBytes 16 (beNat v + 1)
    let r := ctrBlocks ks n v
    (aesEncKeys ks v ++ r.1, r.2)

/-- The update step with 48 provided bytes. -/
def Drbg.update (d : Drbg) (p : Bytes) : Drbg :=
  let t := xorBytes (ctrBlocks (aesKeys d.key) 3 d.v).1 p
  ⟨t.take 32, t.drop 32⟩

/-- Instantiation from entropy, nonce and personalisation string. -/
def Drbg.instantiate (entropy nonce perso : Bytes) : Drbg :=
  Drbg.update ⟨List.replicate 32 0, List.replicate 16 0⟩ (drbgDf (entropy ++ nonce ++ perso))

/-- Reseed with no additional input. -/
def Drbg.reseed (d : Drbg) (entropy : Bytes) : Drbg := d.update (drbgDf entropy)

/-- One generate request of `n` bytes, with no additional input. -/
def Drbg.generate (d : Drbg) (n : Nat) : Bytes × Drbg :=
  let r := ctrBlocks (aesKeys d.key) (ceilDiv n 16) d.v
  (r.1.take n, Drbg.update ⟨d.key, r.2⟩ (List.replicate 48 0))

end Sys2Proof.Machine
end

