-- ==== Sys2Proof/Machine/Sparse.lean ====
section
/-!
DEFINITION. A sparse store: a list of key and value pairs, keys strictly rising, with no entry that equals
what an unlisted key reads as. Every large array of the block is one of these.
-/

namespace Sys2Proof.Machine

/-- A sparse store keyed by numbers. -/
abbrev Sparse (α : Type) := List (Nat × α)

/-- What key `k` reads as: its entry, or `d` when it is not listed. -/
def sparseGet {α : Type} (d : α) (m : Sparse α) (k : Nat) : α :=
  match m with
  | [] => d
  | (j, v) :: t => if j = k then v else sparseGet d t k

/-- The store without any entry at `k`. -/
def sparseDel {α : Type} (m : Sparse α) (k : Nat) : Sparse α := m.filter (fun e => e.1 != k)

/-- An entry put in its place among rising keys. -/
def sparseInsert {α : Type} (m : Sparse α) (k : Nat) (v : α) : Sparse α :=
  match m with
  | [] => [(k, v)]
  | (j, w) :: t => if k < j then (k, v) :: (j, w) :: t else (j, w) :: sparseInsert t k v

/-- The store in which `k` reads as `v`: the entry goes when `v` is what an unlisted key reads as. -/
def sparseSet {α : Type} [DecidableEq α] (d : α) (m : Sparse α) (k : Nat) (v : α) : Sparse α :=
  if v = d then sparseDel m k else sparseInsert (sparseDel m k) k v

/-- The keys of a store rise strictly. -/
def sparseRising {α : Type} : Sparse α → Bool
  | [] => true
  | [_] => true
  | a :: b :: t => decide (a.1 < b.1) && sparseRising (b :: t)

/-- The canonical form: keys strictly rising and no entry at its default. -/
def sparseWf {α : Type} [DecidableEq α] (d : Nat → α) (m : Sparse α) : Bool :=
  sparseRising m && m.all (fun e => !decide (e.2 = d e.1))

/-- A byte memory: address and byte pairs in canonical form. -/
abbrev Memory := List Host.Cell

/-- One byte of a memory whose unlisted bytes read as `d`. -/
def memByte (d : Byte) (m : Memory) (a : Nat) : Byte := sparseGet d m a

/-- One byte written. -/
def memSet (d : Byte) (m : Memory) (a : Nat) (b : Byte) : Memory := sparseSet d m a b

/-- `n` bytes read from address `a` upwards. -/
def memRead (d : Byte) (m : Memory) (a n : Nat) : Bytes := (List.range n).map (fun i => memByte d m (a + i))

/-- A string of bytes written from address `a` upwards. -/
def memWrite (d : Byte) (m : Memory) (a : Nat) : Bytes → Memory
  | [] => m
  | b :: bs => memWrite d (memSet d m a b) (a + 1) bs

/-- Every byte of a range put back to what an unlisted byte reads as. -/
def memClear (m : Memory) (a n : Nat) : Memory := m.filter (fun e => e.1 < a || a + n ≤ e.1)

/-- The canonical form of a byte memory whose unlisted bytes read as `d`. -/
def Memory.wf (d : Byte) (m : Memory) : Bool := sparseWf (fun _ => d) m

end Sys2Proof.Machine
end

