-- ==== Sys2Proof/Machine/Vec.lean ====
section
/-!
DEFINITION. The state of one vector core and what every kernel instruction shares: registers, elements, predication,
tags and share groups, the field checks, and the result of an issue (R172 to R178, R189, R190).
-/

namespace Sys2Proof

/-! ## Fields (R177, R178) -/

/-- The fields of a kernel word; `pred` stands for PRED, PEN and ZM together. -/
inductive VF where
  | w | pred | vd | va | vb | vc | qs | msk | ord | ss | imm
deriving DecidableEq, Repr

/-- The fields as the word holds them: each cut to its width (Table 06.2). -/
def VFields.cut (f : VFields) : VFields :=
  { w := f.w % 4, pred := f.pred % 8, pen := f.pen % 2, zm := f.zm % 2, vd := f.vd % 32, va := f.va % 32,
    vb := f.vb % 32, vc := f.vc % 32, qs := f.qs % 4, fn := f.fn % 4, ss := f.ss % 32, imm := f.imm % 65536 }

/-- FUNC[7] in the unit and masking groups. -/
def VFields.msk (f : VFields) : Bool := f.fn / 2 == 1

/-- FUNC[6] in the unit and masking groups: 0 two shares, 1 three. -/
def VFields.ord (f : VFields) : Nat := f.fn % 2

/-- Shares of the order that the word names. -/
def VFields.shares (f : VFields) : Nat := f.ord + 2

/-- Whether a field of the word is zero. -/
def VFields.isZero (f : VFields) : VF → Bool
  | .w => f.w == 0
  | .pred => f.pred == 0 && f.pen == 0 && f.zm == 0
  | .vd => f.vd == 0
  | .va => f.va == 0
  | .vb => f.vb == 0
  | .vc => f.vc == 0
  | .qs => f.qs == 0
  | .msk => !f.msk
  | .ord => f.ord == 0
  | .ss => f.ss == 0
  | .imm => f.imm == 0

/-- Every field that an instruction does not use is zero (R177). -/
def VFields.clean (f : VFields) (used : List VF) : Bool :=
  [VF.w, .pred, .vd, .va, .vb, .vc, .qs, .msk, .ord, .ss, .imm].all (fun x => used.contains x || f.isZero x)

/-- IMM, sign-extended. -/
def VFields.simm (f : VFields) : Int := Machine.signedOf 16 f.imm

/-- Whether inactive elements keep their old value. -/
def VFields.merging (f : VFields) : Bool := f.pen == 1 && f.zm == 0

end Sys2Proof

namespace Sys2Proof.Machine

/-! ## The core -/

/-- The tag state of a vector or scalar register: T, SI, GID (R173). -/
structure VTag where
  t : Bool
  si : Nat
  gid : Nat
deriving DecidableEq, Repr

/-- An untagged, unshared value. -/
def VTag.clear : VTag := ⟨false, 0, 0⟩

/-- A SHA-2 compressor or a Keccak unit (R185, R186, R256, R257, R259). For SHA-2, `h` holds the midstate words and
`buf` the bytes short of a block; for Keccak, `h` holds the lanes with the absorbed bytes in place, and `off` is the
place of the next squeezed byte. -/
structure HashUnit where
  live : Bool
  fn : Nat
  h : List Nat
  buf : Bytes
  count : Nat
  fin : Bool
  off : Nat
  tag : Bool
  masked : Bool
  doneAt : Nat
deriving DecidableEq, Repr

/-- An empty unit. -/
def HashUnit.empty : HashUnit := ⟨false, 0, [], [], 0, false, 0, false, false, 0⟩

/-- The AES unit: the key whose schedule it holds. -/
structure AesUnit where
  live : Bool
  key : Bytes
  tag : Bool
  doneAt : Nat
deriving DecidableEq, Repr

/-- An empty AES unit. -/
def AesUnit.empty : AesUnit := ⟨false, [], false, 0⟩

/-- A segment of the operand store in bytes: base, size, WRITE, SECRET (R199). -/
structure VSeg where
  base : Nat
  size : Nat
  wr : Bool
  secret : Bool
deriving DecidableEq, Repr

/-- One vector core with the job that it runs (Table 06.1, R198 to R200, R207 to R210). -/
structure VCore where
  v : Sparse VReg
  vt : Sparse VTag
  p : Sparse Nat
  pt : Nat
  sc : Sparse RegWord
  st : Sparse VTag
  /-- Modulus registers as 256-bit numbers (Table 06.7). -/
  q : Sparse Nat
  s2 : Sparse HashUnit
  kk : Sparse HashUnit
  aes : AesUnit
  /-- The operand store. -/
  mem : Memory
  /-- Share records by 512-byte block: memory group number and share index (R200). -/
  recs : Sparse (Nat × Nat)
  nextGroup : Nat
  /-- The bound job, and the owner kernel it calls: index, or 0xFF for vendor microcode. -/
  job : Option Nat
  kernel : Nat
  entry : Nat
  /-- The release-check entry is running (R224), after this result. -/
  checking : Bool
  pc : Nat
  stack : List Nat
  codeLen : Nat
  sites : List Nat
  order : Nat
  segs : List VSeg
  params : List Nat
  cycles : Nat
  sinceYield : Nat
  /-- Pre-emption is requested at the next yield point (R155), and the job that asked for it. -/
  preempt : Bool
  forJob : Option Nat
  /-- Local tick at which the yield point was reached: the wait for a save slot runs from it (R161). -/
  yieldAt : Nat
  /-- The declared count has been passed and reported (R211). -/
  passed : Bool
  /-- An instruction that has not issued yet: the local tick from which it waits, and whether it waits for masks (R188) or
  for a key (R206). Its cycles count (R210). -/
  wait : Option (Nat × Bool)
  /-- Both evaluations of a KEYLOAD's release have agreed (R6). -/
  released : Bool
  /-- The model's own note of the domain, width and modulus in which a share group was made, by GID and by memory group: a
  refresh keeps the value that the group holds there. -/
  doms : Sparse (Nat × Nat × Nat)
  mdoms : Sparse (Nat × Nat × Nat)
  /-- What the cluster deckle grants vendor microcode in shared memory as it issues: base, size, read, write. -/
  grants : List (Nat × Nat × Bool × Bool)
deriving DecidableEq, Repr

/-- A core at dispatch or after a clear: everything reads as zero (R174). -/
def VCore.idle : VCore :=
  { v := [], vt := [], p := [], pt := 0, sc := [], st := [], q := [], s2 := [], kk := [], aes := AesUnit.empty,
    mem := [], recs := [], nextGroup := 1, job := none, kernel := 0xFF, entry := 0, checking := false, pc := 0,
    stack := [], codeLen := 0, sites := [], order := 0, segs := [], params := [], cycles := 0, sinceYield := 0,
    preempt := false, forJob := none, yieldAt := 0, passed := false, wait := none, released := false, doms := [], mdoms := [], grants := [] }

/-- What surrounds one issue: the fill of the mask buffer, the word of VC_MGEN_STAT, the free counter, and the
cluster's shared memory for vendor microcode. -/
structure VEnv where
  fill : Nat
  mgen : Nat
  free : Nat
  shared : Memory
deriving DecidableEq, Repr

/-- The outcome of an issue: done with the core, the free counter, the shared memory, cycles and mask bits drawn; a
stall that changes nothing; or a fault with its cause (Tables 06.12 and 07.12). -/
inductive VRes where
  | done (c : VCore) (free : Nat) (shared : Memory) (cycles drawn : Nat)
  | stall
  | fault (cause : Nat)
deriving DecidableEq, Repr

/-- A kernel instruction as a function of its fields. -/
abbrev VOp := VFields → VEnv → VCore → VRes

/-! ## Fault causes -/

abbrev cShares : Nat := 0x01
abbrev cSite : Nat := 0x02
abbrev cSet : Nat := 0x03
abbrev cOrder : Nat := 0x04
abbrev cCount : Nat := 0x05
abbrev cBranch : Nat := 0x06
abbrev cBase : Nat := 0x07
abbrev cPublic : Nat := 0x08
abbrev cShareMove : Nat := 0x09
abbrev cField : Nat := 0x10
abbrev cWidth : Nat := 0x11
abbrev cPlace : Nat := 0x12
abbrev cModulus : Nat := 0x13
abbrev cUnit : Nat := 0x14
abbrev cAddress : Nat := 0x15
abbrev cDeckle : Nat := 0x16
abbrev cAlign : Nat := 0x17
abbrev cWrite : Nat := 0x18
abbrev cFlow : Nat := 0x19
abbrev cYieldCount : Nat := 0x1A
abbrev cYieldUnit : Nat := 0x1B
abbrev cEnd : Nat := 0x1C
abbrev cGroups : Nat := 0x1D
abbrev cKref : Nat := 0x1E
abbrev cRun : Nat := 0x1F

/-- The field and width checks of R178, then the rest. -/
def vcheck (f : VFields) (used : List VF) (ws : List Nat) (k : VRes) : VRes :=
  if !f.clean used then .fault cField
  else if used.contains .w && !ws.contains f.w then .fault cWidth
  else k

/-! ## Registers -/

def VCore.vreg (c : VCore) (r : Nat) : VReg := sparseGet 0 c.v r
def VCore.vtag (c : VCore) (r : Nat) : VTag := sparseGet VTag.clear c.vt r
def VCore.sreg (c : VCore) (r : Nat) : RegWord := sparseGet 0 c.sc r
def VCore.stag (c : VCore) (r : Nat) : VTag := sparseGet VTag.clear c.st r
def VCore.preg (c : VCore) (r : Nat) : Nat := sparseGet 0 c.p r
def VCore.ptag (c : VCore) (r : Nat) : Bool := c.pt.testBit r
def VCore.qreg (c : VCore) (r : Nat) : Nat := sparseGet 0 c.q r

def VCore.setV (c : VCore) (r : Nat) (x : VReg) (t : VTag) : VCore :=
  { c with v := sparseSet 0 c.v r x, vt := sparseSet VTag.clear c.vt r t }

def VCore.setS (c : VCore) (r : Nat) (x : RegWord) (t : VTag) : VCore :=
  { c with sc := sparseSet 0 c.sc r x, st := sparseSet VTag.clear c.st r t }

/-- A predicate register with its T bit. -/
def VCore.setP (c : VCore) (r x : Nat) (t : Bool) : VCore :=
  { c with p := sparseSet 0 c.p r x,
           pt := if t then c.pt ||| (1 <<< r) else if c.pt.testBit r then c.pt ^^^ (1 <<< r) else c.pt }

/-! ## Elements (R18, R175) -/

/-- Bytes of an element. -/
def eBytes (w : Nat) : Nat := 2 ^ w

/-- Bits of an element. -/
def eBits (w : Nat) : Nat := 8 * 2 ^ w

/-- Elements of a register. -/
def eCount (w : Nat) : Nat := 512 / 2 ^ w

/-- Element `e` of a register. -/
def elem (w : Nat) (x : VReg) (e : Nat) : Nat := (x.toNat >>> (e * eBits w)) % 2 ^ eBits w

/-- `n` elements of width `w` laid side by side, element 0 lowest. -/
def packN (w : Nat) (g : Nat → Nat) (n : Nat) : Nat :=
  (List.range n).foldr (fun e a => a * 2 ^ eBits w + g e % 2 ^ eBits w) 0

/-- A register from its elements. -/
def packV (w : Nat) (g : Nat → Nat) : VReg := BitVec.ofNat 4096 (packN w g (eCount w))

/-- The bytes of a register, byte 0 in bits 7 to 0. -/
def vBytes (x : VReg) : Bytes := (List.range 512).map (fun k => BitVec.ofNat 8 (x.toNat >>> (8 * k)))

/-- A register filled from byte 0, zero beyond the string. -/
def vOfBytes (b : Bytes) : VReg := BitVec.ofNat 4096 (leNat (b.take 512))

/-- Whether element `e` is active (R175). -/
def VCore.active (c : VCore) (f : VFields) (w e : Nat) : Bool := f.pen == 0 || (c.preg f.pred).testBit (e * eBytes w)

/-- A new register value under predication at width `w` (R175). -/
def VCore.predicated (c : VCore) (f : VFields) (w : Nat) (old new : VReg) : VReg :=
  if f.pen = 0 then new
  else packV w (fun e => if c.active f w e then elem w new e else if f.zm = 1 then 0 else elem w old e)

/-- A predicate whose element `e` at width `w` is `g e`, on every bit of the element's bytes (R175). -/
def packP (w : Nat) (g : Nat → Bool) : Nat :=
  (List.range (eCount w)).foldr (fun e a => a * 2 ^ eBytes w + (if g e then 2 ^ eBytes w - 1 else 0)) 0

/-! ## Tags (R189, R190) -/

/-- The tag state formed from sources in order: T is the or; SI and GID are those of the first share. -/
def formTag (src : List VTag) : VTag :=
  let t := src.any (·.t)
  match src.find? (·.si != 0) with
  | some x => ⟨t, x.si, x.gid⟩
  | none => ⟨t, 0, 0⟩

/-- Two sources are different shares of one group (R190). -/
def clash (src : List VTag) : Bool :=
  src.any (fun a => a.si != 0 && src.any (fun b => b.si != 0 && a.gid == b.gid && a.si != b.si))

/-- The tag of the predicate, as a source, when the word is predicated. -/
def VCore.predTag (c : VCore) (f : VFields) : List VTag := if f.pen = 1 then [⟨c.ptag f.pred, 0, 0⟩] else []

/-- Sources of an instruction: its registers, the predicate, and the old destination when merging. -/
def VCore.srcs (c : VCore) (f : VFields) (regs : List VTag) (old : List VTag) : List VTag :=
  regs ++ c.predTag f ++ (if f.merging then old else [])

/-- An issue that takes `cyc` cycles and draws nothing. -/
def VRes.plain (c : VCore) (e : VEnv) (cyc : Nat) : VRes := .done c e.free e.shared cyc 0

/-- A vector result: written under predication at width `w` with the tag formed from the sources, unless two sources
are different shares of one group. -/
def vecOut (f : VFields) (e : VEnv) (c : VCore) (cyc w : Nat) (regs : List VTag) (new : VReg) : VRes :=
  let src := c.srcs f regs [c.vtag f.vd]
  if clash src then .fault cShares
  else .plain (c.setV f.vd (c.predicated f w (c.vreg f.vd) new) (formTag src)) e cyc

/-- A destination pair VD, VD + 1 (R175, R178). -/
def pairOut (f : VFields) (e : VEnv) (c : VCore) (cyc w : Nat) (regs : List VTag) (lo hi : VReg) : VRes :=
  let src := c.srcs f regs [c.vtag f.vd, c.vtag (f.vd + 1)]
  if f.vd % 2 = 1 then .fault cPlace
  else if clash src then .fault cShares
  else
    let t := formTag src
    .plain ((c.setV f.vd (c.predicated f w (c.vreg f.vd) lo) t).setV (f.vd + 1)
      (c.predicated f w (c.vreg (f.vd + 1)) hi) t) e cyc

/-- A predicate result P[VD[2:0]] under predication; VD[4:3] must be zero. -/
def predOut (f : VFields) (e : VEnv) (c : VCore) (cyc w : Nat) (regs : List VTag) (g : Nat → Bool) : VRes :=
  let src := c.srcs f regs [⟨c.ptag f.vd, 0, 0⟩]
  if 8 ≤ f.vd then .fault cField
  else if clash src then .fault cShares
  else
    let old := c.preg f.vd
    let x := packP w (fun i => if c.active f w i then g i else f.zm == 0 && old.testBit (i * eBytes w))
    .plain (c.setP f.vd x (src.any (·.t))) e cyc

/-- A scalar result with the tag formed from the sources. -/
def scalarOut (f : VFields) (e : VEnv) (c : VCore) (cyc : Nat) (regs : List VTag) (x : Nat) : VRes :=
  if clash regs then .fault cShares else .plain (c.setS f.vd (BitVec.ofNat 64 x) (formTag regs)) e cyc

/-! ## Share groups (R173, R191) -/

/-- Registers `r` to `r + n - 1`. -/
def regRange (r n : Nat) : List Nat := (List.range n).map (r + ·)

/-- GIDs that no register holds once the destination registers are released (R173). -/
def VCore.freeGids (c : VCore) (dst : List Nat) : List Nat :=
  let held := ((c.vt.filter (fun x => !dst.contains x.1)) ++ c.st).filterMap (fun x => if x.2.si = 0 then none else some x.2.gid)
  (List.range 64).filter (fun g => !held.contains g)

/-- A GID taken from the pool; which one is free. -/
def VCore.newGid (c : VCore) (free : Nat) (dst : List Nat) : Nat :=
  let l := c.freeGids dst
  l.getD (Config.freeNat free % max 1 l.length) 0

/-- Whether the tags head a share set of `n` shares: SI 1 to n in order, one GID (R191). -/
def setOk (tags : List VTag) : Bool :=
  match tags with
  | [] => false
  | a :: _ => (tags.zipIdx).all (fun x => x.1.si == x.2 + 1 && x.1.gid == a.gid)

/-- A destination set partly, but not wholly, overlaps a source set (R178). -/
def partOverlap (vd nd va na : Nat) : Bool :=
  let d := regRange vd nd
  let a := regRange va na
  a.any d.contains && !a.all d.contains

/-- A free register value, drawn at counter `free`. -/
def freeReg (free : Nat) : VReg := BitVec.ofNat 4096 (Config.freeNat free)

/-- The mask bits an instruction may draw now: the fill less the reserve (R187). -/
def VEnv.usable (e : VEnv) : Nat := e.fill - 32768

/-- A result that draws `bits` of mask: it stalls, changing nothing, while the buffer cannot meet the draw (R187). -/
def drawing (e : VEnv) (bits : Nat) (k : VRes) : VRes := if e.usable < bits then .stall else k

/-- The model's note of the domain in which a group was made: its code, the width and the modulus. -/
def VCore.setDom (c : VCore) (gid : Nat) (d : Nat × Nat × Nat) : VCore := { c with doms := sparseSet (0, 0, 0) c.doms gid d }

/-- Registers of a set written with one new group. -/
def VCore.setShares (c : VCore) (vd gid : Nat) : List VReg → Nat → VCore
  | [], _ => c
  | x :: xs, i => (c.setV (vd + i) x ⟨true, i + 1, gid⟩).setShares vd gid xs (i + 1)

end Sys2Proof.Machine
end

