-- ==== Sys2Proof/Machine/Types.lean ====
section
/-!
DEFINITION. The pieces that the state is made of: one structure for each part of the package that is not a
register of the register index.
-/

namespace Sys2Proof

/-- Type, flags and payload bytes of a mirror message: R338 gives their places in the header, and no chapter their codes
or the payload's layout. -/
opaque Config.mirrorKind : Machine.MirrorBody → Nat × Nat
opaque Config.mirrorPayload : Machine.MirrorBody → Bytes

end Sys2Proof

namespace Sys2Proof.Machine

/-- No context. -/
def Stream.blank : Stream :=
  { live := false, owner := 0, dir := 0, cls := 0, mac := [], appid := 0, vid := 0, port := 0, pair := false, alg := 0,
    tagLen := 0, unauth := 0, fail := 0, secRing := 0xFFFF, window := 2000, cntMod := 65536, cur := none, next := none,
    last := none, hist := [], subs := [], counts := List.replicate 12 0 }

/-- How the boot ROM reads a flash slot (R466): with command 0x03, 3-byte addresses and 25 MHz in 1S-1S-1S mode; the SFDP
table; in 8D-8D-8D or 1S-8S-8S mode at 133 MHz; in 1S-1S-1S mode at 50 MHz. -/
inductive FlashRead where
  | first
  | sfdp
  | octalDdr
  | octalOut
  | single
deriving DecidableEq, Repr

/-- The clock of a flash read in MHz. The SFDP table is read at the first stage's clock. -/
def FlashRead.mhz : FlashRead → Nat
  | .first | .sfdp => 25
  | .octalDdr | .octalOut => 133
  | .single => 50

/-- What leaves the device: memory reads and posted writes, frames, mirror messages, SMBus and TAP data. -/
inductive OutMsg where
  /-- A memory read for a TI, with the PASID it carries (R75). -/
  | memRead (pasid : Nat) (ti : Nat) (addr : Nat) (len : Nat)
  /-- A posted memory write, with the PASID it carries, and the TI and ring it was made for. Execute Requested, Privileged
  Mode Requested and Relaxed Ordering are clear in every one (R75, R77). -/
  | memWrite (pasid : Option Nat) (ti : Option Nat) (ring : Option Nat) (addr : Nat) (data : Bytes)
  /-- A frame launched on a port at a PHC time. -/
  | frame (port : Nat) (time : Nat) (data : Bytes)
  /-- A mirror message, sent on both mirror links (R338): sequence number, content, and the bytes that cross, which are
  none for a message of the handshake, sent before there is a key. -/
  | mirror (seq : Nat) (body : MirrorBody) (wire : Bytes)
  /-- Bytes returned on the SMBus. -/
  | smbus (data : Bytes)
  /-- Bits shifted out of the TAP, the least significant first, and what EXTEST drives onto the boundary. -/
  | tdo (bits value : Nat)
  | boundary (value : Nat)
  /-- The return of a register read. -/
  | readReturn (data : Bytes)
  /-- Data and response byte of a DBG_ACCESS. -/
  | debug (data response : Nat)
  /-- A read of a flash slot by the boot ROM, as its bus shows it. -/
  | flash (slot : Nat) (read : FlashRead)
deriving DecidableEq, Repr

/-- The host link: configuration-space bits, the MSI-X table and its pending bits, and posted writes that wait (R78). -/
structure HostLink where
  busMaster : Bool
  d3hot : Bool
  perst : Bool
  pasidEnable : Bool
  msixEnable : Bool
  msixMask : Bool
  ctoValue : Nat
  vecAddr : Sparse Nat
  vecData : Sparse Nat
  vecMask : Nat
  pba : Nat
  waiting : List OutMsg
  /-- The base addresses that the host has written to BAR0, BAR2 and BAR4, by BAR (R74), and Max_Read_Request_Size in
  bytes. -/
  bars : Sparse Nat
  mrrs : Nat
  /-- When Bus Master Enable was last cleared, in local ticks: the CQ-full clocks stop from then (R78). -/
  stoppedAt : Option Nat
deriving DecidableEq, Repr

/-- Low halves of 64-bit registers captured or staged per master (R11): register key and value. -/
structure Master64 where
  shadow : Option (Nat × Nat)
  staged : Option (Nat × Nat)
deriving DecidableEq, Repr

/-- What the mailbox is doing (R96, R97). -/
inductive MbxPhase where
  | idle
  /-- A command is running; its work has not reached the commit point. -/
  | running
  /-- The command is past its commit point and waits for what the number names (see `mbxSettle`). -/
  | waiting
deriving DecidableEq, Repr

/-- The mailbox behind its registers: the snapshot taken at GO, the phase and the response buffer. -/
structure Mailbox where
  phase : MbxPhase
  snap : Bytes
  started : Nat
  /-- What a committed command waits for: a job set, a ring, the acknowledgement of a mirror message. -/
  waitJobs : List Nat
  waitRing : Option Nat
  waitSeq : Option Nat
  rsp : Bytes
  /-- Since when the command waits for VDD_OTP before its first program pulse, in local ticks (R470). -/
  otpAt : Option Nat
deriving DecidableEq, Repr

/-- One event record (Table 17.2). -/
structure EvRec where
  time : Nat
  seq : Nat
  code : Nat
  chan : Nat
  sev : Nat
  src : Nat
  d0 : Nat
  d1 : Nat
  d2 : Nat
  rep : Nat
  last : Nat
deriving DecidableEq, Repr

/-- The recorder (R446 to R455): the intake FIFO, the channels (oldest record first), the retention recorder's own
sequence number, and the cursors and snapshots of the masters other than PF0's cursor. -/
structure Recorder where
  fifo : List EvRec
  chans : Sparse (List EvRec)
  aoSeq : Nat
  mpCursor : Nat × Nat
  dbgCursor : Nat × Nat
  snaps : Sparse Bytes
deriving DecidableEq, Repr

/-- The time base (R168 to R171, R35): the PHC with its fraction, the local tick count that no step moves, the slew
left, a pending step, the target's arming, and the replica offsets. -/
structure TimeBase where
  ns : Nat
  frac : Nat
  /-- 0.5 ns ticks since reset release. -/
  ticks : Nat
  /-- Slew left, in units of 2⁻⁴⁸ ns. -/
  slew : Int
  /-- A committed step: 1 set or 2 step, its value, and the local tick at which it takes effect. -/
  step : Option (Nat × Int × Nat)
  targetArmed : Bool
  replica : Sparse Int
  fracCap : Sparse Nat
  /-- Local tick of the last captured PPS_IN edge, and how many PPS_LOST reports have followed it. -/
  ppsLast : Option Nat
  ppsLost : Nat
  /-- Local tick of the last captured edge, or of the enabling when there is none. -/
  ppsBase : Nat
  ppsOut : Bool
  ppsOutAt : Nat
  aoTicks : Nat
  aoRem : Nat
deriving DecidableEq, Repr

/-- A held completion: the 32 bytes of its CQE, the SQ that it reports, and whether its deadline fault fires the CQ's
interrupt (R119). -/
structure HeldCqe where
  cqe : Bytes
  sq : Nat
  dl : Bool
deriving DecidableEq, Repr

/-- A snoop binding of a digest channel (R263): its source (DGE_STAT.SOURCE), the bytes left of its range, the job that it
serves, and the ring for the event. -/
structure DgeBind where
  source : Nat
  left : Nat
  job : Option Nat
  ring : Nat
deriving DecidableEq, Repr

/-- A digest channel behind its registers (R255 to R266): the function and state of the running digest, the bytes short
of a block, whether a digest has finished since the last initialisation, the binding, the local tick of a running
comparison, and that of the last disagreement. -/
structure DgeChan where
  fn : Nat
  h : List Nat
  buf : Bytes
  fin : Bool
  bind : Option DgeBind
  cmpAt : Option Nat
  lastDis : Option Nat
deriving DecidableEq, Repr

/-- What a ring holds beside its registers. -/
structure RingX where
  /-- The accepted head of an SQ or FTX ring, of which RING_DIDX is the value last written. -/
  head : Nat
  /-- Header reads (R112): one in flight, whether it takes TENANT_CTL, and the doorbells that wait for the next. -/
  hdrBusy : Bool
  hdrCtl : Bool
  /-- The read waits for DMA to open: it has not been issued (R78). -/
  hdrHeld : Bool
  hdrNext : Option Bool
  /-- The doorbell recorded in QUIESCED (R84): some CTL. -/
  recorded : Option Bool
  ackSeq : Nat
  refused : Bool
  /-- CTL_SEQ of a tenant's disable request that is not yet settled (R132). -/
  reqSeq : Option Nat
  /-- A disable is in progress: 1 by command, 2 by the tenant (R131, R133). -/
  disabling : Nat
  /-- DEVICE_COUNT (Table 04.2). -/
  devCount : Nat
  sinceMsg : Nat
  unsignalled : Option Nat
  /-- Local tick from which the CQ_FULL clock counts (R118). -/
  fullFrom : Option Nat
  held : List HeldCqe
  /-- FRX: a delivery was dropped since the index was last read (R112). -/
  dropSeen : Bool
  /-- FRX: the data array, log₂ of its slot bytes, and the deliveries dropped since the last one made (Table 10.10,
  R303). FTX: the report CQ, 0xFFFF for none. -/
  data : Nat
  slotLog : Nat
  gap : Nat
  report : Nat
deriving DecidableEq, Repr

/-- Where a job stands. -/
inductive JobPhase where
  /-- Accepted, on a ready list (R142). -/
  | ready
  /-- Dispatched to a core or engine; its operation has not produced a result yet. -/
  | bound
  /-- Its operation has produced a result, before the release check (R72). -/
  | computed
  /-- Past its release point, waiting for its CQE (R134, R340). -/
  | released
  /-- Pre-empted and saved (R156). -/
  | saved
deriving DecidableEq, Repr

/-- One accepted job. -/
structure Job where
  id : Nat
  ti : Nat
  ring : Nat
  sqIndex : Nat
  sqe : Bytes
  die : Nat
  phase : JobPhase
  core : Option Nat
  lie : Option Nat
  /-- Order of acceptance; a job that returns to the head of its TI's place takes a lower number. -/
  order : Int
  /-- Executions begun (R138). -/
  attempts : Nat
  late : Bool
  replayed : Bool
  started : Bool
  in0 : Bytes
  in1 : Bytes
  outSegs : List (Nat × Nat)
  outLen : Nat
  /-- Catalogue time in picoseconds at P0 (R51). -/
  cost : Nat
  /-- After a save: the charge that a resumption carries, in picoseconds at P0 (Table 05.1). -/
  left : Option Nat
  boundAt : Nat
  /-- The keys on their way from the home die, by reference: 0 is the SQE's key (R144). A key whose release awaits its second
  evaluation stands in front, as `held` (R431). -/
  due : List Nat
  /-- The place of the job's keys among those sent: transfers of one class between two dies keep their order (R24). -/
  sentNo : Nat
  /-- The stored form of the key as it was loaded, and its type and usage. -/
  keyBytes : Bytes
  keyType : Nat
  keyUsage : Nat
  /-- The slot that the job holds PENDING, as a slot key. -/
  target : Option Nat
  /-- Result: status, DETAIL, Out bytes, the key to create and its usage. -/
  status : Nat
  detail : Nat
  result : Bytes
  newKey : Option Bytes
  /-- An engine refused a public value in phase V (R244). -/
  refused : Bool
  /-- A passed release point whose CQE waits for the mirror (R340): the sequence number, and the CQE as it will be
  written. -/
  mirrorSeq : Option Nat
  cqe : Bytes
  endTime : Nat
  /-- Random bytes served for the job's draw (R361). -/
  rand : Bytes
  /-- The keys that an owner kernel's references name, as they were loaded: type and stored form (R206, R223). -/
  krefs : List (Nat × Bytes)
  /-- The segments of In1, where acceptance has read its list (R495). -/
  list1 : Option (List (Nat × Nat))
deriving DecidableEq, Repr

/-- A key reference whose release is held until both evaluations agree, as `Job.due` lists it. -/
def held (ref : Nat) : Nat := ref + 16

/-- A key of the job has not left the key store: its release is held. -/
def Job.keyHeld (j : Job) : Bool := j.due.any (fun n => decide (16 ≤ n))

/-- Every key of the job has reached its die. -/
def Job.keyArrived (j : Job) : Bool := j.due.isEmpty

/-- A prefetched entry (R114). -/
structure Prefetched where
  ring : Nat
  idx : Nat
  sqe : Bytes
deriving DecidableEq, Repr

/-- The scheduler behind its registers (R145 to R166). -/
structure Sched where
  jobs : List Job
  prefetch : List Prefetched
  nextJob : Nat
  /-- The number that the next job's keys take when they are sent (R24). -/
  nextSend : Nat
  /-- Virtual times, keyed by die, class and TI. -/
  vt : Sparse Nat
  /-- Where each tier's next search begins: one past the ring last served (R120); the FTX arbiter's likewise. -/
  lastTier1 : Nat
  lastTier2 : Nat
  lastFtx : Nat
  balPeriod : Nat
  balThresh : Nat
  balMax : Nat
  balOn : Bool
  waitKey : Nat
  waitSlot : Nat
  waitLie : Nat
  waitRestore : Nat
  /-- Reserved cores: global VC index to TI + 1. -/
  reserved : Sparse Nat
  /-- Released cores that leave their reservation when the TI's job on them ends (R163). -/
  leaving : List Nat
  /-- Draining cluster per die (R148): cluster + 1. -/
  drain : Sparse Nat
deriving DecidableEq, Repr

/-- State of a key slot (R318). -/
inductive SlotState where
  | empty | pending | occupied
deriving DecidableEq, Repr

/-- One entry of the slot directory with its stored form (R317, R318). -/
structure KeySlot where
  state : SlotState
  typ : Nat
  usage : Nat
  gen : Nat
  /-- The stored form: the exclusive or of the two shares that the key store holds (R315), and the first of them over the
  bytes that lie in granules. -/
  stored : Bytes
  share : Bytes
  granules : Nat
  /-- The job or command that holds the slot PENDING. -/
  holder : Nat
  /-- Package clusters that hold a copy of a resident Classic McEliece public key (R335). -/
  copies : List Nat
deriving DecidableEq, Repr

/-- An empty slot whose generation has not advanced. -/
def KeySlot.blank : KeySlot := ⟨.empty, 0, 0, 0, [], [], 0, 0, []⟩

/-- One owner slot of the OTP (Table 14.4); an unprogrammed hash is the empty string. -/
structure OwnerSlot where
  owner : Bytes
  kernel : Bytes
  debugHash : Bytes
  revoked : Bool
deriving DecidableEq, Repr

/-- One root epoch slot of the OTP (R328, R405). -/
structure EpochSlot where
  share : Bytes
  check : Bytes
  commit : Bool
  owner : Nat
deriving DecidableEq, Repr

/-- The package OTP (R399 to R405). A state group or mark copy is its value after correction, `none` when it is
uncorrectable, 0 when it is erased. -/
structure Otp where
  groups : List (Option Nat)
  marks : List (Option Nat × Option Nat)
  deviceId : Bytes
  imageHash : Bytes
  vendorDebug : Bytes
  /-- Alarm policy floor by source (R423). -/
  floor : Sparse Nat
  owners : List OwnerSlot
  svn : Nat
  epochs : List EpochSlot
  f2 : Bool
deriving DecidableEq, Repr

/-- Nonce and debug challenge (R406, R411), with the local tick of issue. -/
structure Auth where
  nonce : Bytes
  nonceAt : Nat
  nonceLive : Bool
  chal : Bytes
  chalAt : Nat
  chalTtl : Nat
  chalLive : Bool
deriving DecidableEq, Repr

/-- The battery-backed key store and what else the AO domain keeps (R326, R337, R375): the root share, the identity
seeds, and the duplex pair record: its presence, the pair secret, the two direction keys, the peer hash. -/
structure Bbks where
  share : Bytes
  identity : Bytes
  paired : Bool
  secret : Bytes
  keyI2R : Bytes
  keyR2I : Bytes
  peer : Bytes
  initiator : Bool
deriving DecidableEq, Repr

/-- The store after an erase: every byte zero. -/
def Bbks.zero : Bbks := ⟨[], [], false, [], [], [], [], false⟩

/-- What waits for a seed finished after its request (R357): a job's prediction-resistant draw, one of the MP's, or a due
reseed that found no seed. -/
inductive SeedFor
  | job (j : Nat)
  | mp
  | reseed
deriving DecidableEq, Repr

/-- A request for the next seed finished: the bytes drawn after it, and the local tick of the request. -/
structure Owed where
  who : SeedFor
  n : Nat
  at_ : Nat
deriving DecidableEq, Repr

/-- The entropy subsystem of one die behind its registers (R349 to R368). -/
structure RngDie where
  /-- Bits waiting in each bank buffer. -/
  bufs : List Nat
  /-- The words absorbed into the seed in assembly, and their credit in tenths of a bit. -/
  asm : Bytes
  credit : Nat
  fifo : List Bytes
  drbg : Option Drbg
  /-- Banks excluded by the administrator. -/
  admin : Nat
  /-- Local ticks of each bank's exclusions, and that of its last exclusion or failed retest (R353). -/
  exTimes : Sparse (List Nat)
  tryAt : Sparse Nat
  /-- Local tick at which the intake round under way began (R354). -/
  roundAt : Nat
  /-- Local tick, plus 1, at which a seed last entered the FIFO from the conditioner (R352). -/
  doneAt : Nat
  /-- Waiting requests by class: MGEN seeds by core, job draws by job and length, an MP draw and a remask draw
  by length. -/
  mgenQ : List Nat
  jobQ : List (Nat × Nat)
  mpQ : Nat
  remaskQ : Nat
  /-- Random bytes served to the waiting MP draw. -/
  mpRand : Bytes
  /-- The requests that wait for the next seed finished, oldest first. -/
  owed : List Owed
  /-- Seeds that the donor has finished for this die's requests and that are on their way (R364). -/
  coming : List Bytes
  /-- When each wait began, in local ticks plus 1: the MP's at 0, the remask's at 1, a job's at its number plus 2. -/
  since : Sparse Nat
  /-- Local tick of the last remask pass. -/
  remaskAt : Nat
deriving DecidableEq, Repr

/-- A die whose entropy is off. -/
def RngDie.off : RngDie :=
  { bufs := List.replicate 7 0, asm := [], credit := 0, fifo := [], drbg := none, admin := 0, exTimes := [],
    tryAt := [], roundAt := 0, doneAt := 0, mgenQ := [], jobQ := [], mpQ := 0, remaskQ := 0, mpRand := [], owed := [], coming := [],
    since := [], remaskAt := 0 }

/-- A running handshake (R337): initiator, the local tick of its start, whether it renews a pair, the peer hash, PAIR_1,
T2, and the secrets of this side: the initiator's ML-KEM seed and X448 scalar, the responder's pair secret. -/
structure Pairing where
  initiator : Bool
  at_ : Nat
  renew : Bool
  hash : Bytes
  msg1 : Bytes
  t2 : Bytes
  eph : Bytes
deriving DecidableEq, Repr

/-- The duplex pair behind its registers (R336 to R345). -/
structure Duplex where
  /-- The two mirror ports, 0xFFFF while none is configured, and the peer's MAC addresses. -/
  portA : Nat
  portB : Nat
  macA : Bytes
  macB : Bytes
  hbPeriod : Nat
  hbMiss : Nat
  ackMs : Nat
  /-- Local ticks of the last valid message on either link, on each, and of the last heartbeat sent. -/
  heard : Nat
  heardA : Option Nat
  heardB : Option Nat
  beat : Nat
  /-- Role, role epoch and state as the peer's messages give them; role 0 while unknown. -/
  peerRole : Nat
  peerEpoch : Nat
  peerState : Nat
  /-- Messages sent and not acknowledged: sequence number, local tick, the job whose CQE waits, TI. -/
  unacked : List (Nat × Nat × Option Nat × Nat)
  pairing : Option Pairing
  /-- SYNC_END's sequence number on the active; the slots and contexts that a resync has named on the standby. -/
  syncEnd : Option Nat
  named : List Nat
  namedCtx : List Nat
  /-- LINK_LOST was entered from IN_SYNC (R344). -/
  fromSync : Bool
  /-- Keys and contexts of the last resync. -/
  synced : Nat × Nat
  /-- When the keys in use were made: local tick, and the sequence numbers sent and applied by then (R338). -/
  keyTick : Nat
  keySeq : Nat × Nat
deriving DecidableEq, Repr

/-- No pair. -/
def Duplex.off : Duplex :=
  { portA := 0xFFFF, portB := 0xFFFF, macA := [], macB := [], hbPeriod := 10, hbMiss := 3, ackMs := 2, heard := 0,
    heardA := none, heardB := none, beat := 0, peerRole := 0, peerEpoch := 0, peerState := 0, unacked := [], pairing := none,
    syncEnd := none, named := [], namedCtx := [], fromSync := false, synced := (0, 0), keyTick := 0, keySeq := (0, 0) }

/-- A long-integer engine behind its registers (R233 to R253). -/
structure LieX where
  /-- The operand memory as the slot window reaches it in DIAG, the public tables apart. -/
  mem : Memory
  /-- The public tables are loaded; bytes of theirs that the window has overwritten (256: as loaded). -/
  tables : Bool
  tab : Sparse Nat
  /-- Why the tables are being rewritten: 1 ECC, 2 ERASE, 3 leaving DIAG, 4 SLOT_WORDS written back to 36. -/
  why : Nat
  /-- The command of DIAG that runs: code, size index, base slot. -/
  cmd : Option (Nat × Nat × Nat)
  started : Nat
  /-- Local ticks of the completion time-outs (R251). -/
  timeouts : List Nat
  /-- DIAG_LIE waits for the bound job to end (R252). -/
  diagWait : Bool
  /-- The measured clock f, twice the engine's own (R243). -/
  mhz : Option Nat
  /-- Whether the release check of the command that stands in the slots passes (R245). -/
  good : Bool
deriving DecidableEq, Repr

/-- An engine with its tables and nothing else. -/
def LieX.idle : LieX := ⟨[], true, [], 0, none, 0, [], false, none, true⟩

/-- An installed owner kernel (R221, R228): header, site list, code, measurement, first 64-word block, and whether it is
callable. -/
structure Kernel where
  header : Bytes
  sites : List Nat
  code : Bytes
  measure : Bytes
  block : Nat
  callable : Bool
deriving DecidableEq, Repr

/-- No kernel. -/
def Kernel.none : Kernel := ⟨[], [], [], [], 0, false⟩

/-- What a core's stores hold beside what was loaded into them, and the sequencer's place (R212 to R217): the bits of
control-store words that differ from the golden copy's, by address; those of kernel-store words and their check bits, by
address; the micro-address and the return addresses; and the conditions that the last scalar result left: zero, negative,
carry out, tagged, and whether the last loop count was zero. -/
structure MicroSeq where
  ctl : Sparse Nat
  krn : Sparse Nat
  addr : Nat
  stack : List Nat
  zero : Bool
  neg : Bool
  carry : Bool
  tagged : Bool
  loopZero : Bool
deriving DecidableEq, Repr

/-- Stores as they were loaded, the sequencer at word 0. -/
def MicroSeq.idle : MicroSeq := ⟨[], [], 0, [], false, false, false, false, false⟩

/-- A stage area (R227, R393): what it is for, the declared length, and the bytes that have arrived. -/
structure Stage where
  target : Option Nat
  size : Nat
  data : Bytes
deriving DecidableEq, Repr

/-- A doubled decision whose second evaluation is awaited (R6, R431): a debug token, and how it came (1 mailbox, 2 TAP);
the target of a life-cycle transition; a key of a job, by reference; a KEYLOAD of a core; the verdict for a flash slot,
and whether as fall-back. A token of the mailbox whose evaluations disagreed is not answered. -/
inductive Doubled where
  | unlock (token : Bytes) (via : Nat)
  | commit (target : Nat)
  | key (job ref : Nat)
  | load (vc : Nat)
  | verdict (slot : Nat) (fallback : Bool)
  | unanswered
deriving DecidableEq, Repr

/-- The decision's place in Table 15.5; 0 for none. -/
def Doubled.number : Doubled → Nat
  | .unlock _ _ => 1
  | .commit _ => 2
  | .key _ _ | .load _ => 3
  | .verdict _ _ => 4
  | .unanswered => 0

/-- The protection controller behind its registers (R416 to R431): when HOLD began and when the last HOLD-mapped condition
cleared, the running erase with its union mask, and the local ticks of recent integrity mismatches. -/
structure Prot where
  holdAt : Nat
  clearAt : Option Nat
  eraseAt : Option Nat
  eraseMask : Nat
  bic : List Nat
  /-- What the monitors report: source to the dies that report it, and the detail words of the last report. -/
  phys : Sparse Nat
  info : Sparse (Nat × Nat)
  /-- Sources whose condition has arisen since the last evaluation. -/
  pend : Nat
  /-- Masks written by PROT_SET_MAP, or the firmware's default. -/
  map : Sparse Nat
  /-- Loop seeds, and the AO tick of the last arming. -/
  seeds : Sparse Nat
  armAt : Nat
  /-- The last mismatch of each loop, and the first of its last pair, in local ticks plus 1. -/
  loopLast : Sparse Nat
  loopPair : Sparse Nat
  /-- A built-in test run: the channel under test, its start, the failures so far; and the channels out of service. -/
  bist : Option (Nat × Nat × Nat × Nat)
  outA : Nat
  outB : Nat
  /-- The source of the running erase, and how often it has been asked for. -/
  eraseSrc : Nat
  eraseN : Nat
  /-- The erase-command lines of a die that are broken or float: bit 0 the active-high line, bit 1 the active-low one
  (R26). -/
  wires : Sparse Nat
  /-- The doubled decisions that await their second evaluation, in the order of the first. -/
  doubled : List Doubled
deriving DecidableEq, Repr

/-- No HOLD, no erase, nothing armed. -/
def Prot.idle : Prot :=
  { holdAt := 0, clearAt := none, eraseAt := none, eraseMask := 0, bic := [], phys := [], info := [], pend := 0, map := [],
    seeds := [], armAt := 0, loopLast := [], loopPair := [], bist := none, outA := 0, outB := 0, eraseSrc := 0, eraseN := 0,
    wires := [], doubled := [] }

/-- A running change of a die's DVFS point (R472): the points before and after, its local tick, and its reason of Table
18.10. -/
structure Dvfs where
  die : Nat
  old : Nat
  new : Nat
  at_ : Nat
  why : Nat
deriving DecidableEq, Repr

/-- Power and temperature behind their registers (R471 to R479): the running changes; evaluations in a row below the cap;
since when every die has been at P3 above the cap; the sensors at 120 °C in the last sample, one bit each; by die, since
when it is cool, when it last rose and the point that throttling found, each plus 1; after a thermal shutdown, since when
every sensor is below 100 °C. -/
structure Power where
  changes : List Dvfs
  below : Nat
  overSince : Option Nat
  hot : Nat
  cool : Sparse Nat
  rose : Sparse Nat
  found : Sparse Nat
deriving DecidableEq, Repr

/-- Nothing changes, nothing is held. -/
def Power.idle : Power := ⟨[], 0, none, 0, [], [], []⟩

/-- A received frame on its way (R282): its port, its bytes without FCS and RCT, its ingress time and the local tick of
its last byte, its context with the table state that held when it entered its pipe (R33), what the parser extracted, its
entry flags, the bytes that it takes of its port's part and of the shared part of the frame buffer, its posted verdict with
the local tick of posting, and the rings that still wait for it. -/
structure RxFrame where
  id : Nat
  port : Nat
  data : Bytes
  ingress : Nat
  lastByte : Nat
  ctx : Option Nat
  seen : Stream
  sec : SecFields
  flags : Nat
  own : Nat
  shared : Nat
  /-- The frame found room in the buffer (R304). -/
  kept : Bool
  verdict : Option Nat
  postedAt : Nat
  rings : List Nat
deriving DecidableEq, Repr

/-- An FTX entry on its way (R308 to R310): its ring and entry, the frame once it has been read and tagged, the ports on
which it still has to start, those on which it was sent or failed, and its egress time on LAN A. -/
structure TxFrame where
  id : Nat
  ring : Nat
  idx : Nat
  entry : Bytes
  data : Bytes
  tagged : Bool
  launch : Nat
  seq : Nat
  waits : List Nat
  sent : Nat
  failed : Option Nat
  time : Nat
deriving DecidableEq, Repr

/-- The frame path behind its registers: the settings of FP_SET_GLOBAL, the frames on their way in and out, and the local
tick of each pipe's last comparator disagreement. -/
structure Frames where
  share : Nat
  utc : Nat
  maxWait : Nat
  slip : Nat
  nextId : Nat
  rx : List RxFrame
  tx : List TxFrame
  lastDis : Sparse Nat
  /-- Ports that a link partner has paused, with the local tick at which the pause ends; ports that have sent pause; dies
  whose shared part is full (R277, R304). -/
  paused : Sparse Nat
  pausing : List Nat
  full : List Nat
  /-- Contexts as they were before the updates of the last 10 ms, newest first, with the local tick of each update (R33). -/
  past : List (Nat × Nat × Stream)
deriving DecidableEq, Repr

/-- Defaults and no frame (R310, R312). -/
def Frames.idle : Frames := ⟨4, 37, 100, 10, 0, [], [], [], [], [], [], []⟩

/-- The test access port (R410): the instruction in force, the boundary register, and the units that the debug master has
halted (R412): a core by its number, an engine as 256 + k, a die agent as 512 + d. -/
structure Tap where
  ir : Nat
  boundary : Nat
  halted : List Nat
deriving DecidableEq, Repr

/-- IDCODE is selected. -/
def Tap.idle : Tap := ⟨0x01, 0, []⟩

/-- An access that a deckle holds (R441): master ID, kind, BAR0 address, the address that the master gave, data or size, the
local tick of its arrival, and its place among the accesses that wait. -/
structure HeldAccess where
  master : Nat
  write : Bool
  addr : Nat
  bus : Nat
  data : Bytes
  size : Nat
  at_ : Nat
  no : Nat
deriving DecidableEq, Repr

/-- A deckle behind its registers (R436 to R442): the Uzothal rules are loaded, the regions written since, the accesses
that it holds, whether PF0 refusals go unrecorded, and the accesses that wait before it for an earlier one of their master
to the same die block (R32). -/
structure Dkl where
  loaded : Bool
  rewritten : List Nat
  held : List HeldAccess
  quiet : Bool
  behind : List HeldAccess
deriving DecidableEq, Repr

/-- A deckle after reset. -/
def Dkl.boot : Dkl := ⟨false, [], [], false, []⟩

/-- Start-up, flash and diagnostics (R372 to R397): the BOOT_SEL pins, the two flash slots from address 0 (a byte beyond
the end reads 0xFF), which slots FW_INSTALL has passed and which it has marked invalid, a running install and its
outcome; how far boot has come, what holds the device in reset, the header of the running image (empty while none
runs); a running built-in test (cluster, kind, local tick) and the last result. -/
structure Boot where
  sel : Nat
  flash : List Bytes
  installed : List Bool
  invalid : List Bool
  stage : Stage
  install : Option (Nat × Nat)
  outcome : Nat
  /-- 0 held in reset, 1 the ROM has started, 2 the verdict has passed, 3 boot has ended. -/
  phase : Nat
  powered : Bool
  resetPin : Bool
  thermal : Bool
  head : Bytes
  bist : Option (Nat × Nat × Nat)
  /-- Package clusters whose memory failed a test, and 128 + die for a key store: they stay out until a device reset. -/
  bistBad : List Nat
  result : Bytes
  /-- The backup cell is fitted and charged; SMB_ALERT_N is low; rails below their reset thresholds, as rail × 8 + die;
  this boot follows a thermal shutdown. -/
  vbat : Bool
  alert : Bool
  low : List Nat
  hotBoot : Bool
  /-- The links between dies that have failed, lower die first (R25). -/
  idlBad : List (Nat × Nat)
  /-- The microcode of the running image: component 3 (R215, R376). -/
  micro : Bytes
  /-- Which fast modes each slot's flash advertises in its SFDP table: 8D-8D-8D, 1S-8S-8S (R466). -/
  sfdp : List (Bool × Bool)
  /-- VDD_OTP as last measured, in mV (R470); the life-cycle transition that waits for it. -/
  otpMv : Nat
  waitOtp : Option Nat
deriving DecidableEq, Repr

/-- Two erased slots, the device powered and waiting for its reset to be released. -/
def Boot.blank : Boot :=
  { sel := 0, flash := [[], []], installed := [false, false], invalid := [false, false], stage := ⟨none, 0, []⟩,
    install := none, outcome := 0, phase := 0, powered := true, resetPin := false, thermal := false, head := [],
    bist := none, bistBad := [], result := List.replicate 16 0,
    vbat := true, alert := false, low := [], hotBoot := false, idlBad := [], micro := []
    sfdp := [(true, true), (true, true)], otpMv := 1800, waitOtp := none }

end Sys2Proof.Machine
end

