-- ==== Sys2Proof/Machine/State.lean ====
section
/-!
DEFINITION. The state of the block, the reasons a step can stop, and the state right after reset.
-/

namespace Sys2Proof.Machine

/-- No command faults: a transfer that the package refuses is a next state with the refusal counted and recorded. -/
inductive Fault where
deriving DecidableEq, Repr

/-- Why a command has no meaning. -/
inductive Refusal where
  /-- Raised by the dispatch for a command whose meaning is not written. Safe: nothing can be proved about its effect. -/
  | notModelled (mnemonic : String)
deriving DecidableEq, Repr

/-- The state of the package. -/
structure State where
  part : Part
  grade : Grade
  /-- Every register of the register index, keyed by `regKey`; an unlisted register holds its reset value. -/
  regs : Sparse RegWord
  host : HostLink
  pf0Half : Master64
  mpHalf : Master64
  dbgHalf : Master64
  mbx : Mailbox
  evr : Recorder
  time : TimeBase
  rings : Sparse RingX
  sched : Sched
  /-- The slot directory and the stored keys, keyed by `slotKey`. -/
  slots : Sparse KeySlot
  otp : Otp
  bbks : Bbks
  auth : Auth
  /-- Entropy by die. -/
  rng : Sparse RngDie
  /-- MGEN seeds by core: 1 requested, 2 arrived and waiting to be applied (R188). -/
  mgen : Sparse Nat
  /-- The vector cores, the shared memory of each package cluster, and the save slots, keyed by cluster × 4 + slot. -/
  cores : Sparse VCore
  shared : Sparse Memory
  saves : Sparse VCore
  /-- Local ticks of each core's machine checks (R220), and the reloads that wait, in order of halt (R219). -/
  mcTimes : Sparse (List Nat)
  reloads : List Nat
  /-- Package clusters whose golden copy is being rewritten (R219). -/
  goldBad : List Nat
  /-- The sequencers and their stores, by core (R212 to R217). -/
  seqs : Sparse MicroSeq
  /-- The bits of golden-copy words and their check bits that have changed since they were written, by package cluster and
  address (R215). -/
  gold : Sparse (Sparse Nat)
  /-- Local tick of each core's last mask block (R187). -/
  mgenAt : Sparse Nat
  kernels : Sparse Kernel
  duplex : Duplex
  lies : Sparse LieX
  kstage : Stage
  /-- The digest channels, keyed by die × 4 + channel. -/
  dge : Sparse DgeChan
  prot : Prot
  power : Power
  boot : Boot
  tap : Tap
  /-- The deckles, by deckle number. -/
  dkl : Sparse Dkl
  /-- The stream contexts, by global number. -/
  streams : Sparse Stream
  frames : Frames
  /-- IMT entries whose address or data was changed while unmasked (R92). -/
  imtTaint : List Nat
  /-- What has left the device, oldest first. -/
  out : List OutMsg
  /-- The model's own counter: how many free values have been drawn. -/
  free : Nat
  /-- The commands that wait, first in, first out. -/
  pending : List Instr
deriving DecidableEq, Repr

/-- A ring's side state when it does not exist. -/
def RingX.blank : RingX :=
  { head := 0, hdrBusy := false, hdrCtl := false, hdrHeld := false, hdrNext := none, recorded := none, ackSeq := 0, refused := false,
    reqSeq := none, disabling := 0, devCount := 0, sinceMsg := 0, unsignalled := none, fullFrom := none, held := [],
    dropSeen := false, data := 0, slotLog := 0, gap := 0, report := 0xFFFF }

/-- The state right after reset. -/
def State.reset : State :=
  { part := .zv8800
    grade := .extended
    regs := []
    host := { busMaster := false, d3hot := false, perst := true, pasidEnable := false, msixEnable := false,
              msixMask := false, ctoValue := 0, vecAddr := [], vecData := [], vecMask := 0xFF, pba := 0, waiting := [],
              bars := [], mrrs := 512,
              stoppedAt := some 0 }
    pf0Half := ⟨none, none⟩
    mpHalf := ⟨none, none⟩
    dbgHalf := ⟨none, none⟩
    mbx := { phase := .idle, snap := [], started := 0, waitJobs := [], waitRing := none, waitSeq := none, rsp := [], otpAt := none }
    evr := { fifo := [], chans := [], aoSeq := 1, mpCursor := (0, 0), dbgCursor := (0, 0), snaps := [] }
    time := { ns := 0, frac := 0, ticks := 0, slew := 0, step := none, targetArmed := false, replica := [],
              fracCap := [], ppsLast := none, ppsLost := 0, ppsBase := 0, ppsOut := false, ppsOutAt := 0, aoTicks := 0, aoRem := 0 }
    rings := []
    sched := { jobs := [], prefetch := [], nextJob := 0, nextSend := 0, vt := [], lastTier1 := 0, lastTier2 := 0, lastFtx := 0,
               balPeriod := 10, balThresh := 50, balMax := 64, balOn := true, waitKey := 20, waitSlot := 20,
               waitLie := 16, waitRestore := 20, reserved := [], leaving := [], drain := [] }
    slots := []
    otp := { groups := List.replicate 5 (some 0), marks := List.replicate 5 (some 0, some 0), deviceId := [],
             imageHash := [], vendorDebug := [], floor := [], owners := List.replicate 4 ⟨[], [], [], false⟩, svn := 0,
             epochs := List.replicate 16 ⟨[], [], false, 0⟩, f2 := false }
    bbks := Bbks.zero
    auth := ⟨[], 0, false, [], 0, 0, false⟩
    rng := []
    mgen := []
    cores := []
    shared := []
    saves := []
    mcTimes := []
    reloads := []
    goldBad := []
    seqs := []
    gold := []
    mgenAt := []
    kernels := []
    duplex := Duplex.off
    lies := []
    kstage := ⟨none, 0, []⟩
    dge := []
    prot := Prot.idle
    power := Power.idle
    boot := Boot.blank
    tap := Tap.idle
    dkl := []
    streams := []
    frames := Frames.idle
    imtTaint := []
    out := []
    free := 0
    pending := [] }

end Sys2Proof.Machine
end

