-- ==== Sys2Proof/Machine/Ops.lean ====
section
/-!
DEFINITION. The named operations that every meaning uses: registers and their fields, free values, what leaves the
device, PF0 interrupt vectors, events, and the passing of time.
-/

namespace Sys2Proof.Machine

/-- What a command answers. -/
abbrev Out := Host.Outcome State Fault Refusal

/-! ## Registers -/

/-- The key of register `k` at index `i` in the register file. -/
def regKey (k : RegKind) (i : Nat) : Nat := k.ctorIdx + 256 * i

/-- The value that register `k` at index `i` holds after reset (R490). -/
def State.regDefault (s : State) (k : RegKind) (i : Nat) : RegWord := BitVec.ofNat 64 (regReset s.part s.grade k i)

/-- The word a register holds. -/
def State.reg (s : State) (k : RegKind) (i : Nat) : RegWord := sparseGet (s.regDefault k i) s.regs (regKey k i)

/-- A register holding another word. -/
def State.setReg (s : State) (k : RegKind) (i : Nat) (v : RegWord) : State :=
  { s with regs := sparseSet (s.regDefault k i) s.regs (regKey k i) v }

/-- A field of a register. -/
def State.fget (s : State) (f : Fld) (i : Nat) : Nat := fieldOf (s.reg f.reg i) f.hi f.lo

/-- A field of a register holding `v`. -/
def State.fset (s : State) (f : Fld) (i v : Nat) : State := s.setReg f.reg i (withField (s.reg f.reg i) f.hi f.lo v)

/-- A field raised by `n`, held at its largest value (the saturating counters). -/
def State.fadd (s : State) (f : Fld) (i n : Nat) : State :=
  s.fset f i (satAdd (2 ^ (f.hi + 1 - f.lo) - 1) (s.fget f i) n)

/-- A field raised by `n`, wrapping (the wrapping counters). -/
def State.fwrap (s : State) (f : Fld) (i n : Nat) : State := s.fset f i (s.fget f i + n)

/-- A single-bit field as a truth value. -/
def State.flag (s : State) (f : Fld) (i : Nat) : Bool := s.fget f i != 0

/-- The registers of one block put back to reset: every index of `k` in a range. -/
def State.clearRegs (s : State) (k : RegKind) (lo n : Nat) : State :=
  { s with regs := s.regs.filter (fun e => !(e.1 % 256 == k.ctorIdx && lo ≤ e.1 / 256 && e.1 / 256 < lo + n)) }

/-- A 0 or 1 from a truth value. -/
def bit (b : Bool) : Nat := if b then 1 else 0

/-! ## Free values -/

/-- A fresh free value: the next number that the hardware alone decides. -/
def State.draw (s : State) : Nat × State := (Config.freeNat s.free, { s with free := s.free + 1 })

/-- `n` fresh free bytes. -/
def freeBytes (start : Nat) : Nat → Bytes
  | 0 => []
  | n + 1 => BitVec.ofNat 8 (Config.freeNat start) :: freeBytes (start + 1) n

/-- `n` fresh free bytes, drawn one by one. -/
def State.drawBytes (s : State) (n : Nat) : Bytes × State := (freeBytes s.free n, { s with free := s.free + n })

/-! ## Modes and the host link -/

/-- The operating modes by their codes (Table 13.6). -/
def modeRetention : Nat := 0
def modeBoot : Nat := 1
def modeCommissioning : Nat := 2
def modeService : Nat := 3
def modeMaintenance : Nat := 4
def modeLockdown : Nat := 5

/-- The mode in force, DEV_MODE.MODE (R384). -/
def State.mode (s : State) : Nat := s.fget .DEV_MODE_MODE 0

/-- Whether HOLD is in force (R390). -/
def State.hold (s : State) : Bool := s.flag .DEV_MODE_HOLD 0

/-- Dies of the part. -/
def State.dies (s : State) : Nat := s.part.dies

/-- Whether the device may issue DMA: Bus Master Enable set, PF0 in D0, PERST_N high (R78, R373). -/
def State.dmaOpen (s : State) : Bool := s.host.busMaster && !s.host.d3hot && !s.host.perst

/-- A message leaving the device, or waiting while DMA is closed (R78). -/
def State.emit (s : State) (m : OutMsg) : State :=
  if s.dmaOpen then { s with out := s.out ++ [m] } else { s with host := { s.host with waiting := s.host.waiting ++ [m] } }

/-- A message that does not use the host link. -/
def State.emitLocal (s : State) (m : OutMsg) : State := { s with out := s.out ++ [m] }

/-- The PASID bound to a TI, while one is (R75, R82). -/
def State.pasidOf (s : State) (ti : Nat) : Option Nat :=
  if s.flag .TI_STATUS_PASID_VALID ti then some (s.fget .TI_STATUS_PASID ti) else none

/-- A posted write for a TI, carrying its PASID (R75); a TI without a PASID has no DMA (Table 03.3). -/
def State.tiWrite (s : State) (ti : Nat) (ring : Option Nat) (addr : Nat) (data : Bytes) : State :=
  match s.pasidOf ti with
  | some p => s.emit (.memWrite (some p) (some ti) ring addr data)
  | none => s

/-- A read issued for a TI, carrying its PASID (R75); while DMA is closed none is issued (R78). -/
def State.tiRead (s : State) (ti addr len : Nat) : State :=
  match s.pasidOf ti with
  | some p => if s.dmaOpen && len != 0 then { s with out := s.out ++ [.memRead p ti addr len] } else s
  | none => s

/-- A PF0 MSI-X vector fires: a message, or its pending bit while no message is possible (R94). -/
def State.vector (s : State) (v : Nat) : State :=
  if s.host.msixEnable && !s.host.msixMask && !s.host.vecMask.testBit v then
    s.emit (.memWrite none none none (sparseGet 0 s.host.vecAddr v) (leBytes 4 (sparseGet 0 s.host.vecData v)))
  else { s with host := { s.host with pba := s.host.pba ||| (1 <<< v) } }

/-! ## Events -/

/-- PHC time as a die's replica gives it (R35). -/
def State.replicaNow (s : State) (die : Nat) : Nat :=
  (((s.time.ns : Int) + sparseGet 0 s.time.replica die) % (2 ^ 64 : Nat)).toNat

/-- The channel of an event code (R446). -/
def eventChannel (code : Nat) : Nat :=
  if code = 0x2012 || code = 0x3040 || code = 0x3060 || code = 0x3070 then 30 else code / 0x1000

/-- An event enters the intake FIFO, or is lost when 64 wait (R449, R453). `unit` is its source of Table 17.3. -/
def State.event (s : State) (code sev die unit d0 d1 d2 : Nat) : State :=
  let c := eventChannel code
  if s.evr.fifo.length < 64 then
    let e : EvRec := { time := s.replicaNow die, seq := 0, code := code, chan := c, sev := sev, src := die * 32 + unit,
                       d0 := d0 % 2 ^ 32, d1 := d1 % 2 ^ 32, d2 := d2 % 2 ^ 32, rep := 0, last := 0 }
    { s with evr := { s.evr with fifo := s.evr.fifo ++ [e] } }
  else s.fadd .EVR_LOST_COUNT c 1

/-- The sequence number that an event just raised will take if the recorder commits every waiting event (R449, R126). -/
def State.eventSeq (s : State) : Nat := (s.fget .EVR_SEQ_NEXT 0 + s.evr.fifo.length - 1) % 2 ^ 32

/-! ## Time -/

/-- One unit of the fraction is 2⁻⁴⁸ ns. -/
def fracOne : Nat := 2 ^ 48

/-- What one tick adds: TIME_INCR (R168). -/
def State.incr (s : State) : Nat := s.fget .TIME_INCR_INCR 0

/-- The slew of one tick at TIME_CTL.SLEW_PPM, in 2⁻⁴⁸ ns (R168). -/
def State.slewPerTick (s : State) : Nat := 2 ^ 47 * s.fget .TIME_CTL_SLEW_PPM 0 / 1000000

/-- The part of the slew spent in `n` ticks: never more than what is left (R168). -/
def slewSpent (left : Int) (per n : Nat) : Int :=
  if 0 ≤ left then min left ((per * n : Nat) : Int) else max left (-((per * n : Nat) : Int))

/-- The PHC's accumulator as one number of 2⁻⁴⁸ ns. -/
def State.phcAcc (s : State) : Nat := s.time.ns * fracOne + s.time.frac

/-- The signed PPS_OFFSET (R170). -/
def State.ppsOffset (s : State) : Int := signedOf 22 (s.fget .TIME_PPS_OUT_PPS_OFFSET 0)

/-- The number of the whole second plus PPS_OFFSET that a PHC time has passed. -/
def State.ppsSecond (s : State) (t : Nat) : Int := ((t : Int) - s.ppsOffset).fdiv 1000000000

/-- The PHC moves between two times over a whole second plus PPS_OFFSET while PPS_OUT is enabled (R170). -/
def State.ppsPasses (s : State) (old new : Nat) : Bool :=
  s.flag .TIME_CTL_PPS_OUT_EN 0 && decide (s.ppsSecond old < s.ppsSecond new)

/-- `n` ticks of 0.5 ns pass: the PHC counts, the slew is spent, the AO counter follows at 32.768 kHz, and PPS_OUT rises
when the PHC passes its second (R168, R170, R455). -/
def State.tick (s : State) (n : Nat) : State :=
  let sp := slewSpent s.time.slew s.slewPerTick n
  let acc := (((s.phcAcc + s.incr * n : Nat) : Int) + sp) % ((2 ^ 64 * fracOne : Nat) : Int)
  let a := acc.toNat
  let left := s.time.slew - sp
  let ao := s.time.aoRem + n * 32768
  let p := s.ppsPasses s.time.ns (a / fracOne)
  { s with time := { s.time with ns := a / fracOne, frac := a % fracOne, ticks := s.time.ticks + n,
                                 slew := left, aoTicks := s.time.aoTicks + ao / 2000000000,
                                 aoRem := ao % 2000000000, ppsOut := s.time.ppsOut || p,
                                 ppsOutAt := if p then s.time.ticks + n else s.time.ppsOutAt } }

/-- `dt` nanoseconds pass. -/
def State.elapse (s : State) (dt : Nat) : State := s.tick (2 * dt)

/-- Nanoseconds since reset release, which no step of the PHC moves. -/
def State.localNs (s : State) : Nat := s.time.ticks / 2

/-- The PHC as die 0's master counts it. -/
def State.now (s : State) : Nat := s.time.ns

/-- Nanoseconds since a local tick. -/
def State.since (s : State) (t : Nat) : Nat := (s.time.ticks - t) / 2

end Sys2Proof.Machine
end

