-- ==== Sys2Proof/Machine/Ready.lean ====
section
/-!
DEFINITION. The readiness registers (R382, R383).
-/

namespace Sys2Proof.Machine

/-- Global VC indices of a die (R19). -/
def dieVcs (d : Nat) : List Nat := (List.range 16).map (d * 16 + ·)

/-- A VC that is retired until the next reset (R220). -/
def State.vcRetired (s : State) (v : Nat) : Bool := s.fget .VC_STATE_STATE v == 5

/-- An engine that is offline until the next reset (R251). -/
def State.lieOffline (s : State) (k : Nat) : Bool := s.fget .LIE_STATE_STATE k == 4

/-- Every present, unretired unit of a die is ready (R382, R383). -/
def State.dieReady (s : State) (d : Nat) : Bool :=
  s.fget .DEV_READY_MAP_DIE d == 1 && s.fget .DEV_READY_MAP_CLUSTER d == 3 && s.fget .DEV_READY_MAP_CAL d == 15 &&
    s.fget .DEV_READY_MAP_PORT d == 0xFFFF && s.fget .DEV_READY_MAP_RNG d == 1 && s.fget .DEV_READY_MAP_KS d == 1 &&
    s.fget .DEV_READY_MAP_MGEN d == 1 &&
    (List.range 16).all (fun v => (s.fget .DEV_READY_VC_VC d).testBit v || s.vcRetired (d * 16 + v)) &&
    (List.range 2).all (fun k => (s.fget .DEV_READY_MAP_LIE d).testBit k || s.lieOffline (d * 2 + k))

/-- DEV_READY.ALL follows the units. -/
def State.updateAll (s : State) : State :=
  s.fset .DEV_READY_ALL 0 (bit (decide (s.fget .DEV_READY_MBX 0 = 1) && (List.range s.dies).all s.dieReady))

/-- The dies that the failure of a link takes out: its two ends, and each die whose route to or from die 0 crosses it
(R24, R25). -/
def idlCuts (lo hi d : Nat) : Bool :=
  d == lo || d == hi ||
    (if hi = lo + 2 then (lo % 2 == 0 || lo % 2 == d % 2) && decide (hi / 2 ≤ d / 2) else lo == 0 && d % 2 == 1)

/-- A link that has failed takes a die out: its readiness bits stay clear (R383). -/
def State.idlDown (s : State) (d : Nat) : Bool := s.boot.idlBad.any (fun l => idlCuts l.1 l.2 d)

/-- A readiness field changes: PF0 vector 4 (R382). A die whose link has failed stays unready (R383). -/
def State.readySet (s : State) (f : Fld) (i v : Nat) : State :=
  let v := if (f.reg = .DEV_READY_MAP || f.reg = .DEV_READY_VC) && s.idlDown i then 0 else v
  if s.fget f i = v then s else ((s.fset f i v).updateAll).vector 4

/-- One bit of a readiness field changes. -/
def State.readyBit (s : State) (f : Fld) (i b : Nat) (on : Bool) : State :=
  let x := s.fget f i
  s.readySet f i (if on then x ||| (1 <<< b) else x - (if x.testBit b then 1 <<< b else 0))

/-- The VC group and cluster bits of a die follow its VCs (R383). -/
def State.groupBits (s : State) (d : Nat) : State :=
  let rdy := fun v => (s.fget .DEV_READY_VC_VC d).testBit v
  let grp := fun g =>
    let vs := (List.range 4).map (4 * g + ·)
    vs.any rdy && vs.all (fun v => rdy v || s.vcRetired (d * 16 + v))
  let clu := fun k => s.flag .CLU_GOLD_STAT_VALID (d * 2 + k) && (List.range 8).any (fun c => rdy (8 * k + c))
  let s := s.readySet .DEV_READY_MAP_VCGRP d ((List.range 4).foldl (fun a g => a + bit (grp g) * 2 ^ g) 0)
  s.readySet .DEV_READY_MAP_CLUSTER d ((List.range 2).foldl (fun a k => a + bit (clu k) * 2 ^ k) 0)

/-- A VC's readiness bit changes, with its group. -/
def State.vcReady (s : State) (v : Nat) (on : Bool) : State :=
  (s.readyBit .DEV_READY_VC_VC (v / 16) (v % 16) on).groupBits (v / 16)

end Sys2Proof.Machine
end

