-- ==== Sys2Proof/Machine/Slots.lean ====
section
/-!
DEFINITION. Key handles, the slot directory and the granule counts (R48, R88, R315 to R319).
-/

namespace Sys2Proof.Machine

/-! ## Handles -/

/-- The fields of a key handle: TI in [63:54], type in [53:46], slot in [45:22], generation in [21:6]. -/
def handleTi (h : Nat) : Nat := natBits h 63 54
def handleType (h : Nat) : Nat := natBits h 53 46
def handleSlot (h : Nat) : Nat := natBits h 45 22
def handleGen (h : Nat) : Nat := natBits h 21 6

/-- A handle from its fields. -/
def mkHandle (ti typ slot gen : Nat) : Nat := ti % 1024 * 2 ^ 54 + typ % 256 * 2 ^ 46 + slot % 2 ^ 24 * 2 ^ 22 + gen % 2 ^ 16 * 2 ^ 6

/-- The slot of the import key. -/
def importSlot : Nat := 0xFFFFFF

/-! ## The directory -/

/-- The key of a slot in the directory. -/
def slotKey (ti slot : Nat) : Nat := ti * 2 ^ 24 + slot

def State.slot (s : State) (ti slot : Nat) : KeySlot := sparseGet KeySlot.blank s.slots (slotKey ti slot)

/-- The die that holds a TI's keys (R316). -/
def State.keyDie (s : State) (ti : Nat) : Nat := s.fget .TI_KEY_HOME_DIE ti

/-- Granules that a slot occupies or reserves. -/
def KeySlot.counted (k : KeySlot) : Nat := if k.state = .empty then 0 else k.granules

/-- Granules of an OCCUPIED key. -/
def KeySlot.occupied (k : KeySlot) : Nat := if k.state = .occupied then k.granules else 0

/-- The tenant slots of a TI that are not EMPTY, with their numbers. -/
def State.tiSlots (s : State) (ti : Nat) : List (Nat × KeySlot) :=
  (s.slots.filter (fun e => e.1 / 2 ^ 24 == ti && e.1 % 2 ^ 24 != importSlot && e.2.state != .empty)).map
    (fun e => (e.1 % 2 ^ 24, e.2))

/-- TI_KEY_USED and TI_KEY_TOP follow the directory. -/
def State.recount (s : State) (ti : Nat) : State :=
  let l := s.tiSlots ti
  (s.fset .TI_KEY_USED_VALUE ti ((l.map (·.2.counted)).sum)).fset .TI_KEY_TOP_VALUE ti ((l.map (·.1 + 1)).foldl max 0)

/-- A slot's entry changes, and the counts with it. -/
def State.setSlot (s : State) (ti slot : Nat) (k : KeySlot) : State :=
  let old := s.slot ti slot
  let s := { s with slots := sparseSet KeySlot.blank s.slots (slotKey ti slot) k }
  if slot = importSlot then s
  else
    let d := s.keyDie ti
    ((s.fset .KS_GRANULES_OCCUPIED d (s.fget .KS_GRANULES_OCCUPIED d + k.occupied - old.occupied))).recount ti

/-- The next generation: 0x0001 to 0xFFFF, then 0x0001 again (R318). -/
def nextGen (g : Nat) : Nat := if g = 0xFFFF then 1 else g + 1

/-- A slot back to EMPTY, its generation kept; a deletion zeroises its granules (R318). -/
def State.emptySlot (s : State) (ti slot : Nat) : State :=
  s.setSlot ti slot { KeySlot.blank with gen := (s.slot ti slot).gen }

/-- A first share for `b` in `g` granules: bytes from outside the rules, as fresh as the shares that brought the key. -/
def newShare (free g : Nat) (b : Bytes) : Bytes := freeBytes free (min b.length (64 * g))

/-- A key stored in a slot: OCCUPIED, the generation advanced (R45, R318). -/
def State.storeKey (s : State) (ti slot typ usage : Nat) (b : Bytes) : State :=
  let old := s.slot ti slot
  let g := ((keyTypeOf typ).map (fun t => t.granules b.length)).getD (ceilDiv b.length 64)
  let s := s.setSlot ti slot { state := .occupied, typ := typ, usage := usage, gen := nextGen old.gen, stored := b,
                               share := newShare s.free g b, granules := g, holder := 0, copies := old.copies }
  { s with free := s.free + b.length }

/-- The second share of a key's granules (R315). -/
def KeySlot.otherShare (k : KeySlot) : Bytes := xorBytes k.share (k.stored.take k.share.length)

/-- A key whose shares have been re-randomised with the bytes drawn for its granules (R320): both change by the same bytes, so
that their exclusive or stays. -/
def KeySlot.remasked (k : KeySlot) (b : Bytes) : KeySlot := { k with share := xorBytes k.share (sliceZ b 0 k.share.length) }

/-- A remask pass over the keys of a die: each OCCUPIED granule takes its 64 bytes of the draw, slot after slot. -/
def State.remaskKeys (s : State) (d : Nat) : Sparse KeySlot → Bytes → Sparse KeySlot
  | [], _ => []
  | (n, k) :: l, b =>
    if s.keyDie (n / 2 ^ 24) = d then (n, k.remasked b) :: s.remaskKeys d l (b.drop (64 * k.occupied))
    else (n, k) :: s.remaskKeys d l b

/-- A target slot reserved for a job (R318). -/
def State.reserveSlot (s : State) (ti slot typ granules job : Nat) : State :=
  s.setSlot ti slot { KeySlot.blank with state := .pending, typ := typ, gen := (s.slot ti slot).gen, granules := granules,
                                         holder := job }

/-- The handle of a TI's slot as it stands. -/
def State.handleOf (s : State) (ti slot : Nat) : Nat :=
  let k := s.slot ti slot
  mkHandle ti k.typ slot k.gen

/-- Check 3 of R70 (R319, R322): the TI is the submitting one, the slot is within quota and OCCUPIED, type and generation
are current, bits [5:0] are zero; the import key lives in its own slot. -/
def State.handleOk (s : State) (ti h : Nat) : Bool :=
  let slot := handleSlot h
  let k := s.slot ti slot
  handleTi h == ti && h % 64 == 0 && (keyTypeOf (handleType h)).isSome && k.state == .occupied && k.typ == handleType h &&
    k.gen == handleGen h &&
    (if handleType h = 0xC0 then slot == importSlot
     else slot != importSlot && decide (slot < s.fget .TI_KEY_QUOTA_VALUE ti))

/-- The debug lock of the key store (R413). -/
def State.keysLocked (s : State) : Bool := s.flag .KS_STATE_DEBUG_LOCKED 0

/-- Free tenant granules of a die (R88). -/
def State.freeGranules (s : State) (d : Nat) : Nat := 28672 - s.fget .KS_GRANULES_RESERVED_Q d

end Sys2Proof.Machine
end

