-- ==== Sys2Proof/Machine/Rng.lean ====
section
/-!
DEFINITION. Entropy and randomness: noise banks, conditioner, die DRBG, requests in their classes, borrowing, and the
MGENs that it seeds (R187, R188, R349 to R368).
-/

namespace Sys2Proof.Machine

def State.rngOf (s : State) (d : Nat) : RngDie := sparseGet RngDie.off s.rng d
def State.setRng (s : State) (d : Nat) (r : RngDie) : State := { s with rng := sparseSet RngDie.off s.rng d r }

/-- An event of the random channel on a die. -/
def State.rngEvent (s : State) (code sev d d1 d2 : Nat) : State := s.event code sev d 0x0B d d1 d2

/-! ## Banks (R349 to R353) -/

/-- Credit of a bank's word in tenths of a bit (R355). -/
def bankCredit (b : Nat) : Nat := if b < 4 then 320 else if b < 6 then 512 else 192

/-- Tag byte of a bank's word (R354). -/
def bankTag (b : Nat) : Nat := if b < 4 then 0x10 + b else if b < 6 then 0x20 + (b - 4) else 0x30

def State.activeBanks (s : State) (d : Nat) : Nat := s.fget .RNG_BANKS_ACTIVE d

/-- Hops between two dies of the mesh (Table 01.3): columns of two dies. -/
def dieHops (a b : Nat) : Nat :=
  (max (a / 2) (b / 2) - min (a / 2) (b / 2)) + (max (a % 2) (b % 2) - min (a % 2) (b % 2))

/-- The donor of a die (R364): fewest hops, lower number first. -/
def State.donorOf (s : State) (d : Nat) : Option Nat :=
  let ok := (List.range s.dies).filter (fun x => x != d && s.flag .RNG_CTL_LEND_EN x && s.activeBanks x != 0 &&
    !s.flag .RNG_BORROW_BORROWING x)
  (List.range 5).findSome? (fun h => ok.find? (fun x => dieHops d x == h))

/-- Whether a die has to borrow: no bank is active and borrowing is allowed (R364). -/
def State.mustBorrow (s : State) (d : Nat) : Bool :=
  s.activeBanks d == 0 && s.flag .RNG_CTL_EN d && s.flag .RNG_CTL_BORROW_EN d && s.fget .RNG_STATUS_STATE d != 1

/-- Borrowing of one die brought up to date, with its events (R364). -/
def State.reborrowOne (s : State) (d : Nat) : State :=
  let old := if s.flag .RNG_BORROW_BORROWING d then some (s.fget .RNG_BORROW_DONOR d) else none
  let new := if s.mustBorrow d then (s.fset .RNG_BORROW_BORROWING d 0).donorOf d else none
  let st := if !s.flag .RNG_CTL_EN d then 0 else if s.fget .RNG_STATUS_STATE d = 1 then 1
            else if new.isSome then 3 else if s.activeBanks d = 0 then 4 else 2
  let s := s.fset .RNG_STATUS_STATE d st
  if old = new then s
  else
    let s := match old with
      | some x => s.rngEvent 0xB005 4 d 0 x
      | none => s
    let s := (s.fset .RNG_BORROW_BORROWING d (bit new.isSome)).fset .RNG_BORROW_DONOR d (new.getD 0)
    match new with
    | some x => s.rngEvent 0xB005 4 d 1 x
    | none => s

/-- Borrowing of every die brought up to date. -/
def State.reborrow (s : State) : State := (List.range s.dies).foldl State.reborrowOne s

/-- A mask without one bit. -/
def clearBit (m b : Nat) : Nat := if m.testBit b then m - 2 ^ b else m

/-- RNG_STATUS.FIFO follows the FIFO. -/
def State.setFifo (s : State) (d : Nat) (l : List Bytes) : State :=
  (s.setRng d { s.rngOf d with fifo := l }).fset .RNG_STATUS_FIFO d l.length

/-- A failure in the cycle in which a seed has finished discards that seed, while it stands in the FIFO (R352). -/
def State.dropNewSeed (s : State) (d : Nat) : State :=
  let r := s.rngOf d
  if r.doneAt = s.time.ticks + 1 then
    let s := s.setFifo d r.fifo.dropLast
    s.setRng d { s.rngOf d with doneAt := 0 }
  else s

/-- A bank is excluded (R352, R353): the seed in assembly is discarded, its buffer emptied; three exclusions in 3,600 s
retire it. Cause 1 repetition count, 2 adaptive proportion, 3 administrator. -/
def State.excludeBank (s : State) (d b cause : Nat) : State :=
  let r := s.rngOf d
  let had := s.activeBanks d
  let times := (sparseGet [] r.exTimes b).filter (fun t => s.time.ticks - t < 7200000000000) ++ [s.time.ticks]
  let retire := cause != 3 && 3 ≤ times.length
  let r := { r with asm := [], credit := 0, bufs := r.bufs.set b 0, tryAt := sparseSet 0 r.tryAt b s.time.ticks,
                    admin := if cause = 3 then r.admin ||| 2 ^ b else r.admin,
                    exTimes := if cause = 3 then r.exTimes else sparseSet [] r.exTimes b times }
  let s := ((s.setRng d r).dropNewSeed d).fset .RNG_BANKS_ACTIVE d (clearBit had b)
  let s := if retire then (s.fset .RNG_BANKS_RETIRED d (s.fget .RNG_BANKS_RETIRED d ||| 2 ^ b)).fset .RNG_BANKS_EXCLUDED d
                            (clearBit (s.fget .RNG_BANKS_EXCLUDED d) b)
           else s.fset .RNG_BANKS_EXCLUDED d (s.fget .RNG_BANKS_EXCLUDED d ||| 2 ^ b)
  let s := s.rngEvent 0xB002 4 d b cause
  let s := if retire then s.rngEvent 0xB004 5 d b times.length else s
  let s := if had ≠ 0 && s.activeBanks d = 0 then s.rngEvent 0xB008 6 d 0 0 else s
  s.reborrow

/-- A bank joins the seeds again (R353). -/
def State.readmitBank (s : State) (d b : Nat) : State :=
  let r := s.rngOf d
  let s := s.setRng d { r with admin := clearBit r.admin b }
  let s := s.fset .RNG_BANKS_ACTIVE d (s.activeBanks d ||| 2 ^ b)
  let s := s.fset .RNG_BANKS_EXCLUDED d (clearBit (s.fget .RNG_BANKS_EXCLUDED d) b)
  let s := s.fset .RNG_BANKS_RETIRED d (clearBit (s.fget .RNG_BANKS_RETIRED d) b)
  (s.rngEvent 0xB003 2 d b 0).reborrow

/-- A health failure is counted: test 1 repetition count, 2 adaptive proportion. -/
def State.countFail (s : State) (d b test : Nat) : State :=
  s.fadd (if test = 1 then .RNG_BANK_FAILS_RCT else .RNG_BANK_FAILS_APT) (d * 7 + b) 1

/-! ## Start-up (R351, R367) -/

/-- Entropy is enabled on a die: the start-up tests begin. Exclusions and retirements stand (R368). -/
def State.entropyEnable (s : State) (d : Nat) : State :=
  let s := (s.fset .RNG_CTL_EN d 1).fset .RNG_BANKS_ACTIVE d 0
  let r := s.rngOf d
  let s := s.setRng d { r with bufs := List.replicate 7 0, asm := [], credit := 0 }
  (s.fset .RNG_STATUS_STATE d 1).reborrow

/-- ENTROPY_ENABLE (R367): the die agent enables entropy once its die has left reset. -/
def execEntropyEnable (die : Nat) (s : State) : Out :=
  if die < s.dies && s.flag .DEV_READY_MAP_DIE die && !s.flag .RNG_CTL_EN die && !s.tap.halted.contains (512 + die) then .next (s.entropyEnable die) else .next s

/-- STARTUP_TEST_END (R351): the tests of every bank not excluded or retired end; the masks name those that failed. -/
def execStartupTestEnd (die failRct failApt : Nat) (s : State) : Out :=
  if s.dies ≤ die || s.fget .RNG_STATUS_STATE die ≠ 1 then .next s
  else
    let out := s.fget .RNG_BANKS_EXCLUDED die ||| s.fget .RNG_BANKS_RETIRED die
    let tested := (List.range 7).filter (fun b => !out.testBit b)
    let act := (tested.filter (fun b => !failRct.testBit b && !failApt.testBit b)).foldl (fun a b => a + 2 ^ b) 0
    let s := (s.fset .RNG_STATUS_STATE die 2).fset .RNG_BANKS_ACTIVE die act
    let s := s.setRng die { s.rngOf die with roundAt := s.time.ticks }
    let s := tested.foldl (fun s b =>
      if failRct.testBit b then (s.countFail die b 1).excludeBank die b 1
      else if failApt.testBit b then (s.countFail die b 2).excludeBank die b 2 else s) s
    let s := s.rngEvent 0xB001 2 die (s.activeBanks die) (s.fget .RNG_BANKS_EXCLUDED die)
    let s := if act = 0 then s.rngEvent 0xB008 6 die 0 0 else s
    .next s.reborrow

/-- BANK_HEALTH_FAILURE (R350, R352). -/
def execBankHealthFailure (die bank test : Nat) (s : State) : Out :=
  if die < s.dies && bank < 7 && (s.activeBanks die).testBit bank && (test = 1 || test = 2) then
    .next ((s.countFail die bank test).excludeBank die bank test)
  else .next s

/-- BANK_RETRY (R353): RETRY_MS after its exclusion, or after a retest that failed, a bank is tested afresh; `fail` is 0,
or the test that failed. A bank that the administrator excluded returns only by RNG_BANK. -/
def execBankRetry (die bank fail dt : Nat) (s : State) : Out :=
  let s := s.elapse dt
  let r := s.rngOf die
  if s.dies ≤ die || !(s.fget .RNG_BANKS_EXCLUDED die).testBit bank || r.admin.testBit bank ||
      s.since (sparseGet 0 r.tryAt bank) < s.fget .RNG_RETRY_RETRY_MS die * 1000000 then .next s
  else if fail = 1 || fail = 2 then
    .next ((s.setRng die { r with tryAt := sparseSet 0 r.tryAt bank s.time.ticks }).countFail die bank fail)
  else .next (s.readmitBank die bank)

/-! ## The DRBG (R359, R360) -/

/-- Requests that wait on a die. -/
def RngDie.waiting (r : RngDie) : Nat :=
  r.mgenQ.length + r.jobQ.length + r.owed.length + bit (r.mpQ != 0) + bit (r.remaskQ != 0)

/-- A reseed with one seed, whatever its cause: the request count returns to zero, and no reseed is due any more. -/
def State.reseedWith (s : State) (d : Nat) (g : Drbg) (seed : Bytes) : State :=
  let s := s.setRng d { s.rngOf d with drbg := some (g.reseed seed), owed := (s.rngOf d).owed.filter (·.who != .reseed) }
  ((s.fset .RNG_REQS_COUNT d 0).fset .RNG_STATUS_DRBG_STALLED d 0).fadd .RNG_RESEEDS_COUNT d 1

/-- The due reseed before a request (R360): from the FIFO, or a stall with event 0xB006, in which the reseed waits for the
next seed finished (R357). -/
def State.dueReseed (s : State) (d : Nat) : State :=
  match (s.rngOf d).drbg with
  | none => s
  | some g =>
    if s.fget .RNG_REQS_COUNT d < 4096 then s
    else match (s.rngOf d).fifo with
      | seed :: rest => (s.setFifo d rest).reseedWith d g seed
      | [] =>
        if s.flag .RNG_STATUS_DRBG_STALLED d then s
        else
          let r := s.rngOf d
          let s := s.setRng d { r with owed := r.owed ++ [⟨.reseed, 0, s.time.ticks⟩] }
          (s.fset .RNG_STATUS_DRBG_STALLED d 1).rngEvent 0xB006 5 d r.waiting 0

/-- One generate request of at most 65,536 bytes (R359, R360). -/
def State.request (s : State) (d n : Nat) : Option Bytes × State :=
  let s := s.dueReseed d
  match (s.rngOf d).drbg with
  | none => (none, s)
  | some g =>
    if s.flag .RNG_STATUS_DRBG_STALLED d then (none, s)
    else
      let r := g.generate n
      (some r.1, (s.setRng d { s.rngOf d with drbg := some r.2 }).fset .RNG_REQS_COUNT d (s.fget .RNG_REQS_COUNT d + 1))

/-- Several requests, `k` at most, of 65,536 bytes each but the last. -/
def State.requests (d : Nat) : Nat → Nat → State → Option Bytes × State
  | 0, _, s => (some [], s)
  | k + 1, n, s =>
    if n = 0 then (some [], s)
    else match s.request d (min n 65536) with
      | (none, s) => (none, s)
      | (some b, s) =>
        match State.requests d k (n - min n 65536) s with
        | (none, s) => (none, s)
        | (some bs, s) => (some (b ++ bs), s)

/-- `n` bytes from a die's DRBG, in as many requests as they need. -/
def State.drbgTake (s : State) (d n : Nat) : Option Bytes × State := State.requests d (n / 65536 + 1) n s

/-- A consumer waits from now on, or waits on (R363). -/
def RngDie.wait (r : RngDie) (k t : Nat) : RngDie :=
  if sparseGet 0 r.since k = 0 then { r with since := sparseSet 0 r.since k (t + 1) } else r

/-- A consumer waits no more. -/
def RngDie.served (r : RngDie) (k : Nat) : RngDie := { r with since := sparseSet 0 r.since k 0 }

/-- A draw has its bytes: a job's, or the MP's. -/
def State.giveDraw (s : State) (d : Nat) (who : Option Nat) (b : Bytes) : State :=
  match who with
  | none => s.setRng d { (s.rngOf d).served 0 with mpRand := b }
  | some j =>
    let s := s.setRng d ((s.rngOf d).served (j + 2))
    { s with sched := { s.sched with jobs := s.sched.jobs.map (fun x => if x.id = j then { x with rand := b } else x) } }

/-- A prediction-resistant draw of a job. -/
def Owed.isJob (o : Owed) : Bool :=
  match o.who with
  | .job _ => true
  | _ => false

/-- A prediction-resistant job draw waits: it is of class 2 as well. -/
def RngDie.jobOwed (r : RngDie) : Bool := r.owed.any Owed.isJob

/-- A prediction-resistant draw of the MP waits. -/
def RngDie.mpOwed (r : RngDie) : Bool := r.owed.any (·.who == .mp)

/-- A draw of MP firmware on die 0 (R361): bytes served earlier, or served now when no request of class 1 or 2 waits;
otherwise the draw waits. -/
def State.mpDraw (s : State) (n : Nat) : Option Bytes × State :=
  let r := s.rngOf 0
  let waits := s.setRng 0 { r.wait 0 s.time.ticks with mpQ := n }
  if n ≤ r.mpRand.length then (some (r.mpRand.take n), s.setRng 0 { r.served 0 with mpRand := [], mpQ := 0 })
  else if r.mgenQ.isEmpty && r.jobQ.isEmpty && !r.jobOwed then
    match s.drbgTake 0 n with
    | (some b, s) => (some b, s.setRng 0 { (s.rngOf 0).served 0 with mpQ := 0 })
    | (none, s) => (none, s.setRng 0 { (s.rngOf 0).wait 0 s.time.ticks with mpQ := n })
  else (none, waits)

/-- A prediction-resistant draw of MP firmware on die 0 (R328): it waits for the next seed finished. -/
def State.mpFresh (s : State) (n : Nat) : Option Bytes × State :=
  let r := s.rngOf 0
  if n ≤ r.mpRand.length then (some (r.mpRand.take n), s.setRng 0 { r.served 0 with mpRand := [] })
  else if r.mpOwed then (none, s)
  else (none, s.setRng 0 { r.wait 0 s.time.ticks with owed := r.owed ++ [⟨.mp, n, s.time.ticks⟩] })

/-- What the MP draws is withdrawn. -/
def State.dropMpDraw (s : State) : State :=
  let r := (s.rngOf 0).served 0
  s.setRng 0 { r with mpQ := 0, mpRand := [], owed := r.owed.filter (·.who != .mp) }

/-- The class-2 draw of a job on its die: served now when nothing of class 1 and no earlier draw waits, otherwise queued;
`fresh` is a prediction-resistant draw, which waits for the next seed finished (R362). -/
def State.jobDraw (s : State) (d j n : Nat) (fresh : Bool) : Option Bytes × State :=
  let r := s.rngOf d
  let w := r.wait (j + 2) s.time.ticks
  if fresh then
    (none, if r.owed.any (·.who == .job j) then s else s.setRng d { w with owed := r.owed ++ [⟨.job j, n, s.time.ticks⟩] })
  else if r.mgenQ.isEmpty && r.jobQ.isEmpty && !r.jobOwed then
    match s.drbgTake d n with
    | (some b, s) => (some b, s)
    | (none, s) => (none, s.setRng d { (s.rngOf d).wait (j + 2) s.time.ticks with jobQ := [(j, n)] })
  else (none, if r.jobQ.any (·.1 == j) then s else s.setRng d { w with jobQ := r.jobQ ++ [(j, n)] })

/-- A job's waiting draws are withdrawn. -/
def State.dropDraws (s : State) (d j : Nat) : State :=
  let r := (s.rngOf d).served (j + 2)
  s.setRng d { r with jobQ := r.jobQ.filter (·.1 != j), owed := r.owed.filter (·.who != .job j) }

/-- A remask pass ends (R320): every share of an OCCUPIED granule is re-randomised with the bytes drawn. -/
def State.remaskDone (s : State) (d : Nat) (b : Bytes) : State :=
  let s := { s with slots := s.remaskKeys d s.slots b }
  (s.setRng d { (s.rngOf d).served 1 with remaskQ := 0 }).fadd .KS_REMASK_PASSES d 1

/-- A remask pass is skipped (R320). -/
def State.remaskSkip (s : State) (d : Nat) : State :=
  ((s.setRng d { (s.rngOf d).served 1 with remaskQ := 0 }).fadd .KS_REMASK_SKIPS d 1).event 0xC002 3 d 9 d 0 0

/-- A prediction-resistant job draw that has waited for longer than a job draw stands before it (R361). -/
def RngDie.olderOwed (r : RngDie) (j : Nat) : Bool :=
  r.owed.any (fun o => o.isJob && decide (o.at_ + 1 < sparseGet 0 r.since (j + 2)))

/-- The waiting draws of class 3, then of class 4, when no job draw waits. -/
def State.serveLow (s : State) (die : Nat) : State :=
  let r := s.rngOf die
  if r.mpQ ≠ 0 then
    match s.drbgTake die r.mpQ with
    | (none, s) => s
    | (some b, s) => (s.setRng die { s.rngOf die with mpQ := 0 }).giveDraw die none b
  else if r.remaskQ ≠ 0 && !r.mpOwed then
    match s.drbgTake die r.remaskQ with
    | (none, s) => s
    | (some b, s) => s.remaskDone die b
  else s

/-- DRBG_GENERATE (R361): the next waiting request in class order is served. -/
def execDrbgGenerate (die : Nat) (s : State) : Out :=
  let r := s.rngOf die
  match r.mgenQ, r.jobQ with
  | v :: rest, _ =>
    match s.drbgTake die 32 with
    | (none, s) => .next s
    | (some _, s) => .next ({ (s.setRng die { s.rngOf die with mgenQ := rest }) with mgen := sparseSet 0 s.mgen v 2 })
  | [], (j, n) :: rest =>
    if r.olderOwed j then .next s
    else
      match s.drbgTake die n with
      | (none, s) => .next s
      | (some b, s) => .next ((s.setRng die { s.rngOf die with jobQ := rest }).giveDraw die (some j) b)
  | [], [] => .next (if r.jobOwed then s else s.serveLow die)

/-- DRBG_RESEED (R360): a due reseed takes a seed from the FIFO, or the DRBG stalls. -/
def execDrbgReseed (die : Nat) (s : State) : Out := .next (s.dueReseed die)

/-! ## Conditioner (R354 to R358) -/

/-- A prediction-resistant draw is served after its reseed (R362). -/
def State.serveOwed (s : State) (d : Nat) (who : Option Nat) (n : Nat) : State :=
  match s.drbgTake d n with
  | (some b, s) => s.giveDraw d who b
  | (none, s) => s

/-- The device identifier, die by die, that personalises the DRBG (R359). -/
def State.drbgPerso (s : State) (d : Nat) : Bytes := sliceZ s.otp.deviceId 0 16 ++ [BitVec.ofNat 8 d]

/-- The requests for a seed in the order in which they are served: jobs' draws and the due reseed as they came, then the
MP's (R357, R361). A seed that is not `fresh`, one from a FIFO, serves the reseed alone (R362). -/
def RngDie.line (r : RngDie) (fresh : Bool) : List Owed :=
  let l := r.owed.filter (fun o => fresh || o.who == .reseed)
  l.filter (·.who != .mp) ++ l.filter (·.who == .mp)

/-- A seed is at hand: it instantiates the DRBG, serves the request that stands first, ends a stall, or enters the FIFO
(R357, R359, R360). -/
def State.seedArrive (s : State) (d : Nat) (seed : Bytes) (fresh : Bool) : State :=
  let r := s.rngOf d
  match r.drbg with
  | none =>
    let g := Drbg.instantiate (seed.drop 16) (seed.take 16) (s.drbgPerso d)
    let s := s.setRng d { r with drbg := some g, mgenQ := dieVcs d }
    let s := { s with mgen := (dieVcs d).foldl (fun m v => sparseSet 0 m v 1) s.mgen }
    let s := (s.fset .RNG_STATUS_DRBG_READY d 1).fset .RNG_REQS_COUNT d 0
    (s.rngEvent 0xB009 1 d 0 0).readySet .DEV_READY_MAP_RNG d 1
  | some g =>
    match r.line fresh with
    | o :: _ =>
      let s := (s.setRng d { r with owed := r.owed.filter (· != o) }).reseedWith d g seed
      match o.who with
      | .reseed => s
      | .mp => s.serveOwed d none o.n
      | .job j => s.serveOwed d (some j) o.n
    | [] =>
      if s.flag .RNG_STATUS_DRBG_STALLED d then s.reseedWith d g seed
      else if r.fifo.length < 8 then
        let s := s.setFifo d (r.fifo ++ [seed])
        if fresh then s.setRng d { s.rngOf d with doneAt := s.time.ticks + 1 } else s
      else s

/-- A borrower's requests for which no seed is on its way yet. -/
def RngDie.unserved (r : RngDie) : List Owed := (r.owed.filter (·.who != .mp)).drop r.coming.length

/-- A die and the dies that borrow of it, each with its oldest request for a seed (R357, R364). -/
def State.seedClaims (s : State) (d : Nat) : List (Nat × Owed) :=
  (((s.rngOf d).line true).take 1).map (fun o => (d, o)) ++
    ((List.range s.dies).filter (fun b => b != d && s.flag .RNG_BORROW_BORROWING b && s.fget .RNG_BORROW_DONOR b == d)).flatMap
      (fun b => ((s.rngOf b).unserved.take 1).map (fun o => (b, o)))

/-- The die to which the next seed finished goes: the oldest request's, its own before a borrower's of the same tick. -/
def State.seedTaker (s : State) (d : Nat) : Nat :=
  match s.seedClaims d with
  | [] => d
  | c :: l => (l.foldl (fun a x => if x.2.at_ < a.2.at_ then x else a) c).1

/-- The conditioner runs while the FIFO has room or a seed is owed, outside HOLD (R357, R358). -/
def State.conditionerOn (s : State) (d : Nat) : Bool :=
  s.fget .RNG_STATUS_STATE d == 2 && !s.hold && ((s.rngOf d).fifo.length < 8 || !(s.seedClaims d).isEmpty)

/-- The round under way has lasted 3.5 µs (R354). -/
def State.roundDue (s : State) (d : Nat) : Bool := decide ((s.rngOf d).roundAt + 7000 ≤ s.time.ticks)

/-- The words of one round, bank by bank in ascending order; their bits are free values. -/
def State.roundWords (s : State) (d : Nat) : State :=
  let r := s.rngOf d
  let act := (List.range 7).filter (fun b => (s.activeBanks d).testBit b && 64 ≤ r.bufs.getD b 0)
  let w := act.flatMap (fun b => BitVec.ofNat 8 (bankTag b) :: freeBytes (s.free + 8 * b) 8)
  let r := { r with asm := r.asm ++ w, credit := r.credit + (act.map bankCredit).foldl (· + ·) 0,
                    bufs := r.bufs.zipIdx.map (fun x => if act.contains x.2 then x.1 - 64 else x.1) }
  { (s.setRng d r) with free := s.free + 56 }

/-- INTAKE_ROUND (R354, R355): a round of 3.5 µs ends. `arrived` bits have reached each bank's buffer, which keeps 128; one
word leaves each active bank that has 64, and a credit of 768 finishes a seed, after which the next round begins 0.2 µs
later. -/
def execIntakeRound (die : Nat) (arrived : List Nat) (dt : Nat) (s : State) : Out :=
  let s := s.elapse dt
  if s.dies ≤ die || s.fget .RNG_STATUS_STATE die < 2 || !s.roundDue die then .next s
  else
    let r := s.rngOf die
    let bufs := r.bufs.zipIdx.map (fun x =>
      if (s.activeBanks die).testBit x.2 then min 128 (x.1 + arrived.getD x.2 0) else x.1)
    let s := s.setRng die { r with bufs := bufs, roundAt := s.time.ticks }
    if !s.conditionerOn die then .next s
    else
      let s := s.roundWords die
      let r := s.rngOf die
      if r.credit < 7680 then .next s
      else
        let seed := sha3 48 r.asm
        let s := (s.setRng die { r with asm := [], credit := 0, roundAt := r.roundAt + 400 }).fwrap .RNG_SEEDS_COUNT die 1
        let taker := s.seedTaker die
        .next (if taker = die then s.seedArrive die seed true
               else s.setRng taker { s.rngOf taker with coming := (s.rngOf taker).coming ++ [seed] })

/-- A seed of the donor's FIFO beyond two goes to a borrower that holds fewer than two, or whose DRBG has none (R364). -/
def State.lendFromFifo (s : State) (die : Nat) : State :=
  let dn := s.fget .RNG_BORROW_DONOR die
  let r := s.rngOf die
  match (s.rngOf dn).fifo with
  | seed :: rest =>
    if 2 ≤ rest.length && (r.fifo.length < 2 || s.flag .RNG_STATUS_DRBG_STALLED die || r.drbg.isNone) then
      ((s.setFifo dn rest).fadd .RNG_BORROW_SEEDS die 1).seedArrive die seed false
    else s
  | [] => s

/-- BORROWED_SEED_ARRIVAL (R364): a seed that the donor finished for a request of this die arrives, else one from the donor's
FIFO. A waiting ROOT_PROVISION takes no lent seed (R366). -/
def execBorrowedSeedArrival (die : Nat) (s : State) : Out :=
  let r := s.rngOf die
  match r.coming with
  | seed :: rest =>
    .next (((s.setRng die { r with coming := rest, owed := r.owed.filter (·.who != .mp) }).fadd .RNG_BORROW_SEEDS die 1).seedArrive
      die seed true)
  | [] =>
    if s.dies ≤ die || !s.flag .RNG_BORROW_BORROWING die then .next s
    else .next ((s.setRng die { r with owed := r.owed.filter (·.who != .mp) }).lendFromFifo die)

/-- HOLD begins: every conditioner discards the seed in assembly (R358). -/
def State.rngHold (s : State) : State :=
  (List.range s.dies).foldl (fun s d => s.setRng d { s.rngOf d with asm := [], credit := 0 }) s

/-! ## Mask generators (R187, R188) -/

/-- The ring of the job that a core runs, be it one of several cores of the job, or 0xFFFF_FFFF. -/
def State.coreRing (s : State) (v : Nat) : Nat :=
  match s.sched.jobs.find? (fun j => (sparseGet VCore.idle s.cores v).job == some j.id) with
  | some j => j.ring
  | none => 0xFFFFFFFF

/-- A seed is applied: production starts or goes on. -/
def State.mgenApply (s : State) (v : Nat) : State :=
  let first := !s.flag .VC_MGEN_STAT_SEEDED v
  let s := { s with mgen := sparseSet 0 s.mgen v 0, mgenAt := sparseSet 0 s.mgenAt v s.time.ticks }
  let s := (s.fset .VC_MGEN_STAT_SEEDED v 1).fset .VC_MGEN_STAT_STALLED v 0
  let s := (s.fset .VC_MGEN_BLOCKS_BLOCKS v 0).fadd .VC_MGEN_RESEEDS_COUNT v 1
  if !first then s
  else
    let d := v / 16
    let s := s.event 0x8103 1 d 4 v 0 0xFFFFFFFF
    if (dieVcs d).all (fun x => s.flag .VC_MGEN_STAT_SEEDED x || s.vcRetired x) then
      (s.fset .DIE_SCHED_HOLD_MGEN_WAIT d 0).readySet .DEV_READY_MAP_MGEN d 1
    else s

/-- 24 sequencer cycles have passed since a core's last mask block, at the clock of its die (R187): a sequencer cycle is
two of the set point's, and a tick 0.5 ns. -/
def State.mgenDue (s : State) (v : Nat) : Bool :=
  decide (96000 ≤ (s.time.ticks - sparseGet 0 s.mgenAt v) * max 1 (s.fget .DIE_SCHED_STATE_SET_MHZ (v / 16)))

/-- MGEN_BLOCK (R187): every 24 sequencer cycles one block of 1,088 bits enters the mask buffer unless it is full. -/
def execMgenBlock (vc dt : Nat) (s : State) : Out :=
  let s := s.elapse dt
  let fill := s.fget .VC_MGEN_STAT_FILL vc
  if s.flag .VC_MGEN_STAT_SEEDED vc && !s.flag .VC_MGEN_STAT_STALLED vc && decide (fill < 65536) &&
      decide (s.fget .VC_MGEN_BLOCKS_BLOCKS vc < 65536) && s.mgenDue vc then
    let s := { s with mgenAt := sparseSet 0 s.mgenAt vc s.time.ticks }
    .next ((s.fset .VC_MGEN_STAT_FILL vc (min 65536 (fill + 1088))).fset .VC_MGEN_BLOCKS_BLOCKS vc
      (s.fget .VC_MGEN_BLOCKS_BLOCKS vc + 1))
  else .next s

/-- MGEN_RESEED_REQUEST (R188): after 64,512 blocks the next seed is requested of the die DRBG. -/
def execMgenReseedRequest (vc : Nat) (s : State) : Out :=
  let d := vc / 16
  if 64512 ≤ s.fget .VC_MGEN_BLOCKS_BLOCKS vc && sparseGet 0 s.mgen vc = 0 then
    let s := { s with mgen := sparseSet 0 s.mgen vc 1 }
    .next (s.setRng d { s.rngOf d with mgenQ := (s.rngOf d).mgenQ ++ [vc] })
  else .next s

/-- MGEN_SEED_ARRIVAL (R188): a seed that the DRBG generated arrives; a first seed or one for a stalled MGEN is applied at
once, another waits for the 65,536th block. -/
def execMgenSeedArrival (vc : Nat) (s : State) : Out :=
  if sparseGet 0 s.mgen vc = 2 then
    if !s.flag .VC_MGEN_STAT_SEEDED vc || s.flag .VC_MGEN_STAT_STALLED vc then .next (s.mgenApply vc)
    else .next { s with mgen := sparseSet 0 s.mgen vc 3 }
  else .next s

/-- MGEN_SEED_APPLY (R188): after exactly 65,536 blocks the new seed is applied, or production stops. -/
def execMgenSeedApply (vc : Nat) (s : State) : Out :=
  if s.fget .VC_MGEN_BLOCKS_BLOCKS vc = 65536 && !s.flag .VC_MGEN_STAT_STALLED vc then
    if sparseGet 0 s.mgen vc = 3 then .next (s.mgenApply vc)
    else .next ((s.fset .VC_MGEN_STAT_STALLED vc 1).event 0x8104 3 (vc / 16) 4 vc 0 (s.coreRing vc))
  else .next s

/-! ## ERASE (R368) -/

/-- ERASE clears conditioner, FIFO, DRBG and MGENs of a die and starts the entropy again; exclusions stand. -/
def State.rngErase (s : State) (d : Nat) : State :=
  let s := if (s.rngOf d).remaskQ = 0 then s else s.remaskSkip d
  let r := s.rngOf d
  let s := s.setRng d { RngDie.off with admin := r.admin, exTimes := r.exTimes, tryAt := r.tryAt, remaskAt := r.remaskAt }
  let s := { s with mgen := (dieVcs d).foldl (fun m v => sparseSet 0 m v 0) s.mgen }
  let s := (dieVcs d).foldl (fun s v => (s.setReg .VC_MGEN_STAT v 0).fset .VC_MGEN_BLOCKS_BLOCKS v 0) s
  let s := ((s.fset .RNG_STATUS_FIFO d 0).fset .RNG_STATUS_DRBG_READY d 0).fset .RNG_STATUS_DRBG_STALLED d 0
  let s := (s.fset .RNG_REQS_COUNT d 0).fset .DIE_SCHED_HOLD_MGEN_WAIT d 1
  let s := (s.readySet .DEV_READY_MAP_RNG d 0).readySet .DEV_READY_MAP_MGEN d 0
  if s.flag .RNG_CTL_EN d then s.entropyEnable d else s

end Sys2Proof.Machine
end

