-- ==== Sys2Proof/Machine/Sqe.lean ====
section
/-!
DEFINITION. The fields of a submission entry (R122).
-/

namespace Sys2Proof.Machine

/-! ## SQE fields (Table 04.4) -/

def sqeOp (b : Bytes) : Nat := leAt b 0 2
def sqeFlags (b : Bytes) : Nat := leAt b 2 2
def sqeClass (b : Bytes) : Nat := natBits (sqeFlags b) 9 8
/-- The completion ring that an entry names, CQ[13:0]. -/
def sqeCq (b : Bytes) : Nat := leAt b 4 2 % 2 ^ 14
def sqeUsage (b : Bytes) : Nat := leAt b 6 2
def sqeKey (b : Bytes) : Nat := leAt b 8 8

/-- Address and length field of In0, In1, Out (0 to 2). -/
def sqeAddr (b : Bytes) (i : Nat) : Nat := leAt b (16 + 8 * i) 8
def sqeLen (b : Bytes) (i : Nat) : Nat := leAt b (40 + 4 * i) 4

/-- Whether a buffer is a list. -/
def sqeList (b : Bytes) (i : Nat) : Bool := (sqeFlags b).testBit (2 + i)
def sqeTag (b : Bytes) : Nat := leAt b 52 4
def sqeDeadline (b : Bytes) : Nat := leAt b 56 8

def Job.op (j : Job) : Nat := sqeOp j.sqe
def Job.oper (j : Job) : Option Oper := operOf j.op
def Job.cls (j : Job) : Nat := sqeClass j.sqe
def Job.deadline (j : Job) : Nat := sqeDeadline j.sqe
def Job.noReplay (j : Job) : Bool := (sqeFlags j.sqe).testBit 0
def Job.fence (j : Job) : Bool := (sqeFlags j.sqe).testBit 1

end Sys2Proof.Machine
end

