-- ==== Sys2Proof/Machine/Cost.lean ====
section
/-!
DEFINITION. SQE fields, the cores and engines that a job may use, and the cost model: charges, clocks and estimated
finishes (R122, R147, R150 to R152, R163 to R165).
-/

namespace Sys2Proof.Machine

/-! ## Jobs, cores, kernels -/

def State.job? (s : State) (id : Nat) : Option Job := s.sched.jobs.find? (fun j => j.id == id)

/-- A job's record replaced. -/
def State.setJob (s : State) (j : Job) : State :=
  { s with sched := { s.sched with jobs := s.sched.jobs.map (fun x => if x.id = j.id then j else x) } }

def State.core (s : State) (v : Nat) : VCore := sparseGet VCore.idle s.cores v
def State.setCore (s : State) (v : Nat) (c : VCore) : State := { s with cores := sparseSet VCore.idle s.cores v c }

/-- The cores that a job is bound to. -/
def State.coresOf (s : State) (id : Nat) : List Nat := (s.cores.filter (fun e => e.2.job == some id)).map (·.1)

def State.kernelAt (s : State) (i : Nat) : Kernel := sparseGet Kernel.none s.kernels i

/-- Fields of a kernel header (Tables 07.9, 07.10). -/
def Kernel.order (k : Kernel) : Nat := byteAt k.header 14
def Kernel.entries (k : Kernel) : Nat := byteAt k.header 15
def Kernel.secretUse (k : Kernel) : Bool := (leAt k.header 16 4).testBit 0
def Kernel.version (k : Kernel) : Nat := leAt k.header 20 4
def Kernel.seg (k : Kernel) (i : Nat) : Nat := leAt k.header (40 + 2 * i) 2
def Kernel.kref (k : Kernel) (i : Nat) : Nat := leAt k.header (48 + 2 * i) 2
def Kernel.entry (k : Kernel) (e : Nat) : Bytes := sliceZ k.header (64 + 24 * e) 24
def Kernel.pages (k : Kernel) : Nat := ((List.range 4).map (fun i => k.seg i % 128)).sum
def entryLayout (e : Bytes) : Nat := leAt e 12 2

/-- The declared cycle count of an entry (R222). -/
def declaredCycles (e : Bytes) (n : Nat) : Nat := leAt e 4 4 + leAt e 8 4 * ceilDiv n 64

/-- The installed kernel that a call names, and its entry; `none` where check 1 fails (R230). -/
def State.kernelEntry (s : State) (i e : Nat) : Option (Kernel × Bytes) :=
  let k := s.kernelAt i
  if k.callable && e < k.entries then some (k, k.entry e) else none

/-- The key references that an entry uses: index, required type, usage bit. -/
def kernelRefs (k : Kernel) (e : Bytes) : List (Nat × Nat × Nat) :=
  let l := entryLayout e
  (List.range 4).filterMap (fun i =>
    let r := k.kref i
    if r % 256 != 0 && (if i = 0 then l.testBit 9 else l.testBit 10) then some (i, r % 256, r / 256) else none)

/-- The handle of a reference: the SQE's key, or one of those that lead In1 (Table 07.3). -/
def Job.refHandle (j : Job) (i : Nat) : Nat := if i = 0 then sqeKey j.sqe else leAt j.in1 (8 * (i - 1)) 8

/-- The cluster of a core has a free save slot (R156). -/
def State.saveRoom (s : State) (v : Nat) : Bool :=
  (List.range 4).any (fun i => (sparseGet VCore.idle s.saves (v / 8 * 4 + i)).job.isNone)

/-- Whether a job is secret (R135). -/
def State.jobSecret (s : State) (j : Job) : Bool :=
  match j.oper with
  | some (.kernel i _) => (s.kernelAt i).secretUse
  | some o => o.isSecret
  | none => false

/-- A job that a yield point may give up (R155). -/
def State.preemptible (s : State) (j : Job) : Bool :=
  decide (2 ≤ j.cls) &&
    (match j.oper with
     | some (.kernel i _) => (s.kernelAt i).pages ≤ 8
     | some o => o.units (handleType (sqeKey j.sqe)) == .vc
     | none => true)

/-- A running job that a request can make yield now: its cluster has a free save slot (R156). -/
def State.yieldable (s : State) (j : Job) : Bool :=
  j.phase == .bound && s.preemptible j && j.core.any s.saveRoom

/-! ## Clocks -/

/-- The datapath frequency of a die's set point in MHz. -/
def State.setMhz (s : State) (d : Nat) : Nat := max 1 (s.fget .DIE_SCHED_STATE_SET_MHZ d)

/-- The clock of a core: the lower of the measured value, once a window has measured it, and the set point (R151). -/
def State.coreMhz (s : State) (v : Nat) : Nat :=
  let m := s.fget .DIE_VC_CLOCK_MHZ v
  if m = 0 then s.setMhz (v / 16) else min m (s.setMhz (v / 16))

/-- What stands behind the registers of an engine. -/
def State.lieAt (s : State) (k : Nat) : LieX := sparseGet LieX.idle s.lies k
def State.setLie (s : State) (k : Nat) (x : LieX) : State := { s with lies := sparseSet LieX.idle s.lies k x }

/-- The clock f of an engine: the lower of twice its own clock, once a window has measured it, and the set point (R151,
R243). -/
def State.lieMhz (s : State) (k : Nat) : Nat :=
  match (s.lieAt k).mhz with
  | none => s.setMhz (k / 2)
  | some f => max 1 (min f (s.setMhz (k / 2)))

/-- A time scaled by 3.0 GHz ÷ f. -/
def scaled (ps mhz : Nat) : Nat := ceilDiv (ps * 3000) mhz

/-! ## The cores and engines that a job may use (R147, R148, R163 to R165) -/

/-- A core in service. -/
def State.coreServes (s : State) (v : Nat) : Bool :=
  (s.fget .DEV_READY_VC_VC (v / 16)).testBit (v % 16) && !s.flag .DIE_VC_CLOCK_EXCLUDED v && s.fget .VC_STATE_STATE v != 5 &&
    s.fget .VC_STATE_STATE v != 4

/-- Cores of a die that a TI reserves. -/
def State.reservedBy (s : State) (ti d : Nat) : List Nat := (dieVcs d).filter (fun v => sparseGet 0 s.sched.reserved v == ti + 1)

/-- TI_RESV.HELD follows the cores. -/
def State.showHeld (s : State) (ti d : Nat) : State := s.fset .TI_RESV_HELD (ti * 8 + d) (s.reservedBy ti d).length

/-- A core leaves its reservation. -/
def State.unreserve (s : State) (v : Nat) : State :=
  let r := sparseGet 0 s.sched.reserved v
  let s := { s with sched := { s.sched with
    reserved := sparseDel s.sched.reserved v, leaving := s.sched.leaving.filter (· != v) } }
  if r = 0 then s else s.showHeld (r - 1) (v / 16)

/-- The preference group of a core for a TI's job: 0 reserved to it, 1 unreserved, 2 lent; `none` is not allowed. A cluster
that drains takes no NORMAL or BULK job but the key generation (R148). -/
def State.coreGroup (s : State) (j : Job) (v : Nat) : Option Nat :=
  let r := sparseGet 0 s.sched.reserved v
  if !s.coreServes v then none
  else if sparseGet 0 s.sched.drain (v / 16) = v / 8 % 2 + 1 && decide (2 ≤ j.cls) &&
      j.oper.map (fun o => o.units (handleType (sqeKey j.sqe))) != some .cluster then none
  else if r = j.ti + 1 then some 0
  else if r = 0 then some 1
  else if s.flag .TI_RESV_LEND ((r - 1) * 8 + v / 16) && s.preemptible j then some 2
  else none

/-- A core with no job. -/
def State.coreIdle (s : State) (v : Nat) : Bool := (s.core v).job.isNone && s.fget .VC_STATE_STATE v == 0

/-- An engine in service, idle, and bound by no job that still waits for its random inputs (R233, R241). -/
def State.lieIdle (s : State) (k : Nat) : Bool :=
  s.fget .LIE_STATE_STATE k == 0 && !s.flag .LIE_STATE_TI_VALID k &&
    (s.fget .DEV_READY_MAP_LIE (k / 2)).testBit (k % 2) && !(s.lieAt k).diagWait

/-- The units of a job. -/
def Job.units (j : Job) : UnitKind :=
  match j.oper with
  | some o => o.units (handleType (sqeKey j.sqe))
  | none => .vc

/-- The Classic McEliece public key that a job names in residence: the package clusters that hold it (R41, R143). -/
def State.residentClusters (s : State) (j : Job) : Option (List Nat) :=
  match keyTypeOf (handleType (sqeKey j.sqe)) with
  | some (.pq 8 _ true) =>
    let l := (s.slot (handleTi (sqeKey j.sqe)) (handleSlot (sqeKey j.sqe))).copies
    if l.isEmpty then none else some l
  | _ => none

/-- Cores of a die that a job may use at all, whether or not they are idle. -/
def State.allowedCores (s : State) (j : Job) (d : Nat) : List Nat :=
  (dieVcs d).filter (fun v => (s.coreGroup j v).isSome &&
    (match s.residentClusters j with
     | some cl => j.oper == some .delete || j.oper == some .keyInfo || cl.contains (v / 8)
     | none => true))

/-- A better choice of core: group, then the highest clock, then the lowest number. -/
def State.corePrefers (s : State) (j : Job) (a b : Nat) : Bool :=
  let ga := (s.coreGroup j a).getD 9
  let gb := (s.coreGroup j b).getD 9
  if ga ≠ gb then decide (ga < gb)
  else if s.coreMhz a ≠ s.coreMhz b then decide (s.coreMhz b < s.coreMhz a)
  else decide (a ≤ b)

/-- The best of a list of cores. -/
def State.bestOf (s : State) (j : Job) : List Nat → Option Nat
  | [] => none
  | v :: t => match s.bestOf j t with
    | none => some v
    | some u => if s.corePrefers j v u then some v else some u

/-- The cores and the engine that best_core gives a job on a die (R147); `none` when it must wait. -/
def State.bestCore (s : State) (j : Job) (d : Nat) : Option (List Nat × Option Nat) :=
  let idle := (s.allowedCores j d).filter s.coreIdle
  match j.units with
  | .vc => (s.bestOf j idle).map (fun v => ([v], none))
  | .lie => ((List.range 2).find? (fun k => s.lieIdle (2 * d + k))).map (fun k => ([], some (2 * d + k)))
  | .hybrid => (s.bestOf j (idle.filter (fun v => s.lieIdle (v / 8)))).map (fun v => ([v], some (v / 8)))
  | .cluster =>
    ((List.range 2).find? (fun k => (List.range 8).all (fun c => idle.contains (d * 16 + k * 8 + c)))).map
      (fun k => ((List.range 8).map (fun c => d * 16 + k * 8 + c), none))

/-! ## Charges (Table 05.1) -/

/-- The key references that a job uses, with the type that each must have: the SQE's key, the wrapping key of an export, or
those that an owner kernel declares. -/
def State.keyUses (s : State) (j : Job) : List (Nat × Nat) :=
  match j.oper with
  | some (.kernel i e) => match s.kernelEntry i e with
    | some (k, d) => (kernelRefs k d).map (fun r => (r.1, r.2.1))
    | none => []
  | some .delete | some .keyInfo => []
  | some .exportKey => [(0, handleType (sqeKey j.sqe)), (1, 3)]
  | _ => if sqeKey j.sqe = 0 then [] else [(0, handleType (sqeKey j.sqe))]

/-- Keys of a job that its home die sends when the job runs elsewhere (R144); a copy in cluster shared memory is not sent. -/
def State.keysCarried (s : State) (j : Job) : List Nat :=
  ((s.keyUses j).map (·.1)).filter (fun n => n != 0 || (s.residentClusters j).isNone)

/-- Secret keys released to a job. -/
def State.keysReleased (s : State) (j : Job) : Nat :=
  ((s.keyUses j).filter (fun r => (keyTypeOf r.2).any KeyType.secret)).length

/-- The hops that the keys of a job travel to a die, all together. -/
def State.keyHops (s : State) (j : Job) (d : Nat) : Nat := (s.keysCarried j).length * dieHops (s.keyDie j.ti) d

/-- The charge of a job on a die at a clock, in picoseconds (Table 05.1): a saved job's is what was left, and 2.0 µs. -/
def State.chargeAt (s : State) (j : Job) (d mhz : Nat) : Nat :=
  match j.left with
  | some l => scaled l mhz
  | none => scaled j.cost mhz + 10000 * s.keyHops j d + (if s.otp.f2 then 900000 * s.keysReleased j else 0)

/-- The clock at which a job on given units is charged. -/
def State.unitsMhz (s : State) (d : Nat) (p : List Nat × Option Nat) : Nat :=
  match p with
  | ([], none) => s.setMhz d
  | ([], some k) => s.lieMhz k
  | (v :: _, none) => s.coreMhz v
  | (v :: _, some k) => min (s.coreMhz v) (s.lieMhz k)

/-! ## Estimated finish (R152) -/

/-- A time that no finish reaches. -/
def never : Nat := 2 ^ 72

/-- Jobs that hold a core or an engine. -/
def Job.running (j : Job) : Bool := j.phase == .bound || j.phase == .computed

/-- The wait of a job on a die, in picoseconds. -/
def State.waitPs (s : State) (j : Job) (d : Nat) : Nat :=
  if (s.bestCore j d).isSome then 0
  else
    let cores := s.allowedCores j d
    let running := s.sched.jobs.filter (fun x => x.running && x.die == d &&
      (match j.units with
       | .lie => x.lie.isSome
       | _ => cores.any (fun v => (s.core v).job == some x.id)))
    if j.cls = 0 && j.units != .lie && running.any s.yieldable then scaled 3000000 (s.setMhz d)
    else
      let now := s.time.ticks
      (running.map (fun x => (x.endTime - now) * 500)).foldl min never

/-- The estimated finish of a job on a die, as a PHC time in picoseconds. -/
def State.estFinish (s : State) (j : Job) (d : Nat) : Nat :=
  let f := match s.bestCore j d with
    | some p => s.unitsMhz d p
    | none => s.setMhz d
  s.replicaNow d * 1000 + s.waitPs j d + s.chargeAt j d f

/-- Whether a finish meets the job's deadline. -/
def Job.meets (j : Job) (finish : Nat) : Bool := j.deadline == 0 || decide (finish ≤ j.deadline * 1000)

/-- The dies on which a job may be placed: those that are ready (R382), and for a resident Classic McEliece key those that
hold a copy (R143 rule 1). -/
def State.permittedDies (s : State) (j : Job) : List Nat :=
  let ready := (List.range s.dies).filter (s.flag .DEV_READY_MAP_DIE)
  match s.residentClusters j with
  | some cl =>
    if j.oper == some .delete || j.oper == some .keyInfo then ready
    else ready.filter (fun d => cl.any (fun c => c / 2 == d))
  | none => ready

end Sys2Proof.Machine
end

