-- ==== Sys2Proof/Machine/Lattice.lean ====
section
/-!
DEFINITION. What ML-KEM and ML-DSA share (FIPS 203, FIPS 204): polynomials of 256 coefficients, the number-theoretic
transform as a tree of butterflies, packing, and rejection sampling from an extendable output.
-/

namespace Sys2Proof.Machine

/-- A polynomial: 256 coefficients below the modulus, constant term first. -/
abbrev Poly := List Nat

/-- The low `n` bits of a number in reverse order. -/
def revBits : Nat → Nat → Nat
  | 0, _ => 0
  | n + 1, i => i % 2 * 2 ^ n + revBits n (i / 2)

/-- A modulus, a root of unity of order 2^(`bits` + 1), and the depth to which the transform goes. -/
structure NttRing where
  q : Nat
  root : Nat
  bits : Nat
deriving DecidableEq, Repr

/-- The ring of ML-KEM: 17 is a 256th root of unity modulo 3,329. -/
def kemRing : NttRing := ⟨3329, 17, 7⟩

/-- The ring of ML-DSA: 1,753 is a 512th root of unity modulo 8,380,417. -/
def dsaRing : NttRing := ⟨8380417, 1753, 8⟩

/-- The factor of node `i` of the tree. -/
def NttRing.zeta (r : NttRing) (i : Nat) : Nat := powMod r.root (revBits r.bits i) r.q

/-- Its inverse. -/
def NttRing.zetaInv (r : NttRing) (i : Nat) : Nat := powMod r.root (2 ^ (r.bits + 1) - revBits r.bits i) r.q

/-- Sum, difference and scaling, coefficient by coefficient. -/
def NttRing.add (r : NttRing) (a b : Poly) : Poly := List.zipWith (fun x y => (x + y) % r.q) a b
def NttRing.sub (r : NttRing) (a b : Poly) : Poly := List.zipWith (fun x y => (x + r.q - y) % r.q) a b
def NttRing.scale (r : NttRing) (k : Nat) (a : Poly) : Poly := a.map (fun x => k * x % r.q)

/-- The forward transform below node `i`. -/
def NttRing.nttGo (r : NttRing) : Nat → Nat → Poly → Poly
  | 0, _, f => f
  | n + 1, i, f =>
    let h := f.length / 2
    let t := r.scale (r.zeta i) (f.drop h)
    r.nttGo n (2 * i) (r.add (f.take h) t) ++ r.nttGo n (2 * i + 1) (r.sub (f.take h) t)

/-- The inverse below node `i`, without the final factor. -/
def NttRing.inttGo (r : NttRing) : Nat → Nat → Poly → Poly
  | 0, _, f => f
  | n + 1, i, f =>
    let h := f.length / 2
    let a := r.inttGo n (2 * i) (f.take h)
    let b := r.inttGo n (2 * i + 1) (f.drop h)
    r.add a b ++ r.scale (r.zetaInv i) (r.sub a b)

/-- The transform and its inverse. -/
def NttRing.ntt (r : NttRing) (f : Poly) : Poly := r.nttGo r.bits 1 f
def NttRing.intt (r : NttRing) (f : Poly) : Poly := r.scale (powMod ((r.q + 1) / 2) r.bits r.q) (r.inttGo r.bits 1 f)

/-- The zero polynomial. -/
def polyZero : Poly := List.replicate 256 0

/-- A coefficient as the integer nearest zero. -/
def NttRing.centred (r : NttRing) (x : Nat) : Int := if r.q / 2 < x then (x : Int) - (r.q : Int) else (x : Int)

/-- The largest absolute value of a coefficient. -/
def NttRing.norm (r : NttRing) (f : Poly) : Nat := f.foldl (fun m x => max m (r.centred x).natAbs) 0

/-- An integer as a residue. -/
def NttRing.ofInt (r : NttRing) (i : Int) : Nat := (i % (r.q : Int)).toNat

/-- 256 numbers of `d` bits packed, least significant bit first. -/
def packBits (d : Nat) (f : Poly) : Bytes := leBytes (32 * d) (f.foldr (fun x a => x + 2 ^ d * a) 0)

/-- 256 numbers of `d` bits, one after another. -/
def unpackGo (d : Nat) : Nat → Nat → Poly
  | 0, _ => []
  | k + 1, n => n % 2 ^ d :: unpackGo d k (n / 2 ^ d)

/-- 256 numbers of `d` bits unpacked. -/
def unpackBits (d : Nat) (b : Bytes) : Poly := unpackGo d 256 (leNat (b.take (32 * d)))

/-- The first `n` of the sampled coefficients; where the stream, as the standard bounds it, held fewer, the rest are the free
coefficients of log entry 92. -/
def sampled (n q : Nat) (seed : Bytes) (l : List Nat) : Poly :=
  l.take n ++ (List.range (n - l.length)).map (fun i => Config.sampleRest seed i % q)

/-- A vector of `n` polynomials cut from a string of pieces of `k` bytes. -/
def polyPieces (n k : Nat) (b : Bytes) (f : Bytes → Poly) : List Poly := (List.range n).map (fun i => f (sliceZ b (i * k) k))

end Sys2Proof.Machine
end

