-- ==== Sys2Proof/Machine/MlDsa.lean ====
section
/-!
DEFINITION. ML-DSA of FIPS 204: key generation, hedged signing, verification, and the message forms of the pure and the
pre-hash variants, which SLH-DSA shares (R58, R59).
-/

namespace Sys2Proof.Machine

/-! ## Message forms -/

/-- The object identifier of a pre-hash function: SHA-256, SHA-512, SHAKE256 (FIPS 204, FIPS 205). -/
def hashOid (ph : Nat) : Bytes :=
  [0x06, 0x09, 0x60, 0x86, 0x48, 0x01, 0x65, 0x03, 0x04, 0x02, if ph = 1 then 0x01 else if ph = 2 then 0x03 else 0x0C]

/-- M': 0, the context and the message; or 1, the context, the identifier and the digest. -/
def messageForm (ph : Nat) (ctx m : Bytes) : Bytes :=
  leBytes 1 (if ph = 0 then 0 else 1) ++ leBytes 1 ctx.length ++ ctx ++ (if ph = 0 then [] else hashOid ph) ++ m

/-! ## Parameters (FIPS 204, Table 1) -/

def dsaK (s : Nat) : Nat := [4, 6, 8].getD s 0
def dsaL (s : Nat) : Nat := [4, 5, 7].getD s 0
def dsaEta (s : Nat) : Nat := [2, 4, 2].getD s 0
def dsaTau (s : Nat) : Nat := [39, 49, 60].getD s 0
def dsaOmega (s : Nat) : Nat := [80, 55, 75].getD s 0
def dsaGamma1 (s : Nat) : Nat := if s = 0 then 2 ^ 17 else 2 ^ 19
def dsaGamma2 (s : Nat) : Nat := if s = 0 then 95232 else 261888
def dsaBeta (s : Nat) : Nat := dsaTau s * dsaEta s
/-- Bytes of the commitment hash, λ ÷ 4. -/
def dsaCt (s : Nat) : Nat := [32, 48, 64].getD s 0
/-- Bits of a packed coefficient of z, and of w₁. -/
def dsaZBits (s : Nat) : Nat := if s = 0 then 18 else 20
def dsaWBits (s : Nat) : Nat := if s = 0 then 6 else 4

/-! ## Sampling -/

/-- The candidates of RejNTTPoly. -/
def dsaCandidates : Bytes → List Nat
  | a :: b :: c :: t =>
    let x := a.toNat + 256 * b.toNat + 65536 * (c.toNat % 128)
    if x < 8380417 then x :: dsaCandidates t else dsaCandidates t
  | _ => []

/-- RejNTTPoly over the 298 triples of FIPS 204, Appendix C. -/
def dsaSample (b : Bytes) : Poly := sampled 256 8380417 b (dsaCandidates (shake 128 b 894))

/-- A coefficient from a half byte. -/
def dsaHalf (eta b : Nat) : List Nat :=
  if eta = 2 then (if b < 15 then [dsaRing.ofInt ((2 : Int) - ((b % 5 : Nat) : Int))] else [])
  else if b < 9 then [dsaRing.ofInt ((4 : Int) - (b : Int))] else []

/-- RejBoundedPoly over the 481 bytes of FIPS 204, Appendix C. -/
def dsaBounded (eta : Nat) (b : Bytes) : Poly :=
  sampled 256 8380417 b ((shake 256 b 481).flatMap (fun z => dsaHalf eta (z.toNat % 16) ++ dsaHalf eta (z.toNat / 16)))

/-- ExpandMask: the vector y of counter κ. -/
def dsaMask (s : Nat) (rho : Bytes) (kappa : Nat) : List Poly :=
  (List.range (dsaL s)).map (fun r =>
    (unpackBits (dsaZBits s) (shake 256 (rho ++ leBytes 2 (kappa + r)) (32 * dsaZBits s))).map
      (fun v => (dsaGamma1 s + 8380417 - v) % 8380417))

/-- SampleInBall: positions from `i` on, the signs in `h`, the stream in `b`, of a seed. -/
def dsaBallGo (seed : Bytes) : Nat → Nat → Nat → Bytes → Poly → Poly
  | 0, _, _, _, c => c
  | n + 1, h, i, b, c =>
    let b := b.dropWhile (fun x => decide (i < x.toNat))
    let j := ((b.head?).map BitVec.toNat).getD (Config.sampleRest seed i % (i + 1))
    dsaBallGo seed n (h / 2) (i + 1) (b.drop 1) ((c.set i (c.getD j 0)).set j (if h % 2 = 1 then 8380416 else 1))

/-- SampleInBall, over a stream of 8 + 1,024 bytes. -/
def dsaBall (s : Nat) (ct : Bytes) : Poly :=
  let b := shake 256 ct 1032
  dsaBallGo ct (dsaTau s) (leNat (b.take 8)) (256 - dsaTau s) (b.drop 8) polyZero

/-- The matrix in transformed form, row by row. -/
def dsaMatrix (s : Nat) (rho : Bytes) : List (List Poly) :=
  (List.range (dsaK s)).map (fun r => (List.range (dsaL s)).map (fun c => dsaSample (rho ++ leBytes 1 c ++ leBytes 1 r)))

/-! ## Rounding and hints -/

/-- Products of transformed polynomials, and a row of the matrix with a vector. -/
def dsaMul (a b : Poly) : Poly := List.zipWith (fun x y => x * y % 8380417) a b
def dsaDot (a b : List Poly) : Poly := (List.zipWith dsaMul a b).foldl dsaRing.add polyZero

/-- Power2Round: high part, and low part as a residue. -/
def dsaPower2 (x : Nat) : Nat × Nat :=
  let r := x % 8192
  if 4096 < r then (x / 8192 + 1, (r + 8380417 - 8192) % 8380417) else (x / 8192, r)

/-- Decompose by 2γ₂: high part, and low part as an integer. -/
def dsaDecompose (g x : Nat) : Nat × Int :=
  let r := x % (2 * g)
  let lo : Int := if g < r then (r : Int) - ((2 * g : Nat) : Int) else (r : Int)
  let hi := if g < r then x / (2 * g) + 1 else x / (2 * g)
  if hi * (2 * g) = 8380416 then (0, lo - 1) else (hi, lo)

/-- HighBits. -/
def dsaHigh (g x : Nat) : Nat := (dsaDecompose g x).1

/-- UseHint. -/
def dsaUseHint (g h x : Nat) : Nat :=
  let m := 8380416 / (2 * g)
  let (hi, lo) := dsaDecompose g x
  if h = 0 then hi else if 0 < lo then (hi + 1) % m else (hi + m - 1) % m

/-- HintBitPack. -/
def dsaPackHint (omega : Nat) (h : List Poly) : Bytes :=
  let at1 := fun f : Poly => (List.range 256).filter (fun j => f.getD j 0 != 0)
  let pos := h.flatMap at1
  let ends := (List.range h.length).map (fun i => (((h.take (i + 1)).map (fun f => (at1 f).length)).sum))
  sliceZ (pos.map (BitVec.ofNat 8)) 0 omega ++ ends.map (BitVec.ofNat 8)

/-- Strictly hintRising. -/
def hintRising : List Nat → Bool
  | a :: b :: t => decide (a < b) && hintRising (b :: t)
  | _ => true

/-- HintBitUnpack from position `i` on; the ends that follow. -/
def dsaUnpackGo (omega : Nat) (pos : List Nat) : Nat → List Nat → Option (List Poly)
  | i, [] => if (pos.drop i).all (· == 0) then some [] else none
  | i, e :: t =>
    let l := (pos.drop i).take (e - i)
    if e < i || omega < e || !hintRising l then none
    else (dsaUnpackGo omega pos e t).map (fun r => (List.range 256).map (fun j => if l.contains j then 1 else 0) :: r)

/-- HintBitUnpack. -/
def dsaUnpackHint (omega : Nat) (b : Bytes) : Option (List Poly) :=
  dsaUnpackGo omega ((b.take omega).map BitVec.toNat) 0 ((b.drop omega).map BitVec.toNat)

/-! ## Keys -/

/-- The expanded key of a seed: ρ, K, s₁ and s₂ transformed, t as (t₁, t₀). -/
structure DsaKey where
  rho : Bytes
  kk : Bytes
  s1 : List Poly
  s2 : List Poly
  t1 : List Poly
  t0 : List Poly

/-- ML-DSA.KeyGen_internal. -/
def dsaExpand (s : Nat) (seed : Bytes) : DsaKey :=
  let k := dsaK s
  let l := dsaL s
  let g := shake 256 (seed ++ leBytes 1 k ++ leBytes 1 l) 128
  let rho := g.take 32
  let small := fun r => dsaBounded (dsaEta s) ((g.drop 32).take 64 ++ leBytes 2 r)
  let s1 := (List.range l).map (fun r => dsaRing.ntt (small r))
  let s2 := (List.range k).map (fun r => small (l + r))
  let t := List.zipWith (fun row e => dsaRing.add (dsaRing.intt (dsaDot row s1)) e) (dsaMatrix s rho) s2
  let t2 := t.map (fun f => f.map dsaPower2)
  ⟨rho, g.drop 96, s1, s2.map dsaRing.ntt, t2.map (fun f => f.map (·.1)), t2.map (fun f => f.map (·.2))⟩

/-- The public key of an expanded key. -/
def DsaKey.pub (k : DsaKey) : Bytes := k.rho ++ k.t1.flatMap (packBits 10)

/-- The public key of a stored seed. -/
def mlDsaPublic (s : Nat) (seed : Bytes) : Bytes := (dsaExpand s seed).pub

/-! ## Signing and verification -/

/-- The packed high parts of w. -/
def dsaPackW (s : Nat) (w : List Poly) : Bytes := w.flatMap (packBits (dsaWBits s))

/-- One attempt of ML-DSA.Sign_internal at counter κ; `none` is a rejection. -/
def dsaAttempt (s : Nat) (k : DsaKey) (a : List (List Poly)) (t0 : List Poly) (mu rho : Bytes) (kappa : Nat) : Option Bytes :=
  let g2 := dsaGamma2 s
  let y := dsaMask s rho kappa
  let yh := y.map dsaRing.ntt
  let w := a.map (fun row => dsaRing.intt (dsaDot row yh))
  let ct := shake 256 (mu ++ dsaPackW s (w.map (fun f => f.map (dsaHigh g2)))) (dsaCt s)
  let c := dsaRing.ntt (dsaBall s ct)
  let by' := fun v : List Poly => v.map (fun f => dsaRing.intt (dsaMul c f))
  let z := List.zipWith dsaRing.add y (by' k.s1)
  let w0 := List.zipWith dsaRing.sub w (by' k.s2)
  let low := w0.foldl (fun m f => f.foldl (fun m x => max m (dsaDecompose g2 x).2.natAbs) m) 0
  let big := z.foldl (fun m f => max m (dsaRing.norm f)) 0
  if dsaGamma1 s - dsaBeta s ≤ big || g2 - dsaBeta s ≤ low then none
  else
    let e := by' t0
    let h := List.zipWith (fun f d => List.zipWith (fun x y => if dsaHigh g2 ((x + y) % 8380417) = dsaHigh g2 x then 0 else 1) f d) w0 e
    let ones := (h.map List.sum).sum
    if g2 ≤ e.foldl (fun m f => max m (dsaRing.norm f)) 0 || dsaOmega s < ones then none
    else some (ct ++ z.flatMap (fun f => packBits (dsaZBits s) (f.map (fun x => (dsaGamma1 s + 8380417 - x) % 8380417))) ++
      dsaPackHint (dsaOmega s) h)

/-- The attempts of a signature, one after another (R53). -/
def dsaLoop (f : Nat → Option Bytes) (l : Nat) : Nat → Nat → Option Bytes
  | 0, _ => none
  | n + 1, kappa => match f kappa with
    | some b => some b
    | none => dsaLoop f l n (kappa + l)

/-- ML-DSA signing with 256 bits of hedging; should no attempt of the 16-bit counter succeed, the signature is free (log entry
92). -/
def mlDsaSign (s : Nat) (seed : Bytes) (ph : Nat) (ctx m rnd : Bytes) : Bytes :=
  let k := dsaExpand s seed
  let mu := shake 256 (shake 256 k.pub 64 ++ messageForm ph ctx m) 64
  let rho := shake 256 (k.kk ++ rnd ++ mu) 64
  (dsaLoop (dsaAttempt s k (dsaMatrix s k.rho) (k.t0.map dsaRing.ntt) mu rho) (dsaL s) (65536 / dsaL s) 0).getD
    (Config.noSignature mu rnd)

/-- ML-DSA verification of a signature of the set's length. -/
def mlDsaVerify (s : Nat) (pk : Bytes) (ph : Nat) (ctx m sig : Bytes) : Bool :=
  let n := 32 * dsaZBits s
  let l := dsaL s
  let ct := sig.take (dsaCt s)
  match dsaUnpackHint (dsaOmega s) (sig.drop (dsaCt s + n * l)) with
  | none => false
  | some h =>
    let z := polyPieces l n (sig.drop (dsaCt s)) (fun b =>
      (unpackBits (dsaZBits s) b).map (fun v => (dsaGamma1 s + 8380417 - v) % 8380417))
    let t1 := polyPieces (dsaK s) 320 (pk.drop 32) (fun b => dsaRing.ntt ((unpackBits 10 b).map (fun x => x * 8192 % 8380417)))
    let mu := shake 256 (shake 256 pk 64 ++ messageForm ph ctx m) 64
    let c := dsaRing.ntt (dsaBall s ct)
    let zh := z.map dsaRing.ntt
    let w := List.zipWith (fun row t => dsaRing.intt (dsaRing.sub (dsaDot row zh) (dsaMul c t))) (dsaMatrix s (pk.take 32)) t1
    let w1 := List.zipWith (fun hf f => List.zipWith (dsaUseHint (dsaGamma2 s)) hf f) h w
    decide (z.foldl (fun m f => max m (dsaRing.norm f)) 0 < dsaGamma1 s - dsaBeta s) &&
      ct == shake 256 (mu ++ dsaPackW s w1) (dsaCt s)

end Sys2Proof.Machine
end

