-- ==== Sys2Proof/Machine/Dge.lean ====
section
/-!
DEFINITION. The digest channels (R255 to R267, R272, R273).
-/

namespace Sys2Proof.Machine

/-! ## Functions (Table 09.2) -/

/-- The SHA-2 function of a code. -/
def dgeSha2 : Nat → Option Sha2
  | 0 => some .sha224 | 1 => some .sha256 | 2 => some .sha384 | 3 => some .sha512 | 4 => some .sha512t256 | _ => none

/-- Block or rate of a code; the codes that the table leaves out have none. -/
def dgeRate (fn : Nat) : Nat :=
  [64, 64, 128, 128, 128, 0, 0, 0, 144, 136, 104, 72, 168, 136, 168, 136].getD fn 0

/-- Digest bytes of a Keccak code: 64 for SHAKE and cSHAKE (R260). -/
def dgeOut (fn : Nat) : Nat := [28, 32, 48, 64].getD (fn - 8) 64

/-- Domain byte of a Keccak code. -/
def dgeDomain (fn : Nat) : Nat := if fn < 12 then 0x06 else if fn < 14 then 0x1F else 0x04

/-- The initial state of a function. -/
def dgeInit (fn : Nat) : List Nat :=
  match dgeSha2 fn with
  | some h => h.init
  | none => keccakZero

/-- An initialised channel. -/
def DgeChan.start (fn : Nat) : DgeChan :=
  { fn := fn, h := dgeInit fn, buf := [], fin := false, bind := none, cmpAt := none, lastDis := none }

/-- A channel after reset: FUNC 1. -/
def DgeChan.idle : DgeChan := DgeChan.start 1

def State.dgeAt (s : State) (c : Nat) : DgeChan := sparseGet DgeChan.idle s.dge c
def State.setDge (s : State) (c : Nat) (x : DgeChan) : State := { s with dge := sparseSet DgeChan.idle s.dge c x }

/-- One block into the state. -/
def dgeBlock (fn : Nat) (h : List Nat) (b : Bytes) : List Nat :=
  match dgeSha2 fn with
  | some f => sha2Compress f.word h b
  | none => keccakF (keccakXor h b)

/-- Whole blocks of a string into the state: the state, what is left, and the count of blocks. -/
def dgeBlocks (fn rate : Nat) : Nat → List Nat → Bytes → List Nat × Bytes × Nat
  | 0, h, b => (h, b, 0)
  | n + 1, h, b =>
    if rate = 0 || b.length < rate then (h, b, 0)
    else
      let (h', r, k) := dgeBlocks fn rate n (dgeBlock fn h (b.take rate)) (b.drop rate)
      (h', r, k + 1)

/-! ## Absorbing and finishing (R256, R259, R260) -/

/-- A measurement channel of die 0 (Table 09.3). -/
def dgeMeasures (c : Nat) : Bool := c == 0 || c == 1

/-- Bytes absorbed: after a finish they start a new digest of the same function, counted (R259). -/
def State.dgeAbsorb (s : State) (c : Nat) (b : Bytes) : State :=
  let x := s.dgeAt c
  let restart := x.fin && !b.isEmpty
  let s := if restart then
      let s := s.fadd .DGE_RESTARTS_COUNT c 1
      if dgeMeasures c then s.event 0xA003 2 (c / 4) 6 c (s.fget .DGE_FIN_SEQ_COUNT c) 0 else s
    else s
  let (h, r, k) := dgeBlocks x.fn (dgeRate x.fn) (b.length + 1) x.h (x.buf ++ b)
  let s := s.setDge c { x with h := h, buf := r, fin := x.fin && !restart }
  let s := s.fadd .DGE_BLOCKS_COUNT c k
  s.setReg .DGE_COUNT c (s.reg .DGE_COUNT c + BitVec.ofNat 64 b.length)

/-- The digest of a channel's running message. -/
def State.dgeDigest (s : State) (c : Nat) : Bytes × State :=
  let x := s.dgeAt c
  match dgeSha2 x.fn with
  | some f => (sha2Finish f x.h ((s.reg .DGE_COUNT c).toNat - x.buf.length) x.buf, s)
  | none =>
    if dgeRate x.fn = 0 then s.drawBytes 64
    else
      let r := dgeRate x.fn
      let a := keccakF (keccakXor x.h (x.buf ++ keccakPad r (dgeDomain x.fn) x.buf.length))
      ((keccakBytes a).take (dgeOut x.fn), s)

/-- The blocks of the padding. -/
def dgePadBlocks (fn : Nat) (left : Nat) : Nat :=
  match dgeSha2 fn with
  | some f => if left + 1 + f.block / 8 ≤ f.block then 1 else 2
  | none => 1

/-- DGE_DIGEST holding a digest, zero beyond its length. -/
def State.dgeShow (s : State) (c : Nat) (d : Bytes) : State :=
  (List.range 16).foldl (fun s i => s.setReg .DGE_DIGEST (c * 16 + i) (BitVec.ofNat 64 (leAt d (4 * i) 4))) s

/-- A finished binding: a job keeps its channel until it ends (R266). -/
def DgeBind.after (b : DgeBind) : Option DgeBind := if b.job.isSome then some { b with left := 0 } else none

/-- A finish (R259, R260): the digest delivered, the state back at its initial value with the count at zero. -/
def State.dgeFinish (s : State) (c : Nat) : State :=
  let x := s.dgeAt c
  let (d, s) := s.dgeDigest c
  let s := s.dgeShow c d
  let s := s.fadd .DGE_BLOCKS_COUNT c (dgePadBlocks x.fn x.buf.length)
  let s := s.setReg .DGE_LAST_LEN c (s.reg .DGE_COUNT c)
  let s := (s.setReg .DGE_COUNT c 0).fwrap .DGE_FIN_SEQ_COUNT c 1
  (s.setDge c { x with h := dgeInit x.fn, buf := [], fin := true, bind := x.bind.bind DgeBind.after }).fset
    .DGE_STAT_STATE c 0

/-- The channel of an engine: 2 or 3 of its die (Table 09.2, R234). -/
def lieChan (k : Nat) : Nat := k / 2 * 4 + 2 + k % 2

/-- A channel is given back by its engine. -/
def State.dgeLieEnd (s : State) (k : Nat) : State :=
  let c := lieChan k
  if s.fget .DGE_STAT_STATE c = 3 then
    ((s.fset .DGE_STAT_STATE c 0).fset .DGE_STAT_SOURCE c 0).fset .DGE_STAT_MASKED c 0
  else s

/-- INIT with a function. -/
def State.dgeStart (s : State) (c fn : Nat) : State :=
  let x := s.dgeAt c
  let s := (s.setReg .DGE_COUNT c 0).fset .DGE_CTL_FUNC c fn
  (s.setDge c { DgeChan.start (fn % 16) with cmpAt := x.cmpAt, lastDis := x.lastDis, bind := x.bind }).fset .DGE_STAT_STATE c 1

/-- One digest that a command needs, taken by its engine's channel (R234): a message hashed from the initial state, masked
where it is secret, the digest then zero in DGE_DIGEST (R267). -/
def State.dgeLie (s : State) (k : Nat) (d : Nat × Bytes × Bool) : State :=
  let c := lieChan k
  let s := ((s.dgeStart c d.1).dgeAbsorb c d.2.1).dgeFinish c
  let s := if d.2.2 then s.dgeShow c [] else s
  ((s.fset .DGE_STAT_STATE c 3).fset .DGE_STAT_SOURCE c 5).fset .DGE_STAT_MASKED c (bit d.2.2)

/-- A channel whose state and digest are cleared. -/
def State.dgeClear (s : State) (c : Nat) : State :=
  let s := (s.setDge c { DgeChan.start (s.dgeAt c).fn with lastDis := (s.dgeAt c).lastDis }).setReg .DGE_COUNT c 0
  (((s.dgeShow c []).fset .DGE_STAT_STATE c 0).fset .DGE_STAT_SOURCE c 0).fset .DGE_STAT_MASKED c 0

/-! ## Direct mode (R262) -/

/-- A channel of the part that is neither snoop-bound nor bound to an engine. -/
def State.dgeDirect (s : State) (c : Nat) : Bool := s.fget .DGE_STAT_STATE c ≠ 2 && s.fget .DGE_STAT_STATE c ≠ 3

/-- DGE_INIT (R262): the MP or the die agent writes DGE_CTL.INIT with FUNC. -/
def execDgeInit (chan func : Nat) (s : State) : Out :=
  if chan < s.dies * 4 && s.dgeDirect chan then .next (s.dgeStart chan (func % 16)) else .next s

/-- DGE_DATA (R262): NBYTES + 1 bytes of the word, byte 0 from bits [7:0]. -/
def execDgeData (chan word : Nat) (s : State) : Out :=
  if s.dies * 4 ≤ chan then .next s
  else if !s.dgeDirect chan then .next (s.fset .DGE_STAT_ERR chan 1)
  else .next ((s.dgeAbsorb chan (leBytes (s.fget .DGE_CTL_NBYTES chan + 1) word)).fset .DGE_STAT_STATE chan 1)

/-- DGE_FIN (R259, R262). -/
def execDgeFin (chan : Nat) (s : State) : Out :=
  if s.dies * 4 ≤ chan then .next s
  else if !s.dgeDirect chan || s.fget .DGE_STAT_STATE chan = 0 then .next (s.fset .DGE_STAT_ERR chan 1)
  else .next (s.dgeFinish chan)

/-! ## Comparison (R272, R273) -/

/-- DGE_COMPARE (R272): GO, with LEN clamped; both words and DONE read zero. -/
def execDgeCompare (chan len : Nat) (s : State) : Out :=
  if s.dies * 4 ≤ chan then .next s
  else
    let s := (s.fset .DGE_CMP_LEN chan (clampNat 1 64 len)).fset .DGE_CMP_DONE chan 0
    let s := (s.setReg .DGE_VERDICT_A chan 0).setReg .DGE_VERDICT_B chan 0
    .next (s.setDge chan { s.dgeAt chan with cmpAt := some s.time.ticks })

/-- The words of DGE_DIGEST or DGE_EXPECT as bytes. -/
def State.dgeWords (s : State) (k : RegKind) (c : Nat) : Bytes :=
  (List.range 16).flatMap (fun i => leBytes 4 (s.reg k (c * 16 + i)).toNat)

/-- The match and mismatch words of comparator A; comparator B drives the complements. -/
def cmpWord (eq : Bool) : Nat := if eq then 0xA5C35A3C else 0x3C5AC3A5

/-! ## Snooping (R263 to R266) -/

/-- The function code of a SHA-2 function, and of a SHA-3 digest length. -/
def sha2Code : Sha2 → Nat
  | .sha224 => 0 | .sha256 => 1 | .sha384 => 2 | .sha512 => 3 | .sha512t256 => 4
def sha3Code (n : Nat) : Nat := if n = 28 then 8 else if n = 32 then 9 else if n = 48 then 10 else 11

/-- In1 of cSHAKE that makes it SHAKE (R258). -/
def plainShake (b : Bytes) : Bool := b.isEmpty || b == [1, 0, 1, 0]

/-- The prefix of μ: tr and the context (FIPS 204). -/
def muPrefix (pk ctx : Bytes) : Bytes := shake 256 pk 64 ++ [0, BitVec.ofNat 8 ctx.length] ++ ctx

/-- The ECDSA half's digest code of a hybrid: SHA-256 or SHA-384 (R66). -/
def hybHashCode (h : Nat) : Nat := if h = 5 then 1 else 2

/-- What the channels compute for a job (Table 09.3a): a function and a prefix for each. -/
def Job.snoopPlan (j : Job) : List (Nat × Bytes) :=
  let verKey := fun n => if sqeKey j.sqe = 0 then j.in1.take n else j.keyBytes
  let rest := fun n => if sqeKey j.sqe = 0 then j.in1.drop n else j.in1
  match j.oper with
  | some (.digest h) => [(sha2Code h, [])]
  | some (.digest3 n) => [(sha3Code n, [])]
  | some (.shake c) => [(if c = 128 then 12 else 13, [])]
  | some (.cshake c) =>
    if plainShake j.in1 then [(if c = 128 then 12 else 13, [])]
    else [(if c = 128 then 14 else 15, bytepad j.in1 (xofRate c))]
  | some (.sigSign 4 m 0) => [(13, muPrefix (sliceZ (mlDsaPublic m j.keyBytes) 0 (pqPub 4 m)) j.in1)]
  | some (.sigVerify 4 m 0) => [(13, muPrefix (verKey (pqPub 4 m)) ((rest (pqPub 4 m)).drop (pqSig 4 m)))]
  | some (.sigVerify 5 m 0) =>
    [(if m % 2 = 1 then 13 else if m < 4 then 1 else 3, (rest (pqPub 5 m)).take (slhN m) ++ verKey (pqPub 5 m))]
  | some (.hybFirst h) =>
    if h < 5 then []
    else
      let (_, m, _) := hybHalves h
      [(13, muPrefix (sliceZ (mlDsaPublic m (j.keyBytes.take (pqPriv 4 m))) 0 (pqPub 4 m)) []), (hybHashCode h, [])]
  | some (.hybSecond h) =>
    if h < 5 then []
    else
      let (_, m, _) := hybHalves h
      [(13, muPrefix ((verKey (hybPub h)).take (pqPub 4 m)) []), (hybHashCode h, [])]
  | _ => []

/-- A job-snoop channel that no job holds and nobody uses. -/
def State.dgeFree (s : State) (c : Nat) : Bool := s.fget .DGE_STAT_STATE c == 0 && (s.dgeAt c).bind.isNone

/-- One channel bound: its prefix absorbed in direct mode, then the range. -/
def State.dgeBindTo (s : State) (c fn : Nat) (pre : Bytes) (b : DgeBind) : State :=
  let s := (s.dgeStart c fn).dgeAbsorb c pre
  ((s.setDge c { s.dgeAt c with bind := some b }).fset .DGE_STAT_STATE c 2).fset .DGE_STAT_SOURCE c b.source

/-- A channel bound to In0 absorbs the stream until its last byte, which finishes it (R263). -/
def State.bindIn0 (s : State) (j : Job) (x : (Nat × Bytes) × Nat) : State :=
  let s := s.dgeBindTo x.2 x.1.1 x.1.2 ⟨4, j.in0.length, some j.id, j.ring⟩
  let s := s.dgeAbsorb x.2 (j.in0.take (j.in0.length - 1))
  s.setDge x.2 { s.dgeAt x.2 with bind := some ⟨4, 1, some j.id, j.ring⟩ }

/-- The dispatcher binds In0 of a job on dies 1 to 7 (R264). -/
def State.snoopBind (s : State) (j : Job) : State :=
  let l := j.snoopPlan
  let free := [j.die * 4, j.die * 4 + 1].filter s.dgeFree
  if j.die = 0 || j.in0.length ≤ 4096 || free.length < l.length then s
  else (l.zip free).foldl (fun s x => s.bindIn0 j x) s

/-- A job's channels are released; a binding that ends without a finish is recorded (R266). -/
def State.snoopEnd (s : State) (j : Job) : State :=
  [j.die * 4, j.die * 4 + 1].foldl (fun s c =>
    match (s.dgeAt c).bind with
    | some b =>
      if b.job = some j.id then
        let s := if b.left = 0 || j.phase = .computed then s
          else s.event 0xA002 3 j.die 6 c ((s.reg .DGE_COUNT c).toNat % 2 ^ 32) j.ring
        s.dgeClear c
      else s
    | none => s) s

/-- A bound channel absorbs stage or flash bytes in stream order (R263, R264). -/
def State.snoopFeed (s : State) (c : Nat) (d : Bytes) : State :=
  match (s.dgeAt c).bind with
  | some b =>
    if b.job.isNone && b.left != 0 then
      let s := s.dgeAbsorb c (d.take b.left)
      s.setDge c { s.dgeAt c with bind := some { b with left := b.left - d.length } }
    else s
  | none => s

/-- A binding to a stage or to the flash ends: finished if its range is complete, otherwise without a finish, which is
recorded (R263, R275). -/
def State.snoopDrop (s : State) (c : Nat) : State :=
  match (s.dgeAt c).bind with
  | some b =>
    if b.job.isSome then s
    else if b.left = 0 then (s.dgeFinish c).fset .DGE_STAT_SOURCE c 0
    else (s.event 0xA002 3 (c / 4) 6 c ((s.reg .DGE_COUNT c).toNat % 2 ^ 32) 0xFFFFFFFF).dgeClear c
  | none => s

/-- A stage area or a flash component is bound, where the channel is free (R264). -/
def State.snoopStage (s : State) (c fn src n : Nat) : State :=
  let s := s.snoopDrop c
  if s.dgeFree c && n != 0 then s.dgeBindTo c fn [] ⟨src, n, none, 0xFFFFFFFF⟩ else s

/-- The doubled comparator of a channel has compared its digest with 48 expected bytes (R271, R272). -/
def State.compareWith (s : State) (c : Nat) (e : Bytes) : State :=
  let s := (List.range 16).foldl (fun s i => s.setReg .DGE_EXPECT (c * 16 + i) (BitVec.ofNat 64 (leAt (e.take 48) (4 * i) 4))) s
  let eq := (s.dgeWords .DGE_DIGEST c).take 48 == sliceZ e 0 48
  let s := (s.setReg .DGE_VERDICT_A c (BitVec.ofNat 64 (cmpWord eq))).setReg .DGE_VERDICT_B c (BitVec.ofNat 64 (2 ^ 32 - 1 - cmpWord eq))
  (s.fset .DGE_CMP_LEN c 48).fset .DGE_CMP_DONE c 1

/-- SNOOP_SELF_FINISH (R263): the last byte of the range is absorbed and the channel finishes by itself. -/
def execSnoopSelfFinish (chan : Nat) (s : State) : Out :=
  match (s.dgeAt chan).bind with
  | none => .next s
  | some b =>
    if s.fget .DGE_STAT_STATE chan ≠ 2 then .next s
    else match b.job with
      | some id =>
        match s.sched.jobs.find? (fun j => j.id == id) with
        | some j => .next (((s.dgeAbsorb chan (j.in0.drop (j.in0.length - b.left))).dgeFinish chan).fset .DGE_STAT_SOURCE chan 0)
        | none => .next s
      | none => if b.left = 0 then .next ((s.dgeFinish chan).fset .DGE_STAT_SOURCE chan 0) else .next s

end Sys2Proof.Machine
end

