-- ==== Sys2Proof/Machine/Mailbox.lean ====
section
/-!
DEFINITION. The admin mailbox: the header checks, owner authentication, responses, abort and time limit
(R94 to R99, R406), and the table of commands with their lengths, modes and authority.
-/

namespace Sys2Proof.Machine

/-! ## Status codes (Table 03.8) -/

abbrev mSuccess : Nat := 0x0000
abbrev mInProgress : Nat := 0x0001
abbrev mUnknownOpcode : Nat := 0x0010
abbrev mBadLength : Nat := 0x0011
abbrev mBadFlags : Nat := 0x0012
abbrev mBadParam : Nat := 0x0013
abbrev mWrongMode : Nat := 0x0020
abbrev mNotAuthorised : Nat := 0x0021
abbrev mLifecycleDenied : Nat := 0x0022
abbrev mNoResource : Nat := 0x0030
abbrev mBusyObject : Nat := 0x0031
abbrev mNotFound : Nat := 0x0032
abbrev mExists : Nat := 0x0033
abbrev mAborted : Nat := 0x0040
abbrev mTimeout : Nat := 0x0041
abbrev mEntropy : Nat := 0x0050
abbrev mVerifyFailed : Nat := 0x0051
abbrev mRollback : Nat := 0x0052
abbrev mLockdown : Nat := 0x0060
abbrev mInternalError : Nat := 0x00FF

/-- One row of the command tables: allowed payload lengths, allowed modes, and owner authentication
(0 never, 1 where the command asks it, 2 always). -/
structure MbxRow where
  lo : Nat
  hi : Nat
  modes : List Nat
  auth : Nat
deriving DecidableEq, Repr

/-- Modes of the rows. -/
def anyMode : List Nat := [1, 2, 3, 4, 5]
def serviceModes : List Nat := [3, 4]
def workModes : List Nat := [2, 3, 4]

/-- The commands of Tables 03.9, 03.10, 04.11, 05.3, 07.12, 10.14, 11.10, 11.11, 12.6, 13.9, 14.6, 15.8, 16.6 and 17.4. -/
def mbxRow (op : Nat) : Option MbxRow :=
  match op with
  | 0x0101 => some ⟨0, 0, anyMode, 0⟩ | 0x0102 => some ⟨0, 0, anyMode, 0⟩ | 0x0103 => some ⟨0, 0, anyMode, 0⟩
  | 0x0110 => some ⟨0, 16368, anyMode, 0⟩
  | 0x0201 => some ⟨24, 24, serviceModes, 0⟩ | 0x0202 => some ⟨8, 8, serviceModes, 0⟩
  | 0x0203 => some ⟨24, 24, serviceModes, 0⟩ | 0x0204 => some ⟨24, 24, serviceModes, 0⟩
  | 0x0205 => some ⟨4, 4, serviceModes, 0⟩ | 0x0206 => some ⟨8, 8, serviceModes, 0⟩
  | 0x0207 => some ⟨8, 8, serviceModes, 0⟩ | 0x0208 => some ⟨4, 4, serviceModes, 0⟩
  | 0x0209 => some ⟨4, 4, serviceModes, 0⟩ | 0x020A => some ⟨4, 4, [3, 4, 5], 0⟩ | 0x020B => some ⟨4, 4, anyMode, 0⟩
  | 0x0301 => some ⟨48, 48, serviceModes, 0⟩ | 0x0302 => some ⟨4, 4, serviceModes, 0⟩
  | 0x0303 => some ⟨4, 4, serviceModes, 0⟩ | 0x0304 => some ⟨8, 8, [3, 4, 5], 0⟩
  | 0x0305 => some ⟨8, 8, serviceModes, 0⟩ | 0x0306 => some ⟨12, 12, serviceModes, 0⟩
  | 0x0307 => some ⟨4, 4, anyMode, 0⟩
  | 0x0401 => some ⟨8, 8, serviceModes, 0⟩ | 0x0402 => some ⟨8, 8, serviceModes, 0⟩
  | 0x0403 => some ⟨12, 12, serviceModes, 0⟩ | 0x0404 => some ⟨16, 16, serviceModes, 0⟩
  | 0x0405 => some ⟨4, 4, anyMode, 0⟩
  | 0x0501 => some ⟨8, 8, anyMode, 0⟩ | 0x0502 => some ⟨8, 8, serviceModes, 0⟩
  | 0x0503 => some ⟨4, 4, serviceModes, 0⟩ | 0x0504 => some ⟨8, 8, serviceModes, 0⟩
  | 0x0505 => some ⟨8, 8, serviceModes, 0⟩ | 0x0506 => some ⟨68, 16368, serviceModes, 0⟩
  | 0x0507 => some ⟨4, 4, serviceModes, 0⟩ | 0x0508 => some ⟨0, 0, [2], 2⟩
  | 0x0509 => some ⟨0, 0, anyMode, 0⟩ | 0x050A => some ⟨4, 4, anyMode, 0⟩
  | 0x0601 => some ⟨16, 16, workModes, 0⟩ | 0x0602 => some ⟨8, 8, workModes, 0⟩
  | 0x0603 => some ⟨40, 40, workModes, 0⟩ | 0x0604 => some ⟨16, 16, workModes, 0⟩
  | 0x0605 => some ⟨8, 8, workModes, 0⟩ | 0x0606 => some ⟨4, 4, workModes, 0⟩ | 0x0607 => some ⟨4, 4, workModes, 0⟩
  | 0x0608 => some ⟨4, 4, workModes, 0⟩ | 0x0609 => some ⟨12, 12, workModes, 0⟩
  | 0x060A => some ⟨4, 4, anyMode, 0⟩ | 0x060B => some ⟨4, 4, anyMode, 0⟩
  | 0x0701 => some ⟨4, 4, anyMode, 0⟩ | 0x0702 => some ⟨16, 16, workModes, 0⟩ | 0x0703 => some ⟨4, 4, workModes, 0⟩
  | 0x0801 => some ⟨0, 0, anyMode, 0⟩ | 0x0802 => some ⟨0, 0, [2, 3, 4, 5], 0⟩ | 0x0803 => some ⟨48, 48, [2], 2⟩
  | 0x0804 => some ⟨100, 100, [2], 2⟩ | 0x0805 => some ⟨48, 48, [2], 2⟩ | 0x0806 => some ⟨0, 0, [2], 2⟩
  | 0x0807 => some ⟨0, 0, anyMode, 0⟩ | 0x0808 => some ⟨5518, 5518, anyMode, 0⟩ | 0x0809 => some ⟨0, 0, anyMode, 0⟩
  | 0x0901 => some ⟨0, 0, anyMode, 0⟩ | 0x0902 => some ⟨4, 4, [2, 4], 2⟩ | 0x0903 => some ⟨4, 4, [2, 4], 2⟩
  | 0x0904 => some ⟨0, 0, workModes, 0⟩ | 0x0905 => some ⟨0, 0, [2], 2⟩
  | 0x0A01 => some ⟨0, 0, anyMode, 0⟩ | 0x0A02 => some ⟨12, 12, anyMode, 0⟩ | 0x0A03 => some ⟨4, 4, anyMode, 1⟩
  | 0x0A04 => some ⟨8, 8, workModes, 0⟩
  | 0x0B01 => some ⟨8, 8, [4, 5], 0⟩ | 0x0B02 => some ⟨9, 16368, [4, 5], 0⟩ | 0x0B03 => some ⟨4, 4, [4, 5], 0⟩
  | 0x0B04 => some ⟨4, 4, [4, 5], 0⟩ | 0x0B05 => some ⟨0, 0, serviceModes, 0⟩ | 0x0B06 => some ⟨0, 0, [4], 2⟩
  | 0x0B07 => some ⟨0, 0, anyMode, 0⟩
  | 0x0B10 => some ⟨8, 8, [4], 0⟩ | 0x0B11 => some ⟨9, 16368, [4], 0⟩ | 0x0B12 => some ⟨4, 4, [4], 0⟩
  | 0x0B13 => some ⟨4, 4, [4], 0⟩ | 0x0B14 => some ⟨4, 4, anyMode, 0⟩
  | 0x0C01 => some ⟨4, 4, [2, 3, 4, 5], 1⟩ | 0x0C02 => some ⟨4, 4, anyMode, 0⟩ | 0x0C10 => some ⟨4, 4, [4], 0⟩
  | 0x0C11 => some ⟨4, 4, [2, 4], 0⟩ | 0x0C12 => some ⟨4, 4, [4], 0⟩ | 0x0C13 => some ⟨0, 0, [4], 0⟩
  | 0x0D01 => some ⟨12, 12, [2, 4], 0⟩ | 0x0D02 => some ⟨52, 52, [2, 4], 2⟩ | 0x0D03 => some ⟨0, 0, [2, 4], 2⟩
  | 0x0D04 => some ⟨4, 4, serviceModes, 0⟩ | 0x0D05 => some ⟨4, 4, serviceModes, 0⟩
  | 0x0D06 => some ⟨4, 4, serviceModes, 0⟩ | 0x0D07 => some ⟨0, 0, anyMode, 0⟩
  | 0x0E01 => some ⟨4, 4, anyMode, 0⟩ | 0x0E02 => some ⟨24, 24, [2, 4], 0⟩ | 0x0E03 => some ⟨4, 4, serviceModes, 0⟩
  | _ => none

/-- The length of the owner authentication trailer (Table 14.5a). -/
def trailerLen : Nat := 5486

/-! ## Header fields (Table 03.7a) -/

def State.cmdOpcode (s : State) : Nat := leAt s.mbx.snap 0 2
def State.cmdFlags (s : State) : Nat := leAt s.mbx.snap 2 2
def State.cmdLength (s : State) : Nat := leAt s.mbx.snap 8 4

/-- Whether the command carries OWNER_AUTH. -/
def State.cmdAuthed (s : State) : Bool := s.cmdFlags.testBit 1

/-- The payload before any trailer. -/
def State.cmdPayload (s : State) : Bytes :=
  sliceZ s.mbx.snap 16 (s.cmdLength - (if s.cmdAuthed then trailerLen else 0))

/-- The trailer. -/
def State.cmdTrailer (s : State) : Bytes := sliceZ s.mbx.snap (16 + s.cmdLength - trailerLen) trailerLen

/-- The first check of a list that fails: each is (fails, status, detail). -/
def firstFail : List (Bool × Nat × Nat) → Option (Nat × Nat)
  | [] => none
  | (b, st, d) :: r => if b then some (st, d) else firstFail r

/-- The response is written: BUSY clears, DONE is set, ABORT clears, MBX_COUNT counts, and vector 0 is raised unless
NO_INTERRUPT is set or DONE_IE is clear (R95, R96). A mailbox that was reset meanwhile reports nothing (R373). -/
def State.respond (s : State) (st dt : Nat) (p : Bytes) : State :=
  if s.mbx.phase = .idle then s
  else
    let quiet := s.cmdFlags.testBit 0
    let p := if st ≤ 1 then p else []
    let hdr := leBytes 2 st ++ leBytes 2 dt ++ sliceZ s.mbx.snap 4 4 ++ leBytes 4 p.length ++ leBytes 4 0
    let s := { s with mbx := { s.mbx with phase := .idle, rsp := hdr ++ p, waitJobs := [], waitRing := none, waitSeq := none, otpAt := none } }
    let s := (((s.fset .MBX_STATUS_BUSY 0 0).fset .MBX_STATUS_DONE 0 1).fset .MBX_CTL_ABORT 0 0).fadd .MBX_COUNT_COMPLETED 0 1
    let s := if st ≤ 1 then s else s.fadd .MBX_COUNT_REFUSED 0 1
    if !quiet && s.flag .MBX_CTL_DONE_IE 0 then s.vector 0 else s

/-- A successful response without payload. -/
def State.success (s : State) : State := s.respond mSuccess 0 []

/-! ## Owner authentication (R405, R406) -/

/-- The current owner slot: the highest programmed slot whose revoke bit is clear, in the states that have one. -/
def State.ownerSlot (s : State) : Option Nat :=
  if s.fget .LCS_STATE_STATE 0 = 3 then
    (List.range 4).reverse.find? (fun k =>
      let o := s.otp.owners.getD k ⟨[], [], [], false⟩
      !o.owner.isEmpty && !o.revoked)
  else none

/-- The owner key hash of the current slot; empty when there is none. -/
def State.ownerHash (s : State) : Bytes :=
  match s.ownerSlot with
  | none => []
  | some k => (s.otp.owners.getD k ⟨[], [], [], false⟩).owner

/-- ASCII text as bytes. -/
def ascii (t : String) : Bytes := t.toList.map (fun c => BitVec.ofNat 8 c.toNat)

/-- A P-384 signature r ‖ s over the SHA-384 of a message, under a SEC1 point. -/
def p384Check (pt m sig : Bytes) : Bool :=
  let r := beNat (sig.take 48)
  let t := beNat (sig.drop 48)
  let q := sec1Point .p384 pt
  pt.headD 0 == 4 && decide (q.1 < Curve.p384.p) && decide (q.2 < Curve.p384.p) && onCurve .p384 q.1 q.2 &&
    decide (0 < r) && decide (r < Curve.p384.n) && decide (0 < t) && decide (t < Curve.p384.n) &&
    ecdsaVerify .p384 q (sha2 .sha384 m) r t

/-- A hybrid owner or debug key (ML-DSA-65, then P-384) over one message with a context. -/
def hybridCheck (pk m ctx sigD sigE : Bytes) : Bool :=
  mlDsaVerify 1 (pk.take 1952) 0 ctx m sigD && p384Check (pk.drop 1952) m sigE

/-- Whether the trailer of the running command passes (R406). -/
def State.trailerPasses (s : State) : Bool :=
  let t := s.cmdTrailer
  let pk := sliceZ t 32 2049
  let body := s.cmdPayload
  let m := leBytes 2 s.cmdOpcode ++ leBytes 2 s.cmdFlags ++ s.otp.deviceId ++ t.take 32 ++ body
  let want := if s.cmdOpcode = 0x0803 then body else s.ownerHash
  s.auth.nonceLive && t.take 32 == s.auth.nonce && decide (s.since s.auth.nonceAt < 600000000000) &&
    !want.isEmpty && sha3 48 pk == want &&
    hybridCheck pk m (ascii "ZV-OWNER-CMD") (sliceZ t 2081 3309) (sliceZ t 5390 96)

/-- The nonce is consumed by the first command that carries it (R406). -/
def State.consumeNonce (s : State) : State :=
  if s.cmdAuthed && s.cmdTrailer.take 32 == s.auth.nonce then { s with auth := { s.auth with nonceLive := false } } else s

/-! ## GO, ABORT and the time limit -/

/-- `n` bytes of the command buffer from its start. -/
def State.cmdBuffer (s : State) (n : Nat) : Bytes :=
  (List.range (ceilDiv n 4)).flatMap (fun i => leBytes 4 (s.reg .MBX_CMD i).toNat)

/-- The header checks in the order of R99: opcode, flags with the reserved bytes, length, mode, authorisation. -/
def State.headerCheck (s : State) : Option Nat :=
  match mbxRow s.cmdOpcode with
  | none => some mUnknownOpcode
  | some r =>
    let fl := s.cmdFlags
    let extra := if s.cmdAuthed then trailerLen else 0
    if 4 ≤ fl || leAt s.mbx.snap 12 4 ≠ 0 || (s.cmdAuthed && r.auth == 0) then some mBadFlags
    else if s.cmdLength < r.lo + extra || min 16368 (r.hi + extra) < s.cmdLength then some mBadLength
    else if !r.modes.contains s.mode then some (if s.mode = modeLockdown then mLockdown else mWrongMode)
    else if (r.auth == 2 && !s.cmdAuthed) || (s.cmdAuthed && !s.trailerPasses) then some mNotAuthorised
    else none

/-- MBX_DOORBELL.GO (R96): ignored with OVERRUN while BUSY or not READY; otherwise the buffer is snapshot, BUSY is set
and the header is checked. -/
def State.go (s : State) : State :=
  if s.flag .MBX_STATUS_BUSY 0 || !s.flag .MBX_STATUS_READY 0 then s.fset .MBX_STATUS_OVERRUN 0 1
  else
    let len := leAt (s.cmdBuffer 16) 8 4
    let snap := s.cmdBuffer (16 + min len 16368)
    let s := { s with mbx := { s.mbx with phase := .running, snap := snap, started := s.time.ticks, rsp := [] } }
    let s := s.fset .MBX_STATUS_BUSY 0 1
    match s.headerCheck with
    | some st => s.consumeNonce.respond st 0 []
    | none => s.consumeNonce

/-- The TI that a command names, for event 0x6020 (R106). -/
def State.cmdTi (s : State) : Nat :=
  let op := s.cmdOpcode
  let p := s.cmdPayload
  if op / 256 = 2 || op = 0x0401 || op = 0x0402 || (0x0501 ≤ op && op ≤ 0x0507) || op = 0x0D04 then leAt p 0 2
  else if op = 0x0301 || op = 0x0603 then leAt p 0 2
  else 0xFFFFFFFF

/-- Decisions on a token of the mailbox are dropped with its command. -/
def State.dropUnlock (s : State) : State :=
  { s with prot := { s.prot with doubled := s.prot.doubled.filter (fun d => match d with
      | .unlock _ v => v != 1
      | .unanswered => false
      | _ => true) } }

/-- A running command is abandoned with no effect (R97). -/
def State.abandon (s : State) (st : Nat) : State :=
  let s := s.dropUnlock
  let op := s.cmdOpcode
  let t := s.cmdTi
  (s.event 0x6020 3 0 1 t op st).respond st 0 []

/-- MAILBOX_GO (R96). -/
def execMailboxGo (s : State) : Out := .next s.go

/-- A write of 1 to MBX_CTL.ABORT (R97): nothing while BUSY is 0; before the commit point the command is abandoned;
after it the bit stays set until the response. -/
def State.mbxAbort (s : State) : State :=
  if !s.flag .MBX_STATUS_BUSY 0 then s
  else
    let s := s.fset .MBX_CTL_ABORT 0 1
    match s.mbx.phase with
    | .running => s.abandon mAborted
    | _ => s

/-- MAILBOX_ABORT (R97). -/
def execMailboxAbort (s : State) : Out := .next s.mbxAbort

/-- MBX_TIMEOUT.LIMIT_MS in nanoseconds. -/
def State.mbxLimit (s : State) : Nat := clampNat 10 60000 (s.fget .MBX_TIMEOUT_LIMIT_MS 0) * 1000000

/-- MAILBOX_TIMEOUT (R97): a command that reaches the limit before its commit point is answered TIMEOUT. -/
def execMailboxTimeout (dt : Nat) (s : State) : Out :=
  let s := s.elapse dt
  match s.mbx.phase with
  | .running => if s.mbxLimit ≤ s.since s.mbx.started then .next (s.abandon mTimeout) else .next s
  | _ => .next s

/-- The work of command `op`: it runs when that command is the one running, on its payload. -/
def State.cmd (s : State) (op : Nat) (f : State → Bytes → State) : State :=
  if s.mbx.phase = .running && s.cmdOpcode == op then f s s.cmdPayload else s

/-- A command with checks in payload order: the first that fails is the answer. -/
def State.cmdIf (s : State) (op : Nat) (checks : State → Bytes → List (Bool × Nat × Nat)) (f : State → Bytes → State) :
    State :=
  s.cmd op (fun s p => match firstFail (checks s p) with
    | some (st, d) => s.respond st d []
    | none => f s p)

/-- VDD_OTP permits a program pulse (R470). -/
def State.otpGood (s : State) : Bool := decide (1710 ≤ s.boot.otpMv ∧ s.boot.otpMv ≤ 1890)

/-- A command comes to its first OTP program pulse (R470): it goes on where VDD_OTP permits one, waits up to 10 ms for it,
and then ends with INTERNAL_ERROR and programs nothing. -/
def State.program (s : State) (f : State → State) : State :=
  if s.otpGood then f s
  else match s.mbx.otpAt with
    | none => { s with mbx := { s.mbx with otpAt := some s.time.ticks } }
    | some t => if 10000000 ≤ s.since t then s.respond mInternalError 0 [] else s

/-- A reserved payload field, which must be zero. -/
def zeroAt (p : Bytes) (o n : Nat) : Bool × Nat × Nat := (!allZero (sliceZ p o n), mBadParam, o)

/-- A command past its commit point that waits before its response. -/
def State.mbxWait (s : State) (jobs : List Nat) (ring seq : Option Nat) : State :=
  { s with mbx := { s.mbx with phase := .waiting, waitJobs := jobs, waitRing := ring, waitSeq := seq } }

/-- ECHO (R100): the payload comes back unchanged. -/
def execEcho (s : State) : Out := .next (s.cmd 0x0110 (fun s p => s.respond mSuccess 0 p))

end Sys2Proof.Machine
end

