-- ==== Sys2Proof/Machine/Host.lean ====
section
/-!
DEFINITION. The host link: DMA windows, the interrupt message table, doorbells, ring headers and indices
(R78, R83 to R86, R91 to R94, R109 to R114, R119).
-/

namespace Sys2Proof.Machine

/-! ## DMA windows (R85, R86) -/

/-- One window of a TI: its first byte, its end, read and write permission. -/
def State.window (s : State) (ti w : Nat) : Nat × Nat × Bool × Bool :=
  let i := ti * 16 + w
  let b := (s.reg .TI_WIN_BASE i).toNat / 4096 * 4096
  (b, b + s.fget .TI_WIN_CTL_PAGES i * 4096, s.flag .TI_WIN_CTL_READ i, s.flag .TI_WIN_CTL_WRITE i)

/-- The end of a window of the TI that holds byte `a` with the permission needed. -/
def State.windowEnd (s : State) (ti a : Nat) (rd wr : Bool) : Option Nat :=
  (List.range 16).findSome? (fun w =>
    let (b, e, r, k) := s.window ti w
    if b ≤ a && a < e && (!rd || r) && (!wr || k) then some e else none)

/-- Every byte from `a` to `e` lies within some window; a buffer meets at most 16 windows. -/
def State.covered (s : State) (ti : Nat) (rd wr : Bool) (e : Nat) : Nat → Nat → Bool
  | 0, a => e ≤ a
  | n + 1, a =>
    if e ≤ a then true
    else match s.windowEnd ti a rd wr with
      | none => false
      | some e' => s.covered ti rd wr e n e'

/-- The window check of a buffer (R86). -/
def State.bufferOk (s : State) (ti a n : Nat) (rd wr : Bool) : Bool := s.covered ti rd wr (a + n) 17 a

/-! ## The interrupt message table (R91 to R93) -/

/-- An interrupt source fires on an entry (R91): a message when unmasked, PEND when masked, nothing when unassigned.
The messages of an entry that was changed while unmasked are free values (R92). -/
def State.imtFire (s : State) (n : Nat) : State :=
  if !s.flag .IMT_CTL_ASSIGNED n then s
  else if s.flag .IMT_CTL_MASK n then s.fset .IMT_CTL_PEND n 1
  else if s.imtTaint.contains n then
    let (a, s) := s.draw
    let (d, s) := s.draw
    s.emit (.memWrite none (some (s.fget .IMT_CTL_OWNER n)) none (a % 2 ^ 64) (leBytes 4 d))
  else
    s.emit (.memWrite none (some (s.fget .IMT_CTL_OWNER n)) none (s.reg .IMT_ADDR n).toNat (leBytes 4 (s.reg .IMT_DATA n).toNat))

/-- MASK cleared: a pending message is sent (R91). -/
def State.imtUnmask (s : State) (n : Nat) : State :=
  let s := s.fset .IMT_CTL_MASK n 0
  if s.flag .IMT_CTL_PEND n then (s.fset .IMT_CTL_PEND n 0).imtFire n else s

/-- IMT_UNMASK (R91): PF0's write that clears MASK. -/
def execImtUnmask (entry : Nat) (s : State) : Out :=
  if entry < 4096 then .next (s.imtUnmask entry) else .next s

/-- MSIX_RELEASE (R94): with the capability enabled and both masks clear, a pending vector sends its one message. -/
def execMsixRelease (vector : Nat) (s : State) : Out :=
  if s.host.pba.testBit vector && decide (vector < 8) && s.host.msixEnable && !s.host.msixMask &&
      !s.host.vecMask.testBit vector then
    .next ({ s with host := { s.host with pba := s.host.pba ^^^ (1 <<< vector) } }.vector vector)
  else .next s

/-! ## Rings: fields and header -/

/-- Ring states (Table 04.7) and types (Table 04.1). -/
def ringDisabled : Nat := 0
def ringEnabled : Nat := 1
def ringDisabling : Nat := 2
def ringError : Nat := 3
def typeSq : Nat := 0
def typeCq : Nat := 1
def typeFrx : Nat := 2
def typeFtx : Nat := 3

def State.ringx (s : State) (r : Nat) : RingX := sparseGet RingX.blank s.rings r
def State.setRingx (s : State) (r : Nat) (x : RingX) : State := { s with rings := sparseSet RingX.blank s.rings r x }
def State.ringState (s : State) (r : Nat) : Nat := s.fget .RING_STATE_STATE r
def State.ringType (s : State) (r : Nat) : Nat := s.fget .RING_CFG_TYPE r
def State.ringOwner (s : State) (r : Nat) : Nat := s.fget .RING_CFG_OWNER r
def State.ringLive (s : State) (r : Nat) : Bool := s.flag .RING_CFG_ALLOCATED r
def State.ringSize (s : State) (r : Nat) : Nat := 2 ^ s.fget .RING_CFG_LOG2_SIZE r
def State.tidx (s : State) (r : Nat) : Nat := s.fget .RING_TIDX_INDEX r
def State.didx (s : State) (r : Nat) : Nat := s.fget .RING_DIDX_INDEX r

/-- A difference of free-running indices (R113). -/
def idxDiff (a b : Nat) : Nat := (a % 2 ^ 32 + (2 ^ 32 - b % 2 ^ 32)) % 2 ^ 32

/-- Whether the device consumes the ring. -/
def State.ringFetched (s : State) (r : Nat) : Bool := s.ringType r == typeSq || s.ringType r == typeFtx

/-- The bytes of one entry. -/
def State.entrySize (s : State) (r : Nat) : Nat := if s.ringFetched r then 64 else 32

/-- The fill of a ring at a tenant index (R113). -/
def State.fillAt (s : State) (r t : Nat) : Nat := if s.ringFetched r then idxDiff t (s.didx r) else idxDiff (s.didx r) t

/-- Free entries of a consumer ring. -/
def State.ringFree (s : State) (r : Nat) : Nat := s.ringSize r - s.fillAt r (s.tidx r)

/-- DEVICE_FLAGS (Table 04.2). -/
def State.deviceFlags (s : State) (r : Nat) : Nat :=
  let x := s.ringx r
  s.ringState r + x.ackSeq * 2 ^ 8 + bit x.refused * 2 ^ 16 + s.fget .RING_STATE_ADMIN_HELD r * 2 ^ 17 +
    s.fget .RING_STATE_ERR_CODE r * 2 ^ 24

/-- Bytes 32 to 47 of the header written in one posted write; an SQ's or FTX ring's index is the accepted head
(R110, R114). -/
def State.writeHeader (s : State) (r : Nat) : State :=
  let s := if s.ringFetched r then s.fset .RING_DIDX_INDEX r (s.ringx r).head else s
  s.tiWrite (s.ringOwner r) (some r) ((s.reg .RING_HDR_ADDR r).toNat + 32)
    (leBytes 4 (s.didx r) ++ leBytes 4 (s.deviceFlags r) ++ leBytes 4 (s.ringx r).devCount ++ leBytes 4 0)

/-- The CQs bound to an SQ (R115). -/
def State.boundCqs (s : State) (r : Nat) : List Nat :=
  [s.fget .RING_BIND_CQ0 r, s.fget .RING_BIND_CQ1 r, s.fget .RING_BIND_CQ2 r, s.fget .RING_BIND_CQ3 r].filter (· ≠ 0xFFFF)

/-- The SQs bound to a CQ, in ring order. -/
def State.boundSqs (s : State) (cq : Nat) : List Nat :=
  (List.range s.part.rings).filter (fun r => s.ringLive r && s.ringType r == typeSq && (s.boundCqs r).contains cq)

/-! ## Interrupt moderation (R119) -/

/-- The IMT entry of a ring fires; count and timer restart. -/
def State.ringFire (s : State) (r : Nat) : State :=
  let s := s.setRingx r { s.ringx r with sinceMsg := 0, unsignalled := none }
  if s.flag .RING_INT_IMT_VALID r then s.imtFire (s.fget .RING_INT_IMT r) else s

/-- One more entry written: the count and the timer, then the message that COAL_COUNT, or a deadline fault, asks. -/
def State.ringCount (s : State) (r : Nat) (dl : Bool) : State :=
  let x := s.ringx r
  let u := match x.unsignalled with
    | none => some s.time.ticks
    | some t => some t
  let s := s.setRingx r { x with sinceMsg := x.sinceMsg + 1, unsignalled := u }
  if s.fget .RING_INT_COAL_COUNT r ≤ x.sinceMsg + 1 || dl then s.ringFire r else s

/-- A ring's change to DISABLED or ERROR: one of an SQ's CQs fires, the first that names an IMT entry, for the change gets
at most one message; a consumer ring fires its own. -/
def State.fireChange (s : State) (r : Nat) : State :=
  if s.ringType r = typeSq then
    match (s.boundCqs r).find? (fun c => s.flag .RING_INT_IMT_VALID c) with
    | some c => s.ringFire c
    | none => s
  else if s.ringType r = typeFtx then s
  else s.ringFire r

/-- COALESCE_TIMER (R119): COAL_US have passed since the first entry not signalled. -/
def execCoalesceTimer (ring : Nat) (dt : Nat) (s : State) : Out :=
  let s := s.elapse dt
  match (s.ringx ring).unsignalled with
  | none => .next s
  | some t =>
    if s.fget .RING_TIME_COAL_US ring ≠ 0 && s.fget .RING_TIME_COAL_US ring * 1000 ≤ s.since t then
      .next (s.ringFire ring)
    else .next s

/-! ## Doorbells (R83, R84, R111, R112) -/

/-- TI states (Table 03.3). -/
def tiFree : Nat := 0
def tiCreated : Nat := 1
def tiBound : Nat := 2
def tiQuiesced : Nat := 3
def tiDestroying : Nat := 4
def State.tiState (s : State) (n : Nat) : Nat := s.fget .TI_STATUS_STATE n

/-- The read of a ring's tenant half is issued: the index, and TENANT_CTL where the doorbells ask for it. -/
def State.readHeader (s : State) (r : Nat) : State :=
  let x := s.ringx r
  if x.hdrBusy && !x.hdrHeld then s.tiRead (s.ringOwner r) (s.reg .RING_HDR_ADDR r).toNat (if x.hdrCtl then 8 else 4) else s

/-- A doorbell acts on a ring: a header read starts, or the one in flight is followed by one more (R112). While DMA is
closed the read is not issued, and serves every doorbell that comes before it is (R78). -/
def State.ringDoorbell (s : State) (r : Nat) (ctl : Bool) : State :=
  if s.ringState r ≠ ringEnabled && !ctl then s
  else
    let x := s.ringx r
    if x.hdrHeld then s.setRingx r { x with hdrCtl := ctl || x.hdrCtl }
    else if x.hdrBusy then s.setRingx r { x with hdrNext := some (ctl || x.hdrNext.getD false) }
    else (s.setRingx r { x with hdrBusy := true, hdrCtl := ctl, hdrHeld := !s.dmaOpen }).readHeader r

/-- A counter that PF0 watches becomes non-zero: vector 3 (Table 03.5). -/
def State.countAlert (s : State) (f : Fld) (i : Nat) : State :=
  let z := s.fget f i
  let s := s.fadd f i 1
  if z = 0 then s.vector 3 else s

/-- A doorbell discarded and counted (R83). -/
def State.rejectDoorbell (s : State) (n ring off : Nat) : State :=
  (s.countAlert .TI_DB_REJECT_COUNT n).event 0x6010 3 0 0x0E n ring off

/-- A write to a doorbell page (R83, R84). -/
def State.doorbell (s : State) (off : Nat) (data : Bytes) : State :=
  let n := off / 0x1000
  let st := s.tiState n
  if s.part.tenants ≤ n || st = tiFree || st = tiDestroying then s
  else
    let w := leNat data
    let r := natBits w 13 0
    let ctl := w.testBit 16
    if data.length ≠ 4 || off % 0x1000 ≠ 0 || st = tiCreated || !s.ringLive r || s.ringOwner r ≠ n then
      s.rejectDoorbell n r off
    else if st = tiQuiesced then
      let x := s.ringx r
      s.setRingx r { x with recorded := some (ctl || x.recorded.getD false) }
    else s.ringDoorbell r ctl

/-- DOORBELL (R111). -/
def execDoorbell (offset : Nat) (data : Bytes) (s : State) : Out := .next (s.doorbell offset data)

end Sys2Proof.Machine
end

