-- ==== Sys2Proof/Machine/Job.lean ====
section
/-!
DEFINITION. How jobs end: completions, held CQEs, clearing, replay, deadline faults, the mirror's part, and the
mailbox command that waits for them (R116 to R119, R126 to R138, R153, R154, R174, R340).
-/

namespace Sys2Proof.Machine

/-! ## Status values (Table 04.6) -/

abbrev jOk : Nat := 0x0000
abbrev jVerifyFail : Nat := 0x0001
abbrev jInvalidOpcode : Nat := 0x0100
abbrev jInvalidParam : Nat := 0x0101
abbrev jBufferFault : Nat := 0x0102
abbrev jKeyHandle : Nat := 0x0103
abbrev jKeyUsage : Nat := 0x0104
abbrev jClassDenied : Nat := 0x0105
abbrev jInputZero : Nat := 0x0110
abbrev jInputOne : Nat := 0x0111
abbrev jInputRange : Nat := 0x0112
abbrev jNotOnCurve : Nat := 0x0113
abbrev jSmallOrder : Nat := 0x0114
abbrev jEncoding : Nat := 0x0115
abbrev jDeadlineMissed : Nat := 0x0200
abbrev jAborted : Nat := 0x0202
abbrev jSupplyHold : Nat := 0x0203
abbrev jMachineCheck : Nat := 0x0204
abbrev jWaitTimeout : Nat := 0x0205
abbrev jEntropy : Nat := 0x0206
abbrev jServiceLockdown : Nat := 0x0207
abbrev jSecrecyFault : Nat := 0x0208
abbrev jKernelFault : Nat := 0x0209

/-! ## The mirror's sending side (R338 to R340) -/

/-- The header of a mirror message (R338): type, flags, length of the payload, sequence number. -/
def mirrorHeader (q : Nat) (b : MirrorBody) : Bytes :=
  leBytes 1 (Config.mirrorKind b).1 ++ leBytes 1 (Config.mirrorKind b).2 ++ leBytes 2 (Config.mirrorPayload b).length ++ leBytes 8 q

/-- A mirror message as it crosses (R338): the header, and the payload under AES-256-GCM with the sender's direction key;
the IV is the direction's word and the sequence number, the header is the AAD. -/
def State.mirrorWire (s : State) (q : Nat) (b : MirrorBody) : Bytes :=
  let k := s.bbks
  let iv := leBytes 4 (if k.initiator then 1 else 2) ++ leBytes 8 q
  let h := mirrorHeader q b
  h ++ gcmEncrypt (if k.initiator then k.keyI2R else k.keyR2I) iv h (Config.mirrorPayload b)

/-- The next mirror message: its sequence number and the state that has sent it. -/
def State.mirrorSend (s : State) (b : MirrorBody) : Nat × State :=
  let q := s.fget .DUPLEX_TX_SEQ_SEQ 0 + 1
  (q, ((s.fset .DUPLEX_TX_SEQ_SEQ 0 q).emitLocal (.mirror q b (s.mirrorWire q b))))

/-- The package is ACTIVE and mirrors: SYNCING, IN_SYNC or DEGRADED (R342 to R345). -/
def State.mirrors (s : State) : Bool :=
  s.fget .DUPLEX_STATUS_ROLE 0 == 1 && [4, 5, 6].contains (s.fget .DUPLEX_STATUS_STATE 0)

/-- A mirror write that asks an acknowledgement. -/
def State.mirrorWrite (s : State) (b : MirrorBody) (job : Option Nat) (ti : Nat) : Nat × State :=
  let (q, s) := s.mirrorSend b
  let s := { s with duplex := { s.duplex with unacked := s.duplex.unacked ++ [(q, s.time.ticks, job, ti)] } }
  (q, s.fwrap .DUPLEX_LAG_VALUE 0 1)

/-- A change of a slot that crosses to the standby; the answer names the sequence number that the CQE waits for: only
while the pair is IN_SYNC (R340). A locked key store lets no key out (R413). -/
def State.mirrorSlot (s : State) (ti slot : Nat) (deleted : Bool) (carries : Bool) (job : Option Nat) : Option Nat × State :=
  if s.flag .TI_KEY_HOME_MIRRORED ti && carries && s.mirrors && (deleted || !s.keysLocked) then
    let k := s.slot ti slot
    let b := if deleted then .keyDelete ti slot else .keyPut ti slot k.gen k.typ k.usage k.stored
    let wait := s.fget .DUPLEX_STATUS_STATE 0 == 5
    let (q, s) := s.mirrorWrite b (if wait then job else none) ti
    (if wait then some q else none, s)
  else (none, s)

/-! ## Slots in the hands of a job -/

/-- A key leaves its slot (R318): zeroised, the slot EMPTY, the deletion mirrored. -/
def State.deleteKey (s : State) (ti slot : Nat) (job : Option Nat) : Option Nat × State :=
  let carries := (s.slot ti slot).usage.testBit uMirror
  (s.emptySlot ti slot).mirrorSlot ti slot true carries job

/-- A key is stored in a slot, and its creation mirrored. -/
def State.createKey (s : State) (ti slot typ usage : Nat) (b : Bytes) (job : Option Nat) : Option Nat × State :=
  (s.storeKey ti slot typ usage b).mirrorSlot ti slot false (usage.testBit uMirror) job

/-- The target slot that a job holds PENDING returns to EMPTY (R318). -/
def State.dropTarget (s : State) (j : Job) : State :=
  match j.target with
  | none => s
  | some k =>
    let ti := k / 2 ^ 24
    let slot := k % 2 ^ 24
    if (s.slot ti slot).state = .pending && (s.slot ti slot).holder = j.id then s.emptySlot ti slot else s

/-! ## Units given back -/

/-- A core is cleared and returns to dispatch (R174). A core that reloads or is retired keeps its state; one that was
released leaves its reservation now (R163). -/
def State.freeVc (s : State) (v : Nat) : State :=
  let s := s.setCore v VCore.idle
  let s := if s.fget .VC_STATE_STATE v ≤ 3 then s.fset .VC_STATE_STATE v 0 else s
  let s := (s.fset .VC_STATE_KERNEL v 0xFF).fset .VC_RUN_CYCLES_CYCLES v 0
  let s := (List.range 4).foldl (fun s i => s.setReg .VC_SEG (v * 4 + i) 0) s
  if s.sched.leaving.contains v then s.unreserve v else s

/-- An engine's job ends: its slots are being cleared, if the engine has started (R241, R247). -/
def State.clearLie (s : State) (k : Nat) : State :=
  let s := ((s.fset .LIE_STATE_TI k 0).fset .LIE_STATE_TI_VALID k 0).fset .LIE_STATE_COMMAND k 0
  let s := (s.dgeLieEnd k).setLie k { s.lieAt k with mem := [] }
  if s.fget .LIE_STATE_STATE k = 1 then s.fset .LIE_STATE_STATE k 2 else s

/-- The first byte of a save slot in its cluster's shared memory: four slots of 52 KiB open the reserved area (R41, R156). -/
def saveBase (i : Nat) : Nat := Config.reservedArea % (15 * 0x40000 + 1) + i % 4 * 0xD000

/-- The bytes of a save slot zeroised; the slot is keyed by cluster × 4 + slot. -/
def State.zeroSlot (s : State) (k : Nat) : State :=
  let m := sparseGet [] s.shared (k / 4)
  { s with shared := sparseSet [] s.shared (k / 4) (m.filter (fun c => decide (c.1 < saveBase k ∨ saveBase k + 0xD000 ≤ c.1))) }

/-- Save slots that hold a job are zeroised (R157). -/
def State.dropSaves (s : State) (id : Nat) : State :=
  let gone := (s.saves.filter (fun e => e.2.job == some id)).map (·.1)
  gone.foldl State.zeroSlot { s with saves := s.saves.filter (fun e => !(e.2.job == some id)) }

/-- DIE_SCHED_HOLD.SAVE_FULL follows the save slots of a die. -/
def State.saveFull (s : State) (d : Nat) : State :=
  let full := fun k => (List.range 4).all (fun i => (sparseGet VCore.idle s.saves ((d * 2 + k) * 4 + i)).job.isSome)
  s.fset .DIE_SCHED_HOLD_SAVE_FULL d (bit (full 0 || full 1))

/-- A job's cores, engine, save slot and waiting draws are given back; `cleared` is an end before the release point. -/
def State.releaseUnits (s : State) (j : Job) (cleared : Bool) : State :=
  let s := (s.coresOf j.id).foldl State.freeVc s
  let s := match j.lie with
    | none => s
    | some k => (if cleared && s.fget .LIE_STATE_STATE k == 1 then s.fadd .LIE_CLEARED_COUNT k 1 else s).clearLie k
  (((s.snoopEnd j).dropSaves j.id).saveFull j.die).dropDraws j.die j.id

/-- A job leaves the table. -/
def State.dropJob (s : State) (id : Nat) : State :=
  { s with sched := { s.sched with jobs := s.sched.jobs.filter (fun j => j.id != id) } }

/-! ## The waiting mailbox command (R97) -/

/-- A kernel's words are zeroised (R229). -/
def State.eraseKernel (s : State) (i : Nat) : State := { s with kernels := sparseSet Kernel.none s.kernels i Kernel.none }

/-- Writes of a TI that wait for DMA to open (R78). -/
def State.writesWait (s : State) (ti : Nat) : Bool :=
  s.host.waiting.any (fun m => match m with
    | .memWrite (some _) (some t) _ _ _ => t == ti
    | _ => false)

/-- The jobs that a waiting command named have ended; a drain also waits for the TI's held CQEs (R103), a demotion for
those of every mirrored TI (R344), a quiesce and a removal of a window for the TI's writes that wait (R87, R103), a shrink for
the released cores (R163), and DIAG_LIE for its engine (R252). -/
def State.mbxJobsDone (s : State) : Bool :=
  s.mbx.waitJobs.all (fun id => !(s.sched.jobs.any (fun j => j.id == id))) &&
    s.mbx.waitSeq.all (fun q => !(s.duplex.unacked.any (fun u => u.1 == q))) &&
    (match s.cmdOpcode with
     | 0x0205 => !s.writesWait s.cmdTi
     | 0x0208 => !s.writesWait s.cmdTi && s.rings.all (fun e => e.2.held.isEmpty || s.ringOwner e.1 != s.cmdTi)
     | 0x0402 => s.sched.leaving.all (fun v => sparseGet 0 s.sched.reserved v != s.cmdTi + 1)
     | 0x0D06 => s.rings.all (fun e => e.2.held.isEmpty || !s.flag .TI_KEY_HOME_MIRRORED (s.ringOwner e.1))
     | 0x0C10 => !(sparseGet LieX.idle s.lies (byteAt s.cmdPayload 0)).diagWait
     | _ => true)

/-- A command past its commit point answers once what it waits for has happened. -/
def State.mbxSettle (s : State) : State :=
  if s.mbx.phase = .waiting && s.mbxJobsDone && s.mbx.waitRing.all (fun r => s.ringState r == ringDisabled) then
    if s.cmdOpcode = 0x0B13 then (s.eraseKernel (byteAt s.cmdPayload 0)).success else s.success
  else s

/-! ## Completions (R116, R117, R126) -/

/-- The CQ to which a job's CQE goes (R115, R123). -/
def State.jobCq (s : State) (j : Job) : Nat :=
  let b := s.boundCqs j.ring
  if b.contains (sqeCq j.sqe) then sqeCq j.sqe else b.headD 0

/-- The 32 bytes of a CQE (Table 04.5). -/
def cqeBytes (st flags tag len sq time idx detail : Nat) : Bytes :=
  leBytes 2 st ++ leBytes 2 flags ++ leBytes 4 tag ++ leBytes 4 len ++ leBytes 2 sq ++ leBytes 2 0 ++ leBytes 8 time ++
    leBytes 4 idx ++ leBytes 4 detail

/-- An entry written into a consumer ring: the entry, the device half of the header, then any message (R117, R119). -/
def State.writeEntry (s : State) (r : Nat) (e : Bytes) (dl : Bool) : State :=
  let i := s.didx r
  let s := s.tiWrite (s.ringOwner r) (some r) ((s.reg .RING_BASE r).toNat + i % s.ringSize r * 32) e
  ((s.fset .RING_DIDX_INDEX r (i + 1)).writeHeader r).ringCount r dl

/-- The reservation of a CQ (R116): the accepted jobs of its bound SQs whose CQE is not yet written, the held ones
included; the held report of an FTX entry is none of them. -/
def State.reservation (s : State) (cq : Nat) : Nat :=
  (s.sched.jobs.filter (fun j => s.jobCq j == cq)).length +
    ((s.ringx cq).held.filter (fun h => s.ringLive h.sq && s.ringType h.sq == typeSq && (s.boundCqs h.sq).contains cq)).length

/-- SQs that a CQ's reservation has stopped. -/
def State.stoppedSqs (s : State) (cq : Nat) : Nat :=
  if s.ringFree cq + 64 ≤ s.reservation cq then (s.boundSqs cq).length else 0

/-- A CQE is written, or held when the CQ is full or others are held (R117); the CQ_FULL clock starts (R118). -/
def State.postCqe (s : State) (cq : Nat) (h : HeldCqe) : State :=
  let x := s.ringx cq
  if x.held.isEmpty && decide (0 < s.ringFree cq) then s.writeEntry cq h.cqe h.dl
  else
    let f := match x.fullFrom with
      | none => if s.ringFree cq = 0 then some s.time.ticks else none
      | some t => some t
    let s := s.setRingx cq { x with held := x.held ++ [h], fullFrom := f }
    if x.held.isEmpty then s.event 0x6033 3 0 3 cq 1 (s.stoppedSqs cq) else s

/-- The published head covers an entry before its CQE (R114). -/
def State.publish (s : State) (r : Nat) : State := if s.didx r = (s.ringx r).head then s else s.writeHeader r

/-- The bytes of a result laid into the segments of Out. -/
def State.writeOut (s : State) (ti ring : Nat) : List (Nat × Nat) → Bytes → State
  | [], _ => s
  | (a, n) :: t, b => if b.isEmpty then s else (s.tiWrite ti (some ring) a (b.take n)).writeOut ti ring t (b.drop n)

/-- One deadline fault (R154): the counters and event 0x5001. -/
def State.deadlineFault (s : State) (j : Job) (kind late : Nat) : State :=
  let s := (s.fadd .RING_DL_FAULTS_COUNT j.ring 1).fadd .TI_DL_FAULTS_COUNT j.ti 1
  let x := s.ringx j.ring
  let s := s.setRingx j.ring { x with devCount := satAdd (2 ^ 32 - 1) x.devCount 1 }
  s.event 0x5001 3 j.die 3 j.ring kind (min late (2 ^ 32 - 1))

/-- A job ends with a status: Out, the deadline fault, the CQE, then its units, and the mailbox command that waits. With
`wait` the CQE waits for the mirror (R340). -/
def State.complete (s : State) (j : Job) (st detail : Nat) (part : Bool) (out : Bytes) (wait : Option Nat) : State :=
  let s := s.publish j.ring
  let s := if st = jOk then s.writeOut j.ti j.ring j.outSegs out else s
  let now := s.replicaNow j.die
  let late := j.late || (j.deadline != 0 && decide (j.deadline < now))
  let fault := late || st == jDeadlineMissed
  let s := if fault then s.deadlineFault j (if st = jDeadlineMissed then 1 else 2) (now - j.deadline) else s
  let flags := bit late + 2 * bit (decide (2 ≤ j.attempts)) + 4 * bit part
  let c := cqeBytes st flags (sqeTag j.sqe) (if st = jOk then out.length else 0) j.ring now j.sqIndex detail
  let dl := fault && s.flag .RING_CFG_DL_INT j.ring
  let s := s.releaseUnits j part
  match wait with
  | some q => s.setJob { j with phase := .released, mirrorSeq := some q, cqe := c, core := none, lie := none, late := dl }
  | none => ((s.dropJob j.id).postCqe (s.jobCq j) ⟨c, j.ring, dl⟩).mbxSettle

/-- The CQE that waited for the mirror is written (R340). -/
def State.releaseCqe (s : State) (id : Nat) : State :=
  match s.job? id with
  | none => s
  | some j => ((s.dropJob id).postCqe (s.jobCq j) ⟨j.cqe, j.ring, j.late⟩).mbxSettle

/-- A job refused or ended without result. -/
def State.endJob (s : State) (j : Job) (st detail : Nat) (part : Bool) : State :=
  (s.dropTarget j).complete j st detail part [] none

/-- A job ends without a CQE (Table 04.10): cleared, counted in RING_ERR_INFO.ENDED. -/
def State.endQuiet (s : State) (j : Job) : State :=
  let s := if j.phase = .released then s else s.dropTarget j
  let s := s.fset .RING_ERR_INFO_ENDED j.ring (satAdd 0xFFFF (s.fget .RING_ERR_INFO_ENDED j.ring) 1)
  ((s.releaseUnits j true).dropJob j.id).mbxSettle

/-! ## Replay and interruption (R136 to R138) -/

/-- A job is past its release point (R134): its release check has passed, or a refusal status (R128) is decided. -/
def Job.past (j : Job) : Bool :=
  j.phase == .released || (j.phase == .computed && decide (0x100 ≤ j.status ∧ j.status < 0x200))

/-- Execution has begun. -/
def Job.begun (j : Job) : Bool := decide (0 < j.attempts)

/-- Whether another attempt is allowed: NO_REPLAY clear, and at most two replays in all. -/
def Job.mayReplay (j : Job) : Bool := !j.noReplay && decide (j.attempts ≤ 2)

/-- Ready jobs of one TI in one class of a die. -/
def State.readyOf (s : State) (die cls ti : Nat) : List Job :=
  s.sched.jobs.filter (fun j => (j.phase == .ready || j.phase == .saved) && j.die == die && j.cls == cls && j.ti == ti)

/-- The head of a TI's place in its list. -/
def State.headOrder (s : State) (j : Job) : Int :=
  ((s.readyOf j.die j.cls j.ti).map (·.order)).foldl min j.order - 1

/-- The lowest virtual time of the TIs that wait in a class of a die, leaving one TI out. -/
def State.lowestVt (s : State) (die cls ti : Nat) : Option Nat :=
  let l := (s.sched.jobs.filter (fun j => (j.phase == .ready || j.phase == .saved) && j.die == die && j.cls == cls && j.ti != ti)).map
    (fun j => sparseGet 0 s.sched.vt ((die * 4 + cls) * 1024 + j.ti))
  match l with
  | [] => none
  | a :: t => some (t.foldl min a)

/-- A TI's list changes from empty to non-empty: its virtual time rises to the lowest that waits (R146). -/
def State.joinList (s : State) (die cls ti : Nat) : State :=
  if (s.readyOf die cls ti).isEmpty then
    match s.lowestVt die cls ti with
    | none => s
    | some m =>
      let k := (die * 4 + cls) * 1024 + ti
      { s with sched := { s.sched with vt := sparseSet 0 s.sched.vt k (max m (sparseGet 0 s.sched.vt k)) } }
  else s

/-- A cleared job returns to the head of its TI's place for another attempt; its acceptance, its reservation and its
PENDING slot stay (R138, R159). -/
def State.replay (s : State) (j : Job) : State :=
  let s := (s.joinList j.die j.cls j.ti).releaseUnits j true
  (s.setJob { j with phase := .ready, core := none, lie := none, order := s.headOrder j, status := 0, detail := 0,
                     result := [], newKey := none, refused := false, due := [], left := none, rand := [],
                     boundAt := 0 }).mbxSettle

/-- A machine check or a failed release check ends a job before its release point (R72, R136). -/
def State.checkJob (s : State) (j : Job) (detail : Nat) : State :=
  if j.past then s
  else if j.mayReplay then s.replay j
  else s.endJob j jMachineCheck detail true

/-- A disable with ABORT, or a quiesce in abort mode, reaches a job. -/
def State.abortJob (s : State) (j : Job) : State := if j.past then s else s.endJob j jAborted 0 j.begun

/-- LOCKDOWN reaches a job. -/
def State.lockJob (s : State) (j : Job) : State := if j.past then s else s.endJob j jServiceLockdown 0 j.begun

/-- HOLD reaches a job (R136, R160): a secret job that holds units, or is saved, is cleared and replayed if that is
allowed and its estimated finish meets the deadline. -/
def State.holdJob (s : State) (j : Job) : State :=
  if (j.running || j.phase == .saved) && !j.past && s.jobSecret j then
    let s' := s.replay j
    match s'.job? j.id with
    | some j' => if j.mayReplay && j.meets (s'.estFinish j' j.die) then s' else s.endJob j jSupplyHold 0 true
    | none => s.endJob j jSupplyHold 0 true
  else s

/-- One after another over the jobs that satisfy a test, as they stood at the start. -/
def State.eachJob (s : State) (p : Job → Bool) (f : State → Job → State) : State :=
  (s.sched.jobs.filter p).foldl (fun s j => match s.job? j.id with
    | some x => f s x
    | none => s) s

/-! ## Refusals at dispatch -/

/-- Virtual time advances for a NORMAL or BULK job on a core that its TI does not reserve (R146). -/
def State.advanceVt (s : State) (j : Job) (cores : List Nat) (ps : Nat) : State :=
  if j.cls < 2 || cores.any (fun v => sparseGet 0 s.sched.reserved v == j.ti + 1) then s
  else
    let k := (j.die * 4 + j.cls) * 1024 + j.ti
    let x := sparseGet 0 s.sched.vt k + ps * 1000 / max 1 (s.fget .TI_SCHED_SHARE j.ti)
    { s with sched := { s.sched with vt := sparseSet 0 s.sched.vt k x } }

/-- A refusal at dispatch: it costs 0.2 µs of virtual time (R70, R146). A job that waits for a replay has begun: PARTIAL is
set where the status allows it (R127, R128). -/
def State.refuseJob (s : State) (j : Job) (p : List Nat × Option Nat) (st detail : Nat) : State :=
  (s.advanceVt j p.1 (scaled psCheck (s.unitsMhz j.die p))).endJob j st detail (decide (0x200 ≤ st) && j.begun)

/-! ## Waiting jobs -/

/-- A retried draw of a job: the random bytes that it needs, taken or waited for on its die. -/
def State.jobRandom (s : State) (j : Job) (n : Nat) (fresh : Bool) : Option Bytes × State :=
  if n = 0 then (some [], s)
  else if n ≤ j.rand.length then (some (j.rand.take n), s)
  else s.jobDraw j.die j.id n fresh

end Sys2Proof.Machine
end

