-- ==== Sys2Proof/Machine/Classic.lean ====
section
/-! DEFINITION. The checks of public values, and the classical operations with the random bytes that they draw (R63 to
R66, R71, R241). -/

namespace Sys2Proof.Machine

/-- The first failure of a list of checks. -/
def firstOf : List (Option Nat) → Option Nat
  | [] => none
  | some st :: _ => some st
  | none :: t => firstOf t

/-! ## Public-value checks (R71, Table 02.19) -/

/-- The 12-bit coefficients of an ML-KEM encapsulation key are below 3,329. -/
def coeffsOk : Bytes → Bool
  | a :: b :: c :: t =>
    let v := leNat [a, b, c]
    decide (v % 4096 < 3329) && decide (v / 4096 < 3329) && coeffsOk t
  | _ => true

/-- A lattice, hash-based or code-based public key. -/
def pqPubCheck (fam set : Nat) (b : Bytes) : Option Nat :=
  if b.length ≠ pqPub fam set then some jEncoding
  else if fam = 3 && !coeffsOk (b.take (pqPub 3 set - 32)) then some jInputRange
  else none

/-- A curve by its index. -/
def curveAt (c : Nat) : Curve := (curveOf c).getD .p256

/-- A Weierstrass point. -/
def pointCheck (c : Curve) (b : Bytes) : Option Nat :=
  if b = [0] then some jSmallOrder
  else if b.headD 0 ≠ 4 || b.length ≠ c.pubLen then some jEncoding
  else
    let q := sec1Point c b
    if c.p ≤ q.1 || c.p ≤ q.2 then some jInputRange
    else if onCurve c q.1 q.2 then none else some jNotOnCurve

/-- An Edwards public key. -/
def edKeyCheck (c : Curve) (b : Bytes) : Option Nat :=
  match edDecode c b with
  | none => some jEncoding
  | some q => if edSmall c q then some jSmallOrder else none

/-- A u-coordinate. -/
def uCheck (c : Curve) (b : Bytes) : Option Nat :=
  let u := leNat b
  if u = 0 then some jInputZero else if c.p ≤ u then some jInputRange
  else if xSmall c u then some jSmallOrder else none

/-- A public key of any curve. -/
def ecPubCheck (c : Curve) (b : Bytes) : Option Nat :=
  if c.weier then pointCheck c b else if c = .ed25519 || c = .ed448 then edKeyCheck c b else uCheck c b

/-- A signature's scalars: r and s of ECDSA, S of EdDSA. -/
def ecSigCheck (c : Curve) (sig : Bytes) : Option Nat :=
  if c.weier then
    let r := beNat (sig.take c.fieldLen)
    let t := beNat (sig.drop c.fieldLen)
    if r = 0 || t = 0 then some jInputZero else if c.n ≤ r || c.n ≤ t then some jInputRange else none
  else if c.n ≤ leNat (sig.drop c.fieldLen) then some jInputRange else none

/-- An RSA public key. -/
def rsaPubCheck (k : Nat) (b : Bytes) : Option Nat :=
  let n := beNat (b.take k)
  let e := beNat (b.drop k)
  if e = 1 then some jInputOne
  else if n % 2 = 0 || n < 2 ^ (8 * k - 1) || e % 2 = 0 || n ≤ e then some jEncoding else none

/-- An RSA signature, ciphertext or message representative. -/
def repCheck (n v : Nat) : Option Nat :=
  if v = 0 then some jInputZero else if v = 1 then some jInputOne else if n ≤ v then some jInputRange else none

/-- A hybrid public key, the lattice half first. -/
def hybPubCheck (h : Nat) (b : Bytes) : Option Nat :=
  let (f, m, c) := hybHalves h
  firstOf [pqPubCheck f m (b.take (pqPub f m)), ecPubCheck (curveAt c) (b.drop (pqPub f m))]

/-- Whether the lattice half is the one that fails. -/
def hybLatticeBad (h : Nat) (b : Bytes) : Bool :=
  let (f, m, _) := hybHalves h
  (pqPubCheck f m (b.take (pqPub f m))).isSome

/-! ## Classical halves (R64, R241, Table 08.2) -/

/-- Bytes of a scalar or nonce draw: the order's bit length plus 64 bits. -/
def scalarLen (c : Curve) : Nat := ceilDiv (bitLen c.n + 64) 8

/-- Bytes of a blinding of 64 bits and of Z. -/
def blindLen (c : Curve) : Nat := 8 + ceilDiv (bitLen c.p + 64) 8

/-- A draw reduced to 1 … n − 1 (FIPS 186-5). -/
def fipsScalar (n : Nat) (b : Bytes) : Nat := beNat b % (n - 1) + 1

/-- An EdDSA curve. -/
def Curve.edwards (c : Curve) : Bool := c == .ed25519 || c == .ed448

/-- Mask bytes of the EdDSA hashes of secret input: 256 a block (R267). -/
def edMask (c : Curve) (n : Nat) : Nat :=
  256 * (if c = .ed25519 then sha2Blocks .sha512 n else spongePerms 136 (n + 10) 114)

/-- Mask bytes of the hashes that OAEP decoding takes of a decrypted block of `k` bytes (R267). -/
def oaepMask (h : Sha2) (k : Nat) : Nat :=
  256 * (sha2Blocks h (k - h.len + 3) + ceilDiv (k - h.len - 1) h.len * sha2Blocks h (h.len + 4))

/-- Random bytes with which an engine computes a public key from a private one: blinding and Z for each computation, and
the masks of the seed's hash. -/
def ecPublicDraw (c : Curve) : Nat :=
  if c.weier then blindLen c else if c.edwards then blindLen c + edMask c c.fieldLen else 2 * blindLen c

/-- Bytes from which a key generation makes the private key: a scalar draw, or the seed of EdDSA. -/
def ecSeedLen (c : Curve) : Nat := if c.edwards then c.fieldLen else scalarLen c

/-- Random bytes of a key generation. -/
def ecKeygenDraw (c : Curve) : Nat := ecSeedLen c + ecPublicDraw c

/-- The private key of a key generation. DEDUCED: an X curve's scalar is drawn and reduced as a nonce is (R241). -/
def ecKeygenOf (c : Curve) (r : Bytes) : Bytes :=
  if c.edwards then sliceZ r 0 c.fieldLen
  else if c.weier then beBytes c.fieldLen (fipsScalar c.n (sliceZ r 0 (scalarLen c)))
  else leBytes c.fieldLen (fipsScalar c.n (sliceZ r 0 (scalarLen c)))

/-- Random bytes of a signature over `n` bytes. -/
def ecSignDraw (c : Curve) (n : Nat) : Nat :=
  if c.weier then scalarLen c + 8 + blindLen c else blindLen c + edMask c c.fieldLen + edMask c (c.fieldLen + n)

/-- A signature. -/
def ecSignOf (c : Curve) (priv m r : Bytes) : Bytes :=
  if c.weier then ecdsaSign c (beNat priv) (fipsScalar c.n (sliceZ r 0 (scalarLen c))) m else edSign c priv m

/-- A verification with a checked key and scalars in range. -/
def ecVerifyOf (c : Curve) (pk m sig : Bytes) : Bool :=
  if c.weier then
    ecdsaVerify c (sec1Point c pk) m (beNat (sig.take c.fieldLen)) (beNat (sig.drop c.fieldLen))
  else match edDecode c pk with
    | none => false
    | some q => edVerify c q pk m sig

/-- Random bytes of a derivation: blinding and Z for the two computations. -/
def ecDeriveDraw (c : Curve) : Nat := 2 * blindLen c

/-- The shared secret with a checked peer. -/
def ecDeriveOf (c : Curve) (priv peer : Bytes) : Bytes :=
  if c.weier then
    let d := beNat priv
    match wMul c (bitLen d) d (some (sec1Point c peer)) with
    | none => beBytes c.fieldLen 0
    | some (x, _) => beBytes c.fieldLen x
  else xFunc c priv (leNat peer)

/-- The digest that the ECDSA half of a hybrid signs (R66). -/
def hybDigest (c : Curve) (m : Bytes) : Bytes :=
  match c with
  | .p256 => sha2 .sha256 m
  | .p384 => sha2 .sha384 m
  | _ => m

end Sys2Proof.Machine
end

