-- ==== Sys2Proof/Machine/Checks.lean ====
section
/-!
DEFINITION. The checks 1 to 6 of R70 on a job that is being dispatched (Tables 02.3, 02.5, 02.7, 02.17, 02.18).
-/

namespace Sys2Proof.Machine

/-! ## Buffers (R124) -/

/-- The elements of a buffer list: address and length; `none` is a list that R124 refuses. -/
def parseList (b : Bytes) : Nat → Option (List (Nat × Nat))
  | 0 => some []
  | n + 1 =>
    let len := leAt b 8 4
    if len = 0 || leAt b 12 4 ≠ 0 then none
    else (parseList (b.drop 16) n).map (fun t => (leAt b 0 8, len) :: t)

/-- The length of a buffer from its segments. -/
def segsLen (l : List (Nat × Nat)) : Nat := (l.map (·.2)).sum

/-- A buffer given directly. -/
def plainSegs (addr len : Nat) : List (Nat × Nat) := if len = 0 then [] else [(addr, len)]

/-! ## Kernel references (R221, R223) -/

/-- Bytes of a segment of a kernel's operand region. -/
def Kernel.segBytes (k : Kernel) (i : Nat) : Nat := k.seg i % 128 * 4096

/-- The buffer use of an entry (check 2). -/
def kernelLens (k : Kernel) (e : Bytes) (key l0 l1 lo : Nat) : Bool :=
  let l := entryLayout e
  let need := (kernelRefs k e).foldl (fun a r => max a (8 * r.1)) 0
  (l.testBit 6 || l0 == 0) && (l.testBit 7 || l1 == 0) && (l.testBit 8 || lo == 0) && (l.testBit 9 || key == 0) &&
    decide (l0 + l1 ≤ leAt e 16 4) && decide (l0 ≤ k.segBytes (l % 4) ∨ l0 = 0) &&
    decide (l1 ≤ k.segBytes (l / 4 % 4) ∨ l1 = 0) && decide (need ≤ l1)

/-! ## Check 2: lengths -/

/-- The digest that a pre-hash form takes (FIPS 204, FIPS 205). -/
def phLen (ph : Nat) : Nat := if ph = 1 then 32 else 64

/-- The hash length of an RSA hash field. -/
def rsaHashLen (h : Nat) : Nat := ((rsaHash h).map Sha2.len).getD 0

/-- Installed kernels. -/
def State.kernelCount (s : State) : Nat := (s.kernels.filter (fun e => !e.2.header.isEmpty)).length

/-- Check 2 of R70 on the lengths of In0, In1 and Out; `p` is the length of a passed public key. -/
def State.lensOk (s : State) (o : Oper) (key l0 l1 lo : Nat) : Bool :=
  let p := if o.keyUse = 2 && key = 0 then o.passed else 0
  let target := l1 == 8
  let short := fun c : Nat => decide (c < 3)
  match o with
  | .digest h => l1 == 0 && decide (h.len ≤ lo)
  | .digest3 n => l1 == 0 && decide (n ≤ lo)
  | .shake _ => l1 == 0 && decide (1 ≤ lo ∧ lo ≤ 65536)
  | .cshake _ => decide (1 ≤ lo ∧ lo ≤ 65536)
  | .hmac h v => if v then decide (4 ≤ l1 ∧ l1 ≤ h.len) && lo == 0 else l1 == 0 && decide (4 ≤ lo ∧ lo ≤ h.len)
  | .kmac _ v => if v then lo == 0 else decide (l1 ≤ 256 ∧ 4 ≤ lo ∧ lo ≤ 64)
  | .gcm d =>
    decide (12 ≤ l0) && (if d then decide (16 ≤ l1 ∧ l1 ≤ 65552 ∧ l1 - 16 ≤ lo) else decide (l1 ≤ 65536 ∧ l1 + 16 ≤ lo))
  | .gmac v =>
    let t := if v then l1 else lo
    decide (12 ≤ l0) && (t == 8 || t == 12 || t == 16) && (if v then lo == 0 else l1 == 0)
  | .wrap pad u =>
    l1 == 0 && decide (l0 ≤ 65536) && (if pad then decide (1 ≤ l0) else decide (16 ≤ l0) && l0 % 8 == 0) &&
      (if u then decide (l0 - 8 ≤ lo) else decide (ceilDiv l0 8 * 8 + 8 ≤ lo))
  | .kemKeygen f m => l0 == 0 && target && decide (8 + pqPub f m ≤ lo)
  | .kemEncaps f m => l0 == p && target && decide (8 + pqCipher f m ≤ lo)
  | .kemDecaps f m => l0 == pqCipher f m && target && decide (8 ≤ lo)
  | .sigKeygen f m => l0 == 0 && target && decide (8 + pqPub f m ≤ lo)
  | .sigSign f m _ => decide (pqSig f m ≤ lo)
  | .sigVerify f m _ => decide (p + pqSig f m ≤ l1) && lo == 0
  | .hbs _ => lo == 0
  | .rsaSign z _ _ => l1 == 0 && decide (rsaK z ≤ lo)
  | .rsaVerify z _ _ => l1 == p + rsaK z && lo == 0
  | .rsaDecrypt z h => l0 == rsaK z && l1 == 0 && decide (rsaK z - 2 * rsaHashLen h - 2 ≤ lo)
  | .rsaEncrypt z h => decide (l0 + 2 * rsaHashLen h + 2 ≤ rsaK z) && l1 == p && decide (rsaK z ≤ lo)
  | .ecKeygen c => l0 == 0 && target && decide (8 + ecPub c ≤ lo)
  | .ecSign c => l1 == 0 && decide (ecSig c ≤ lo)
  | .ecVerify c => (l1 == p + ecSig c || (short c && key == 0 && l1 == 1 + ecSig c)) && lo == 0
  | .ecDerive c => (l0 == ecPub c || (short c && l0 == 1)) && target && decide (8 ≤ lo)
  | .hybKeygen h => l0 == 0 && target && decide (8 + hybPub h ≤ lo)
  | .hybFirst h =>
    if hybKem h then l0 == p && target && decide (8 + hybCipher h ≤ lo) else l1 == 0 && decide (hybSig h ≤ lo)
  | .hybSecond h =>
    if hybKem h then l0 == hybCipher h && target && decide (8 ≤ lo) else l1 == p + hybSig h && lo == 0
  | .generate => l0 == 0 && target && decide (8 ≤ lo)
  | .importKey => decide (1640 ≤ l0) && target && decide (8 ≤ lo)
  | .exportKey => l0 == 0 && target
  | .kdf => decide (l0 ≤ 256) && target && decide (8 ≤ lo)
  | .delete => l0 == 0 && l1 == 0 && lo == 0
  | .readPublic => l0 == 0 && l1 == 0
  | .resident => target && decide (8 ≤ lo)
  | .keyInfo => l0 == 0 && l1 == 0 && decide (16 ≤ lo)
  | .random | .randomPr => l0 == 0 && l1 == 0 && decide (1 ≤ lo ∧ lo ≤ 65536)
  | .quote => decide (16 ≤ l0 ∧ l0 ≤ 64) && l1 == 0 && decide (4979 + 52 * s.kernelCount ≤ lo)
  | .streamNext | .streamNow => l0 == 16 && l1 == 0 && lo == 0
  | .kernel i e =>
    match s.kernelEntry i e with
    | some (k, d) => kernelLens k d key l0 l1 lo
    | none => false

/-- Check 2 of R70 (R44, R47): the key field where it is not used, then the lengths. -/
def State.check2 (s : State) (j : Job) (o : Oper) (l0 l1 lo : Nat) : Option Nat :=
  let key := sqeKey j.sqe
  let unused := match o with
    | .kernel _ _ => false
    | _ => o.keyUse == 0 && key != 0
  if !unused && s.lensOk o key l0 l1 lo then none else some jInvalidParam

/-! ## Check 3: handles (R45, R48, R90, R319) -/

/-- The target handle of a creating job. -/
def Job.targetHandle (j : Job) : Nat := leAt j.in1 0 8

/-- A target handle names the submitting TI, a listed type, a slot within quota, and zero bits [5:0]. -/
def State.targetOk (s : State) (ti h : Nat) : Bool :=
  handleTi h == ti && h % 64 == 0 && (keyTypeOf (handleType h)).isSome &&
    decide (handleSlot h < s.fget .TI_KEY_QUOTA_VALUE ti)

/-- The handles that a job names, beside its target. -/
def State.jobHandles (s : State) (j : Job) (o : Oper) : List Nat :=
  match o with
  | .kernel i e =>
    match s.kernelEntry i e with
    | some (k, d) => (kernelRefs k d).map (fun r => j.refHandle r.1)
    | none => []
  | .exportKey => [sqeKey j.sqe, leAt j.in1 0 8]
  | _ => if o.keyUse = 1 || (o.keyUse = 2 && sqeKey j.sqe ≠ 0) then [sqeKey j.sqe] else []

/-- Check 3 of R70. -/
def State.check3 (s : State) (j : Job) (o : Oper) : Option Nat :=
  if (s.jobHandles j o).all (s.handleOk j.ti) && (!o.makesKey || s.targetOk j.ti j.targetHandle) then none else some jKeyHandle

/-! ## Check 4: types, target, Out by key (R45, R47, R49, R318, R323) -/

/-- The types that an operation may create in a target of its own naming. -/
def Oper.targetFits (o : Oper) (t : Nat) : Bool :=
  match o.creates with
  | some c => t == c
  | none =>
    match o with
    | .generate | .kdf => decide (1 ≤ t ∧ t ≤ 8)
    | .importKey => (keyTypeOf t).any (fun k => k.secret && k != .importPair)
    | .resident => (keyTypeOf t).any (fun k => !k.secret)
    | _ => false

/-- The largest granule count of the key that a job creates. -/
def targetGranules (t l0 : Nat) : Nat :=
  match keyTypeOf t with
  | some (.hbs _) => ceilDiv l0 64
  | some .kmac | some .generic => 1
  | some k => k.granules (k.len.getD 0)
  | none => 0

/-- The public-key length of a type, for read public key and residence. -/
def KeyType.pubLen : KeyType → Nat
  | .pq f m _ => pqPub f m
  | .rsa z _ => rsaK z + 4
  | .ec c _ => ecPub c
  | .hybrid h _ => hybPub h
  | .importPair => 1624
  | _ => 0

/-- The length of a public key made resident, where check 4 fixes it; the other types are judged at check 7. -/
def residentLen (t l0 : Nat) : Bool :=
  match keyTypeOf t with
  | some (.pq 3 m _) => l0 == pqPub 3 m
  | some (.rsa z _) => l0 == rsaK z + 4
  | some (.ec c _) => l0 == ecPub c || (decide (c < 3) && l0 == 1)
  | some (.hybrid h _) => l0 == hybPub h
  | _ => true

/-- The target slot is EMPTY, or PENDING for this job (R318), and its granules fit the quota. -/
def State.targetFree (s : State) (j : Job) (l0 : Nat) : Bool :=
  let h := j.targetHandle
  let k := s.slot j.ti (handleSlot h)
  let own := k.state == .pending && k.holder == j.id
  (k.state == .empty || own) &&
    decide (s.fget .TI_KEY_USED_VALUE j.ti - (if own then k.granules else 0) + targetGranules (handleType h) l0 ≤
      s.fget .TI_KEY_QUOTA_VALUE j.ti)

/-- The stored length of the key that a handle names. -/
def State.keyLen (s : State) (h : Nat) : Nat := (s.slot (handleTi h) (handleSlot h)).stored.length

/-- Check 4 of R70. -/
def State.check4 (s : State) (j : Job) (o : Oper) (l0 lo : Nat) : Option Nat :=
  let key := sqeKey j.sqe
  let kt := handleType key
  let th := j.targetHandle
  let fits := match o with
    | .kernel i e =>
      match s.kernelEntry i e with
      | some (k, d) => (kernelRefs k d).all (fun r => handleType (j.refHandle r.1) == r.2.1)
      | none => false
    | _ => key == 0 || o.keyFits kt
  let target := !o.makesKey ||
    (o.targetFits (handleType th) && s.targetFree j l0 &&
      (!o.byTarget || (keyTypeOf (handleType th)).any (fun t => t.usageOk (sqeUsage j.sqe))) &&
      (o != .resident || residentLen (handleType th) l0))
  let out := match o with
    | .exportKey =>
      decide (3 ≤ handleType (leAt j.in1 0 8) ∧ handleType (leAt j.in1 0 8) ≤ 5) && decide (8 * ceilDiv (s.keyLen key) 8 + 8 ≤ lo)
    | .readPublic => decide (((keyTypeOf kt).map KeyType.pubLen).getD 0 ≤ lo)
    | _ => true
  if fits && target && out then none else some jInvalidParam

/-! ## Check 5: usage (R49, R325) -/

/-- The usage flags of the key that a handle names. -/
def State.keyFlags (s : State) (h : Nat) : Nat := (s.slot (handleTi h) (handleSlot h)).usage

/-- Check 5 of R70. -/
def State.check5 (s : State) (j : Job) (o : Oper) : Option Nat :=
  let key := sqeKey j.sqe
  let ok := match o with
    | .kernel i e =>
      match s.kernelEntry i e with
      | some (k, d) => (kernelRefs k d).all (fun r => (s.keyFlags (j.refHandle r.1)).testBit r.2.2)
      | none => false
    | .exportKey =>
      let w := s.keyFlags (leAt j.in1 0 8)
      (s.keyFlags key).testBit uExport && w.testBit uWrap && !w.testBit uUnwrap
    | _ => match o.usage with
      | some u => key == 0 || (s.keyFlags key).testBit u
      | none => true
  if ok then none else some jKeyUsage

/-! ## Check 6: digests, contexts, structure -/

/-- The context of a signing or verification, by its length. -/
def ctxLen (o : Oper) (key l1 : Nat) : Nat :=
  match o with
  | .sigSign _ _ _ => l1
  | .sigVerify f m _ => l1 - pqSig f m - (if key = 0 then pqPub f m else 0)
  | _ => 0

/-- Check 6 of R70 (R54, R63, R64, R67). -/
def check6 (j : Job) (o : Oper) : Option Nat :=
  let l0 := j.in0.length
  let l1 := j.in1.length
  let ok := match o with
    | .sigSign _ _ ph | .sigVerify _ _ ph =>
      decide (ctxLen o (sqeKey j.sqe) l1 ≤ 255) && (ph == 0 || l0 == phLen ph)
    | .rsaSign _ h _ | .rsaVerify _ h _ => l0 == rsaHashLen h
    | .ecSign c | .ecVerify c => decide (3 ≤ c) || decide (20 ≤ l0 ∧ l0 ≤ 64)
    | .kmac _ true =>
      let n := beNat (sliceZ j.in1 0 2)
      decide (n ≤ 256 ∧ n + 2 ≤ l1 ∧ 4 ≤ l1 - 2 - n ∧ l1 - 2 - n ≤ 64)
    | .kdf => l0 == 0 || decide (byteAt j.in0 0 + 1 ≤ l0)
    | _ => true
  if ok then none else some jInvalidParam

/-- Checks 3 to 6, in order, on a job whose inputs have been read. -/
def State.checks (s : State) (j : Job) (o : Oper) (lo : Nat) : Option Nat :=
  firstOf [s.check3 j o, s.check4 j o j.in0.length lo, s.check5 j o, check6 j o]

end Sys2Proof.Machine
end

