-- ==== Sys2Proof/Machine/KWord.lean ====
section
/-! DEFINITION. The 64-bit words of the vector cores' instruction set: the fields of Table 06.2, the major opcodes and
functions of Tables 06.3 to 06.11, 07.2 and 07.4, and which of them are reserved (R177, R178, R201, R207). -/

namespace Sys2Proof.Machine

/-- The functions that each major opcode has; the others are reserved, and so is every other major opcode. -/
def kernelRows : List (Nat × List Nat) :=
  [(0x00, [0, 1, 4, 5, 6, 7, 9, 10, 11, 12, 13, 14, 15]), (0x01, [0, 1, 2, 3, 4, 5, 6, 7]),
   (0x02, [0, 1, 2, 3, 4, 5]), (0x03, [0, 1, 2, 4, 5, 6, 7, 8]), (0x04, [0, 1, 2, 3, 4, 5]), (0x05, [0, 1]),
   (0x06, [0, 1, 2, 3, 4, 5, 6, 7, 8, 9]), (0x07, [0, 1, 2, 3, 6]), (0x08, [0, 1, 2, 3, 4, 5, 6, 7, 8, 9]),
   (0x09, [0, 1, 2, 3]), (0x0A, [0, 1, 2, 3, 4, 5]), (0x0B, [0, 1, 2, 3, 4, 5]), (0x0C, [0, 1]),
   (0x20, [0, 1, 2, 3, 4]), (0x21, [0, 1, 2, 3, 4, 5, 6]), (0x22, [0, 1, 2, 3])] ++
  [(0x23, [0, 1]), (0x28, [0, 1, 2, 3]), (0x29, [0, 1, 3]), (0x2A, [0]), (0x2B, [0]), (0x2C, [0]),
   (0x30, [0, 1, 2, 3, 4, 5, 6, 7, 8, 9, 10, 11, 12]), (0x31, [0, 1]), (0x32, [0, 1, 2, 3, 4]), (0x33, [0]),
   (0x34, [0, 1]), (0x35, [0, 1, 2, 3, 5]), (0x38, [0, 1, 2]), (0x39, [0, 1]), (0x3A, [0, 1, 2, 3]), (0x3B, [0, 1])]

/-- MAJOR in [63:58]. -/
def kMajor (w : Nat) : Nat := natBits w 63 58

/-- FUNC[5:0] in [26:21]; FUNC[7:6] is MSK and ORD. -/
def kFunc (w : Nat) : Nat := natBits w 26 21

/-- The fields of a word (Table 06.2). -/
def kFields (w : Nat) : VFields :=
  { w := natBits w 57 56, pred := natBits w 55 53, pen := natBits w 52 52, zm := natBits w 51 51, vd := natBits w 50 46,
    va := natBits w 45 41, vb := natBits w 40 36, vc := natBits w 35 31, qs := natBits w 30 29, fn := natBits w 28 27,
    ss := natBits w 20 16, imm := natBits w 15 0 }

/-- A word's major opcode, function and fields; none where the opcode or the function is reserved (R178). -/
def kdecode (w : Nat) : Option (Nat × Nat × VFields) :=
  if kernelRows.any (fun r => r.1 == kMajor w && r.2.contains (kFunc w)) then some (kMajor w, kFunc w, kFields w) else none

/-- The word of a major opcode, a function and fields (Table 06.2). -/
def kword (m n : Nat) (f : VFields) : Nat :=
  m % 64 * 2 ^ 58 + f.w % 4 * 2 ^ 56 + f.pred % 8 * 2 ^ 53 + f.pen % 2 * 2 ^ 52 + f.zm % 2 * 2 ^ 51 + f.vd % 32 * 2 ^ 46 +
    f.va % 32 * 2 ^ 41 + f.vb % 32 * 2 ^ 36 + f.vc % 32 * 2 ^ 31 + f.qs % 4 * 2 ^ 29 + f.fn % 4 * 2 ^ 27 + n % 64 * 2 ^ 21 +
    f.ss % 32 * 2 ^ 16 + f.imm % 2 ^ 16

/-- Major opcode, function and fields of a kernel instruction; none for any other command. -/
def kernelCode (i : Instr) : Option (Nat × Nat × VFields) :=
  match i with
  | .vadd _ f => some (0x00, 0x00, f.cut)
  | .vsub _ f => some (0x00, 0x01, f.cut)
  | .vand _ f => some (0x00, 0x04, f.cut)
  | .vor _ f => some (0x00, 0x05, f.cut)
  | .vxor _ f => some (0x00, 0x06, f.cut)
  | .vandn _ f => some (0x00, 0x07, f.cut)
  | .vminu _ f => some (0x00, 0x09, f.cut)
  | .vmaxu _ f => some (0x00, 0x0A, f.cut)
  | .vmin _ f => some (0x00, 0x0B, f.cut)
  | .vmax _ f => some (0x00, 0x0C, f.cut)
  | .vneg _ f => some (0x00, 0x0D, f.cut)
  | .vsel _ f => some (0x00, 0x0E, f.cut)
  | .vaddi _ f => some (0x00, 0x0F, f.cut)
  | .vsll _ f => some (0x01, 0x00, f.cut)
  | .vsrl _ f => some (0x01, 0x01, f.cut)
  | .vsra _ f => some (0x01, 0x02, f.cut)
  | .vrol _ f => some (0x01, 0x03, f.cut)
  | .vsllv _ f => some (0x01, 0x04, f.cut)
  | .vsrlv _ f => some (0x01, 0x05, f.cut)
  | .vsrav _ f => some (0x01, 0x06, f.cut)
  | .vrolv _ f => some (0x01, 0x07, f.cut)
  | .vceq _ f => some (0x02, 0x00, f.cut)
  | .vcne _ f => some (0x02, 0x01, f.cut)
  | .vcltu _ f => some (0x02, 0x02, f.cut)
  | .vcgeu _ f => some (0x02, 0x03, f.cut)
  | .vclt _ f => some (0x02, 0x04, f.cut)
  | .vcge _ f => some (0x02, 0x05, f.cut)
  | .vmull _ f => some (0x03, 0x00, f.cut)
  | .vmulhu _ f => some (0x03, 0x01, f.cut)
  | .vmulhs _ f => some (0x03, 0x02, f.cut)
  | .vmulweu _ f => some (0x03, 0x04, f.cut)
  | .vmulwou _ f => some (0x03, 0x05, f.cut)
  | .vmulwes _ f => some (0x03, 0x06, f.cut)
  | .vmulwos _ f => some (0x03, 0x07, f.cut)
  | .vmacl _ f => some (0x03, 0x08, f.cut)
  | .vdot4b _ f => some (0x04, 0x00, f.cut)
  | .vdot4bs _ f => some (0x04, 0x01, f.cut)
  | .vdot2h _ f => some (0x04, 0x02, f.cut)
  | .vdot2hs _ f => some (0x04, 0x03, f.cut)
  | .vdot4h _ f => some (0x04, 0x04, f.cut)
  | .vdot4hs _ f => some (0x04, 0x05, f.cut)
  | .vclmul _ f => some (0x05, 0x00, f.cut)
  | .vclmulx _ f => some (0x05, 0x01, f.cut)
  | .vpermv _ f => some (0x06, 0x00, f.cut)
  | .vslideup _ f => some (0x06, 0x01, f.cut)
  | .vslideups _ f => some (0x06, 0x02, f.cut)
  | .vslidedn _ f => some (0x06, 0x03, f.cut)
  | .vslidedns _ f => some (0x06, 0x04, f.cut)
  | .vbcast _ f => some (0x06, 0x05, f.cut)
  | .vziplo _ f => some (0x06, 0x06, f.cut)
  | .vziphi _ f => some (0x06, 0x07, f.cut)
  | .vunzipe _ f => some (0x06, 0x08, f.cut)
  | .vunzipo _ f => some (0x06, 0x09, f.cut)
  | .vtr32 _ f => some (0x07, 0x00, f.cut)
  | .vtr8 _ f => some (0x07, 0x01, f.cut)
  | .vpopc _ f => some (0x07, 0x02, f.cut)
  | .vbrev _ f => some (0x07, 0x03, f.cut)
  | .vbitsel _ f => some (0x07, 0x06, f.cut)
  | .madd _ f => some (0x08, 0x00, f.cut)
  | .msub _ f => some (0x08, 0x01, f.cut)
  | .mneg _ f => some (0x08, 0x02, f.cut)
  | .mred _ f => some (0x08, 0x03, f.cut)
  | .mmulm _ f => some (0x08, 0x04, f.cut)
  | .mmulb _ f => some (0x08, 0x05, f.cut)
  | .mtom _ f => some (0x08, 0x06, f.cut)
  | .mfromm _ f => some (0x08, 0x07, f.cut)
  | .mcsub _ f => some (0x08, 0x08, f.cut)
  | .mcenter _ f => some (0x08, 0x09, f.cut)
  | .bfct _ f => some (0x09, 0x00, f.cut)
  | .bfgs _ f => some (0x09, 0x01, f.cut)
  | .bfcti _ f => some (0x09, 0x02, f.cut)
  | .bfgsi _ f => some (0x09, 0x03, f.cut)
  | .vmov _ f => some (0x0A, 0x00, f.cut)
  | .vmovi _ f => some (0x0A, 0x01, f.cut)
  | .vmovs _ f => some (0x0A, 0x02, f.cut)
  | .vext _ f => some (0x0A, 0x03, f.cut)
  | .vins _ f => some (0x0A, 0x04, f.cut)
  | .vzero _ f => some (0x0A, 0x05, f.cut)
  | .pand _ f => some (0x0B, 0x00, f.cut)
  | .por _ f => some (0x0B, 0x01, f.cut)
  | .pxor _ f => some (0x0B, 0x02, f.cut)
  | .pnot _ f => some (0x0B, 0x03, f.cut)
  | .pset _ f => some (0x0B, 0x04, f.cut)
  | .pcnt _ f => some (0x0B, 0x05, f.cut)
  | .qset _ f => some (0x0C, 0x00, f.cut)
  | .qrd _ f => some (0x0C, 0x01, f.cut)
  | .s2init _ f => some (0x20, 0x00, f.cut)
  | .s2abs _ f => some (0x20, 0x01, f.cut)
  | .s2fin _ f => some (0x20, 0x02, f.cut)
  | .s2lds _ f => some (0x20, 0x03, f.cut)
  | .s2sts _ f => some (0x20, 0x04, f.cut)
  | .kinit _ f => some (0x21, 0x00, f.cut)
  | .kabs _ f => some (0x21, 0x01, f.cut)
  | .kfin _ f => some (0x21, 0x02, f.cut)
  | .ksqz _ f => some (0x21, 0x03, f.cut)
  | .kperm _ f => some (0x21, 0x04, f.cut)
  | .klds _ f => some (0x21, 0x05, f.cut)
  | .ksts _ f => some (0x21, 0x06, f.cut)
  | .akey _ f => some (0x22, 0x00, f.cut)
  | .aenc _ f => some (0x22, 0x01, f.cut)
  | .adec _ f => some (0x22, 0x02, f.cut)
  | .actr _ f => some (0x22, 0x03, f.cut)
  | .mrd _ f => some (0x23, 0x00, f.cut)
  | .mstat _ f => some (0x23, 0x01, f.cut)
  | .vld _ f => some (0x28, 0x00, f.cut)
  | .vlds _ f => some (0x28, 0x01, f.cut)
  | .vldff _ f => some (0x28, 0x02, f.cut)
  | .vldsh _ f => some (0x28, 0x03, f.cut)
  | .vst _ f => some (0x29, 0x00, f.cut)
  | .vsts _ f => some (0x29, 0x01, f.cut)
  | .vstsh _ f => some (0x29, 0x03, f.cut)
  | .vgather _ f => some (0x2A, 0x00, f.cut)
  | .vscatter _ f => some (0x2B, 0x00, f.cut)
  | .keyload _ f => some (0x2C, 0x00, f.cut)
  | .sadd _ f => some (0x30, 0x00, f.cut)
  | .ssub _ f => some (0x30, 0x01, f.cut)
  | .sand _ f => some (0x30, 0x02, f.cut)
  | .sor _ f => some (0x30, 0x03, f.cut)
  | .sxor _ f => some (0x30, 0x04, f.cut)
  | .ssll _ f => some (0x30, 0x05, f.cut)
  | .ssrl _ f => some (0x30, 0x06, f.cut)
  | .ssra _ f => some (0x30, 0x07, f.cut)
  | .smul _ f => some (0x30, 0x08, f.cut)
  | .saddi _ f => some (0x30, 0x09, f.cut)
  | .slui _ f => some (0x30, 0x0A, f.cut)
  | .sltu _ f => some (0x30, 0x0B, f.cut)
  | .slt _ f => some (0x30, 0x0C, f.cut)
  | .sld _ f => some (0x31, 0x00, f.cut)
  | .sst _ f => some (0x31, 0x01, f.cut)
  | .branch _ f => some (0x32, 0x00, f.cut)
  | .beqz _ f => some (0x32, 0x01, f.cut)
  | .bnez _ f => some (0x32, 0x02, f.cut)
  | .bltz _ f => some (0x32, 0x03, f.cut)
  | .bgez _ f => some (0x32, 0x04, f.cut)
  | .loopOp _ f => some (0x33, 0x00, f.cut)
  | .callOp _ f => some (0x34, 0x00, f.cut)
  | .retOp _ f => some (0x34, 0x01, f.cut)
  | .yieldOp _ f => some (0x35, 0x00, f.cut)
  | .endOp _ f => some (0x35, 0x01, f.cut)
  | .fence _ f => some (0x35, 0x02, f.cut)
  | .nop _ f => some (0x35, 0x03, f.cut)
  | .sparam _ f => some (0x35, 0x05, f.cut)
  | .tagv _ f => some (0x38, 0x00, f.cut)
  | .tags _ f => some (0x38, 0x01, f.cut)
  | .tagrd _ f => some (0x38, 0x02, f.cut)
  | .split _ f => some (0x39, 0x00, f.cut)
  | .refresh _ f => some (0x39, 0x01, f.cut)
  | .gmulq _ f => some (0x3A, 0x00, f.cut)
  | .gand _ f => some (0x3A, 0x01, f.cut)
  | .ga2b _ f => some (0x3A, 0x02, f.cut)
  | .gb2a _ f => some (0x3A, 0x03, f.cut)
  | .declv _ f => some (0x3B, 0x00, f.cut)
  | .decls _ f => some (0x3B, 0x01, f.cut)
  | _ => none

end Sys2Proof.Machine
end

