-- ==== Sys2Proof/Machine/Micro.lean ====
section
/-! DEFINITION. Control stores, golden copies and kernel stores: microwords and their parity, the next address, and what a
fetch detects (R212 to R217). What a store holds is what was loaded into it, except in the bits that have changed since.
-/

namespace Sys2Proof.Machine

/-! ## Microwords (R212, R213) -/

/-- The fields of a microword's data bits (Table 07.5). -/
structure Micro where
  next : Nat
  nsel : Nat
  mway : Nat
  /-- CSEL0 to CSEL3. -/
  csel : List Nat
  dop : Nat
  dw : Nat
  /-- Destination, then sources A, B and C. -/
  dreg : List Nat
  dpred : Nat
  dqs : Nat
  unit : Nat
  sop : Nat
  lit : Nat
  mem : Nat
  site : Nat
deriving DecidableEq, Repr

/-- The fields of 144 data bits. -/
def microOf (w : Nat) : Micro :=
  { next := natBits w 143 130, nsel := natBits w 129 127, mway := natBits w 126 124
    csel := (List.range 4).map (fun i => natBits w (105 + 6 * i) (100 + 6 * i))
    dop := natBits w 99 86, dw := natBits w 85 84, dreg := (List.range 4).map (fun i => natBits w (83 - 5 * i) (79 - 5 * i))
    dpred := natBits w 63 60, dqs := natBits w 59 58, unit := natBits w 57 50, sop := natBits w 49 30, lit := natBits w 29 14
    mem := natBits w 13 8, site := natBits w 7 2 }

/-- A microword breaks R214: a reserved NSEL or MWAY, or ones in NEXT where a multi-way branch puts its conditions. -/
def Micro.malformed (m : Micro) : Bool := m.nsel == 7 || decide (5 ≤ m.mway) || (m.nsel == 1 && m.next % 2 ^ m.mway != 0)

/-- Parity bit of data group `g`: the group and its bit hold an odd number of ones. -/
def parityBit (d g : Nat) : Nat := 1 - popCount 18 (d >>> (18 * g)) % 2

/-- The 152 bits of a word from its 144 data bits. -/
def withParity (d : Nat) : Nat := d % 2 ^ 144 + ((List.range 8).map (fun g => parityBit (d % 2 ^ 144) g * 2 ^ (144 + g))).sum

/-- The groups of a word that fail, bit `g` for group `g`. -/
def badGroups (w : Nat) : Nat :=
  ((List.range 8).map (fun g => if (popCount 18 (w >>> (18 * g)) + (w >>> (144 + g)) % 2) % 2 = 0 then 2 ^ g else 0)).sum

/-- A word of a component's microcode. The image check admits no malformed word (R214), so none reaches a store. -/
def microData (comp : Bytes) (a : Nat) : Nat :=
  let w := (Config.microWord comp a).toNat
  if (microOf w).malformed then 0 else w

/-- The microcode of a component has a malformed word: the firmware image check refuses it (R214). -/
def microBad (comp : Bytes) : Bool := (List.range 16384).any (fun a => (microOf (Config.microWord comp a).toNat).malformed)

/-! ## The stores (R215, R217) -/

def State.seqOf (s : State) (v : Nat) : MicroSeq := sparseGet MicroSeq.idle s.seqs v
def State.setSeq (s : State) (v : Nat) (q : MicroSeq) : State := { s with seqs := sparseSet MicroSeq.idle s.seqs v q }

/-- The bits of a control-store word of a core that have changed since it was written. -/
def State.ctlBits (s : State) (v a : Nat) : Nat := sparseGet 0 (s.seqOf v).ctl a

/-- A control-store word of a core: the running image's, but for the bits that have changed. -/
def State.ctlWord (s : State) (v a : Nat) : Nat := withParity (microData s.boot.micro a) ^^^ s.ctlBits v a

/-- The bits of a golden-copy word and its check bits that have changed since it was written. -/
def State.goldBits (s : State) (cl a : Nat) : Nat := sparseGet 0 (sparseGet [] s.gold cl) a

/-- Bits change in a control-store word, a kernel-store word or a golden-copy word. -/
def MicroSeq.flipCtl (q : MicroSeq) (a m : Nat) : MicroSeq := { q with ctl := sparseSet 0 q.ctl a (sparseGet 0 q.ctl a ^^^ m % 2 ^ 152) }
def MicroSeq.flipKrn (q : MicroSeq) (a m : Nat) : MicroSeq := { q with krn := sparseSet 0 q.krn a (sparseGet 0 q.krn a ^^^ m % 2 ^ 72) }
def State.flipGold (s : State) (cl a m : Nat) : State :=
  { s with gold := sparseSet [] s.gold cl (sparseSet 0 (sparseGet [] s.gold cl) a (s.goldBits cl a ^^^ m % 2 ^ 161)) }

/-- The words of a golden copy in which one bit has changed, which SECDED corrects, and those in which more have,
ascending. -/
def State.goldOnes (s : State) (cl : Nat) : List Nat :=
  ((sparseGet [] s.gold cl).filter (fun e => popCount 161 e.2 == 1)).map (·.1)
def State.goldMany (s : State) (cl : Nat) : List Nat :=
  ((sparseGet [] s.gold cl).filter (fun e => decide (2 ≤ popCount 161 e.2))).map (·.1)

/-- What the read of a control-store word detects: cause 1 with the failing groups, or 4 (Table 07.8). A word in which no
bit has changed is good. -/
def State.ctlFault (s : State) (v a : Nat) : Option (Nat × Nat) :=
  if s.ctlBits v a = 0 then none
  else if badGroups (s.ctlWord v a) ≠ 0 then some (1, badGroups (s.ctlWord v a))
  else if (microOf (s.ctlWord v a % 2 ^ 144)).malformed then some (4, 0)
  else none

/-- A core's control store is written from its cluster's golden copy; a kernel store from the MP's copies. -/
def State.reloadCtl (s : State) (v : Nat) : State := s.setSeq v { s.seqOf v with ctl := [] }
def State.reloadKrn (s : State) (v : Nat) : State := s.setSeq v { s.seqOf v with krn := [] }

end Sys2Proof.Machine
end

