-- ==== Sys2Proof/Machine/Deckle.lean ====
section
/-!
DEFINITION. The deckles: master IDs, where each stands, refusals, region words, the loading of the Uzothal rules and the held
accesses that an alarm refuses (R434, R436, R437, R440 to R442, R489).
-/

namespace Sys2Proof.Machine

/-- The master ID of a master (Table 16.1). -/
def masterId : Master → Nat
  | .pf0 => 0x1000
  | .mp => 0x2000
  | .dbg => 0xC000

def masterClass (m : Nat) : Nat := m / 4096 % 16

def State.dklAt (s : State) (k : Nat) : Dkl := sparseGet Dkl.boot s.dkl k
def State.setDkl (s : State) (k : Nat) (x : Dkl) : State := { s with dkl := sparseSet Dkl.boot s.dkl k x }

/-- A deckle number of the part: instances 6 and 7 stand on die 0 only (R436). -/
def State.hasDeckle (s : State) (k : Nat) : Bool := decide (k / 8 < s.dies) && (decide (k % 8 < 6) || k / 8 == 0)

/-- The deckle that guards an address of BAR0, and the offset in its target; `none` where nothing is guarded (R4, R489). -/
def State.deckleOf (s : State) (addr : Nat) : Option (Nat × Nat) :=
  if addr < 0x1000 || (0x10000 ≤ addr && addr < 0x50000) then some (6, addr)
  else if addr < 0x100000 then none
  else if addr < 0x900000 then
    let d := (addr - 0x100000) / 0x100000
    let rel := addr % 0x100000
    if s.dies ≤ d || 0xA0000 ≤ rel then none
    else if 0x80000 ≤ rel && rel < 0x90000 then some (d * 8 + 3 + (rel - 0x80000) / 0x8000, rel % 0x8000)
    else some (d * 8 + 5, rel)
  else if 0x1000000 ≤ addr && addr < 0x1000000 + 0x400 * s.part.rings then some (6, addr)
  else if 0x2000000 ≤ addr && addr < 0x2000000 + 0x1000 * s.part.tenants then some (6, addr)
  else if 0x2400000 ≤ addr && addr < 0x2410000 then some (6, addr)
  else none

/-- The BAR0 address of an offset in the target of instance 3 to 6. -/
def bar0Of (k off : Nat) : Nat :=
  match k % 8 with
  | 3 => 0x180000 + k / 8 * 0x100000 + off
  | 4 => 0x188000 + k / 8 * 0x100000 + off
  | 5 => 0x100000 + k / 8 * 0x100000 + off
  | _ => off

/-- A refused access or part is counted, and DKL_LAST names it (R440). -/
def State.countRefusal (s : State) (k m off : Nat) : State :=
  (s.fadd .DKL_REFUSED_COUNT k 1).setReg .DKL_LAST k (BitVec.ofNat 64 (off % 2 ^ 48 * 2 ^ 16 + m))

/-- An MP access is refused: the mailbox command that meets it ends (Table 16.4). -/
def State.mpRefused (s : State) (m : Nat) : State :=
  if m = masterId .mp && s.mbx.phase = .running then s.respond 0xFF 0 [] else s

/-- A part is refused with its record of Table 16.4; `bus` is the address that the master gave. -/
def State.refusePart (s : State) (k m : Nat) (write : Bool) (off bus : Nat) : State :=
  let s := s.countRefusal k m off
  let s := if masterClass m = 0xC then s.event 0x2012 6 (k / 8) 0xC (bus % 2 ^ 32) (bus / 2 ^ 32 % 2 ^ 16) (if write then 2 else 1)
    else if masterClass m = 1 && (s.dklAt k).quiet then s
    else s.event 0x4001 3 (k / 8) 0xC k (m + bit write * 2 ^ 16) (off % 2 ^ 32)
  s.mpRefused m

/-! ## Regions (R437) -/

/-- Word `w` of region `r`: base, size, four read entries, four write entries. A region that Uzothal loaded and nobody has
rewritten holds words that are not published. -/
def State.regionWord (s : State) (k r w : Nat) : Nat :=
  let x := s.dklAt k
  let i := k * 16 + r
  if x.loaded && !x.rewritten.contains r then Config.uzWord k (r * 10 + w) % 2 ^ 32
  else if w = 0 then (s.reg .DKL_RGN_BASE i).toNat
  else if w = 1 then (s.reg .DKL_RGN_SIZE i).toNat
  else if w < 6 then (s.reg .DKL_RGN_RD (i * 4 + w - 2)).toNat
  else (s.reg .DKL_RGN_WR (i * 4 + w - 6)).toNat

/-- A region register written in the register file. -/
def State.putRegionWord (s : State) (k r w v : Nat) : State :=
  let i := k * 16 + r
  let b := BitVec.ofNat 64 (v % 2 ^ 32)
  if w = 0 then s.setReg .DKL_RGN_BASE i b
  else if w = 1 then s.setReg .DKL_RGN_SIZE i b
  else if w < 6 then s.setReg .DKL_RGN_RD (i * 4 + w - 2) b
  else s.setReg .DKL_RGN_WR (i * 4 + w - 6) b

/-- A word of a region written while EN is clear: the words that stood stay as they were. -/
def State.writeRegion (s : State) (k r w v : Nat) : State :=
  let old := (List.range 10).map (s.regionWord k r)
  let x := s.dklAt k
  let s := if x.loaded && !x.rewritten.contains r then
      (old.zipIdx).foldl (fun s e => s.putRegionWord k r e.2 e.1)
        (s.setDkl k { x with rewritten := r :: x.rewritten })
    else s
  s.putRegionWord k r w v

/-- Regions of a size other than zero. -/
def State.enabledRegions (s : State) (k : Nat) : Nat := ((List.range 16).filter (fun r => s.regionWord k r 1 != 0)).length

/-- The rules stand again: event 0x4003 (R441). -/
def State.rulesUpdated (s : State) (k : Nat) : State := s.event 0x4003 1 (k / 8) 0xC k (s.enabledRegions k) 0

/-- A deckle takes the Uzothal 3.2 rules from its die agent (R442): the boot rule ends. Instance 7 has no rules to load. -/
def State.loadRules (s : State) (k : Nat) : State :=
  if k % 8 = 7 || !s.flag .DKL_CTL_BOOT_RULE k then s
  else ((s.fset .DKL_CTL_BOOT_RULE k 0).setDkl k { s.dklAt k with loaded := true, rewritten := [] }).rulesUpdated k

/-- Every deckle of a die. -/
def State.loadDieRules (s : State) (d : Nat) : State :=
  ((List.range 8).filter (fun i => s.hasDeckle (d * 8 + i))).foldl (fun s i => s.loadRules (d * 8 + i)) s

/-! ## Held accesses (R441, R442) -/

/-- A refused read returns zeros; the debug master sees its response byte (Table 16.4). -/
def State.answerRefused (s : State) (m : Nat) (write : Bool) (size : Nat) : State :=
  if masterClass m = 0xC then s.emitLocal (.debug 0 1)
  else if write then s
  else s.emitLocal (.readReturn (List.replicate size 0))

/-- The held accesses of a deckle, and HELD with them. -/
def State.setHeld (s : State) (k : Nat) (l : List HeldAccess) : State :=
  (s.setDkl k { s.dklAt k with held := l }).fset .DKL_STAT_HELD k l.length

/-- One held access is refused as a whole. -/
def State.refuseHeld (s : State) (k : Nat) (h : HeldAccess) : State :=
  (s.refusePart k h.master h.write (((s.deckleOf h.addr).map (·.2)).getD 0) h.bus).answerRefused h.master h.write h.size

/-- ERASE or LOCKDOWN refuses every held access, and those that wait for one (R442). -/
def State.refuseAllHeld (s : State) : State :=
  s.dkl.foldl (fun s e =>
    if e.2.held.isEmpty && e.2.behind.isEmpty then s
    else
      let s := s.setHeld e.1 []
      (e.2.held ++ e.2.behind).foldl (fun s h => s.refuseHeld e.1 h) (s.setDkl e.1 { s.dklAt e.1 with behind := [] })) s

/-- A held access that reaches its limit, or an access that finds the hold full: 1 time-out, 2 hold full (R441). -/
def State.holdRefused (s : State) (k : Nat) (h : HeldAccess) (why : Nat) : State :=
  let s := (s.countRefusal k h.master (((s.deckleOf h.addr).map (·.2)).getD 0)).fadd .DKL_HOLD_TO_COUNT k 1
  ((s.event 0x4002 4 (k / 8) 0xC k h.master why).answerRefused h.master h.write h.size).mpRefused h.master

/-- The accesses held for 2 µs are refused (R441). -/
def State.holdTimeout (s : State) (k : Nat) : State :=
  let l := (s.dklAt k).held
  let due := l.filter (fun h => decide (2000 ≤ s.since h.at_))
  if due.isEmpty then s
  else due.foldl (fun s h => s.holdRefused k h 1) (s.setHeld k (l.filter (fun h => !decide (2000 ≤ s.since h.at_))))

end Sys2Proof.Machine
end

