-- ==== Sys2Proof/Machine/Accept.lean ====
section
/-!
DEFINITION. Ready entries and the checks of a submission entry at acceptance (R123, R142, R143).
-/

namespace Sys2Proof.Machine

/-! ## Ready entries (R142) -/

/-- Jobs that hold a ready entry of a die. -/
def State.readyJobs (s : State) (d : Nat) : List Job :=
  s.sched.jobs.filter (fun j => (j.phase == .ready || j.phase == .saved) && j.die == d)

/-- Whether a die has a free ready entry. -/
def State.entryFree (s : State) (d : Nat) : Bool := decide ((s.readyJobs d).length < 4096)

/-! ## Prefetched entries (R114, R123) -/

/-- A job record from a submission entry. -/
def newJob (id ti ring idx : Nat) (sqe : Bytes) : Job :=
  { id := id, ti := ti, ring := ring, sqIndex := idx, sqe := sqe, die := 0, phase := .ready, core := none, lie := none,
    order := (id : Int), attempts := 0, late := false, replayed := false, started := false, in0 := [], in1 := [],
    outSegs := [], outLen := 0, cost := 0, left := none, boundAt := 0, due := [], sentNo := 0, keyBytes := [], keyType := 0, keyUsage := 0,
    target := none, status := 0, detail := 0, result := [], newKey := none, refused := false, mirrorSeq := none, cqe := [], endTime := 0,
    rand := [], krefs := [], list1 := none }

/-- Check 1 of R123: reserved bits. The answer is the offset of the field. -/
def sqeReserved (b : Bytes) : Option Nat :=
  if natBits (sqeFlags b) 7 5 ≠ 0 || natBits (sqeFlags b) 15 10 ≠ 0 then some 2
  else if 2 ^ 14 ≤ leAt b 4 2 then some 4
  else if 2 ^ 11 ≤ sqeUsage b then some 6
  else none

/-- Check 5 of R123. -/
def sqeUsageOk (b : Bytes) : Bool :=
  match operOf (sqeOp b) with
  | none => sqeUsage b == 0
  | some o =>
    if o.byTarget then true
    else match o.creates with
      | some c => (keyTypeOf c).any (fun t => t.usageOk (sqeUsage b))
      | none => sqeUsage b == 0

/-- Check 6 of R123. -/
def sqeLists (b : Bytes) : Option Nat :=
  (List.range 3).findSome? (fun i =>
    if !sqeList b i then none
    else if sqeLen b i = 0 || 256 < sqeLen b i then some (40 + 4 * i)
    else if sqeAddr b i % 16 ≠ 0 then some (16 + 8 * i)
    else none)

/-- The checks of R123: status and DETAIL of the first that fails. -/
def State.acceptChecks (s : State) (r : Nat) (b : Bytes) : Option (Nat × Nat) :=
  match sqeReserved b with
  | some o => some (jInvalidParam, o)
  | none =>
    if !(s.boundCqs r).contains (sqeCq b) then some (jInvalidParam, 4)
    else if !(s.fget .RING_CFG_CLASS_MASK r).testBit (sqeClass b) then some (jClassDenied, 0)
    else if sqeClass b < 2 && sqeDeadline b = 0 then some (jInvalidParam, 56)
    else if !sqeUsageOk b then some (jInvalidParam, 6)
    else (sqeLists b).map (fun o => (jInvalidParam, o))

/-- The first prefetched entry of a ring. -/
def State.prefetched (s : State) (r : Nat) : Option Prefetched := s.sched.prefetch.find? (fun p => p.ring == r)

/-- The entry that heads a ring's prefetch waits for a ready entry: it passes the checks of R123 and no permitted die has one
free (R143). -/
def State.entryWaits (s : State) (r : Nat) : Bool :=
  match s.prefetched r with
  | none => false
  | some p => (s.acceptChecks r p.sqe).isNone && !(s.permittedDies (newJob 0 (s.ringOwner r) r p.idx p.sqe)).any s.entryFree

end Sys2Proof.Machine
end

