-- ==== Sys2Proof/Machine/Ring.lean ====
section
/-!
DEFINITION. Rings: states, enabling and disabling, header reads, arbitration of fetches, errors, held CQEs and the ring
commands (R107 to R133, R139 to R141), and the DMA errors of R77.
-/

namespace Sys2Proof.Machine

/-! ## Registers of a ring -/

/-- The register kinds of a ring's block. -/
def ringKinds : List RegKind :=
  [.RING_CFG, .RING_STATE, .RING_HDR_ADDR, .RING_BASE, .RING_ARB, .RING_INT, .RING_TIME, .RING_BIND, .RING_TIDX,
   .RING_DIDX, .RING_FETCH, .RING_OUTSTANDING, .RING_DL_FAULTS, .RING_DROPS, .RING_ERR_INFO]

/-- The ring's registers zeroised and its side state gone (R139). -/
def State.wipeRing (s : State) (r : Nat) : State :=
  let s := ringKinds.foldl (fun s k => s.clearRegs k r 1) s
  { s with rings := sparseDel s.rings r }

/-- Rings of a TI, in ring order. -/
def State.ringsOf (s : State) (ti : Nat) : List Nat :=
  (List.range s.part.rings).filter (fun r => s.ringLive r && s.ringOwner r == ti)

/-- Prefetched entries of a ring are discarded, and the FTX entries whose frames have not been read. -/
def State.discardPrefetch (s : State) (r : Nat) : State :=
  { s with sched := { s.sched with prefetch := s.sched.prefetch.filter (fun p => p.ring != r) }
           frames := { s.frames with tx := s.frames.tx.filter (fun f => f.ring != r || f.tagged) } }

/-! ## Errors (R133, Table 04.8) -/

abbrev errIndex : Nat := 1
abbrev errHeader : Nat := 2
abbrev errEntry : Nat := 3
abbrev errCqFull : Nat := 4
abbrev errPartner : Nat := 5
abbrev errErased : Nat := 6

/-- One ENABLED ring enters ERROR: fetching stops, prefetched entries go, the header is written, one message (R119). -/
def State.enterError (s : State) (r code idx : Nat) : State :=
  if s.ringState r ≠ ringEnabled then s
  else
    let s := (s.fset .RING_STATE_STATE r ringError).fset .RING_STATE_ERR_CODE r code
    let s := if code = errIndex || code = errEntry then s.fset .RING_ERR_INFO_INDEX r idx else s
    let s := (s.discardPrefetch r).writeHeader r
    let s := (s.event 0x6032 4 0 3 r code (s.fget .RING_ERR_INFO_INDEX r)).vector 3
    s.fireChange r

/-- Held CQEs of an SQ are discarded, each job counted as ended without a CQE (R136). -/
def State.dropHeld (s : State) (sq : Nat) : State :=
  (s.boundCqs sq).foldl (fun s cq =>
    let x := s.ringx cq
    let n := (x.held.filter (fun h => h.sq == sq)).length
    let l := x.held.filter (fun h => h.sq != sq)
    let s := s.setRingx cq { x with held := l, fullFrom := if l.isEmpty then none else x.fullFrom }
    s.fset .RING_ERR_INFO_ENDED sq (satAdd 0xFFFF (s.fget .RING_ERR_INFO_ENDED sq) n)) s

/-- An SQ whose CQ has failed: ERROR with PARTNER, its jobs end without CQE, its held CQEs go (Table 04.10). -/
def State.partnerError (s : State) (sq : Nat) : State :=
  let s := s.enterError sq errPartner 0
  ((s.eachJob (fun j => j.ring == sq) State.endQuiet).dropHeld sq).mbxSettle

/-- A ring enters ERROR; a CQ takes its bound SQs with it. -/
def State.ringFail (s : State) (r code idx : Nat) : State :=
  if s.ringState r ≠ ringEnabled then s
  else
    let sqs := if s.ringType r = typeCq then s.boundSqs r else []
    sqs.foldl State.partnerError (s.enterError r code idx)

/-- CQ_FULL_TIMEOUT (R118): the clock of a CQ has reached its limit; it stands still while DMA is closed (R78). -/
def execCqFullTimeout (ring : Nat) (dt : Nat) (s : State) : Out :=
  let s := s.elapse dt
  match (s.ringx ring).fullFrom with
  | none => .next s
  | some t =>
    if s.dmaOpen && s.ringFree ring = 0 && s.fget .RING_TIME_FULL_MS ring * 1000000 ≤ s.since t then
      .next (s.ringFail ring errCqFull 0)
    else .next s

/-- The CQ_FULL clock after an entry has freed: it starts again while CQEs are held and no entry is free. -/
def State.restartFull (s : State) (r : Nat) : State :=
  let x := s.ringx r
  s.setRingx r { x with fullFrom := if !x.held.isEmpty && s.ringFree r == 0 then some s.time.ticks else none }

/-- HELD_CQE_WRITE (R117): the oldest held CQE goes into a free entry. -/
def execHeldCqeWrite (ring : Nat) (s : State) : Out :=
  let x := s.ringx ring
  match x.held with
  | [] => .next s
  | h :: t =>
    if s.ringLive ring && s.ringState ring == ringEnabled && decide (0 < s.ringFree ring) then
      .next ((((s.setRingx ring { x with held := t }).writeEntry ring h.cqe h.dl).restartFull ring).mbxSettle)
    else .next s

/-! ## Enabling (R130) -/

/-- The window check of a ring: header, entries, and an FRX ring's data array (R86, R302). -/
def State.ringWindows (s : State) (r : Nat) : Bool :=
  let ti := s.ringOwner r
  let fetched := s.ringFetched r
  let x := s.ringx r
  s.bufferOk ti (s.reg .RING_HDR_ADDR r).toNat 64 true true &&
    s.bufferOk ti (s.reg .RING_BASE r).toNat (s.ringSize r * s.entrySize r) fetched (!fetched) &&
    (s.ringType r != typeFrx || s.bufferOk ti x.data (s.ringSize r * 2 ^ x.slotLog) false true)

/-- Why an enable is refused, as the mailbox says it; `none` when it is not. -/
def State.enableRefusal (s : State) (r : Nat) (tenant : Bool) : Option Nat :=
  if s.ringState r ≠ ringDisabled then some mWrongMode
  else if tenant && s.flag .RING_STATE_ADMIN_HELD r then some mWrongMode
  else if !s.ringWindows r then some mBadParam
  else if s.ringType r = typeSq && (s.boundCqs r).any (fun c => s.ringState c != ringEnabled) then some mBusyObject
  else none

/-- The fetch pointer of an SQ or FTX ring goes to the published head and its credit to WEIGHT (R120, R130, R103). -/
def State.restartFetch (s : State) (r : Nat) : State :=
  if s.ringFetched r then
    (s.fset .RING_FETCH_INDEX r (s.ringx r).head).fset .RING_ARB_CREDIT r (s.fget .RING_ARB_WEIGHT r)
  else s

/-- A ring is enabled. -/
def State.enableRing (s : State) (r : Nat) (tenant : Bool) : State :=
  let s := (s.fset .RING_STATE_STATE r ringEnabled).fset .RING_STATE_ABORTING r 0
  ((s.restartFetch r).writeHeader r).event 0x6031 1 0 3 r 1 (bit tenant)

/-! ## Disabling (R131) -/

/-- A CQ may be disabled only when every SQ bound to it is DISABLED. -/
def State.disableRefused (s : State) (r : Nat) : Bool :=
  s.ringType r == typeCq && (s.boundSqs r).any (fun q => s.ringState q != ringDisabled)

/-- A disable begins, or is upgraded by ABORT; ERROR stays ERROR until its jobs have ended. -/
def State.startDisable (s : State) (r : Nat) (abort tenant : Bool) (seq : Option Nat) : State :=
  let x := s.ringx r
  let s := s.setRingx r { x with disabling := if x.disabling = 0 then (if tenant then 2 else 1) else x.disabling,
                                 reqSeq := match seq with
                                  | some q => some q
                                  | none => x.reqSeq }
  let s := if s.ringState r = ringEnabled then (s.fset .RING_STATE_STATE r ringDisabling).writeHeader r else s
  let s := if abort then s.fset .RING_STATE_ABORTING r 1 else s
  let s := s.discardPrefetch r
  if abort then s.eachJob (fun j => j.ring == r) State.abortJob else s

/-- The ring enters DISABLED: its flags are written, a tenant's request is acknowledged, one message (R119, R132). -/
def State.finishDisable (s : State) (r : Nat) : State :=
  let x := s.ringx r
  let how := if s.flag .RING_STATE_ABORTING r then 3 else 2
  let s := match x.reqSeq with
    | some q => s.setRingx r { x with disabling := 0, reqSeq := none, ackSeq := q, refused := false }
    | none => s.setRingx r { x with disabling := 0 }
  let s := ((s.fset .RING_STATE_STATE r ringDisabled).fset .RING_STATE_ABORTING r 0).fset .RING_STATE_ERR_CODE r 0
  let s := ((s.writeHeader r).fireChange r).event 0x6031 1 0 3 r how (bit (x.disabling == 2))
  s.mbxSettle

/-- Accepted work of a ring that has not ended: its jobs, and the frames read from an FTX ring (R311). -/
def State.ringBusy (s : State) (r : Nat) : Bool :=
  s.sched.jobs.any (fun j => j.ring == r) || s.frames.tx.any (fun f => f.ring == r)

/-- RING_DISABLE_COMPLETE (R131): the last accepted job of a ring being disabled has ended. -/
def execRingDisableComplete (ring : Nat) (s : State) : Out :=
  if (s.ringx ring).disabling ≠ 0 && !s.ringBusy ring then .next (s.finishDisable ring)
  else .next s

/-! ## Tenant control (R130 to R132) -/

/-- The CTL_SEQ of a TENANT_CTL word. -/
def ctlSeq (ctl : Nat) : Nat := natBits ctl 15 8

/-- A tenant control request is acknowledged. -/
def State.ctlAck (s : State) (r ctl : Nat) (refused : Bool) : State :=
  let s := (s.setRingx r { s.ringx r with ackSeq := ctlSeq ctl, refused := refused }).writeHeader r
  if refused then s.event 0x6034 3 0 3 r (ctlSeq ctl) (ctl % 256) else s

/-- A TENANT_CTL word is acted on. -/
def State.tenantCtl (s : State) (r ctl : Nat) : State :=
  let dis := ctl.testBit 0
  let en := ctl.testBit 2
  if dis == en then s.ctlAck r ctl true
  else if en then
    match s.enableRefusal r true with
    | some _ => s.ctlAck r ctl true
    | none => (s.enableRing r true).ctlAck r ctl false
  else if s.disableRefused r then s.ctlAck r ctl true
  else if s.ringState r = ringDisabled then s.ctlAck r ctl false
  else s.startDisable r (ctl.testBit 1) true (some (ctlSeq ctl))

/-- A live ring of a TI that is BOUND. -/
def State.ringBound (s : State) (r : Nat) : Bool := s.ringLive r && s.tiState (s.ringOwner r) == tiBound

/-- TENANT_ENABLE_REQUEST (R130). -/
def execTenantEnableRequest (ring ctl : Nat) (s : State) : Out :=
  if s.ringBound ring && ctl.testBit 2 && !ctl.testBit 0 then .next (s.tenantCtl ring ctl) else .next s

/-- TENANT_DISABLE_REQUEST (R131). -/
def execTenantDisableRequest (ring ctl : Nat) (s : State) : Out :=
  if s.ringBound ring && ctl.testBit 0 && !ctl.testBit 2 then .next (s.tenantCtl ring ctl) else .next s

/-- TENANT_CTL_REFUSED (R132): both requests in one, or neither. -/
def execTenantCtlRefused (ring ctl : Nat) (s : State) : Out :=
  if s.ringBound ring && ctl.testBit 0 == ctl.testBit 2 then .next (s.tenantCtl ring ctl) else .next s

/-! ## Header reads (R112, R113) -/

/-- The tenant index that a header read returned. -/
def State.takeIndex (s : State) (r tidx : Nat) : State :=
  if s.ringState r ≠ ringEnabled then s
  else
    let s := s.fset .RING_TIDX_INDEX r tidx
    if s.ringSize r < s.fillAt r (s.tidx r) then s.ringFail r errIndex (tidx % 2 ^ 32)
    else if s.ringFetched r then s
    else
      let x := s.ringx r
      let s := s.setRingx r { x with dropSeen := false }
      if s.ringFree r = 0 then s else s.restartFull r

/-- HEADER_READ_COMPLETE (R112). -/
def execHeaderReadComplete (ring tidx ctl : Nat) (s : State) : Out :=
  let x := s.ringx ring
  if !s.ringLive ring || !x.hdrBusy || x.hdrHeld then .next s
  else
    let s := s.setRingx ring (match x.hdrNext with
      | some c => { x with hdrBusy := true, hdrCtl := c, hdrHeld := !s.dmaOpen, hdrNext := none }
      | none => { x with hdrBusy := false, hdrCtl := false })
    let s := s.readHeader ring
    let s := if x.hdrCtl then s.tenantCtl ring ctl else s
    .next (s.takeIndex ring tidx)

/-- CONSUMER_INDEX_POLL (R112): a full consumer ring's index is read again. -/
def execConsumerIndexPoll (ring tidx : Nat) (dt : Nat) (s : State) : Out :=
  let s := s.elapse dt
  let x := s.ringx ring
  if s.ringLive ring && !s.ringFetched ring && s.ringState ring == ringEnabled && s.ringFree ring == 0 && s.dmaOpen &&
      (if s.ringType ring = typeCq then !x.held.isEmpty else x.dropSeen) then
    .next ((s.tiRead (s.ringOwner ring) (s.reg .RING_HDR_ADDR ring).toNat 4).takeIndex ring tidx)
  else .next s

/-! ## Fetching (R120, R142) -/

/-- Ready-list room of a ring's TI (R142). -/
def State.readyRoom (s : State) (ti : Nat) : Nat :=
  s.fget .TI_SCHED_READY_LIMIT ti -
    (s.sched.jobs.filter (fun j => j.ti == ti && (j.phase == .ready || j.phase == .saved))).length

/-- The smallest headroom of the CQs bound to an SQ (R116). -/
def State.cqRoom (s : State) (r : Nat) : Nat :=
  ((s.boundCqs r).map (fun c => s.ringFree c + 64 - s.reservation c)).foldl min (2 ^ 32)

/-- room(r) of R120. -/
def State.sqRoom (s : State) (r : Nat) : Nat := min (s.readyRoom (s.ringOwner r)) (s.cqRoom r)

/-- pending(r) of R120. -/
def State.sqPending (s : State) (r : Nat) : Nat := idxDiff (s.tidx r) (s.fget .RING_FETCH_INDEX r)

/-- A ring of the first tier: its class mask includes PROTECTION. -/
def State.tierOne (s : State) (r : Nat) : Bool := (s.fget .RING_CFG_CLASS_MASK r).testBit 0

/-- Tenants are served: SERVICE or MAINTENANCE, the fetch engine running, and no erase (Table 13.6, R382, R428). -/
def State.serving (s : State) : Bool :=
  (s.mode == modeService || s.mode == modeMaintenance) && s.flag .DEV_READY_FETCH 0 && s.prot.eraseAt.isNone

/-- eligible(r) of R120; a ring whose next entry found no ready entry is not fetched until one frees (R143). -/
def State.sqEligible (s : State) (r : Nat) : Bool :=
  s.serving && s.ringBound r && s.ringType r == typeSq && s.ringState r == ringEnabled && s.dmaOpen && decide (0 < s.sqPending r) &&
    decide (0 < s.sqRoom r) && !s.entryWaits r

/-- Weighted round robin over a list of eligible rings: the first with credit from `start` on, cyclically. -/
def State.wrrPick (s : State) (start : Nat) (l : List Nat) : Option Nat :=
  let c := l.filter (fun r => s.fget .RING_ARB_CREDIT r != 0)
  match c.find? (fun r => start ≤ r) with
  | some r => some r
  | none => c.head?

/-- Every ring of a tier gets its full credit. -/
def State.refill (s : State) (l : List Nat) : State :=
  l.foldl (fun s r => s.fset .RING_ARB_CREDIT r (s.fget .RING_ARB_WEIGHT r)) s

/-- The SQs of a tier. -/
def State.tierRings (s : State) (one : Bool) : List Nat :=
  (List.range s.part.rings).filter (fun r => s.ringLive r && s.ringType r == typeSq && s.tierOne r == one)

/-- The reads of `n` entries of an SQ or FTX ring from index `f`: in two where the array's end lies between (R108). -/
def State.readEntries (s : State) (r f n : Nat) : State :=
  let i := f % s.ringSize r
  let base := (s.reg .RING_BASE r).toNat
  let first := min n (s.ringSize r - i)
  (s.tiRead (s.ringOwner r) (base + 64 * i) (64 * first)).tiRead (s.ringOwner r) base (64 * (n - first))

/-- SQ_FETCH (R120): one visit of the fetch engine; `entries` is what host memory returns from the fetch pointer on. A read
that has not returned every entry of the visit fetches none. -/
def execSqFetch (entries : List Bytes) (s : State) : Out :=
  let one := (s.tierRings true).any s.sqEligible
  let all := s.tierRings one
  let el := all.filter s.sqEligible
  let start := if one then s.sched.lastTier1 else s.sched.lastTier2
  let (s, pick) := match s.wrrPick start el with
    | some r => (s, some r)
    | none => if el.isEmpty then (s, none) else
        let s := s.refill all
        (s, s.wrrPick start el)
  match pick with
  | none => .next s
  | some r =>
    let n := min (min (s.fget .RING_ARB_BURST r) (s.fget .RING_ARB_CREDIT r)) (min (s.sqPending r) (s.sqRoom r))
    if entries.length < n then .next s
    else
      let got := (entries.take n).map (fun e => sliceZ e 0 64)
      let f := s.fget .RING_FETCH_INDEX r
      let s := s.readEntries r f n
      let s := (s.fset .RING_FETCH_INDEX r (f + n)).fset .RING_ARB_CREDIT r (s.fget .RING_ARB_CREDIT r - n)
      let pre := got.zipIdx.map (fun e => ({ ring := r, idx := (f + e.2) % 2 ^ 32, sqe := e.1 } : Prefetched))
      let sc := { s.sched with prefetch := s.sched.prefetch ++ pre }
      .next { s with sched := if one then { sc with lastTier1 := r + 1 } else { sc with lastTier2 := r + 1 } }

/-- PUBLISHED_HEAD_WRITE (R114): the accepted head is written within 1 µs of the acceptance. -/
def execPublishedHeadWrite (ring : Nat) (dt : Nat) (s : State) : Out :=
  let s := s.elapse dt
  if s.ringLive ring && s.ringFetched ring then .next (s.publish ring) else .next s

/-! ## DMA errors (R77) -/

/-- A PCIe error on a tenant DMA is recorded. -/
def State.dmaEvent (s : State) (ti kind addr : Nat) : State := s.event 0x6012 4 0 0x0E ti kind addr

/-- A job ends with BUFFER_FAULT, counted (R86). -/
def State.bufferFault (s : State) (j : Job) (which : Nat) : State :=
  (s.countAlert .TI_BUF_FAULTS_COUNT j.ti).endJob j jBufferFault which false

/-- Whether the dispatcher reads what a DETAIL code of R126 names: In0, In1, or the list of a buffer (R70). -/
def Job.readsOf (j : Job) (which : Nat) : Bool :=
  match which with
  | 1 => sqeLen j.sqe 0 != 0
  | 2 => sqeLen j.sqe 1 != 0
  | 4 => sqeList j.sqe 0
  | 5 => sqeList j.sqe 1
  | 6 => sqeList j.sqe 2
  | _ => false

/-- A failed DMA read: of a job that runs, or of one that the dispatcher is about to bind (R70). -/
def State.dmaFail (s : State) (t : DmaTarget) (kind addr : Nat) : State :=
  match t with
  | .jobBuffer id which =>
    match s.job? id with
    | some j =>
      if j.running && !j.past then (s.dmaEvent j.ti kind addr).bufferFault j which
      else if j.phase = .ready && s.dmaOpen && j.readsOf which then
        match s.bestCore j j.die with
        | some p => ((s.dmaEvent j.ti kind addr).countAlert .TI_BUF_FAULTS_COUNT j.ti).refuseJob j p jBufferFault which
        | none => s
      else s
    | none => s
  | .header r =>
    if s.ringLive r then
      let s := s.setRingx r { s.ringx r with hdrBusy := false, hdrCtl := false, hdrHeld := false, hdrNext := none }
      (s.dmaEvent (s.ringOwner r) kind addr).ringFail r errHeader 0
    else s
  | .entry r idx => if s.ringLive r then (s.dmaEvent (s.ringOwner r) kind addr).ringFail r errEntry (idx % 2 ^ 32) else s

/-- DMA_READ_ERROR (R77): kind 1 Unsupported Request, 2 Completer Abort, 3 poisoned. -/
def execDmaReadError (target : DmaTarget) (kind addr : Nat) (s : State) : Out :=
  if 1 ≤ kind && kind ≤ 3 then .next (s.dmaFail target kind addr) else .next s

/-- The completion time-out in nanoseconds: the upper bound of the range that the field names; a reserved value acts as
0000b (R77). The ranges are those of the PCI Express base specification. -/
def ctoNs (v : Nat) : Nat :=
  match v with
  | 1 => 100000 | 2 => 10000000 | 5 => 55000000 | 6 => 210000000 | 9 => 900000000 | 10 => 3500000000
  | 13 => 13000000000 | 14 => 64000000000 | _ => 50000000

/-- DMA_COMPLETION_TIMEOUT (R77): a read has been outstanding for `dt`. -/
def execDmaCompletionTimeout (target : DmaTarget) (addr : Nat) (dt : Nat) (s : State) : Out :=
  let s := s.elapse dt
  if ctoNs s.host.ctoValue ≤ dt then .next (s.dmaFail target 4 addr) else .next s

/-- BUS_MASTER_DISABLE (R78): Bus Master Enable is cleared, or PF0 enters D3hot. -/
def execBusMasterDisable (d3 : Bool) (s : State) : Out :=
  let open' := s.dmaOpen
  let h := if d3 then { s.host with d3hot := true } else { s.host with busMaster := false }
  .next { s with host := { h with stoppedAt := if open' then some s.time.ticks else h.stoppedAt } }

/-- A write that has waited is issued with the PASID that its TI holds now (R75, R82). -/
def State.issued (s : State) (m : OutMsg) : OutMsg :=
  match m with
  | .memWrite (some p) (some ti) r a d => .memWrite (some ((s.pasidOf ti).getD p)) (some ti) r a d
  | _ => m

/-- DMA opens again: the waiting writes go first, in order, header reads that waited are issued, the CQ_FULL clocks run on,
and a command that waited for the writes answers. -/
def State.reopenDma (s : State) : State :=
  let t := s.host.stoppedAt.getD s.time.ticks
  let now := s.time.ticks
  let held := (s.rings.filter (fun e => e.2.hdrHeld)).map (·.1)
  let run := fun x : RingX => { x with hdrHeld := false, fullFrom := x.fullFrom.map (fun f => f + (now - max f t)) }
  let s := { s with out := s.out ++ s.host.waiting.map s.issued, host := { s.host with waiting := [], stoppedAt := none }
                    rings := s.rings.map (fun (e : Nat × RingX) => (e.1, run e.2)) }
  (held.foldl State.readHeader s).mbxSettle

/-- BUS_MASTER_ENABLE (R78). -/
def execBusMasterEnable (d3 : Bool) (s : State) : Out :=
  let was := s.dmaOpen
  let s := { s with host := if d3 then { s.host with d3hot := false } else { s.host with busMaster := true } }
  .next (if !was && s.dmaOpen then s.reopenDma else s)

/-! ## Ring commands (R139, R140, Tables 04.11, 04.12) -/

/-- A TI that commands may name: CREATED, BOUND or QUIESCED. -/
def State.tiLive (s : State) (n : Nat) : Bool := [tiCreated, tiBound, tiQuiesced].contains (s.tiState n)

/-- The ring that a command names at payload byte 0, or its refusal: beyond the variant, not allocated, or of a TI that
is not CREATED, BOUND or QUIESCED. -/
def State.namedRing (s : State) (p : Bytes) : Except (Nat × Nat) Nat :=
  let r := leAt p 0 4
  if s.part.rings ≤ r then .error (mBadParam, 0)
  else if !s.ringLive r || !s.tiLive (s.ringOwner r) then .error (mNotFound, 0)
  else .ok r

/-- A value, or its default when it is zero. -/
def orDefault (v d : Nat) : Nat := if v = 0 then d else v

/-- The lowest free ring number. -/
def State.freeRing (s : State) : Option Nat := (List.range s.part.rings).find? (fun r => !s.ringLive r)

/-- A CQ of a TI. -/
def State.cqOf (s : State) (c ti : Nat) : Bool :=
  decide (c < s.part.rings) && s.ringLive c && s.ringType c == typeCq && s.ringOwner c == ti

/-- An IMT entry named by a ring: none, or one assigned to the TI. -/
def State.imtOf (s : State) (n ti : Nat) : Bool :=
  n == 0xFFFF || (decide (n < 4096) && s.flag .IMT_CTL_ASSIGNED n && s.fget .IMT_CTL_OWNER n == ti)

/-- The checks of RING_CREATE that follow the ring number, by type, in payload order. -/
def State.createChecks (s : State) (p : Bytes) : List (Bool × Nat × Nat) :=
  let ti := leAt p 0 2
  let typ := byteAt p 2
  let z := fun a n => (!allZero (sliceZ p a n), mBadParam, a)
  let hdr := leAt p 8 8
  let base := leAt p 16 8
  let size := 2 ^ byteAt p 3 * (if typ = typeSq || typ = typeFtx then 64 else 32)
  [(decide (hdr % 64 ≠ 0) || (decide (base < hdr + 64) && decide (hdr < base + size)), mBadParam, 8),
   (decide (base % 4096 ≠ 0), mBadParam, 16)] ++
  (match typ with
   | 0 =>
     [(decide (64 < byteAt p 25), mBadParam, 25), (decide (16 ≤ byteAt p 26), mBadParam, 26),
      (decide (4 ≤ byteAt p 27), mBadParam, 27), (!s.cqOf (leAt p 28 2) ti, mBadParam, 28)] ++
     [30, 32, 34].map (fun o => (leAt p o 2 != 0xFFFF && !s.cqOf (leAt p o 2) ti, mBadParam, o)) ++ [z 36 12]
   | 1 =>
     [(!s.imtOf (leAt p 24 2) ti, mBadParam, 24), z 27 1, (decide (1000 < leAt p 28 2), mBadParam, 28),
      (decide (10000 < leAt p 30 2), mBadParam, 30), z 32 16]
   | 2 =>
     [(!s.imtOf (leAt p 24 2) ti, mBadParam, 24),
      (byteAt p 27 != 0 && !(7 ≤ byteAt p 27 && byteAt p 27 ≤ 14), mBadParam, 27),
      (decide (1000 < leAt p 28 2), mBadParam, 28), z 30 2, (decide (leAt p 32 8 % 4096 ≠ 0), mBadParam, 32), z 40 8]
   | _ =>
     [(decide (64 < byteAt p 25), mBadParam, 25), z 26 2,
      (leAt p 28 2 != 0xFFFF && !s.cqOf (leAt p 28 2) ti, mBadParam, 28), z 30 18])

/-- The registers of a new ring. -/
def State.makeRing (s : State) (r : Nat) (p : Bytes) : State :=
  let ti := leAt p 0 2
  let typ := byteAt p 2
  let s := s.wipeRing r
  let s := ((s.fset .RING_CFG_OWNER r ti).fset .RING_CFG_LOG2_SIZE r (byteAt p 3)).fset .RING_CFG_TYPE r typ
  let s := s.fset .RING_CFG_ALLOCATED r 1
  let s := (s.setReg .RING_HDR_ADDR r (BitVec.ofNat 64 (leAt p 8 8))).setReg .RING_BASE r (BitVec.ofNat 64 (leAt p 16 8))
  let arb := fun s : State => (s.fset .RING_ARB_WEIGHT r (orDefault (byteAt p 24) 16)).fset .RING_ARB_BURST r (orDefault (byteAt p 25) 8)
  let int := fun s : State =>
    let s := if leAt p 24 2 = 0xFFFF then s else (s.fset .RING_INT_IMT_VALID r 1).fset .RING_INT_IMT r (leAt p 24 2)
    (s.fset .RING_INT_COAL_COUNT r (orDefault (byteAt p 26) 1)).fset .RING_TIME_COAL_US r (leAt p 28 2)
  match typ with
  | 0 =>
    let s := (arb s).fset .RING_CFG_CLASS_MASK r (orDefault (byteAt p 26) 0b1100)
    let s := (s.fset .RING_CFG_LATE_POLICY r (byteAt p 27)).fset .RING_CFG_DL_INT r (byteAt p 27 / 2)
    let s := s.setReg .RING_BIND r (BitVec.ofNat 64 (leAt p 28 8))
    (s.boundCqs r).foldl (fun s c => s.fwrap .RING_BIND_CQ0 c 1) s
  | 1 => (int s).fset .RING_TIME_FULL_MS r (orDefault (leAt p 30 2) 10)
  | 2 => (int s).setRingx r { RingX.blank with data := leAt p 32 8, slotLog := orDefault (byteAt p 27) 11 }
  | _ => (arb s).setRingx r { RingX.blank with report := leAt p 28 2 }

/-- RING_CREATE (R140, R302). -/
def execRingCreate (s : State) : Out :=
  .next (s.cmd 0x0301 (fun s p =>
    let ti := leAt p 0 2
    let want := leAt p 4 4
    let first := firstFail ([(decide (s.part.tenants ≤ ti), mBadParam, 0), (!s.tiLive ti, mNotFound, 0),
      (decide (4 ≤ byteAt p 2), mBadParam, 2), (!(6 ≤ byteAt p 3 && byteAt p 3 ≤ 16), mBadParam, 3),
      (want != 0xFFFFFFFF && decide (s.part.rings ≤ want), mBadParam, 4),
      (want != 0xFFFFFFFF && s.ringLive want, mExists, 0)] ++ s.createChecks p ++
      [(decide (s.fget .TI_RING_QUOTA ti ≤ s.fget .TI_RING_USED ti), mNoResource, 1)])
    match first with
    | some (st, d) => s.respond st d []
    | none =>
      match (if want = 0xFFFFFFFF then s.freeRing else some want) with
      | none => s.respond mNoResource 1 []
      | some r =>
        let s := ((s.makeRing r p).fwrap .TI_RING_USED ti 1).event 0x6030 1 0 1 r ti 1
        s.respond mSuccess 0 (leBytes 4 r)))

/-- A ring leaves every subscriber list, every SEC_RING, the frames on their way and the ports that name it (R288). -/
def State.unsubscribe (s : State) (r : Nat) : State :=
  let off := fun x : Stream => { x with subs := x.subs.filter (· != r), secRing := if x.secRing = r then 0xFFFF else x.secRing }
  let fr := { s.frames with
    rx := s.frames.rx.map (fun f => { f with rings := f.rings.filter (· != r), seen := off f.seen })
    tx := s.frames.tx.filter (fun f => f.ring != r)
    past := s.frames.past.map (fun e => (e.1, e.2.1, off e.2.2)) }
  let s := { s with streams := s.streams.map (fun e => (e.1, off e.2)), frames := fr }
  (List.range (16 * s.dies)).foldl (fun s p =>
    let s := if s.fget .PORT_RINGS_DEFAULT_RING p = r then s.fset .PORT_RINGS_DEFAULT_RING p 0xFFFF else s
    if s.fget .PORT_RINGS_PTP_RING p = r then s.fset .PORT_RINGS_PTP_RING p 0xFFFF else s) s

/-- A ring returns to the pool. -/
def State.removeRing (s : State) (r : Nat) : State :=
  let ti := s.ringOwner r
  let s := s.unsubscribe r
  let s := if s.ringType r = typeSq then (s.boundCqs r).foldl (fun s c => s.fset .RING_BIND_CQ0 c (s.fget .RING_BIND_CQ0 c - 1)) s else s
  ((s.wipeRing r).fset .TI_RING_USED ti (s.fget .TI_RING_USED ti - 1)).event 0x6030 1 0 1 r ti 0

/-- RING_DESTROY (R139). -/
def execRingDestroy (s : State) : Out :=
  .next (s.cmd 0x0302 (fun s p =>
    match s.namedRing p with
    | .error (st, d) => s.respond st d []
    | .ok r =>
      if s.ringState r ≠ ringDisabled || (s.ringType r = typeCq && !(s.boundSqs r).isEmpty) then s.respond mBusyObject 1 []
      else (s.removeRing r).success))

/-- RING_ENABLE (R130). -/
def execRingEnable (s : State) : Out :=
  .next (s.cmd 0x0303 (fun s p =>
    match s.namedRing p with
    | .error (st, d) => s.respond st d []
    | .ok r =>
      match s.enableRefusal r false with
      | some st => s.respond st (if st = mBusyObject then 1 else 0) []
      | none => ((s.fset .RING_STATE_ADMIN_HELD r 0).enableRing r false).success))

/-- RING_DISABLE (R131): the response follows when the ring is DISABLED. -/
def execRingDisable (s : State) : Out :=
  .next (s.cmd 0x0304 (fun s p =>
    match s.namedRing p with
    | .error (st, d) => s.respond st d []
    | .ok r =>
      let fl := byteAt p 4
      if 4 ≤ fl then s.respond mBadParam 4 []
      else if !allZero (sliceZ p 5 3) then s.respond mBadParam 5 []
      else if s.disableRefused r then s.respond mBusyObject 1 []
      else
        let s := if fl.testBit 1 then s.fset .RING_STATE_ADMIN_HELD r 1 else s
        if s.ringState r = ringDisabled then s.success
        else (s.mbxWait [] (some r) none).startDisable r (fl.testBit 0) false none))

/-- RING_SET_ARB (R121): a credit above the new WEIGHT is clamped at once. -/
def execRingSetArb (s : State) : Out :=
  .next (s.cmd 0x0305 (fun s p =>
    match s.namedRing p with
    | .error (st, d) => s.respond st d []
    | .ok r =>
      let w := byteAt p 4
      if !s.ringFetched r then s.respond mBadParam 0 []
      else if w = 0 then s.respond mBadParam 4 []
      else if byteAt p 5 = 0 || 64 < byteAt p 5 then s.respond mBadParam 5 []
      else if !allZero (sliceZ p 6 2) then s.respond mBadParam 6 []
      else
        let s := (s.fset .RING_ARB_WEIGHT r w).fset .RING_ARB_BURST r (byteAt p 5)
        (s.fset .RING_ARB_CREDIT r (min (s.fget .RING_ARB_CREDIT r) w)).success))

/-- The field checks of RING_SET_INT by ring type (R139). -/
def State.setIntChecks (s : State) (r : Nat) (p : Bytes) : List (Bool × Nat × Nat) :=
  let t := s.ringType r
  let cons := t == typeCq || t == typeFrx
  [(if cons then !s.imtOf (leAt p 4 2) (s.ringOwner r) else leAt p 4 2 != 0xFFFF, mBadParam, 4),
   (!cons && byteAt p 6 != 0, mBadParam, 6),
   (if t = typeSq then decide (2 ≤ byteAt p 7) else byteAt p 7 != 0, mBadParam, 7),
   (if cons then decide (1000 < leAt p 8 2) else leAt p 8 2 != 0, mBadParam, 8),
   (if t = typeCq then decide (10000 < leAt p 10 2) else leAt p 10 2 != 0, mBadParam, 10)]

/-- RING_SET_INT (R139). -/
def execRingSetInt (s : State) : Out :=
  .next (s.cmd 0x0306 (fun s p =>
    match s.namedRing p with
    | .error (st, d) => s.respond st d []
    | .ok r =>
      match firstFail (s.setIntChecks r p) with
      | some (st, d) => s.respond st d []
      | none =>
        let t := s.ringType r
        let s := if t = typeSq then s.fset .RING_CFG_DL_INT r (byteAt p 7) else s
        let s := if t = typeCq || t = typeFrx then
            let none' := leAt p 4 2 == 0xFFFF
            let s := (s.fset .RING_INT_IMT_VALID r (bit (!none'))).fset .RING_INT_IMT r (if none' then 0 else leAt p 4 2)
            (s.fset .RING_INT_COAL_COUNT r (orDefault (byteAt p 6) 1)).fset .RING_TIME_COAL_US r (leAt p 8 2)
          else s
        let s := if t = typeCq then s.fset .RING_TIME_FULL_MS r (orDefault (leAt p 10 2) 10) else s
        s.success))

end Sys2Proof.Machine
end

