-- ==== Sys2Proof/Machine/Modes.lean ====
section
/-!
DEFINITION. The operating modes, LOCKDOWN and HOLD (R384 to R392, R136, R160), and the causes of LOCKDOWN that lie in the
digest comparators and in the inter-die links.
-/

namespace Sys2Proof.Machine

/-! ## HOLD (R390, R391) -/

/-- SMB_ALERT_N goes low (R480). -/
def State.smbAlert (s : State) : State := { s with boot := { s.boot with alert := true } }

/-- HOLD leaves force on every die: its duration is kept and its end recorded. -/
def State.endHold (s : State) : State :=
  if s.hold then
    let us := s.since s.prot.holdAt / 1000
    let s := (s.fset .DEV_MODE_HOLD 0 0).fset .DEV_HOLD_LAST_US 0 (min 0xFFFF us)
    let s := (List.range s.dies).foldl (fun s d => s.fset .DIE_SCHED_HOLD_HOLD d 0) s
    (({ s with prot := { s.prot with clearAt := none } }).smbAlert).event 0x1005 4 0 1 0 us 0
  else s

/-- HOLD comes into force on every die (R425): the conditioners discard, and secret jobs that have started are cleared.
In LOCKDOWN it adds nothing. -/
def State.startHold (s : State) : State :=
  if s.mode = modeLockdown then s
  else if s.hold then { s with prot := { s.prot with clearAt := none } }
  else
    let s := (s.fset .DEV_MODE_HOLD 0 1).fadd .DEV_HOLD_COUNT 0 1
    let s := (List.range s.dies).foldl (fun s d => s.fset .DIE_SCHED_HOLD_HOLD d 1) s
    let s := { s with prot := { s.prot with holdAt := s.time.ticks, clearAt := none } }
    (((s.smbAlert.event 0x1005 4 0 1 1 0 0).rngHold)).eachJob (fun _ => true) State.holdJob

/-- HOLD_END (R391): 100 µs after the last monitored condition has recovered. -/
def execHoldEnd (dt : Nat) (s : State) : Out :=
  let s := s.elapse dt
  match s.prot.clearAt with
  | none => .next s
  | some t => if s.hold && 100000 ≤ s.since t then .next s.endHold else .next s

/-! ## Modes -/

/-- A mode change, recorded (R389), with PF0 vector 4 (Table 03.5); LOCK_CAUSE is kept only in LOCKDOWN. -/
def State.setMode (s : State) (m cause : Nat) : State :=
  if s.mode = m then s
  else
    let old := s.mode
    let s := (s.fset .DEV_MODE_MODE 0 m).smbAlert
    let s := if m = modeLockdown then s else s.fset .DEV_MODE_LOCK_CAUSE 0 0
    (s.event 0x1004 3 0 1 old m cause).vector 4

/-- The READY pin and the FAULT_N pin (R389). -/
def State.readyPin (s : State) : Bool := s.mode == modeCommissioning || s.mode == modeService || s.mode == modeMaintenance
def State.faultN (s : State) : Bool := s.mode != modeLockdown

/-- Every prefetched entry is discarded. -/
def State.dropPrefetch (s : State) : State := { s with sched := { s.sched with prefetch := [] } }

/-- Every ENABLED ring enters ERROR with ERASED: the fetched rings before the rings that serve them (R133). -/
def State.eraseRings (s : State) : State :=
  let all := (List.range s.part.rings).filter s.ringLive
  let s := (all.filter s.ringFetched).foldl (fun s r => s.enterError r errErased 0) s
  (all.filter (fun r => !s.ringFetched r)).foldl (fun s r => s.enterError r errErased 0) s

/-- LOCKDOWN is entered (R387, R425): the first cause is kept, HOLD resolves into it, prefetched entries go, the jobs
before their release point end with SERVICE_LOCKDOWN (Table 04.10) and the rings enter ERROR (R133). -/
def State.enterLockdown (s : State) (cause : Nat) : State :=
  if s.mode = modeLockdown then s
  else
    let s := (s.endHold.setMode modeLockdown (if s.mode = modeBoot then 3 else 2)).fset .DEV_MODE_LOCK_CAUSE 0 cause
    ((s.dropPrefetch.eachJob (fun _ => true) State.lockJob).eraseRings).refuseAllHeld

/-! ## Comparator disagreement -/

/-- DGE_COMPARE_DONE (R272, R273): 10 ns after GO. `faultA` and `faultB` are the bits that a fault flips in the words. A
second disagreement on the die within one second puts the package in LOCKDOWN. -/
def execDgeCompareDone (chan faultA faultB dt : Nat) (s : State) : Out :=
  let s := s.elapse dt
  let x := s.dgeAt chan
  match x.cmpAt with
  | none => .next s
  | some t =>
    if s.dies * 4 ≤ chan || s.since t < 10 then .next s
    else
      let n := s.fget .DGE_CMP_LEN chan
      let eq := (s.dgeWords .DGE_DIGEST chan).take n == (s.dgeWords .DGE_EXPECT chan).take n
      let a := (cmpWord eq ^^^ faultA) % 2 ^ 32
      let b := ((2 ^ 32 - 1 - cmpWord eq) ^^^ faultB) % 2 ^ 32
      let s := (s.setReg .DGE_VERDICT_A chan (BitVec.ofNat 64 a)).setReg .DGE_VERDICT_B chan (BitVec.ofNat 64 b)
      let s := (s.fset .DGE_CMP_DONE chan 1).setDge chan { x with cmpAt := none }
      if (a = cmpWord true && b = 2 ^ 32 - 1 - cmpWord true) || (a = cmpWord false && b = 2 ^ 32 - 1 - cmpWord false) then .next s
      else
        let near := (List.range 4).any (fun i => match (s.dgeAt (chan / 4 * 4 + i)).lastDis with
          | some u => decide (s.since u < 1000000000)
          | none => false)
        let s := s.event 0xA001 6 (chan / 4) 6 chan a b
        let s := s.setDge chan { s.dgeAt chan with lastDis := some s.time.ticks }
        .next (if near then s.enterLockdown 4 else s)

/-! ## Inter-die links (R22, R25) -/

/-- The readiness fields of a die. -/
def dieReadyFields : List Fld :=
  [.DEV_READY_MAP_DIE, .DEV_READY_MAP_CLUSTER, .DEV_READY_MAP_VCGRP, .DEV_READY_MAP_LIE, .DEV_READY_MAP_CAL, .DEV_READY_MAP_PORT,
   .DEV_READY_MAP_RNG, .DEV_READY_MAP_KS, .DEV_READY_MAP_MGEN, .DEV_READY_VC_VC]

/-- Every readiness bit of a die clears (R383). -/
def State.unreadyDie (s : State) (d : Nat) : State := dieReadyFields.foldl (fun s f => s.readySet f d 0) s

/-- IDL_CLOCK_LOSS (R25): a link between two neighbours loses its forwarded clock, or fails to train: it has trained once both
its dies have reported ready. The dies that it takes out stay unready (R383). -/
def execIdlClockLoss (a b : Nat) (s : State) : Out :=
  let lo := min a b
  let hi := max a b
  if hi < s.dies && dieHops lo hi = 1 && s.mode != modeRetention && s.boot.phase != 0 then
    let trained := s.flag .DEV_READY_MAP_DIE lo && s.flag .DEV_READY_MAP_DIE hi
    let s := (s.event 0x1006 6 0 2 lo hi (if trained then 2 else 1)).enterLockdown 5
    let s := { s with boot := { s.boot with idlBad := s.boot.idlBad ++ [(lo, hi)] } }
    .next (((List.range s.dies).filter (idlCuts lo hi)).foldl State.unreadyDie s)
  else .next s

end Sys2Proof.Machine
end

