-- ==== Sys2Proof/Machine/Sched.lean ====
section
/-!
DEFINITION. Acceptance, placement, the dispatcher, pre-emption and the balancer (R114 to R116, R123, R142 to R166, R495).
-/

namespace Sys2Proof.Machine

/-! ## Small tools -/

/-- An element in its place in a list that a measure keeps rising; equal measures keep their order. -/
def insertBy (f : Nat → Nat) (x : Nat) : List Nat → List Nat
  | [] => [x]
  | y :: t => if f y ≤ f x then y :: insertBy f x t else x :: y :: t

/-- A list in rising order of a measure, ties in the order given. -/
def sortBy (f : Nat → Nat) (l : List Nat) : List Nat := l.foldl (fun a x => insertBy f x a) []

/-! ## Queued charge (R143, R158) -/

/-- The queued charge of a die at its set point, in picoseconds. -/
def State.queuedPs (s : State) (d : Nat) : Nat := ((s.readyJobs d).map (fun j => s.chargeAt j d (s.setMhz d))).sum

/-! ## Placement (R143, R153, R333) -/

/-- The die of a job's key, or die 0 for a quote. -/
def State.homeDie (s : State) (j : Job) : Option Nat :=
  if j.oper = some .quote then some 0
  else if sqeKey j.sqe = 0 then none
  else some (s.keyDie j.ti)

/-- The permitted dies in the order of R143, rules 2 to 4. -/
def State.placeOrder (s : State) (j : Job) : List Nat :=
  let l := s.permittedDies j
  let away := fun d => match s.homeDie j with
    | some h => bit (d != h)
    | none => 0
  if j.cls < 2 then sortBy (fun d => s.estFinish j d * 2 + away d) l
  else
    let q := sortBy s.queuedPs l
    sortBy away q

/-- Whether some permitted die gives an estimated finish by the deadline. -/
def State.canMeet (s : State) (j : Job) : Bool := j.deadline == 0 || (s.permittedDies j).any (fun d => j.meets (s.estFinish j d))

/-- LATE_POLICY of a job's ring: 0 DROP. -/
def State.drops (s : State) (j : Job) : Bool := s.fget .RING_CFG_LATE_POLICY j.ring == 0

/-! ## Acceptance (R114, R116, R123, R495) -/

/-- The lengths of a job's buffers as acceptance knows them: a list's length is not yet known (R52). -/
def knownLen (b : Bytes) (i : Nat) : Nat := if sqeList b i then 0 else sqeLen b i

/-- The inputs of a job's catalogue time. -/
def State.costIn (s : State) (j : Job) (l0 l1 lo target lenS : Nat) (plain : Bool) (sets : Nat) : CostIn :=
  { len0 := l0, len1 := l1, out := lo, keyType := handleType (sqeKey j.sqe), keyLen := s.keyLen (sqeKey j.sqe),
    target := target, lenS := lenS, plain := plain, sets := sets,
    declared := match j.oper with
      | some (.kernel i e) => declaredCycles ((s.kernelAt i).entry e) (l0 + l1)
      | _ => 0 }

/-- The sets of a hash-based verification (R495): public key from the key or from In1, then the signature. -/
def State.setsOf (s : State) (j : Job) (w : Nat) (in1 : Bytes) : HbsSets :=
  if sqeKey j.sqe = 0 then
    let n := (hbsPubLen w in1).getD in1.length
    hbsSets w in1 (in1.drop n)
  else hbsSets w (s.slot (handleTi (sqeKey j.sqe)) (handleSlot (sqeKey j.sqe))).stored in1

/-- The catalogue time that acceptance gives a job; `lead` is what R495 read of In1. A cSHAKE whose In1 is empty or of four
bytes can only have the two empty strings. -/
def State.acceptCost (s : State) (j : Job) (lead : Bytes) : Nat :=
  match j.oper with
  | none => psCheck
  | some o =>
    let sets := match o with
      | .hbs w => (s.setsOf j w lead).total (knownLen j.sqe 0)
      | _ => 0
    let l1 := knownLen j.sqe 1
    o.cost (s.costIn j (knownLen j.sqe 0) l1 (knownLen j.sqe 2) 0 0 (l1 == 0 || l1 == 4) sets)

/-- The answer of reading one buffer's list: segments; a refusal with status and DETAIL, and whether a window refused it;
or nothing while the list has not been read. -/
inductive ListRead where
  | ok (l : List (Nat × Nat))
  | refuse (st detail : Nat) (window : Bool)
  | wait
deriving DecidableEq, Repr

/-- A buffer's list is window-checked and read, unless acceptance has read it (R70, R124, R495). -/
def State.readList (s : State) (j : Job) (i : Nat) (arr : Bytes) : ListRead :=
  let a := sqeAddr j.sqe i
  let n := sqeLen j.sqe i
  if !sqeList j.sqe i then .ok (plainSegs a n)
  else if i = 1 && j.list1.isSome then .ok (j.list1.getD [])
  else if !s.bufferOk j.ti a (16 * n) true false then .refuse jBufferFault (4 + i) true
  else if arr.length < 16 * n then .wait
  else match parseList arr n with
    | none => .refuse jInvalidParam 0 false
    | some l => if 2 ^ 32 ≤ segsLen l then .refuse jInvalidParam 0 false else .ok l

/-- The parts of a buffer's segments that hold `n` bytes from offset `o`. -/
def partSegs : List (Nat × Nat) → Nat → Nat → List (Nat × Nat)
  | [], _, _ => []
  | (a, l) :: t, o, n =>
    if n = 0 then []
    else if l ≤ o then partSegs t (o - l) n
    else (a + o, min n (l - o)) :: partSegs t 0 (n - min n (l - o))

/-- What the reads of R495 make of In1: its list where one is set; the list's own refusal; a buffer that a window refuses, or
whose read fails, with its DETAIL and address; or nothing while bytes are missing. -/
inductive LeadRead where
  | ok (list : Option (List (Nat × Nat)))
  | refuse (st detail : Nat)
  | window (detail addr : Nat)
  | failed (detail addr : Nat)
  | wait
deriving DecidableEq, Repr

/-- The operation is a hash-based verification: its number. -/
def Job.hbs? (j : Job) : Option Nat :=
  match j.oper with
  | some (.hbs w) => some w
  | _ => none

/-- The bytes of In1 that R495 reads for a job, given the segments and what has been read. -/
def State.leadReads (s : State) (j : Job) (w : Nat) (l : List (Nat × Nat)) (lead : Bytes) : List (Nat × Nat) :=
  let key := sqeKey j.sqe
  hbsReads w (if key = 0 then none else some (s.slot (handleTi key) (handleSlot key)).stored) lead (segsLen l)

/-- The reads of one buffer, in order: the first that a window refuses or that has not come decides. -/
def State.leadGo (s : State) (j : Job) (l : List (Nat × Nat)) (got fault : Nat) (list : Option (List (Nat × Nat))) :
    List (Nat × Nat) → LeadRead
  | [] => .ok list
  | r :: t =>
    let parts := partSegs l r.1 r.2
    if !parts.all (fun x => s.bufferOk j.ti x.1 x.2 true false) then .window 2 (parts.headD (0, 0)).1
    else if r.1 + r.2 ≤ got then s.leadGo j l got fault list t
    else if fault ≠ 0 then .failed 2 (parts.headD (0, 0)).1
    else .wait

/-- The reads of R495 for a job: `arr` is its In1 list and `lead` the front of In1 as far as the link has returned them,
`fault` the kind of a failed read. -/
def State.leadRead (s : State) (j : Job) (arr lead : Bytes) (fault : Nat) : LeadRead :=
  match j.hbs? with
  | none => .ok none
  | some w =>
    let open' := s.dmaOpen
    match s.readList j 1 (if open' then arr else []) with
    | .wait => if open' && fault != 0 then .failed 5 (sqeAddr j.sqe 1) else .wait
    | .refuse _ d true => .window d (sqeAddr j.sqe 1)
    | .refuse st d false => .refuse st d
    | .ok l =>
      let lead := if open' then lead.take (segsLen l) else []
      s.leadGo j l lead.length (if open' then fault else 0) (if sqeList j.sqe 1 then some l else none) (s.leadReads j w l lead)

/-- A window check that has refused a buffer: counted, recorded (R86). -/
def State.windowFault (s : State) (j : Job) (addr : Nat) : State :=
  (s.countAlert .TI_BUF_FAULTS_COUNT j.ti).event 0x6011 3 0 0x0E j.ti (addr % 2 ^ 32) j.op

/-- A job placed on a die: it enters its ready list (R142, R146). -/
def State.enlist (s : State) (j : Job) (d : Nat) : State :=
  let s := s.joinList d j.cls j.ti
  { s with sched := { s.sched with jobs := s.sched.jobs ++ [{ j with die := d }] } }

/-- Whether the device may accept one more entry of a ring (R116, R142). -/
def State.mayAccept (s : State) (r : Nat) : Bool := s.ringBound r && s.ringState r == ringEnabled && decide (0 < s.sqRoom r)

/-- The entry leaves the prefetch and the accepted head passes it (R114). -/
def State.acceptEntry (s : State) (r : Nat) : State :=
  let rec drop : List Prefetched → List Prefetched
    | [] => []
    | p :: t => if p.ring = r then t else p :: drop t
  let s := { s with sched := { s.sched with prefetch := drop s.sched.prefetch, nextJob := s.sched.nextJob + 1 } }
  s.setRingx r { s.ringx r with head := ((s.ringx r).head + 1) % 2 ^ 32 }

/-- The reads of R495 as the link sees them: the list, then what is read of In1. -/
def State.readLead (s : State) (j : Job) (arr lead : Bytes) : State :=
  match j.hbs? with
  | none => s
  | some w =>
    let t := if sqeList j.sqe 1 then s.tiRead j.ti (sqeAddr j.sqe 1) (16 * sqeLen j.sqe 1) else s
    match s.readList j 1 arr with
    | .ok l => ((s.leadReads j w l lead).flatMap (fun r => partSegs l r.1 r.2)).foldl (fun t x => t.tiRead j.ti x.1 x.2) t
    | _ => t

/-- A job whose reads have been made: the deadline, then the die (R143, R153). -/
def State.placeRead (s : State) (j : Job) : State :=
  if s.drops j && !s.canMeet j then (s.acceptEntry j.ring).endJob j jDeadlineMissed 0 false
  else match (s.placeOrder j).find? s.entryFree with
    | none => s
    | some d => (s.acceptEntry j.ring).enlist j d

/-- The reads of R495, then the placement. A refusal or a failed read completes the job at acceptance. -/
def State.placeJob (s : State) (j : Job) (arr lead : Bytes) (fault : Nat) : State :=
  match s.leadRead j arr lead fault with
  | .wait => s
  | .ok l => (s.readLead j arr lead).placeRead { j with list1 := l, cost := s.acceptCost j lead }
  | .refuse st d => ((s.acceptEntry j.ring).readLead j arr lead).endJob j st d false
  | .window d a => ((s.acceptEntry j.ring).windowFault j a).endJob j jBufferFault d false
  | .failed d a =>
    ((((s.acceptEntry j.ring).readLead j arr lead).dmaEvent j.ti fault a).countAlert .TI_BUF_FAULTS_COUNT j.ti).endJob j
      jBufferFault d false

/-- SQE_ACCEPT (R123): `lead` holds what R495 reads, `readFault` the kind of a failed read. -/
def execSqeAccept (ring : Nat) (lead : LeadBytes) (readFault : Nat) (s : State) : Out :=
  match s.prefetched ring with
  | none => .next s
  | some p =>
    if !s.mayAccept ring then .next s
    else
      let j := newJob s.sched.nextJob (s.ringOwner ring) ring p.idx p.sqe
      match s.acceptChecks ring p.sqe with
      | some (st, dt) => .next ((s.acceptEntry ring).endJob j st dt false)
      | none => .next (s.placeJob j lead.list lead.front readFault)

/-! ## The dispatcher's order (R145, R146, R148, R149) -/

/-- The virtual time of a TI in a class of a die. -/
def State.vtOf (s : State) (d cls ti : Nat) : Nat := sparseGet 0 s.sched.vt ((d * 4 + cls) * 1024 + ti)

/-- Whether one ready job goes before another of its class. -/
def State.before (s : State) (a b : Job) : Bool :=
  if a.cls < 2 then
    if a.deadline ≠ b.deadline then decide (a.deadline < b.deadline) else decide (a.order < b.order)
  else
    let va := s.vtOf a.die a.cls a.ti
    let vb := s.vtOf b.die b.cls b.ti
    if va ≠ vb then decide (va < vb)
    else if a.ti ≠ b.ti then decide (a.ti < b.ti)
    else decide (a.order < b.order)

/-- The first of a list of ready jobs. -/
def State.firstJob (s : State) : List Job → Option Job
  | [] => none
  | j :: t => match s.firstJob t with
    | none => some j
    | some k => if s.before k j then some k else some j

/-- A FENCE that is not met: an earlier job of the same SQ has no CQE (R125). -/
def State.fenced (s : State) (j : Job) : Bool := j.fence && s.sched.jobs.any (fun x => x.ring == j.ring && decide (x.id < j.id))

/-- The die's MGENs have been seeded. -/
def State.mgenSeeded (s : State) (d : Nat) : Bool := !s.flag .DIE_SCHED_HOLD_MGEN_WAIT d

/-- Whether a job is passed over (R149). -/
def State.blocked (s : State) (j : Job) : Bool :=
  s.fenced j || (s.jobSecret j && (s.hold || !s.mgenSeeded j.die)) ||
    (match s.residentClusters j with
     | some cl => j.oper != some .delete && j.oper != some .keyInfo && !cl.any (fun c => c / 2 == j.die)
     | none => false)

/-- The die whose cluster drains for a Classic McEliece key generation that heads a list (R148). -/
def State.setDrain (s : State) (d : Nat) : State :=
  let heads := [2, 3].filterMap (fun c => s.firstJob ((s.readyJobs d).filter (fun j => j.cls == c && !s.blocked j)))
  let want := heads.any (fun j => j.units == .cluster)
  let idle := fun k => ((List.range 8).filter (fun c => s.coreIdle (d * 16 + k * 8 + c))).length
  let now := sparseGet 0 s.sched.drain d
  let pick := if !want then 0 else if now ≠ 0 then now else if idle 0 < idle 1 then 2 else 1
  { (s.fset .DIE_SCHED_HOLD_MC_DRAIN d (bit want)) with sched := { s.sched with drain := sparseSet 0 s.sched.drain d pick } }

/-! ## Pre-emption requests (R155, R165) -/

/-- Whether a running job may be made to yield for another one: it holds a core that the other may use, and on a reserved core
only the reserving TI may ask (R155, R165). -/
def State.victimOk (s : State) (j x : Job) : Bool :=
  match x.core with
  | none => false
  | some v =>
    let r := sparseGet 0 s.sched.reserved v
    x.die == j.die && s.yieldable x && !(s.core v).preempt && s.fget .VC_STATE_STATE v == 1 &&
      (s.allowedCores j j.die).contains v &&
      (match j.units with
       | .vc | .cluster => true
       | .hybrid => s.lieIdle (v / 8)
       | .lie => false) &&
      (if r = j.ti + 1 then j.cls == 0 || x.ti != j.ti else r == 0 && j.cls == 0)

/-- A victim that goes before another: BULK before NORMAL, then the one started last. -/
def victimBefore (a b : Job) : Bool := if a.cls ≠ b.cls then decide (b.cls < a.cls) else decide (b.boundAt < a.boundAt)

/-- The victim of R155. -/
def pickVictim : List Job → Option Job
  | [] => none
  | j :: t => match pickVictim t with
    | none => some j
    | some k => if victimBefore k j then some k else some j

/-- A job has asked for a yield that has not come. -/
def State.yieldAsked (s : State) (j : Job) : Bool :=
  (dieVcs j.die).any (fun v => (s.core v).preempt && (s.core v).forJob == some j.id)

/-- A waiting job asks for a yield, unless it has asked for one that has not come. -/
def State.requestYield (s : State) (j : Job) : State :=
  if s.yieldAsked j then s
  else match pickVictim (s.sched.jobs.filter (s.victimOk j)) with
    | some x => match x.core with
      | some v => s.setCore v { s.core v with preempt := true, forJob := some j.id }
      | none => s
    | none => s

/-! ## The balancer's offer (R153, R158) -/

/-- The die to which an offered job moves: the earliest estimated finish by its deadline. -/
def State.offerDie (s : State) (j : Job) : Option Nat :=
  if !s.sched.balOn then none
  else (sortBy (s.estFinish j) ((s.permittedDies j).filter (fun d => d != j.die && s.entryFree d && j.meets (s.estFinish j d)))).head?

/-- A ready job moves to another die, keeping its acceptance and its place in class (R158). -/
def State.moveJob (s : State) (j : Job) (d : Nat) : State := (s.joinList d j.cls j.ti).setJob { j with die := d }

/-! ## Binding (R144, R147, R156, R199, R230) -/

/-- The Table 08.4 code of the engine command that an operation runs, 0 for none. DESIGN CHOICE: a hybrid encapsulation,
which runs an ephemeral key generation and then a derivation (R65), shows the derivation. -/
def Oper.lieCode (o : Oper) (kt : Nat) : Nat :=
  let ec := fun c op : Nat => if c < 3 then 0x10 + op
    else if c < 5 then 0x20 + op
    else if op = 1 then 0x31 else 0x32
  match o with
  | .rsaSign _ _ _ | .rsaDecrypt _ _ => 0x01
  | .rsaVerify _ _ _ | .rsaEncrypt _ _ => 0x02
  | .ecKeygen c => ec c 1
  | .ecSign c => ec c 2
  | .ecVerify c => ec c 3
  | .ecDerive c => ec c 4
  | .hybKeygen h => ec (hybHalves h).2.2 1
  | .hybFirst h => if hybKem h then ec (hybHalves h).2.2 4 else ec (hybHalves h).2.2 2
  | .hybSecond h => if hybKem h then ec (hybHalves h).2.2 4 else ec (hybHalves h).2.2 3
  | .importKey => 0x32
  | .quote => 0x12
  | .readPublic => match keyTypeOf kt with
    | some (.ec c _) => ec c 1
    | some (.hybrid h _) => ec (hybHalves h).2.2 1
    | some .importPair => 0x31
    | _ => 0
  | _ => 0

/-- Commands without random inputs: they start as the engine is bound (R241). -/
def Oper.lieUndrawn : Oper → Bool
  | .rsaVerify _ _ _ | .ecVerify _ => true
  | .hybSecond h => !hybKem h
  | _ => false

/-- The engine starts a command. -/
def State.startLie (s : State) (k code : Nat) : State :=
  ((s.fset .LIE_STATE_STATE k 1).fset .LIE_STATE_COMMAND k code).setLie k { s.lieAt k with started := s.time.ticks, good := true }

/-- An engine takes a job (R233); it starts once the job's random inputs are drawn (R241). -/
def State.bindLie (s : State) (j : Job) (k : Nat) : State :=
  let s := (s.fset .LIE_STATE_TI k j.ti).fset .LIE_STATE_TI_VALID k 1
  match j.oper with
  | some o => if o.lieUndrawn then s.startLie k (o.lieCode j.keyType) else s
  | none => s

/-- The segments of a kernel in pages: base, size, WRITE, SECRET (R199). -/
def Kernel.segPages (k : Kernel) : List (Nat × Nat × Bool × Bool) :=
  (List.range 4).map (fun i =>
    (((List.range i).map (fun a => k.seg a % 128)).sum, k.seg i % 128, (k.seg i).testBit 14, (k.seg i).testBit 15))

/-- The segments that vendor microcode sets for an opcode, within 64 pages (R197, R199). -/
def vendorPages (op : Nat) : List (Nat × Nat × Bool × Bool) :=
  ((List.range 4).foldl (fun (x : Nat × List (Nat × Nat × Bool × Bool)) i =>
    let w := Config.vendorSeg op i
    let n := min (w % 128) (64 - x.1)
    (x.1 + n, x.2 ++ [(x.1, n, w.testBit 14, w.testBit 15)])) (0, [])).2

/-- Segments in pages as segments in bytes. -/
def segBytesOf (l : List (Nat × Nat × Bool × Bool)) : List VSeg := l.map (fun x => ⟨x.1 * 4096, x.2.1 * 4096, x.2.2.1, x.2.2.2⟩)

/-- VC_SEG of a core shows the segments of its job (R199). -/
def State.showSegs (s : State) (v : Nat) (l : List (Nat × Nat × Bool × Bool)) : State :=
  (l.zipIdx).foldl (fun s x =>
    let i := v * 4 + x.2
    if x.1.2.1 = 0 then s.setReg .VC_SEG i 0
    else
      ((((s.fset .VC_SEG_VALID i 1).fset .VC_SEG_SECRET i (bit x.1.2.2.2)).fset .VC_SEG_WRITE i (bit x.1.2.2.1)).fset
        .VC_SEG_BASE i x.1.1).fset .VC_SEG_PAGES i x.1.2.1) s

/-- The cores of a job take it. -/
def State.bindCores (s : State) (j : Job) (cores : List Nat) : State :=
  cores.foldl (fun s v =>
    let s := (s.fset .VC_STATE_STATE v 1).fset .VC_RUN_CYCLES_CYCLES v 0
    match j.oper with
    | some (.kernel i e) =>
      ((s.setCore v { VCore.idle with job := some j.id, kernel := i, entry := e }).fset .VC_STATE_KERNEL v i).showSegs v (s.kernelAt i).segPages
    | _ =>
      let s := s.setSeq v { s.seqOf v with addr := Config.microStart j.op % 16384, stack := [] }
      ((s.setCore v { VCore.idle with job := some j.id, codeLen := 16384, segs := segBytesOf (vendorPages j.op) }).fset
        .VC_STATE_KERNEL v 0xFF).showSegs v (vendorPages j.op)) s

/-- The keys that a job needs from their home die (R144). -/
def State.keysDue (s : State) (j : Job) : List Nat := if s.keyDie j.ti = j.die then [] else s.keysCarried j

/-- The key that a reference of a job names, as its slot holds it: type and stored form. -/
def State.loadRef (s : State) (j : Job) (n : Nat) : Nat × Bytes :=
  let h := j.refHandle n
  (handleType h, (s.slot (handleTi h) (handleSlot h)).stored)

/-- The secret keys whose release to a job is decided twice (R431); an owner kernel's KEYLOADs are decided one by one
(R206). -/
def State.keysDoubled (s : State) (j : Job) : List Nat :=
  match j.oper with
  | some (.kernel _ _) => []
  | _ => ((s.keyUses j).filter (fun r => (keyTypeOf r.2).any KeyType.secret)).map (·.1)

/-- The doubled decisions without those of a job's earlier execution and of its cores' last jobs. -/
def State.undoubted (s : State) (job : Nat) (cores : List Nat) : List Doubled :=
  s.prot.doubled.filter (fun d => match d with
    | .key i _ => i != job
    | .load v => !cores.contains v
    | _ => true)

/-- A job that has passed its checks is bound: its target is reserved, its keys are loaded, its units taken. -/
def State.bindJob (s : State) (j : Job) (o : Oper) (p : List Nat × Option Nat) (charge : Nat) : State :=
  let key := sqeKey j.sqe
  let slot := s.slot (handleTi key) (handleSlot key)
  let uses := (s.keyUses j).map (·.1)
  let refs := (List.range 4).map (fun n => if uses.contains n then s.loadRef j n else (0, []))
  let th := j.targetHandle
  let rel := if s.otp.f2 then s.keysDoubled j else []
  let due := rel.map held ++ s.keysDue j
  let s := if o.makesKey then
      s.reserveSlot j.ti (handleSlot th) (handleType th) (targetGranules (handleType th) j.in0.length) j.id
    else s
  let s := if (s.keysDue j).isEmpty then s else s.fadd .KS_JOB_KEYS_COUNT (s.keyDie j.ti) (s.keysDue j).length
  let j := { j with phase := .bound, core := p.1.head?, lie := p.2, started := true, replayed := decide (0 < j.attempts),
                    attempts := j.attempts + 1, boundAt := s.time.ticks, endTime := s.time.ticks + charge / 500,
                    due := due, sentNo := s.sched.nextSend, left := none, keyBytes := if key = 0 then [] else slot.stored, keyType := handleType key,
                    keyUsage := slot.usage, krefs := refs,
                    target := if o.makesKey then some (slotKey j.ti (handleSlot th)) else none,
                    status := 0, detail := 0, result := [], newKey := none, refused := false }
  let s := { s with sched := { s.sched with nextSend := s.sched.nextSend + 1 }
                    prot := { s.prot with doubled := s.undoubted j.id p.1 ++ rel.map (Doubled.key j.id) } }
  let s := (s.setJob j).bindCores j p.1
  let s := match p.2 with
    | some k => s.bindLie j k
    | none => s
  (s.snoopBind j).advanceVt j p.1 charge

/-! ## Dispatch of one job (R70) -/

/-- What a dispatch attempt needs of the link: the segments and bytes of the buffers. -/
structure Bufs where
  segs0 : List (Nat × Nat)
  segs1 : List (Nat × Nat)
  segsO : List (Nat × Nat)
deriving DecidableEq, Repr

/-- The three buffers of a job from their lists: the first refusal names its buffer. -/
inductive BufRead where
  | ok (b : Bufs)
  | refuse (i st detail : Nat) (window : Bool)
  | wait
deriving DecidableEq, Repr

/-- The lists of In0, In1 and Out, one after another (R70). -/
def State.readBufs (s : State) (j : Job) (rd : JobRead) : BufRead :=
  match s.readList j 0 rd.list0 with
  | .wait => .wait
  | .refuse st d w => .refuse 0 st d w
  | .ok s0 => match s.readList j 1 rd.list1 with
    | .wait => .wait
    | .refuse st d w => .refuse 1 st d w
    | .ok s1 => match s.readList j 2 rd.listOut with
      | .wait => .wait
      | .refuse st d w => .refuse 2 st d w
      | .ok so => .ok ⟨s0, s1, so⟩

/-- What the host link has returned for a job; nothing while DMA is closed (R78). -/
def State.linkRead (s : State) (j : Job) (reads : List JobRead) : JobRead :=
  if s.dmaOpen then (reads.find? (fun r => r.job == j.id)).getD ⟨j.id, [], [], [], [], []⟩ else ⟨j.id, [], [], [], [], []⟩

/-- Every segment of a buffer passes its window check. -/
def State.segsOk (s : State) (ti : Nat) (l : List (Nat × Nat)) (rd wr : Bool) : Bool :=
  l.all (fun x => s.bufferOk ti x.1 x.2 rd wr)

/-- The first buffer that a window refuses: its code in R126 and its address. -/
def State.badBuffer (s : State) (ti : Nat) (b : Bufs) : Option (Nat × Nat) :=
  if !s.segsOk ti b.segs0 true false then some (1, (b.segs0.headD (0, 0)).1)
  else if !s.segsOk ti b.segs1 true false then some (2, (b.segs1.headD (0, 0)).1)
  else if !s.segsOk ti b.segsO false true then some (3, (b.segsO.headD (0, 0)).1)
  else none

/-- The catalogue time of a job whose inputs are known. -/
def State.fullCost (s : State) (j : Job) (o : Oper) (lo : Nat) : Nat :=
  let sets := match o with
    | .hbs w => (s.setsOf j w j.in1).total j.in0.length
    | _ => 0
  o.cost (s.costIn j j.in0.length j.in1.length lo (handleType j.targetHandle) (beNat (sliceZ j.in1 0 2)) (plainShake j.in1) sets)

/-- The reads of a buffer's segments. -/
def State.readSegs (s : State) (ti : Nat) (l : List (Nat × Nat)) : State := l.foldl (fun s x => s.tiRead ti x.1 x.2) s

/-- The reads of the lists that a job names (R124). -/
def State.readLists (s : State) (j : Job) : State :=
  (List.range 3).foldl (fun s i =>
    if sqeList j.sqe i && !(i == 1 && j.list1.isSome) then s.tiRead j.ti (sqeAddr j.sqe i) (16 * sqeLen j.sqe i) else s) s

/-- Checks 2 to 6 and the binding; `none` while the inputs have not been read. -/
def State.startJob (s : State) (j : Job) (o : Oper) (p : List Nat × Option Nat) (b : Bufs) (rd : JobRead) : Option State :=
  let l0 := segsLen b.segs0
  let l1 := segsLen b.segs1
  let lo := segsLen b.segsO
  match s.check2 j o l0 l1 lo with
  | some st => some (s.refuseJob j p st 0)
  | none =>
    match s.badBuffer j.ti b with
    | some (w, a) => some ((s.windowFault j a).refuseJob j p jBufferFault w)
    | none =>
      if rd.data0.length < l0 || rd.data1.length < l1 then none
      else some <|
        let s := s.readSegs j.ti (b.segs0 ++ b.segs1)
        let j := { j with in0 := rd.data0.take l0, in1 := rd.data1.take l1, outSegs := b.segsO, outLen := lo }
        match s.checks j o lo with
        | some st => s.refuseJob j p st 0
        | none =>
          let j := { j with cost := s.fullCost j o lo }
          s.bindJob j o p (s.chargeAt j j.die (s.unitsMhz j.die p))

/-- A saved job takes a core of its cluster again: it is restored before it runs on (R156). -/
def State.startRestore (s : State) (j : Job) (v : Nat) : State :=
  let charge := s.chargeAt j j.die (s.coreMhz v)
  let s := (s.setCore v { VCore.idle with job := some j.id }).fset .VC_STATE_STATE v 3
  (s.setJob { j with phase := .bound, core := some v, boundAt := s.time.ticks,
                     endTime := s.time.ticks + charge / 500 }).advanceVt j [v] charge

/-- The core on which a saved job resumes: an idle allowed core of its cluster. -/
def State.restoreCore (s : State) (j : Job) : Option Nat :=
  match s.saves.find? (fun e => e.2.job == some j.id) with
  | none => none
  | some e => s.bestOf j ((s.allowedCores j j.die).filter (fun v => s.coreIdle v && v / 8 == e.1 / 4))

/-- Dispatch of one job to the units that best_core gave it; `none` while what it reads has not come. -/
def State.dispatchTo (s : State) (j : Job) (p : List Nat × Option Nat) (reads : List JobRead) : Option State :=
  if s.keysLocked && s.jobSecret j && j.oper ≠ some .quote then some (s.refuseJob j p jServiceLockdown 0)
  else match j.oper with
    | none => some (s.refuseJob j p jInvalidOpcode 0)
    | some o =>
      let known := match o with
        | .kernel i e => (s.kernelEntry i e).isSome
        | _ => true
      if !known then some (s.refuseJob j p jInvalidOpcode 0)
      else
        let rd := s.linkRead j reads
        match s.readBufs j rd with
        | .wait => none
        | .refuse i st d w => some ((if w then s.windowFault j (sqeAddr j.sqe i) else s).refuseJob j p st d)
        | .ok b => (s.readLists j).startJob j o p b rd

/-- The catalogue time of a job as the dispatcher judges it: in full once its lists and inputs have been read (R51, R52). -/
def State.readCost (s : State) (j : Job) (reads : List JobRead) : Nat :=
  let rd := s.linkRead j reads
  match j.oper, s.readBufs j rd with
  | some o, .ok b =>
    if rd.data0.length < segsLen b.segs0 || rd.data1.length < segsLen b.segs1 then j.cost
    else s.fullCost { j with in0 := rd.data0.take (segsLen b.segs0), in1 := rd.data1.take (segsLen b.segs1) } o (segsLen b.segsO)
  | _, _ => j.cost

/-! ## Reservations (R163) -/

/-- The next core that a growing reservation takes: idle, unreserved, in service, the clusters in turn, lowest first. -/
def State.nextReserve (s : State) (ti d : Nat) : Option Nat :=
  let ok := (dieVcs d).filter (fun v => sparseGet 0 s.sched.reserved v == 0 && s.coreServes v && s.coreIdle v)
  let held := s.reservedBy ti d
  let n := fun k => (held.filter (fun v => v / 8 % 2 == k)).length
  let pref := if n 0 ≤ n 1 then 0 else 1
  match ok.find? (fun v => v / 8 % 2 == pref) with
  | some v => some v
  | none => ok.head?

/-- A reservation grows to its count as cores are idle. -/
def State.growReserve (ti d : Nat) : Nat → State → State
  | 0, s => s
  | n + 1, s =>
    if s.fget .TI_RESV_COUNT (ti * 8 + d) ≤ (s.reservedBy ti d).length then s
    else match s.nextReserve ti d with
      | none => s
      | some v =>
        State.growReserve ti d n (({ s with sched := { s.sched with reserved := sparseSet 0 s.sched.reserved v (ti + 1) } }).showHeld ti d)

/-- Every reservation of a die that has not its full count grows (R163, R220). -/
def State.growAll (s : State) (d : Nat) : State :=
  ((List.range s.part.tenants).filter (fun t => (s.reservedBy t d).length < s.fget .TI_RESV_COUNT (t * 8 + d))).foldl
    (fun s t => State.growReserve t d 16 s) s

/-- Cores of a shrinking reservation that are released: idle ones first, from the highest number. -/
def State.shrinkList (s : State) (ti d n : Nat) : List Nat :=
  let l := (s.reservedBy ti d).reverse
  (l.filter s.coreIdle ++ l.filter (fun v => !s.coreIdle v)).take (l.length - n)

/-! ## The pass (R145, R146) -/

/-- Whether the units of a job end it by its deadline. -/
def State.inTime (s : State) (j : Job) (mhz : Nat) : Bool :=
  j.deadline == 0 || decide (s.replicaNow j.die * 1000 + s.chargeAt j j.die mhz ≤ j.deadline * 1000)

/-- What the dispatcher does with one ready job: the next state, or nothing while the job's reads have not come. -/
def State.consider (s : State) (j : Job) (reads : List JobRead) : Option State :=
  if s.blocked j then some s
  else
    let units := if j.phase = .saved then (s.restoreCore j).map (fun v => ([v], (none : Option Nat))) else s.bestCore j j.die
    match units with
    | none =>
      let borrowed := (dieVcs j.die).any (fun v => sparseGet 0 s.sched.reserved v == j.ti + 1 &&
        (s.core v).job.any (fun id => s.sched.jobs.any (fun x => x.id == id && x.ti != j.ti)))
      some (if j.cls = 0 || borrowed then s.requestYield j else s)
    | some p =>
      if j.phase = .saved then some ((p.1.head?).elim s (s.startRestore j))
      else if s.inTime { j with cost := s.readCost j reads } (s.unitsMhz j.die p) then s.dispatchTo j p reads
      else if !s.drops j then
        let j := { j with late := true }
        (s.setJob j).dispatchTo j p reads
      else if 0 < j.attempts then s.dispatchTo j p reads
      else match s.offerDie j with
        | some d => some (s.moveJob j d)
        | none => some (s.endJob j jDeadlineMissed 0 false)

/-- The jobs of one class, each considered once. The pass ends at a job that waits for its reads: no later job may take the
core that it can use (R145). -/
def State.passClass (d cls : Nat) (reads : List JobRead) : Nat → List Nat → State → State × Bool
  | 0, _, s => (s, true)
  | n + 1, seen, s =>
    let s := s.setDrain d
    match s.firstJob ((s.readyJobs d).filter (fun j => j.cls == cls && !seen.contains j.id)) with
    | none => (s, true)
    | some j => match s.consider j reads with
      | none => (s, false)
      | some s => State.passClass d cls reads n (j.id :: seen) s

/-- The classes of a die in strict order. -/
def State.passAll (s : State) (d : Nat) (reads : List JobRead) : State :=
  ([0, 1, 2, 3].foldl (fun (x : State × Bool) c =>
    if x.2 then State.passClass d c reads (x.1.readyJobs d).length [] x.1 else x) (s, true)).1

/-- DISPATCH_PASS (R146): one run of a die's dispatcher; `reads` is what the host link returned for the jobs. -/
def execDispatchPass (die : Nat) (reads : List JobRead) (s : State) : Out :=
  if die < s.dies && s.flag .DEV_READY_MAP_DIE die && s.mode ≠ modeLockdown then
    .next (((s.growAll die).setDrain die).passAll die reads)
  else .next s

/-! ## Keys (R144) -/

/-- No key that was sent earlier from the same die to the same die is on its way (R24). -/
def State.firstSent (s : State) (j : Job) : Bool :=
  !s.sched.jobs.any (fun x => !x.due.isEmpty && !x.keyHeld && x.die == j.die && s.keyDie x.ti == s.keyDie j.ti && decide (x.sentNo < j.sentNo))

/-- KEY_ARRIVAL (R144): the next masked key of a job reaches its die, in the order of sending (R24); it stays in its store
while the debug lock holds. -/
def execKeyArrival (job dt : Nat) (s : State) : Out :=
  let s := s.elapse dt
  match s.job? job with
  | some j =>
    if j.phase = .bound && !j.keyArrived && !j.keyHeld && s.firstSent j && !s.keysLocked then
      .next (s.setJob { j with due := j.due.drop 1 })
    else .next s
  | none => .next s

/-! ## Clocks and the balancer (R151, R158) -/

/-- CLOCK_MEASUREMENT_WINDOW (R151, R243): one core's window ends with a measured clock, or, numbered from 128, one
engine's, of which f is twice the value. -/
def execClockMeasurementWindow (vc mhz dt : Nat) (s : State) : Out :=
  let s := s.elapse dt
  if dt < 10000 then .next s
  else if 128 ≤ vc && vc < 128 + 2 * s.dies then
    .next (s.setLie (vc - 128) { s.lieAt (vc - 128) with mhz := some (2 * mhz) })
  else if s.dies * 16 ≤ vc then .next s
  else
    let set := s.setMhz (vc / 16)
    let slow := decide (mhz * 100 < set * 95)
    let was := s.flag .DIE_VC_CLOCK_SLOW vc
    let s := (s.fset .DIE_VC_CLOCK_MHZ vc (min 0xFFF mhz)).fset .DIE_VC_CLOCK_SLOW vc (bit slow)
    .next (if slow != was then s.event 0x5006 3 (vc / 16) 3 vc mhz set else s)

/-- The load of a die in picoseconds (R158): queued charge over its cores weighted by clock ÷ 3.0 GHz. -/
def State.loadPs (s : State) (d : Nat) : Nat :=
  let w := (((dieVcs d).filter s.coreServes).map s.coreMhz).sum
  if w = 0 then (if s.queuedPs d = 0 then 0 else never) else s.queuedPs d * 3000 / w

/-- DIE_SCHED_LOAD of every die. -/
def State.showLoads (s : State) : State :=
  (List.range s.dies).foldl (fun s d => s.fset .DIE_SCHED_LOAD_LOAD_NS d (min (2 ^ 32 - 1) (s.loadPs d / 1000))) s

/-- The job that the balancer would move from one die to another: the tail of BULK, then of NORMAL. -/
def State.tailJob (s : State) (a b : Nat) : Option Job :=
  let ok := fun cls => (s.readyJobs a).filter (fun j => j.cls == cls && j.phase == .ready && j.attempts == 0 && (s.permittedDies j).contains b)
  let last := fun l : List Job => l.foldl (fun (m : Option Job) j => match m with
    | none => some j
    | some k => if s.before k j then some j else some k) none
  match last (ok 3) with
  | some j => some j
  | none => last (ok 2)

/-- Moves of one period. -/
def State.balanceMoves (a b : Nat) : Nat → State → State
  | 0, s => s
  | n + 1, s =>
    if s.loadPs a < s.loadPs b + s.sched.balThresh * 1000000 || !s.entryFree b then s
    else match s.tailJob a b with
      | none => s
      | some j => State.balanceMoves a b n (s.moveJob j b)

/-- BALANCER_PERIOD (R158). -/
def execBalancerPeriod (dt : Nat) (s : State) : Out :=
  let s := s.elapse dt
  if !s.sched.balOn || dt < s.sched.balPeriod * 1000 then .next s
  else
    let s := s.showLoads
    let ds := (List.range s.dies).filter (s.flag .DEV_READY_MAP_DIE)
    match sortBy s.loadPs ds with
    | [] => .next s
    | lo :: t =>
      let hi := (t.foldl (fun m d => if s.loadPs m < s.loadPs d then d else m) lo)
      if s.loadPs hi ≤ s.loadPs lo + s.sched.balThresh * 1000000 then .next s
      else .next (State.balanceMoves hi lo s.sched.balMax s)

/-! ## Wait time-outs (R161, R251) -/

/-- The time of the engine's part of a job, in picoseconds at P0 (R65, R67, R243). -/
def Oper.liePs (o : Oper) (kt : Nat) (cost : Nat) : Nat :=
  let half := fun h : Nat => ecNs (hybHalves h).2.2
  match o with
  | .hybKeygen h => psNs (half h).1
  | .hybFirst h => if hybKem h then psNs ((half h).1 + (half h).2.2.2) else psNs (half h).2.1
  | .hybSecond h => if hybKem h then psNs (half h).2.2.2 else psNs (half h).2.2.1
  | .importKey => psNs (ecNs 6).2.2.2
  | .quote => psNs (ecNs 1).2.1
  | .readPublic => match keyTypeOf kt with
    | some (.hybrid h _) => psNs (half h).1
    | some .importPair => psNs (ecNs 6).1
    | _ => cost
  | _ => cost

/-- A resident Classic McEliece key that finds no room in cluster shared memory (R41). -/
def State.residentUsed (s : State) (cl : Nat) : Nat :=
  ((s.slots.filter (fun e => e.2.copies.contains cl)).map (fun e => e.2.stored.length)).sum

/-- The cluster of a die with the most room for resident keys. -/
def State.roomiest (s : State) (d : Nat) : Nat := if s.residentUsed (2 * d) ≤ s.residentUsed (2 * d + 1) then 2 * d else 2 * d + 1

/-- Whether a resident key of `n` bytes fits in a cluster: 3,840 KiB are for them. -/
def State.residentFits (s : State) (cl n : Nat) : Bool := decide (s.residentUsed cl + n ≤ 3932160)

/-- A bound job that waits for room for the Classic McEliece key that it makes resident. -/
def State.waitsRoom (s : State) (j : Job) : Bool :=
  j.oper == some .resident && (match keyTypeOf (handleType j.targetHandle) with
    | some (.pq 8 _ _) => !s.residentFits (s.roomiest j.die) j.in0.length
    | _ => false)

/-- A job stands at its yield point, and no save slot of its cluster is free. -/
def State.waitsSlot (s : State) (j : Job) : Bool := j.core.any (fun v => s.fget .VC_STATE_STATE v == 2 && !s.saveRoom v)

/-- The local tick from which a job's internal wait counts. -/
def State.waitFrom (s : State) (j : Job) : Nat := if s.waitsSlot j then (s.core (j.core.getD 0)).yieldAt else j.boundAt

/-- The internal wait in which a dispatched job stands: its number in Table 05.2 and its limit in nanoseconds. An engine's job
waits for the completion interrupt until it comes, whatever stands in the slots. -/
def State.waitOf (s : State) (j : Job) : Option (Nat × Nat) :=
  let o := j.oper.getD .keyInfo
  if !j.running then none
  else if j.core.any (fun v => s.fget .VC_STATE_STATE v == 3) then some (4, s.sched.waitRestore * 1000)
  else if !j.keyArrived then some (1, s.sched.waitKey * 1000)
  else if s.waitsSlot j || (j.phase == .bound && s.waitsRoom j) then some (2, s.sched.waitSlot * 1000)
  else if j.lie.isSome then some (3, scaled (o.liePs j.keyType j.cost) (s.lieMhz (j.lie.getD 0)) * s.sched.waitLie / 8 / 1000)
  else none

/-- An engine taken offline until the next reset (R250, R251): 1 after time-outs, 2 after a table read-back. -/
def State.lieOfflineNow (s : State) (k why ring : Nat) : State :=
  let s := (s.fset .LIE_STATE_STATE k 4).event 0x9004 6 (k / 2) 5 k why ring
  s.readyBit .DEV_READY_MAP_LIE (k / 2) (k % 2) false

/-- An engine reset after a completion time-out (R251): offline at the second within one second. -/
def State.resetLie (s : State) (k code ring : Nat) : State :=
  let x := s.lieAt k
  let near := x.timeouts.any (fun t => decide (s.since t < 1000000000))
  let s := s.setLie k { x with mem := [], timeouts := s.time.ticks :: x.timeouts }
  let s := s.event 0x9003 4 (k / 2) 5 k code ring
  if near then s.lieOfflineNow k 1 ring else s.fset .LIE_STATE_STATE k 0

/-- WAIT_TIMEOUT (R161): an internal wait has exceeded its limit. A job whose refusal is decided keeps its status (R134). -/
def execWaitTimeout (job dt : Nat) (s : State) : Out :=
  let s := s.elapse dt
  match s.job? job with
  | none => .next s
  | some j =>
    match s.waitOf j with
    | none => .next s
    | some (n, lim) =>
      if s.since (s.waitFrom j) ≤ lim then .next s
      else
        let s := s.event 0x5002 4 j.die 3 j.ring n (j.core.getD 0xFFFFFFFF)
        let code := j.lie.map (s.fget .LIE_STATE_COMMAND)
        let s := if j.past then s.endJob j j.status j.detail false else s.endJob j jWaitTimeout 0 true
        match n, j.lie with
        | 3, some k => .next (s.resetLie k (code.getD 0) j.ring)
        | _, _ => .next s

/-! ## Commands (R162, R166, Table 05.3) -/

/-- The checks of a command's TI at payload bytes 0 and 1. -/
def State.tiChecks (s : State) (p : Bytes) : List (Bool × Nat × Nat) :=
  [(decide (s.part.tenants ≤ leAt p 0 2), mBadParam, 0), (!s.tiLive (leAt p 0 2), mNotFound, 0)]

/-- SCHED_SET_SHARE (R162). -/
def execSchedSetShare (s : State) : Out :=
  .next (s.cmd 0x0401 (fun s p =>
    let ti := leAt p 0 2
    let sh := leAt p 2 2
    let lim := leAt p 4 2
    match firstFail (s.tiChecks p ++ [(!(1 ≤ sh && sh ≤ 1000), mBadParam, 2), (decide (4096 < lim), mBadParam, 4),
        (leAt p 6 2 != 0, mBadParam, 6)]) with
    | some (st, d) => s.respond st d []
    | none =>
      let s := s.fset .TI_SCHED_SHARE ti sh
      let s := if lim = 0 then s else s.fset .TI_SCHED_READY_LIMIT ti lim
      (s.event 0x5003 1 0 1 ti sh (s.fget .TI_SCHED_READY_LIMIT ti)).success))

/-- The reservations of a die, all TIs together, leaving one out. -/
def State.reservedTotal (s : State) (d ti : Nat) : Nat :=
  (((List.range s.part.tenants).filter (· ≠ ti)).map (fun t => s.fget .TI_RESV_COUNT (t * 8 + d))).sum

/-- SCHED_SET_RESERVE (R163): growth as cores are idle. A released core that is idle, or that another TI has borrowed,
leaves at once, one with a job of the TI when that job ends; a shrink answers when every released core is free. -/
def execSchedSetReserve (s : State) : Out :=
  .next (s.cmd 0x0402 (fun s p =>
    let ti := leAt p 0 2
    let d := byteAt p 2
    let n := byteAt p 3
    match firstFail (s.tiChecks p ++ [(decide (s.dies ≤ d), mBadParam, 2), (decide (2 ≤ byteAt p 4), mBadParam, 4),
        (!allZero (sliceZ p 5 3), mBadParam, 5), (decide (12 < n) || decide (12 < s.reservedTotal d ti + n), mNoResource, 0)]) with
    | some (st, dt) => s.respond st dt []
    | none =>
      let i := ti * 8 + d
      let s := (s.fset .TI_RESV_COUNT i n).fset .TI_RESV_LEND i (byteAt p 4)
      let s := s.event 0x5004 1 0 1 ti d (n + 256 * byteAt p 4)
      let gone := s.shrinkList ti d n
      let busy := gone.filter (fun v => (s.core v).job.any (fun id => s.sched.jobs.any (fun j => j.id == id && j.ti == ti)))
      let s := (gone.filter (fun v => !busy.contains v)).foldl State.unreserve s
      let s := { s with sched := { s.sched with
        leaving := s.sched.leaving.filter (fun v => v / 16 != d || sparseGet 0 s.sched.reserved v != ti + 1) ++ busy } }
      ((s.growAll d).mbxWait [] none none).mbxSettle))

/-- SCHED_SET_BALANCE (R158). -/
def execSchedSetBalance (s : State) : Out :=
  .next (s.cmd 0x0403 (fun s p =>
    let per := leAt p 0 4
    let th := leAt p 4 4
    let mx := leAt p 8 2
    match firstFail [(!(2 ≤ per && per ≤ 1000), mBadParam, 0), (!(5 ≤ th && th ≤ 10000), mBadParam, 4),
        (!(1 ≤ mx && mx ≤ 1024), mBadParam, 8), (decide (2 ≤ byteAt p 10), mBadParam, 10), (byteAt p 11 != 0, mBadParam, 11)] with
    | some (st, d) => s.respond st d []
    | none =>
      ({ s with sched := { s.sched with balPeriod := per, balThresh := th, balMax := mx, balOn := (byteAt p 10).testBit 0 } }).success))

/-- SCHED_SET_WAIT (R161). -/
def execSchedSetWait (s : State) : Out :=
  .next (s.cmd 0x0404 (fun s p =>
    let a := leAt p 0 4
    let b := leAt p 4 4
    let c := leAt p 8 4
    let d := leAt p 12 4
    match firstFail [(!(1 ≤ a && a ≤ 1000), mBadParam, 0), (!(1 ≤ b && b ≤ 1000), mBadParam, 4),
        (!(12 ≤ c && c ≤ 64), mBadParam, 8), (!(1 ≤ d && d ≤ 1000), mBadParam, 12)] with
    | some (st, o) => s.respond st o []
    | none => ({ s with sched := { s.sched with waitKey := a, waitSlot := b, waitLie := c, waitRestore := d } }).success))

end Sys2Proof.Machine
end

