-- ==== Sys2Proof/Machine/SlhDsa.lean ====
section
/-!
DEFINITION. SLH-DSA of FIPS 205 over its twelve parameter sets: key generation, signing and verification (R58, R59).
-/

namespace Sys2Proof.Machine

/-! ## Parameters (FIPS 205, Table 2) -/

/-- A parameter set: n, h, d, a, k, m, and whether its functions are SHAKE. -/
structure SlhSet where
  n : Nat
  h : Nat
  d : Nat
  a : Nat
  k : Nat
  m : Nat
  xof : Bool
deriving DecidableEq, Repr

/-- The set of an index of Table 02.10. -/
def slhSet (s : Nat) : SlhSet :=
  let sk := s % 2 == 1
  match s / 2 with
  | 0 => ⟨16, 63, 7, 12, 14, 30, sk⟩
  | 1 => ⟨16, 66, 22, 6, 33, 34, sk⟩
  | 2 => ⟨24, 63, 7, 14, 17, 39, sk⟩
  | 3 => ⟨24, 66, 22, 8, 33, 42, sk⟩
  | 4 => ⟨32, 64, 8, 14, 22, 47, sk⟩
  | _ => ⟨32, 68, 17, 9, 35, 49, sk⟩

/-- The height of one tree, and the chains of a WOTS+ key. -/
def SlhSet.hp (p : SlhSet) : Nat := p.h / p.d
def SlhSet.len (p : SlhSet) : Nat := 2 * p.n + 3

/-! ## Addresses -/

/-- An address: layer, tree, type, and its three words. -/
structure SlhAdrs where
  layer : Nat
  tree : Nat
  typ : Nat
  kp : Nat
  w2 : Nat
  w3 : Nat
deriving DecidableEq, Repr

/-- The 32 bytes of an address, and the 22 of its compressed form. -/
def SlhAdrs.bytes (a : SlhAdrs) (short : Bool) : Bytes :=
  let t := beBytes 4 a.kp ++ beBytes 4 a.w2 ++ beBytes 4 a.w3
  if short then beBytes 1 a.layer ++ beBytes 8 a.tree ++ beBytes 1 a.typ ++ t
  else beBytes 4 a.layer ++ beBytes 12 a.tree ++ beBytes 4 a.typ ++ t

/-! ## Functions (FIPS 205, section 11) -/

/-- A tweakable hash: `wide` is H or T, which use SHA-512 above category 1. -/
def SlhSet.tweak (p : SlhSet) (wide : Bool) (seed : Bytes) (ad : SlhAdrs) (m : Bytes) : Bytes :=
  if p.xof then shake 256 (seed ++ ad.bytes false ++ m) p.n
  else if wide && p.n != 16 then (sha2 .sha512 (seed ++ List.replicate (128 - p.n) 0 ++ ad.bytes true ++ m)).take p.n
  else (sha2 .sha256 (seed ++ List.replicate (64 - p.n) 0 ++ ad.bytes true ++ m)).take p.n

/-- PRF_msg. -/
def SlhSet.prfMsg (p : SlhSet) (prf rnd m : Bytes) : Bytes :=
  if p.xof then shake 256 (prf ++ rnd ++ m) p.n
  else (hmac (if p.n = 16 then .sha256 else .sha512) prf (rnd ++ m)).take p.n

/-- H_msg. -/
def SlhSet.hMsg (p : SlhSet) (r seed root m : Bytes) : Bytes :=
  if p.xof then shake 256 (r ++ seed ++ root ++ m) p.m
  else
    let f : Sha2 := if p.n = 16 then .sha256 else .sha512
    mgf1 f (r ++ seed ++ sha2 f (r ++ seed ++ root ++ m)) p.m

/-- base_2^b: `k` digits of `b` bits from the front of a string. -/
def baseDigits (b k : Nat) (m : Bytes) : List Nat :=
  let n := beNat m
  (List.range k).map (fun i => (n >>> (8 * m.length - b * (i + 1))) % 2 ^ b)

/-! ## WOTS+ -/

/-- A chain from step `i`, `s` steps long. -/
def SlhSet.chain (p : SlhSet) (seed : Bytes) (ad : SlhAdrs) : Nat → Nat → Bytes → Bytes
  | _, 0, x => x
  | i, s + 1, x => p.chain seed ad (i + 1) s (p.tweak false seed { ad with w3 := i } x)

/-- The digits of a message of n bytes and of its checksum. -/
def SlhSet.digits (p : SlhSet) (m : Bytes) : List Nat :=
  let d := baseDigits 4 (2 * p.n) m
  d ++ baseDigits 4 3 (beBytes 2 (16 * (d.map (fun x => 15 - x)).sum))

/-- The secret of one chain. -/
def SlhSet.wotsSecret (p : SlhSet) (sk seed : Bytes) (ad : SlhAdrs) (i : Nat) : Bytes :=
  p.tweak false seed { ad with typ := 5, w2 := i, w3 := 0 } sk

/-- The compressed public key of chain ends. -/
def SlhSet.wotsPk (p : SlhSet) (seed : Bytes) (ad : SlhAdrs) (ends : List Bytes) : Bytes :=
  p.tweak true seed { ad with typ := 1, w2 := 0, w3 := 0 } ends.flatten

/-- wots_pkGen of the key pair that `ad` names. -/
def SlhSet.wotsGen (p : SlhSet) (sk seed : Bytes) (ad : SlhAdrs) : Bytes :=
  p.wotsPk seed ad ((List.range p.len).map (fun i =>
    p.chain seed { ad with typ := 0, w2 := i } 0 15 (p.wotsSecret sk seed ad i)))

/-- wots_sign. -/
def SlhSet.wotsSign (p : SlhSet) (m sk seed : Bytes) (ad : SlhAdrs) : Bytes :=
  ((p.digits m).zipIdx).flatMap (fun x => p.chain seed { ad with typ := 0, w2 := x.2 } 0 x.1 (p.wotsSecret sk seed ad x.2))

/-- wots_pkFromSig. -/
def SlhSet.wotsFrom (p : SlhSet) (sig m seed : Bytes) (ad : SlhAdrs) : Bytes :=
  p.wotsPk seed ad (((p.digits m).zipIdx).map (fun x =>
    p.chain seed { ad with typ := 0, w2 := x.2 } x.1 (15 - x.1) (sliceZ sig (x.2 * p.n) p.n)))

/-! ## XMSS trees and the hypertree -/

/-- xmss_node: index and height. -/
def SlhSet.node (p : SlhSet) (sk seed : Bytes) (ad : SlhAdrs) : Nat → Nat → Bytes
  | 0, i => p.wotsGen sk seed { ad with kp := i }
  | z + 1, i =>
    p.tweak true seed { ad with typ := 2, kp := 0, w2 := z + 1, w3 := i }
      (p.node sk seed ad z (2 * i) ++ p.node sk seed ad z (2 * i + 1))

/-- A root from a leaf and its authentication path: the step from height `k` on. -/
def SlhSet.climb (p : SlhSet) (seed : Bytes) (ad : SlhAdrs) : Nat → Nat → Nat → Bytes → Bytes → Bytes
  | 0, _, _, _, x => x
  | n + 1, k, i, auth, x =>
    let b := auth.take p.n
    let ad' := { ad with w2 := k + 1, w3 := i / 2 }
    p.climb seed ad n (k + 1) (i / 2) (auth.drop p.n) (p.tweak true seed ad' (if i % 2 = 0 then x ++ b else b ++ x))

/-- xmss_sign. -/
def SlhSet.treeSign (p : SlhSet) (m sk seed : Bytes) (ad : SlhAdrs) (i : Nat) : Bytes :=
  p.wotsSign m sk seed { ad with kp := i } ++
    (List.range p.hp).flatMap (fun j => p.node sk seed ad j ((i >>> j) ^^^ 1))

/-- xmss_pkFromSig. -/
def SlhSet.treeFrom (p : SlhSet) (i : Nat) (sig m seed : Bytes) (ad : SlhAdrs) : Bytes :=
  p.climb seed { ad with typ := 2, kp := 0 } p.hp 0 i (sig.drop (p.len * p.n)) (p.wotsFrom sig m seed { ad with kp := i })

/-- The address of a tree. -/
def treeAdrs (layer tree : Nat) : SlhAdrs := ⟨layer, tree, 0, 0, 0, 0⟩

/-- ht_sign from layer `j` on. -/
def SlhSet.hyperSign (p : SlhSet) (sk seed : Bytes) : Nat → Nat → Nat → Nat → Bytes → Bytes
  | 0, _, _, _, _ => []
  | n + 1, j, tree, leaf, m =>
    let ad := treeAdrs j tree
    let sig := p.treeSign m sk seed ad leaf
    sig ++ p.hyperSign sk seed n (j + 1) (tree >>> p.hp) (tree % 2 ^ p.hp) (p.treeFrom leaf sig m seed ad)

/-- The root that a hypertree signature leads to, from layer `j` on. -/
def SlhSet.hyperFrom (p : SlhSet) (seed : Bytes) : Nat → Nat → Nat → Nat → Bytes → Bytes → Bytes
  | 0, _, _, _, _, m => m
  | n + 1, j, tree, leaf, sig, m =>
    let k := (p.len + p.hp) * p.n
    p.hyperFrom seed n (j + 1) (tree >>> p.hp) (tree % 2 ^ p.hp) (sig.drop k)
      (p.treeFrom leaf (sig.take k) m seed (treeAdrs j tree))

/-! ## FORS -/

/-- The secret of a leaf. -/
def SlhSet.forsSecret (p : SlhSet) (sk seed : Bytes) (ad : SlhAdrs) (i : Nat) : Bytes :=
  p.tweak false seed { ad with typ := 6, w2 := 0, w3 := i } sk

/-- fors_node: height and index. -/
def SlhSet.forsNode (p : SlhSet) (sk seed : Bytes) (ad : SlhAdrs) : Nat → Nat → Bytes
  | 0, i => p.tweak false seed { ad with typ := 3, w2 := 0, w3 := i } (p.forsSecret sk seed ad i)
  | z + 1, i =>
    p.tweak true seed { ad with typ := 3, w2 := z + 1, w3 := i }
      (p.forsNode sk seed ad z (2 * i) ++ p.forsNode sk seed ad z (2 * i + 1))

/-- fors_sign. -/
def SlhSet.forsSign (p : SlhSet) (md sk seed : Bytes) (ad : SlhAdrs) : Bytes :=
  ((baseDigits p.a p.k md).zipIdx).flatMap (fun x =>
    p.forsSecret sk seed ad (x.2 * 2 ^ p.a + x.1) ++
      (List.range p.a).flatMap (fun j => p.forsNode sk seed ad j (x.2 * 2 ^ (p.a - j) + ((x.1 >>> j) ^^^ 1))))

/-- fors_pkFromSig. -/
def SlhSet.forsFrom (p : SlhSet) (sig md seed : Bytes) (ad : SlhAdrs) : Bytes :=
  let k := (p.a + 1) * p.n
  let roots := ((baseDigits p.a p.k md).zipIdx).map (fun x =>
    let i := x.2 * 2 ^ p.a + x.1
    let b := sliceZ sig (x.2 * k) k
    p.climb seed { ad with typ := 3 } p.a 0 i (b.drop p.n)
      (p.tweak false seed { ad with typ := 3, w2 := 0, w3 := i } (b.take p.n)))
  p.tweak true seed { ad with typ := 4, w2 := 0, w3 := 0 } roots.flatten

/-! ## Keys, signatures -/

/-- What a message digest selects: the FORS message, the tree, the leaf. -/
def SlhSet.split (p : SlhSet) (dig : Bytes) : Bytes × Nat × Nat :=
  let a := ceilDiv (p.k * p.a) 8
  let b := ceilDiv (p.h - p.hp) 8
  (dig.take a, beNat (sliceZ dig a b) % 2 ^ (p.h - p.hp), beNat (sliceZ dig (a + b) (ceilDiv p.hp 8)) % 2 ^ p.hp)

/-- The stored private form SK.seed ‖ SK.prf ‖ PK.seed ‖ PK.root of three random strings. -/
def slhDsaPrivate (s : Nat) (r : Bytes) : Bytes :=
  let p := slhSet s
  let r := sliceZ r 0 (3 * p.n)
  r ++ p.node (r.take p.n) (r.drop (2 * p.n)) (treeAdrs (p.d - 1) 0) p.hp 0

/-- SLH-DSA signing with opt_rand. -/
def slhDsaSign (s : Nat) (priv : Bytes) (ph : Nat) (ctx m rnd : Bytes) : Bytes :=
  let p := slhSet s
  let sk := sliceZ priv 0 p.n
  let seed := sliceZ priv (2 * p.n) p.n
  let m' := messageForm ph ctx m
  let r := p.prfMsg (sliceZ priv p.n p.n) rnd m'
  let (md, tree, leaf) := p.split (p.hMsg r seed (sliceZ priv (3 * p.n) p.n) m')
  let ad := { treeAdrs 0 tree with kp := leaf }
  let f := p.forsSign md sk seed ad
  r ++ f ++ p.hyperSign sk seed p.d 0 tree leaf (p.forsFrom f md seed ad)

/-- SLH-DSA verification of a signature of the set's length. -/
def slhDsaVerify (s : Nat) (pk : Bytes) (ph : Nat) (ctx m sig : Bytes) : Bool :=
  let p := slhSet s
  let seed := pk.take p.n
  let root := pk.drop p.n
  let m' := messageForm ph ctx m
  let (md, tree, leaf) := p.split (p.hMsg (sig.take p.n) seed root m')
  let n := p.k * (p.a + 1) * p.n
  p.hyperFrom seed p.d 0 tree leaf (sig.drop (p.n + n)) (p.forsFrom (sliceZ sig p.n n) md seed { treeAdrs 0 tree with kp := leaf }) == root

end Sys2Proof.Machine
end

