-- ==== Sys2Proof/Machine/HbsVerify.lean ====
section
/-!
DEFINITION. Verification under LMS and HSS (RFC 8554) and under XMSS and XMSS^MT (RFC 8391), with the parameter sets of
SP 800-208 (R60).
-/

namespace Sys2Proof.Machine

/-- The hash of a parameter set, cut to `n` bytes. -/
def hbsHash (shakeSet : Bool) (n : Nat) (m : Bytes) : Bytes := if shakeSet then shake 256 m n else (sha2 .sha256 m).take n

/-! ## LMS and HSS -/

/-- The Winternitz parameter of an LM-OTS type. -/
def otsW (t : Nat) : Nat := [1, 2, 4, 8].getD ((t - 1) % 4) 1

/-- The digits of a hash and of its checksum: `p` digits of `w` bits (RFC 8554, 4.4). -/
def otsDigits (w p : Nat) (q : Bytes) : List Nat :=
  let d := baseDigits w (8 * q.length / w) q
  let ck := (d.map (fun x => 2 ^ w - 1 - x)).sum
  let v := p - 8 * q.length / w
  d ++ baseDigits w v (beBytes 2 (ck * 2 ^ (16 - v * w)))

/-- A chain of LM-OTS from step `j`, `s` steps long; `pre` is I ‖ q ‖ i. -/
def otsChain (sk : Bool) (n : Nat) (pre : Bytes) : Nat → Nat → Bytes → Bytes
  | _, 0, x => x
  | j, s + 1, x => otsChain sk n pre (j + 1) s (hbsHash sk n (pre ++ leBytes 1 j ++ x))

/-- The LM-OTS public key that a signature leads to (RFC 8554, Algorithm 4b); `sig` begins with the type. -/
def otsFrom (sk : Bool) (n p w : Nat) (id : Bytes) (q : Nat) (m sig : Bytes) : Bytes :=
  let iq := id ++ beBytes 4 q
  let d := hbsHash sk n (iq ++ [0x81, 0x81] ++ sliceZ sig 4 n ++ m)
  let z := ((otsDigits w p d).zipIdx).flatMap (fun x =>
    otsChain sk n (iq ++ beBytes 2 x.2) x.1 (2 ^ w - 1 - x.1) (sliceZ sig (4 + n + x.2 * n) n))
  hbsHash sk n (iq ++ [0x80, 0x80] ++ z)

/-- The root that a node and its path lead to: node number, levels left. -/
def lmsClimb (sk : Bool) (n : Nat) (id : Bytes) : Nat → Nat → Bytes → Bytes → Bytes
  | 0, _, _, x => x
  | h + 1, node, path, x =>
    let b := path.take n
    lmsClimb sk n id h (node / 2) (path.drop n)
      (hbsHash sk n (id ++ beBytes 4 (node / 2) ++ [0x83, 0x83] ++ (if node % 2 = 1 then b ++ x else x ++ b)))

/-- LMS verification (RFC 8554, Algorithm 6): the types of the signature are those of the key, its length is theirs. -/
def lmsVerify (pk m sig : Bytes) : Bool :=
  let t := beNat (sliceZ pk 0 4)
  let o := beNat (sliceZ pk 4 4)
  match lmsType t, otsType o with
  | some (n, h, sk), some (_, p, _, _) =>
    let id := sliceZ pk 8 16
    let q := beNat (sliceZ sig 0 4)
    let k := 4 + n + p * n
    let leaf := hbsHash sk n (id ++ beBytes 4 (2 ^ h + q) ++ [0x82, 0x82] ++ otsFrom sk n p (otsW o) id q m (sliceZ sig 4 k))
    decide (sig.length = 4 + k + 4 + h * n) && beNat (sliceZ sig 4 4) == o && beNat (sliceZ sig (4 + k) 4) == t &&
      decide (q < 2 ^ h) && lmsClimb sk n id h (2 ^ h + q) (sig.drop (4 + k + 4)) leaf == pk.drop 24
  | _, _ => false

/-- The levels of an HSS signature below a key: each signs the next public key, the last the message (RFC 8554, 6.3). -/
def hssGo (m : Bytes) : Nat → Bytes → Bytes → Bool
  | 0, pk, sig => lmsVerify pk m sig
  | n + 1, pk, sig =>
    let k := lmsSigLen (beNat (sliceZ pk 0 4)) (beNat (sliceZ pk 4 4))
    let b := sig.drop k
    match lmsType (beNat (sliceZ b 0 4)) with
    | none => false
    | some (l, _, _) => lmsVerify pk (sliceZ b 0 (24 + l)) (sig.take k) && hssGo m n (b.take (24 + l)) (b.drop (24 + l))

/-- HSS verification. -/
def hssVerify (pk m sig : Bytes) : Bool :=
  let l := beNat (sliceZ pk 0 4)
  beNat (sliceZ sig 0 4) + 1 == l && hssGo m (l - 1) (pk.drop 4) (sig.drop 4)

/-! ## XMSS and XMSS^MT -/

/-- The keyed functions F, H, H_msg and PRF (0 to 3) of a set. -/
def xmssF (sk : Bool) (n f : Nat) (key m : Bytes) : Bytes :=
  hbsHash sk n (beBytes (if n = 24 then 4 else 32) f ++ key ++ m)

/-- An address of RFC 8391: layer, tree, type, and its three words before keyAndMask. -/
structure XAdrs where
  layer : Nat
  tree : Nat
  typ : Nat
  w4 : Nat
  w5 : Nat
  w6 : Nat
deriving DecidableEq, Repr

/-- PRF of an address with a keyAndMask. -/
def xmssPrf (sk : Bool) (n : Nat) (seed : Bytes) (a : XAdrs) (km : Nat) : Bytes :=
  xmssF sk n 3 seed (beBytes 4 a.layer ++ beBytes 8 a.tree ++ beBytes 4 a.typ ++ beBytes 4 a.w4 ++ beBytes 4 a.w5 ++
    beBytes 4 a.w6 ++ beBytes 4 km)

/-- RAND_HASH of two nodes. -/
def xmssPair (sk : Bool) (n : Nat) (seed : Bytes) (a : XAdrs) (l r : Bytes) : Bytes :=
  xmssF sk n 1 (xmssPrf sk n seed a 0) (xorBytes l (xmssPrf sk n seed a 1) ++ xorBytes r (xmssPrf sk n seed a 2))

/-- A WOTS+ chain from step `i`, `s` steps long. -/
def xmssChain (sk : Bool) (n : Nat) (seed : Bytes) (a : XAdrs) : Nat → Nat → Bytes → Bytes
  | _, 0, x => x
  | i, s + 1, x =>
    let a' := { a with w6 := i }
    xmssChain sk n seed a (i + 1) s (xmssF sk n 0 (xmssPrf sk n seed a' 0) (xorBytes x (xmssPrf sk n seed a' 1)))

/-- One level of an L-tree from tree index `i` on. -/
def xmssLevel (sk : Bool) (n : Nat) (seed : Bytes) (a : XAdrs) : Nat → List Bytes → List Bytes
  | i, l :: r :: t => xmssPair sk n seed { a with w6 := i } l r :: xmssLevel sk n seed a (i + 1) t
  | _, t => t

/-- An L-tree from height `h` on: its root. -/
def xmssLtree (sk : Bool) (n : Nat) (seed : Bytes) (a : XAdrs) : Nat → Nat → List Bytes → Bytes
  | 0, _, l => l.headD []
  | f + 1, h, l => if l.length ≤ 1 then l.headD [] else xmssLtree sk n seed a f (h + 1) (xmssLevel sk n seed { a with w5 := h } 0 l)

/-- The root that a leaf and its path lead to, from height `k` on. -/
def xmssClimb (sk : Bool) (n : Nat) (seed : Bytes) (a : XAdrs) : Nat → Nat → Nat → Bytes → Bytes → Bytes
  | 0, _, _, _, x => x
  | f + 1, k, i, auth, x =>
    let b := auth.take n
    let a' := { a with w5 := k, w6 := i / 2 }
    xmssClimb sk n seed a f (k + 1) (i / 2) (auth.drop n)
      (if i % 2 = 0 then xmssPair sk n seed a' x b else xmssPair sk n seed a' b x)

/-- XMSS_rootFromSig: leaf index, signature and path, message hash; layer and tree in `a`. -/
def xmssRoot (sk : Bool) (n h : Nat) (seed : Bytes) (a : XAdrs) (i : Nat) (sig m : Bytes) : Bytes :=
  let d := baseDigits 4 (2 * n) m
  let d := d ++ baseDigits 4 3 (beBytes 2 (16 * (d.map (fun x => 15 - x)).sum))
  let ends := (d.zipIdx).map (fun x =>
    xmssChain sk n seed { a with typ := 0, w4 := i, w5 := x.2, w6 := 0 } x.1 (15 - x.1) (sliceZ sig (x.2 * n) n))
  let leaf := xmssLtree sk n seed { a with typ := 1, w4 := i, w5 := 0, w6 := 0 } 8 0 ends
  xmssClimb sk n seed { a with typ := 2, w4 := 0, w5 := 0, w6 := 0 } h 0 i (sig.drop ((2 * n + 3) * n)) leaf

/-- The layers of an XMSS^MT signature from layer `j` on. -/
def xmssLayers (sk : Bool) (n hp : Nat) (seed : Bytes) : Nat → Nat → Nat → Bytes → Bytes → Bytes
  | 0, _, _, _, m => m
  | f + 1, j, idx, sig, m =>
    let k := (2 * n + 3 + hp) * n
    xmssLayers sk n hp seed f (j + 1) (idx >>> hp) (sig.drop k)
      (xmssRoot sk n hp seed ⟨j, idx >>> hp, 0, 0, 0, 0⟩ (idx % 2 ^ hp) (sig.take k) m)

/-- XMSS and XMSS^MT verification: an XMSS tree is one layer; its index has four bytes, that of XMSS^MT as many as its height
needs. -/
def xmssVerify (mt : Bool) (pk m sig : Bytes) : Bool :=
  let t := beNat (sliceZ pk 0 4)
  match (if mt then xmssMtType t else xmssType t) with
  | none => false
  | some (n, h, d, sk) =>
    let il := if mt then ceilDiv h 8 else 4
    let idx := beNat (sliceZ sig 0 il)
    let root := sliceZ pk 4 n
    let seed := sliceZ pk (4 + n) n
    let dig := xmssF sk n 2 (sliceZ sig il n ++ root ++ beBytes n idx) m
    decide (sig.length = il + n + (d * (2 * n + 3) + h) * n) && decide (idx < 2 ^ h) &&
      xmssLayers sk n (h / d) seed d 0 idx (sig.drop (il + n)) dig == root

/-- Verification by opcode: 0 LMS, 1 HSS, 2 XMSS, 3 XMSS^MT. -/
def hbsVerify (which : Nat) (pk m sig : Bytes) : Bool :=
  match which with
  | 0 => lmsVerify pk m sig
  | 1 => hssVerify pk m sig
  | 2 => xmssVerify false pk m sig
  | _ => xmssVerify true pk m sig

end Sys2Proof.Machine
end

