-- ==== Sys2Proof/Machine/Engine.lean ====
section
/-! DEFINITION. The operand memory of the long-integer engines and what their commands compute on its positions (R235 to
R240, R242, R244, R245). -/

namespace Sys2Proof.Machine

/-! ## Operand memory (R235, R236, R238) -/

/-- L, and the slots that it gives. -/
def State.lieWords (s : State) (k : Nat) : Nat := s.fget .LIE_CFG_SLOT_WORDS k
def State.lieSlots (s : State) (k : Nat) : Nat := 8192 / s.lieWords k

/-- A byte address of the public tables: slots 171 to 226 at L of 36. -/
def inTables (a : Nat) : Bool := decide (171 * 288 ≤ a ∧ a < 227 * 288)

/-- A byte of operand memory. -/
def LieX.byte (x : LieX) (a : Nat) : Byte :=
  if x.tables && inTables a then
    (if sparseGet 256 x.tab a = 256 then Config.lieTable a else BitVec.ofNat 8 (sparseGet 256 x.tab a))
  else memByte 0 x.mem a

/-- A byte of operand memory written. -/
def LieX.setByte (x : LieX) (a : Nat) (b : Byte) : LieX :=
  if x.tables && inTables a then { x with tab := sparseSet 256 x.tab a b.toNat } else { x with mem := memSet 0 x.mem a b }

/-- `n` bytes of operand memory. -/
def LieX.read (x : LieX) (a n : Nat) : Bytes := (List.range n).map (fun i => x.byte (a + i))

/-- A string of bytes written to operand memory. -/
def LieX.write (x : LieX) (a : Nat) : Bytes → LieX
  | [] => x
  | b :: t => (x.setByte a b).write (a + 1) t

/-! ## Commands and positions (Tables 08.1 to 08.4) -/

/-- Whether a code lists a SIZE. -/
def directOk (code size : Nat) : Bool :=
  match code with
  | 0x01 | 0x02 => decide (size ≤ 3)
  | 0x11 | 0x12 | 0x13 => decide (size ≤ 2)
  | 0x14 => decide (size ≤ 1)
  | 0x21 | 0x22 | 0x23 => decide (size = 3 ∨ size = 4)
  | 0x31 | 0x32 => decide (size = 5 ∨ size = 6)
  | _ => false

/-- Positions that a command uses. -/
def directPositions (code : Nat) : Nat :=
  match code with
  | 0x01 => 21 | 0x02 => 8 | 0x12 | 0x14 | 0x22 => 14 | 0x21 => 10 | _ => 12

/-- The operand length of a command in bytes (R236). -/
def directBytes (code size : Nat) : Nat := if code ≤ 2 then rsaK size else (curveAt size).fieldLen

/-- Slots of one position. -/
def State.lieRun (s : State) (k code size : Nat) : Nat := ceilDiv (directBytes code size) (8 * s.lieWords k)

/-- Phases V, C and K in tenths of a microsecond at P0 (Table 08.3). -/
def directTimes (code size : Nat) : Nat × Nat × Nat :=
  match code with
  | 0x01 => ([3, 4, 5, 10].getD size 0, [1140, 3680, 8000, 58250].getD size 0, [47, 106, 185, 730].getD size 0)
  | 0x02 => ([3, 4, 5, 10].getD size 0, [47, 106, 185, 730].getD size 0, 0)
  | 0x11 | 0x21 => (0, [90, 290, 780, 70, 300].getD size 0, [20, 40, 70, 30, 60].getD size 0)
  | 0x12 | 0x22 => (0, [120, 340, 880, 80, 340].getD size 0, [20, 40, 70, 30, 60].getD size 0)
  | 0x13 | 0x23 => ([20, 40, 70, 30, 60].getD size 0, [260, 710, 1830, 210, 740].getD size 0, 0)
  | 0x14 => ([20, 40].getD size 0, [110, 310].getD size 0, [110, 310].getD size 0)
  | 0x31 => (0, [105, 325].getD (size - 5) 0, [105, 325].getD (size - 5) 0)
  | _ => ([5, 10].getD (size - 5) 0, [100, 315].getD (size - 5) 0, [105, 325].getD (size - 5) 0)

/-- Output positions of a command: values, and pairs of shares. -/
def directOutputs (code : Nat) : List Nat × List (Nat × Nat) :=
  match code with
  | 0x01 => ([20], [])
  | 0x02 => ([7], [])
  | 0x11 => ([5, 6], [(0, 1)])
  | 0x12 => ([7, 8], [])
  | 0x13 => ([5], [])
  | 0x14 => ([], [(8, 9)])
  | 0x21 => ([4], [])
  | 0x22 => ([8, 9], [])
  | 0x23 => ([4], [])
  | 0x31 => ([7, 8], [(0, 1)])
  | _ => ([], [(7, 8)])

/-- Work positions, whose words after a command are not stated. -/
def directWork (code : Nat) : List Nat :=
  match code with
  | 0x01 => [15, 16, 17, 18, 19]
  | 0x02 => [3, 4, 5, 6]
  | 0x11 => [7, 8, 9, 10, 11]
  | 0x12 => [9, 10, 11, 12, 13]
  | 0x13 => [6, 7, 8, 9, 10, 11]
  | 0x14 => [10, 11, 12, 13]
  | 0x21 => [5, 6, 7, 8, 9]
  | 0x22 => [10, 11, 12, 13]
  | 0x23 => [5, 6, 7, 8, 9, 10, 11]
  | _ => [9, 10, 11]

/-- What a command produces: a status, the values of its output positions, and those of its share pairs. -/
structure LieRes where
  status : Nat
  outs : List Nat
  shares : List Nat
deriving DecidableEq, Repr

/-- A value as a field element or scalar string; one that does not fit keeps being out of range. -/
def fitBe (n v : Nat) : Bytes := beBytes n (min v (2 ^ (8 * n) - 1))
def fitLe (n v : Nat) : Bytes := leBytes n (min v (2 ^ (8 * n) - 1))

/-- A point as its uncompressed encoding. -/
def sec1Of (c : Curve) (x y : Nat) : Bytes := [4] ++ fitBe c.fieldLen x ++ fitBe c.fieldLen y

/-- A verification's status word. -/
def verdictWord (b : Bool) : Nat := if b then 0 else 1

/-- ECDSA on an integer e. -/
def ecdsaSignE (c : Curve) (d k e : Nat) : Nat × Nat :=
  let r := match wBase c k with
    | none => 0
    | some (x, _) => x % c.n
  (r, invPrime k c.n * (e + r * d) % c.n)

/-- ECDSA verification on an integer e. -/
def ecdsaVerifyE (c : Curve) (q : Nat × Nat) (e r s : Nat) : Bool :=
  let w := invPrime s c.n
  let u2 := r * w % c.n
  match wAdd c (wBase c (e * w % c.n)) (wMul c (bitLen u2) u2 (some q)) with
  | none => false
  | some (x, _) => x % c.n == r

/-- The EdDSA verification equation with h supplied. -/
def edEquation (c : Curve) (a r : Bytes) (s h : Nat) : Bool :=
  match edDecode c a, edDecode c r with
  | some q, some p => edBase c s == edAdd c p (edMul c (bitLen h) h q)
  | _, _ => false

/-- A curve point's coordinates, the point at infinity as zeros. -/
def affine : Option (Nat × Nat) → Nat × Nat
  | none => (0, 0)
  | some q => q

/-- A new public key from a scalar, checked as a received one of its curve would be (R245): the coordinates of a point,
the encoding A, or u twice. -/
def ecKeyResult (c : Curve) (d : Nat) : LieRes :=
  let made := fun (bad : Option Nat) (outs : List Nat) =>
    if bad.isSome then LieRes.mk jMachineCheck [] [] else ⟨jOk, outs, [d]⟩
  if c.weier then
    let q := affine (wBase c d)
    made (pointCheck c (sec1Of c q.1 q.2)) [q.1, q.2]
  else if c.edwards then
    let a := edEncode c (edBase c d)
    made (edKeyCheck c a) [leNat a]
  else
    let u := xMul c (xClamp c (leBytes c.fieldLen d)) (if c = .x25519 then 9 else 5)
    made (uCheck c (leBytes c.fieldLen u)) [u, u]

/-- A direct command on the values of its positions: `at'` reads one, `sh` adds two shares (R237, R239, R240, R245). -/
def directResult (code size : Nat) (at' : Nat → Nat) (sh : Nat → Nat → Nat) : LieRes :=
  let c := curveAt size
  let n := c.fieldLen
  match code with
  | 0x01 =>
    let r : RsaPrivate := ⟨at' 0, at' 1 % 2 ^ 64, sh 3 4, sh 5 6, sh 7 8, sh 9 10, sh 11 12⟩
    match repCheck r.n (at' 2) with
    | some st => ⟨st, [], []⟩
    | none =>
      let x := rsaPrivateOp r (at' 2)
      if powMod x r.e r.n = at' 2 then ⟨jOk, [x], []⟩ else ⟨jMachineCheck, [], []⟩
  | 0x02 =>
    let pk := fitBe (rsaK size) (at' 0) ++ fitBe 4 (at' 1 % 2 ^ 64)
    match firstOf [rsaPubCheck (rsaK size) pk, repCheck (at' 0) (at' 2)] with
    | some st => ⟨st, [], []⟩
    | none => ⟨jOk, [powMod (at' 2) (at' 1 % 2 ^ 64) (at' 0)], []⟩
  | 0x11 | 0x31 => ecKeyResult c (at' 2 % (c.n - 1) + 1)
  | 0x12 =>
    let k := at' 3 % (c.n - 1) + 1
    let r := ecdsaSignE c (sh 1 2) k (at' 0)
    let w := invPrime r.2 c.n
    if r.1 = 0 || r.2 = 0 || (at' 0 * w + r.1 * w * sh 1 2) % c.n ≠ k then ⟨jMachineCheck, [], []⟩ else ⟨jOk, [r.1, r.2], []⟩
  | 0x13 =>
    match firstOf [pointCheck c (sec1Of c (at' 1) (at' 2)), ecSigCheck c (fitBe n (at' 3) ++ fitBe n (at' 4))] with
    | some st => ⟨st, [], []⟩
    | none =>
      let v := ecdsaVerifyE c (at' 1, at' 2) (at' 0) (at' 3) (at' 4)
      ⟨if v then jOk else jVerifyFail, [verdictWord v], []⟩
  | 0x14 =>
    match pointCheck c (sec1Of c (at' 0) (at' 1)) with
    | some st => ⟨st, [], []⟩
    | none =>
      let d := sh 2 3
      ⟨jOk, [], [(affine (wMul c (bitLen d) d (some (at' 0, at' 1)))).1]⟩
  | 0x21 => ecKeyResult c (sh 0 1)
  | 0x22 =>
    let k := sh 3 4
    let r := edEncode c (edBase c k)
    if (edKeyCheck c r).isSome then ⟨jMachineCheck, [], []⟩ else ⟨jOk, [leNat r, (k + at' 5 * sh 1 2) % c.n], []⟩
  | 0x23 =>
    let a := fitLe n (at' 0)
    let r := fitLe n (at' 1)
    match firstOf [edKeyCheck c a, ecSigCheck c (r ++ fitLe n (at' 2))] with
    | some st => ⟨st, [], []⟩
    | none =>
      let v := edEquation c a r (at' 2) (at' 3)
      ⟨if v then jOk else jVerifyFail, [verdictWord v], []⟩
  | _ =>
    let b := fitLe n (at' 0)
    match uCheck c b with
    | some st => ⟨st, [], []⟩
    | none => ⟨jOk, [], [xMul c (xClamp c (leBytes n (sh 1 2))) (at' 0)]⟩

/-- A refusal or a failed check: no output stands. -/
def LieRes.failed (r : LieRes) : Bool := r.status != jOk && r.status != jVerifyFail

/-- A refusal in phase V. -/
def LieRes.refused (r : LieRes) : Bool := r.failed && r.status != jMachineCheck

/-- Values laid into positions. -/
def layValues (len : Nat) (addr : Nat → Nat) : List Nat → List Nat → LieX → LieX
  | p :: ps, v :: vs, x => layValues len addr ps vs (x.write (addr p) (leBytes len v))
  | _, _, x => x

/-- Values laid into pairs of positions as two shares whose sum modulo 2^(8·len) they are: the first share is free. -/
def layShares (len : Nat) (addr : Nat → Nat) (free : Nat) : List (Nat × Nat) → List Nat → LieX → LieX
  | (p, q) :: ps, v :: vs, x =>
    let a := leNat (freeBytes free len)
    let x := (x.write (addr p) (leBytes len a)).write (addr q) (leBytes len (v + 2 ^ (8 * len) - a))
    layShares len addr (free + len) ps vs x
  | _, _, x => x

/-- Free words laid into the work positions. -/
def layWork (len : Nat) (addr : Nat → Nat) (free : Nat) : List Nat → LieX → LieX
  | p :: ps, x => layWork len addr (free + len) ps (x.write (addr p) (freeBytes free len))
  | [], x => x

/-- The positions after a command of position length `len`: outputs, shares and work, or the outputs zero where it has
failed. -/
def LieX.outcome (x : LieX) (code len : Nat) (addr : Nat → Nat) (free : Nat) (r : LieRes) : LieX :=
  let (ps, sh) := directOutputs code
  if r.failed then
    layValues len addr (ps ++ sh.flatMap (fun q => [q.1, q.2])) (List.replicate (ps.length + 2 * sh.length) 0) x
  else layWork len addr (free + 4 * len) (directWork code) (layShares len addr free sh r.shares (layValues len addr ps r.outs x))

end Sys2Proof.Machine
end

