-- ==== Sys2Proof/Machine/LieJob.lean ====
section
/-!
DEFINITION. The commands that the engines run for jobs: what the dispatcher stages in their positions, the digests that their
channel takes, and what stands in the positions afterwards (R234, R236 to R241, R244 to R246, R249, R267).
-/

namespace Sys2Proof.Machine

/-- The result of an operation before its release check: status, Out (after the handle, where a key is made), the key to
create, whether a long-integer engine refused a public value in phase V (R244), and whether the operation starts again from
fresh randomness in place of ending (R62). -/
structure OpRes where
  st : Nat
  out : Bytes
  key : Option Bytes
  refused : Bool
  again : Bool
deriving DecidableEq, Repr

/-- OK with a result. -/
def OpRes.ok (b : Bytes) : OpRes := ⟨jOk, b, none, false, false⟩

/-- OK with a key to create and what follows its handle. -/
def OpRes.made (k b : Bytes) : OpRes := ⟨jOk, b, some k, false, false⟩

/-- Another status. -/
def OpRes.fail (st : Nat) : OpRes := ⟨st, [], none, false, false⟩

/-- A refusal in phase V. -/
def OpRes.refuse (st : Nat) : OpRes := ⟨st, [], none, true, false⟩

/-- The operation starts again. -/
def OpRes.restart : OpRes := ⟨jOk, [], none, false, true⟩

/-- A verification's verdict. -/
def OpRes.verdict (b : Bool) : OpRes := if b then .ok [] else .fail jVerifyFail

/-- A result after a check: the first failure decides. -/
def OpRes.after (c : Option Nat) (r : OpRes) : OpRes :=
  match c with
  | some st => .fail st
  | none => r

/-- A result after a check in phase V. -/
def OpRes.afterV (c : Option Nat) (r : OpRes) : OpRes :=
  match c with
  | some st => .refuse st
  | none => r

/-! ## Passed public keys (R44) -/

/-- A public key of `n` bytes that leads In0 or In1, or the resident one, and what follows it. -/
def Job.pubAnd (j : Job) (b : Bytes) (n : Nat) : Bytes × Bytes :=
  if sqeKey j.sqe = 0 then (b.take n, b.drop n) else (j.keyBytes, b)

/-- The length of a passed key: a single byte stands for infinity (Table 02.19). -/
def passedLen (c : Curve) (total sig : Nat) : Nat := if total = 1 + sig then 1 else c.pubLen

/-! ## Lengths of the random inputs -/

/-- Random bytes of a key generation (FIPS 203 to 205; the code-based seed length is the model's). -/
def pqSeedLen (fam set : Nat) : Nat :=
  match fam with
  | 3 => 64
  | 4 => 32
  | 5 => 3 * slhN set
  | _ => 64

/-- Random bytes of an encapsulation. -/
def pqEncDraw (fam : Nat) : Nat := if fam = 3 then 32 else 64

/-- Random bytes of a signature: hedged ML-DSA, and opt_rand of SLH-DSA (R58). -/
def pqSignDraw (fam set : Nat) : Nat := if fam = 4 then 32 else slhN set

/-- The hash of an RSA opcode. -/
def rsaHashOf (h : Nat) : Sha2 := (rsaHash h).getD .sha256

/-- Random bytes of a private operation: b1, b2 of 64 bits and b3 of k + 8 bytes (R241). -/
def rsaPrivDraw (z : Nat) : Nat := 16 + rsaK z + 8

/-! ## What a command finds in its positions (Tables 08.1, 08.2) -/

/-- SIZE of a command as Table 08.4 gives it. -/
def Oper.lieSize (o : Oper) (kt : Nat) : Nat :=
  match o with
  | .rsaSign z _ _ | .rsaVerify z _ _ | .rsaDecrypt z _ | .rsaEncrypt z _ => z
  | .ecKeygen c | .ecSign c | .ecVerify c | .ecDerive c => c
  | .hybKeygen h | .hybFirst h | .hybSecond h => (hybHalves h).2.2
  | .importKey => 6
  | .quote => 1
  | .readPublic => match keyTypeOf kt with
    | some (.ec c _) => c
    | some (.hybrid h _) => (hybHalves h).2.2
    | _ => 6
  | _ => 0

/-- A command of a job: values and share pairs in their positions, whether the private key is one that the key store holds
(R67), and the digests that its channel takes: function, message, whether it is masked. -/
structure LieIn where
  code : Nat
  size : Nat
  vals : List (Nat × Nat)
  pairs : List ((Nat × Nat) × Nat)
  given : Bool
  digests : List (Nat × Bytes × Bool)
deriving DecidableEq, Repr

/-- The random values of consecutive positions from `p`: 64 bits of blinding and Z, for each computation. -/
def blindVals (c : Curve) (p : Nat) (r : Bytes) : Nat → List (Nat × Nat)
  | 0 => []
  | n + 1 => (p, beNat (sliceZ r 0 8)) :: (p + 1, beNat (sliceZ r 8 (blindLen c - 8))) ::
      blindVals c (p + 2) (r.drop (blindLen c)) n

/-- The digest of MGF1 blocks of a seed. -/
def mgfDigests (h : Sha2) (seed : Bytes) (n : Nat) (masked : Bool) : List (Nat × Bytes × Bool) :=
  (List.range (ceilDiv n h.len)).map (fun i => (sha2Code h, seed ++ beBytes 4 i, masked))

/-- The digests of PSS on a digest, a salt and their hash. -/
def pssDigests (h : Sha2) (k : Nat) (dig salt hh : Bytes) : List (Nat × Bytes × Bool) :=
  (sha2Code h, List.replicate 8 0 ++ dig ++ salt, false) :: mgfDigests h hh (k - h.len - 1) false

/-- The digests of OAEP on the masked block and the seed. -/
def oaepDigests (h : Sha2) (k : Nat) (mdb seed : Bytes) (masked : Bool) : List (Nat × Bytes × Bool) :=
  mgfDigests h seed (k - h.len - 1) masked ++ mgfDigests h mdb h.len masked

/-- An EdDSA digest: of a message with its domain string, or of a seed. -/
def edDigest (c : Curve) (m : Bytes) (masked : Bool) : Nat × Bytes × Bool :=
  (if c = .ed25519 then 3 else 13, (if c = .ed25519 then [] else [0x53, 0x69, 0x67, 0x45, 0x64, 0x34, 0x34, 0x38, 0, 0]) ++ m, masked)
def edSeedDigest (c : Curve) (seed : Bytes) : Nat × Bytes × Bool := (if c = .ed25519 then 3 else 13, seed, true)

/-- The private operation on a message representative; b1, b2 and b3 are drawn in that order. -/
def rsaPrivIn (z : Nat) (key : Bytes) (v : Nat) (r : Bytes) (d : List (Nat × Bytes × Bool)) : LieIn :=
  let x := rsaParts (rsaK z) key
  ⟨1, z, [(0, x.n), (1, x.e), (2, v), (13, beNat (sliceZ r 16 (rsaK z + 8)) % max 1 x.n), (14, leNat (sliceZ r 0 16))],
   [((3, 4), x.p), ((5, 6), x.q), ((7, 8), x.dp), ((9, 10), x.dq), ((11, 12), x.qinv)], false, d⟩

/-- The public operation on a value. -/
def rsaPubIn (z : Nat) (pk : Bytes) (v : Nat) (d : List (Nat × Bytes × Bool)) : LieIn :=
  ⟨2, z, [(0, beNat (pk.take (rsaK z))), (1, beNat (pk.drop (rsaK z))), (2, v)], [], false, d⟩

/-- Key generation from its random bytes. -/
def ecKeygenIn (c : Curve) (i : Nat) (r : Bytes) : LieIn :=
  let b := r.drop (ecSeedLen c)
  if c.weier then ⟨0x11, i, (2, beNat (sliceZ r 0 (scalarLen c))) :: blindVals c 3 b 1, [], false, []⟩
  else if c.edwards then
    let seed := sliceZ r 0 c.fieldLen
    ⟨0x21, i, blindVals c 2 b 1, [((0, 1), (edSecret c seed).1)], false, [edSeedDigest c seed]⟩
  else ⟨0x31, i, (2, beNat (sliceZ r 0 (scalarLen c))) :: blindVals c 3 b 2, [], false, []⟩

/-- The public key of a private key that the key store holds. -/
def ecPublicIn (c : Curve) (i : Nat) (priv r : Bytes) : LieIn :=
  if c.weier then ⟨0x11, i, blindVals c 3 r 1, [((0, 1), beNat priv)], true, []⟩
  else if c.edwards then
    ⟨0x21, i, blindVals c 2 r 1, [((0, 1), (edSecret c priv).1)], true, [edSeedDigest c priv]⟩
  else ⟨0x31, i, blindVals c 3 r 2, [((0, 1), leNat priv)], true, []⟩

/-- Signing. -/
def ecSignIn (c : Curve) (i : Nat) (priv m r : Bytes) : LieIn :=
  if c.weier then
    let b := r.drop (scalarLen c)
    ⟨0x12, i, (0, ecdsaHash c m) :: (3, beNat (sliceZ r 0 (scalarLen c))) :: (4, beNat (sliceZ b 0 8)) :: blindVals c 5 (b.drop 8) 1,
     [((1, 2), beNat priv)], false, []⟩
  else
    let (a, pre) := edSecret c priv
    let pk := edEncode c (edBase c a)
    let n := (edHash c (pre ++ m)).1 % c.n
    let rr := edEncode c (edBase c n)
    ⟨0x22, i, (0, leNat pk) :: (5, (edHash c (rr ++ pk ++ m)).1 % c.n) :: blindVals c 6 r 1, [((1, 2), a), ((3, 4), n)], false,
     [edSeedDigest c priv, edDigest c (pre ++ m) true, edDigest c (rr ++ pk ++ m) false]⟩

/-- Verification. -/
def ecVerifyIn (c : Curve) (i : Nat) (pk m sig : Bytes) : LieIn :=
  let n := c.fieldLen
  if c.weier then
    let q := sec1Point c pk
    ⟨0x13, i, [(0, ecdsaHash c m), (1, q.1), (2, q.2), (3, beNat (sig.take n)), (4, beNat (sig.drop n))], [], false, []⟩
  else
    let rr := sig.take n
    ⟨0x23, i, [(0, leNat pk), (1, leNat rr), (2, leNat (sig.drop n)), (3, (edHash c (rr ++ pk ++ m)).1 % c.n)], [], false,
     [edDigest c (rr ++ pk ++ m) false]⟩

/-- Derivation. -/
def ecDeriveIn (c : Curve) (i : Nat) (priv peer r : Bytes) : LieIn :=
  if c.weier then
    let q := sec1Point c peer
    ⟨0x14, i, (0, q.1) :: (1, q.2) :: blindVals c 4 r 2, [((2, 3), beNat priv)], false, []⟩
  else ⟨0x32, i, (0, leNat peer) :: blindVals c 3 r 2, [((1, 2), leNat priv)], false, []⟩

/-- The commands of a hybrid's classical half, from what follows the lattice half's randomness. -/
def hybIns (j : Job) (o : Oper) (r : Bytes) : List LieIn :=
  match o with
  | .hybKeygen h =>
    let (f, m, c) := hybHalves h
    [ecKeygenIn (curveAt c) c (r.drop (pqSeedLen f m))]
  | .hybFirst h =>
    let (f, m, c) := hybHalves h
    let cu := curveAt c
    if hybKem h then
      let b := r.drop (pqEncDraw f)
      let pk := (j.pubAnd j.in0 (hybPub h)).1.drop (pqPub f m)
      [ecKeygenIn cu c b, ecDeriveIn cu c (ecKeygenOf cu b) pk (b.drop (ecKeygenDraw cu))]
    else [ecSignIn cu c (j.keyBytes.drop (pqPriv f m)) (hybDigest cu j.in0) (r.drop (pqSignDraw f m))]
  | .hybSecond h =>
    let (f, m, c) := hybHalves h
    let cu := curveAt c
    if hybKem h then [ecDeriveIn cu c (j.keyBytes.drop (pqPriv f m)) (j.in0.drop (pqCipher f m)) r]
    else
      let (pk, sig) := j.pubAnd j.in1 (hybPub h)
      [ecVerifyIn cu c (pk.drop (pqPub f m)) (hybDigest cu j.in0) (sig.drop (pqSig f m))]
  | _ => []

/-- The commands that an engine runs for a job, from its random bytes and its Out. -/
def State.lieIns (s : State) (j : Job) (o : Oper) (r out : Bytes) : List LieIn :=
  match o with
  | .rsaSign z h true =>
    let hf := rsaHashOf h
    let salt := r.take hf.len
    [rsaPrivIn z j.keyBytes (beNat (pssEncode hf (rsaK z) j.in0 salt)) (r.drop hf.len)
      (pssDigests hf (rsaK z) j.in0 salt (sha2 hf (List.replicate 8 0 ++ j.in0 ++ salt)))]
  | .rsaSign z h false => [rsaPrivIn z j.keyBytes (beNat (pkcs1Encode (rsaHashOf h) (rsaK z) j.in0)) r []]
  | .rsaVerify z h pss =>
    let hf := rsaHashOf h
    let (pk, sig) := j.pubAnd j.in1 (rsaK z + 4)
    let em := beBytes (rsaK z) (powMod (beNat sig) (beNat (pk.drop (rsaK z))) (beNat (pk.take (rsaK z))))
    let hh := sliceZ em (rsaK z - hf.len - 1) hf.len
    let db := xorBytes (em.take (rsaK z - hf.len - 1)) (mgf1 hf hh (rsaK z - hf.len - 1))
    [rsaPubIn z pk (beNat sig)
      (if pss then pssDigests hf (rsaK z) j.in0 (db.drop (db.length - hf.len)) hh else [])]
  | .rsaDecrypt z h =>
    let hf := rsaHashOf h
    let em := beBytes (rsaK z) (rsaPrivateOp (rsaParts (rsaK z) j.keyBytes) (beNat j.in0))
    let mdb := em.drop (1 + hf.len)
    [rsaPrivIn z j.keyBytes (beNat j.in0) r
      (oaepDigests hf (rsaK z) mdb (xorBytes ((em.drop 1).take hf.len) (mgf1 hf mdb hf.len)) true)]
  | .rsaEncrypt z h =>
    let hf := rsaHashOf h
    let em := oaepEncode hf (rsaK z) j.in0 (r.take hf.len)
    [rsaPubIn z (j.pubAnd j.in1 (rsaK z + 4)).1 (beNat em) (oaepDigests hf (rsaK z) (em.drop (1 + hf.len)) (r.take hf.len) false)]
  | .ecKeygen c => [ecKeygenIn (curveAt c) c r]
  | .ecSign c => [ecSignIn (curveAt c) c j.keyBytes j.in0 r]
  | .ecVerify c =>
    let (pk, sig) := j.pubAnd j.in1 (passedLen (curveAt c) j.in1.length (ecSig c))
    [ecVerifyIn (curveAt c) c pk j.in0 sig]
  | .ecDerive c => [ecDeriveIn (curveAt c) c j.keyBytes j.in0 r]
  | .importKey => [ecDeriveIn .x448 6 (j.keyBytes.drop 64) ((j.in0.drop 1568).take 56) r]
  | .quote =>
    let q := out.take (out.length - pqSig 4 2 - 96)
    [ecSignIn .p384 1 (sliceZ s.bbks.identity 32 48) (sha2 .sha384 q) (r.drop 32)]
  | .readPublic => match keyTypeOf j.keyType with
    | some (.ec c _) => [ecPublicIn (curveAt c) c j.keyBytes r]
    | some (.hybrid h _) =>
      let (f, m, c) := hybHalves h
      [ecPublicIn (curveAt c) c (j.keyBytes.drop (pqPriv f m)) r]
    | some .importPair => [ecPublicIn .x448 6 (j.keyBytes.drop 64) r]
    | _ => []
  | o => hybIns j o r

/-! ## The command runs (R236, R237, R240, R244 to R246) -/

/-- A value that a command reads from a position, or from a pair of shares. -/
def LieIn.at (i : LieIn) (p : Nat) : Nat := (i.vals.lookup p).getD 0
def LieIn.pair (i : LieIn) (p q : Nat) : Nat := (i.pairs.lookup (p, q)).getD 0

/-- What a command computes from its positions. -/
def LieIn.result (i : LieIn) : LieRes :=
  if i.given then ecKeyResult (curveAt i.size) (i.pair 0 1) else directResult i.code i.size i.at i.pair

/-- Position length in bytes at L of 36. -/
def LieIn.len (i : LieIn) : Nat := 288 * ceilDiv (directBytes i.code i.size) 288

/-- The positions of a job after a command, from slot 0: what was staged, and its outcome. -/
def LieX.ran (x : LieX) (free : Nat) (i : LieIn) (r : LieRes) : LieX :=
  let addr := fun p => i.len * p
  let x := layValues i.len addr (i.vals.map (·.1)) (i.vals.map (·.2)) x
  let x := layShares i.len addr free (i.pairs.map (·.1)) (i.pairs.map (·.2)) x
  { x.outcome i.code i.len addr (free + 6 * i.len) r with good := x.good && r.status != jMachineCheck }

/-- Where vendor microcode keeps the classical secret of a hybrid: two blocks of the operand store. -/
def hybridSet : Nat := 512 * (Config.hybridSet % 511)

/-- The classical secret of a hybrid passes to the operand store of its core as a two-share set (R249). -/
def State.passSecret (s : State) (j : Job) (i : LieIn) : State :=
  match j.core, i.code == 0x14 || i.code == 0x32, i.result.shares with
  | some v, true, [x] =>
    let c := s.core v
    let b := leBytes 512 x
    let a := freeBytes s.free 512
    let c := { c with mem := memWrite 0 (memWrite 0 c.mem hybridSet a) (hybridSet + 512) (xorBytes a b),
                      recs := sparseSet (0, 0) (sparseSet (0, 0) c.recs (hybridSet / 512) (c.nextGroup, 1)) (hybridSet / 512 + 1)
                        (c.nextGroup, 2),
                      nextGroup := c.nextGroup + 1 }
    { (s.setCore v c) with free := s.free + 512 }
  | _, _, _ => s

/-- One command of a job: its digests, its positions, its secret for the core; a refusal ends it in phase V. -/
def State.ranLie (s : State) (j : Job) (k : Nat) (refused : Bool) (i : LieIn) : State :=
  let s := if refused then s else i.digests.foldl (fun s d => s.dgeLie k d) s
  let s := s.setLie k ((s.lieAt k).ran s.free i (if refused then ⟨jEncoding, [], []⟩ else i.result))
  let s := { s with free := s.free + 20 * i.len }
  if refused then s else s.passSecret j i

/-- The engine of a job runs its commands once the random inputs are there (R241): the result, with whether phase V has
refused, which is counted. -/
def State.engineRuns (s : State) (j : Job) (r : Bytes) (x : OpRes) : OpRes × State :=
  match j.lie, j.oper with
  | some k, some o =>
    let l := s.lieIns j o r x.out
    let refused := x.refused || l.any (fun i => i.result.refused)
    let s := if s.fget .LIE_STATE_STATE k = 1 then s else s.startLie k (o.lieCode j.keyType)
    let s := l.foldl (fun s i => s.ranLie j k refused i) s
    ({ x with refused := refused }, if refused then s.fadd .LIE_REFUSED_COUNT k 1 else s)
  | _, _ => (x, s)

end Sys2Proof.Machine
end

