-- ==== Sys2Proof/Machine/MlKem.lean ====
section
/-!
DEFINITION. ML-KEM of FIPS 203: key generation, encapsulation, and decapsulation with implicit rejection (R58, R59).
-/

namespace Sys2Proof.Machine

/-- Parameters of a set (FIPS 203, Table 2): k, η₁, d_u, d_v; η₂ is 2 in all. -/
def kemK (s : Nat) : Nat := s + 2
def kemEta (s : Nat) : Nat := if s = 0 then 3 else 2
def kemDu (s : Nat) : Nat := if s = 2 then 11 else 10
def kemDv (s : Nat) : Nat := if s = 2 then 5 else 4

/-- The candidates of SampleNTT: two of 12 bits from three bytes, those below q kept. -/
def kemCandidates : Bytes → List Nat
  | a :: b :: c :: t =>
    let x := a.toNat + 256 * (b.toNat % 16)
    let y := b.toNat / 16 + 16 * c.toNat
    (if x < 3329 then [x] else []) ++ (if y < 3329 then [y] else []) ++ kemCandidates t
  | _ => []

/-- SampleNTT, over the 280 triples of FIPS 203, Appendix B. -/
def kemSample (b : Bytes) : Poly := sampled 256 3329 b (kemCandidates (shake 128 b 840))

/-- SamplePolyCBD with η. -/
def kemCbd (eta : Nat) (b : Bytes) : Poly :=
  let n := leNat b
  (List.range 256).map (fun i =>
    let w := n >>> (2 * i * eta)
    (popCount eta (w % 2 ^ eta) + 3329 - popCount eta ((w >>> eta) % 2 ^ eta)) % 3329)

/-- PRF with η: the polynomial of noise number `n`. -/
def kemNoise (eta : Nat) (s : Bytes) (n : Nat) : Poly := kemCbd eta (shake 256 (s ++ leBytes 1 n) (64 * eta))

/-- MultiplyNTTs: products modulo X² − ζ of each pair. -/
def kemMul (a b : Poly) : Poly :=
  (List.range 128).flatMap (fun i =>
    let g := powMod 17 (2 * revBits 7 i + 1) 3329
    let a0 := a.getD (2 * i) 0
    let a1 := a.getD (2 * i + 1) 0
    let b0 := b.getD (2 * i) 0
    let b1 := b.getD (2 * i + 1) 0
    [(a0 * b0 + a1 * b1 % 3329 * g) % 3329, (a0 * b1 + a1 * b0) % 3329])

/-- The inner product of two vectors. -/
def kemDot (a b : List Poly) : Poly := (List.zipWith kemMul a b).foldl kemRing.add polyZero

/-- The matrix entry in row `i` and column `j`. -/
def kemEntry (rho : Bytes) (i j : Nat) : Poly := kemSample (rho ++ leBytes 1 j ++ leBytes 1 i)

/-- Compress and Decompress. -/
def kemCompress (d : Nat) (f : Poly) : Poly := f.map (fun x => (2 ^ (d + 1) * x + 3329) / 6658 % 2 ^ d)
def kemDecompress (d : Nat) (f : Poly) : Poly := f.map (fun y => (6658 * y + 2 ^ d) / 2 ^ (d + 1))

/-- K-PKE.KeyGen: the encapsulation key and the secret vector, transformed. -/
def kemPkeKeygen (s : Nat) (d : Bytes) : Bytes × List Poly :=
  let k := kemK s
  let g := sha3 64 (d ++ leBytes 1 k)
  let rho := g.take 32
  let sv := (List.range k).map (fun n => kemRing.ntt (kemNoise (kemEta s) (g.drop 32) n))
  let t := (List.range k).map (fun i =>
    kemRing.add (kemDot ((List.range k).map (kemEntry rho i)) sv) (kemRing.ntt (kemNoise (kemEta s) (g.drop 32) (k + i))))
  (t.flatMap (packBits 12) ++ rho, sv)

/-- K-PKE.Encrypt. -/
def kemEncrypt (s : Nat) (ek m r : Bytes) : Bytes :=
  let k := kemK s
  let t := polyPieces k 384 ek (fun b => (unpackBits 12 b).map (· % 3329))
  let rho := sliceZ ek (384 * k) 32
  let y := (List.range k).map (fun n => kemRing.ntt (kemNoise (kemEta s) r n))
  let u := (List.range k).map (fun i =>
    kemRing.add (kemRing.intt (kemDot ((List.range k).map (fun j => kemEntry rho j i)) y)) (kemNoise 2 r (k + i)))
  let v := kemRing.add (kemRing.add (kemRing.intt (kemDot t y)) (kemNoise 2 r (2 * k))) (kemDecompress 1 (unpackBits 1 m))
  u.flatMap (fun f => packBits (kemDu s) (kemCompress (kemDu s) f)) ++ packBits (kemDv s) (kemCompress (kemDv s) v)

/-- K-PKE.Decrypt. -/
def kemDecrypt (s : Nat) (sv : List Poly) (c : Bytes) : Bytes :=
  let k := kemK s
  let n := 32 * kemDu s
  let u := polyPieces k n c (fun b => kemRing.ntt (kemDecompress (kemDu s) (unpackBits (kemDu s) b)))
  let v := kemDecompress (kemDv s) (unpackBits (kemDv s) (c.drop (n * k)))
  packBits 1 (kemCompress 1 (kemRing.sub v (kemRing.intt (kemDot sv u))))

/-- The encapsulation key of a stored seed d ‖ z. -/
def mlKemPublic (s : Nat) (seed : Bytes) : Bytes := (kemPkeKeygen s (seed.take 32)).1

/-- Encapsulation of 32 random bytes: ciphertext and shared secret. -/
def mlKemEncaps (s : Nat) (ek m : Bytes) : Bytes × Bytes :=
  let g := sha3 64 (m ++ sha3 32 ek)
  (kemEncrypt s ek m (g.drop 32), g.take 32)

/-- Decapsulation: the rejection secret J(z ‖ c) where the ciphertext does not re-encrypt (R58). -/
def mlKemDecaps (s : Nat) (seed c : Bytes) : Bytes :=
  let (ek, sv) := kemPkeKeygen s (seed.take 32)
  let m := kemDecrypt s sv c
  let g := sha3 64 (m ++ sha3 32 ek)
  if kemEncrypt s ek m (g.drop 32) = c then g.take 32 else shake 256 (seed.drop 32 ++ c) 32

end Sys2Proof.Machine
end

