-- ==== Sys2Proof/Machine/OpCore.lean ====
section
/-!
DEFINITION. What every operation of the catalogue shares: the running of a bound job, the stored form of an HMAC key, and the
lattice and code-based halves (R70 to R72, R241, R244, R268).
-/

namespace Sys2Proof.Machine

/-! ## Running a bound job -/

/-- A bound job runs: its key has arrived, no core of it is being saved, restored or reloaded, and a key that becomes
resident has room (R41, R144, R156). -/
def State.mayRun (s : State) (j : Job) : Bool :=
  j.phase == .bound && j.keyArrived && !s.waitsRoom j &&
    (s.coresOf j.id).all (fun v => s.fget .VC_STATE_STATE v == 1)

/-- The result of an operation, kept until its release check (R72). -/
def State.setResult (s : State) (j : Job) (r : OpRes) : State :=
  s.setJob { j with phase := .computed, status := r.st, detail := 0, result := r.out, newKey := r.key, refused := r.refused }

/-- An operation that starts again draws fresh random bytes and is charged a second catalogue time (R62). -/
def State.chargeAgain (s : State) (j : Job) : State :=
  let cores := s.coresOf j.id
  let charge := scaled j.cost (s.unitsMhz j.die (cores, j.lie))
  (s.setJob { j with rand := [], endTime := s.time.ticks + charge / 500 }).advanceVt j cores charge

/-- An operation on a bound job: `f` gives the random bytes it draws and its result from them; `none` is another row's
operation. While the randomness has not been served the job waits (R241, R361). -/
def State.runOp (s : State) (id : Nat) (fresh : Bool) (f : Job → Oper → Option (Nat × (Bytes → OpRes))) : State :=
  match s.job? id with
  | none => s
  | some j =>
    if s.mayRun j then
      match j.oper.bind (f j) with
      | none => s
      | some (n, g) =>
        match s.jobRandom j n fresh with
        | (none, s) => s
        | (some r, s) =>
          if (g r).again then s.chargeAgain j
          else
            let (x, s) := s.engineRuns j r (g r)
            s.setResult j x
    else s

/-- An operation that draws nothing. -/
def pureOp (r : OpRes) : Option (Nat × (Bytes → OpRes)) := some (0, fun _ => r)

/-! ## Stored forms -/

/-- The inner and outer midstates of an HMAC key for one function (R268). -/
def hmacHalf (h : Sha2) (k : Bytes) : Bytes :=
  let k0 := hmacBlock h k
  let pad := fun b : Byte => sha2Out h.word (sha2Compress h.word h.init (k0.map (· ^^^ b)))
  pad 0x36 ++ pad 0x5C

/-- The stored form of an HMAC key (Table 09.4). -/
def hmacForm (k : Bytes) : Bytes :=
  hmacHalf .sha224 k ++ hmacHalf .sha256 k ++ hmacHalf .sha384 k ++ hmacHalf .sha512 k ++ hmacHalf .sha512t256 k

/-- Where a function's midstates stand in the stored form. -/
def hmacAt : Sha2 → Nat
  | .sha224 => 0 | .sha256 => 64 | .sha384 => 128 | .sha512 => 256 | .sha512t256 => 384

/-- The words of a stored midstate. -/
def midstate (h : Sha2) (b : Bytes) (o : Nat) : List Nat :=
  let n := h.word / 8
  (List.range 8).map (fun i => beNat (sliceZ b (o + i * n) n))

/-- HMAC from the stored form (R269). -/
def hmacStored (h : Sha2) (form m : Bytes) : Bytes :=
  let o := hmacAt h
  let inner := sha2Finish h (midstate h form o) h.block m
  sha2Finish h (midstate h form (o + h.word)) h.block inner

/-- The stored form of a symmetric key from its bytes. -/
def symForm (t : Nat) (k : Bytes) : Bytes := if t = 1 then hmacForm k else k

/-! ## Lattice and code-based halves, cut to the lengths of their tables -/

/-- The stored private form of a seed. -/
def pqPrivOf (fam set : Nat) (seed : Bytes) : Bytes :=
  match fam with
  | 3 | 4 => seed
  | 5 => sliceZ (slhDsaPrivate set seed) 0 (pqPriv 5 set)
  | f => sliceZ (Config.codeKeygen f set seed).2 0 (pqPriv f set)

/-- The public key of a stored private form. -/
def pqPubOf (fam set : Nat) (priv : Bytes) : Bytes :=
  match fam with
  | 3 => sliceZ (mlKemPublic set priv) 0 (pqPub 3 set)
  | 4 => sliceZ (mlDsaPublic set priv) 0 (pqPub 4 set)
  | 5 => sliceZ priv (2 * slhN set) (2 * slhN set)
  | f => sliceZ (Config.codePublic f set priv) 0 (pqPub f set)

/-- Ciphertext and shared secret. -/
def pqEncaps (fam set : Nat) (pk r : Bytes) : Bytes × Bytes :=
  let x := if fam = 3 then mlKemEncaps set pk r else Config.codeEncaps fam set pk r
  (sliceZ x.1 0 (pqCipher fam set), sliceZ x.2 0 (pqSecret fam))

/-- The shared secret of a ciphertext. -/
def pqDecaps (fam set : Nat) (priv ct : Bytes) : Bytes :=
  sliceZ (if fam = 3 then mlKemDecaps set priv ct else Config.codeDecaps fam set priv ct) 0 (pqSecret fam)

/-- A signature. -/
def pqSignOf (fam set ph : Nat) (priv ctx m r : Bytes) : Bytes :=
  sliceZ (if fam = 4 then mlDsaSign set priv ph ctx m r else slhDsaSign set priv ph ctx m r) 0 (pqSig fam set)

/-- A verification. -/
def pqVerifyOf (fam set ph : Nat) (pk ctx m sig : Bytes) : Bool :=
  if fam = 4 then mlDsaVerify set pk ph ctx m sig else slhDsaVerify set pk ph ctx m sig

/-- The public key of a stored private form of any type that has one (R67). -/
def KeyType.publicOf (t : KeyType) (b : Bytes) : Bytes :=
  match t with
  | .pq f m _ => pqPubOf f m b
  | .rsa z _ => rsaPublicOf (rsaK z) b
  | .ec c _ => ecPublic (curveAt c) b
  | .hybrid h _ =>
    let (f, m, c) := hybHalves h
    pqPubOf f m (b.take (pqPriv f m)) ++ ecPublic (curveAt c) (b.drop (pqPriv f m))
  | .importPair => pqPubOf 3 2 (b.take 64) ++ ecPublic .x448 (b.drop 64)
  | _ => []

end Sys2Proof.Machine
end

