-- ==== Sys2Proof/Machine/OpsEc.lean ====
section
/-!
DEFINITION. The classical operations and the hybrid combinations (R63 to R66, R240 to R245).
-/

namespace Sys2Proof.Machine

/-! ## RSA -/

/-- The private operation on a message representative, refused in phase V when it is out of range. -/
def rsaPrivRes (z : Nat) (key : Bytes) (v : Nat) (f : Nat → OpRes) : OpRes :=
  let r := rsaParts (rsaK z) key
  .afterV (repCheck r.n v) (f (rsaPrivateOp r v))

/-- A signature on an encoded message. -/
def rsaSignRes (z : Nat) (key em : Bytes) : OpRes := rsaPrivRes z key (beNat em) (fun x => .ok (beBytes (rsaK z) x))

/-- The public operation on a value, with the checks of key and value. -/
def rsaPubRes (z : Nat) (pk : Bytes) (v : Nat) (f : Nat → OpRes) : OpRes :=
  let n := beNat (pk.take (rsaK z))
  let e := beNat (pk.drop (rsaK z))
  .afterV (firstOf [rsaPubCheck (rsaK z) pk, repCheck n v]) (f (powMod v e n))

/-- PSS signing: a salt as long as the hash. -/
def execRsaPssSign (job : Nat) (s : State) : Out :=
  .next (s.runOp job false (fun j o => match o with
    | .rsaSign z h true =>
      let hf := rsaHashOf h
      some (hf.len + rsaPrivDraw z, fun r => rsaSignRes z j.keyBytes (pssEncode hf (rsaK z) j.in0 (r.take hf.len)))
    | _ => none))

/-- PSS verification. -/
def execRsaPssVerify (job : Nat) (s : State) : Out :=
  .next (s.runOp job false (fun j o => match o with
    | .rsaVerify z h true =>
      let (pk, sig) := j.pubAnd j.in1 (rsaK z + 4)
      pureOp (rsaPubRes z pk (beNat sig) (fun x => .verdict (pssCheck (rsaHashOf h) (rsaK z) j.in0 (beBytes (rsaK z) x))))
    | _ => none))

/-- PKCS#1 v1.5 signing. -/
def execRsaPkcs1Sign (job : Nat) (s : State) : Out :=
  .next (s.runOp job false (fun j o => match o with
    | .rsaSign z h false =>
      some (rsaPrivDraw z, fun _ => rsaSignRes z j.keyBytes (pkcs1Encode (rsaHashOf h) (rsaK z) j.in0))
    | _ => none))

/-- PKCS#1 v1.5 verification. -/
def execRsaPkcs1Verify (job : Nat) (s : State) : Out :=
  .next (s.runOp job false (fun j o => match o with
    | .rsaVerify z h false =>
      let (pk, sig) := j.pubAnd j.in1 (rsaK z + 4)
      pureOp (rsaPubRes z pk (beNat sig) (fun x => .verdict (beBytes (rsaK z) x == pkcs1Encode (rsaHashOf h) (rsaK z) j.in0)))
    | _ => none))

/-- OAEP decryption: a decoding failure shows after the full time (R63). -/
def execRsaOaepDecrypt (job : Nat) (s : State) : Out :=
  .next (s.runOp job false (fun j o => match o with
    | .rsaDecrypt z h =>
      some (rsaPrivDraw z + oaepMask (rsaHashOf h) (rsaK z), fun _ => rsaPrivRes z j.keyBytes (beNat j.in0) (fun x =>
        match oaepDecode (rsaHashOf h) (rsaK z) (beBytes (rsaK z) x) with
        | some m => .ok m
        | none => .fail jEncoding))
    | _ => none))

/-- OAEP encryption. -/
def execRsaOaepEncrypt (job : Nat) (s : State) : Out :=
  .next (s.runOp job false (fun j o => match o with
    | .rsaEncrypt z h =>
      let hf := rsaHashOf h
      let pk := (j.pubAnd j.in1 (rsaK z + 4)).1
      some (hf.len, fun r => rsaPubRes z pk (beNat (oaepEncode hf (rsaK z) j.in0 (r.take hf.len)))
        (fun x => .ok (beBytes (rsaK z) x)))
    | _ => none))

/-! ## Elliptic curves -/

/-- Key generation. -/
def execEcKeygen (job : Nat) (s : State) : Out :=
  .next (s.runOp job false (fun _ o => match o with
    | .ecKeygen c => some (ecKeygenDraw (curveAt c), fun r =>
        let k := ecKeygenOf (curveAt c) r
        .made k (ecPublic (curveAt c) k))
    | _ => none))

/-- Signing. -/
def execEcSign (job : Nat) (s : State) : Out :=
  .next (s.runOp job false (fun j o => match o with
    | .ecSign c => some (ecSignDraw (curveAt c) j.in0.length, fun r => .ok (ecSignOf (curveAt c) j.keyBytes j.in0 r))
    | _ => none))

/-- Verification. -/
def execEcVerify (job : Nat) (s : State) : Out :=
  .next (s.runOp job false (fun j o => match o with
    | .ecVerify c =>
      let cu := curveAt c
      let (pk, sig) := j.pubAnd j.in1 (passedLen cu j.in1.length (ecSig c))
      pureOp (.afterV (firstOf [ecPubCheck cu pk, ecSigCheck cu sig]) (.verdict (ecVerifyOf cu pk j.in0 sig)))
    | _ => none))

/-- Derivation. -/
def execEcDerive (job : Nat) (s : State) : Out :=
  .next (s.runOp job false (fun j o => match o with
    | .ecDerive c =>
      let cu := curveAt c
      some (ecDeriveDraw cu, fun _ => .afterV (ecPubCheck cu j.in0) (.made (ecDeriveOf cu j.keyBytes j.in0) []))
    | _ => none))

/-! ## Hybrids (R65, R66) -/

/-- The hybrid shared secret. -/
def hybSecret (h : Nat) (ssPq ssEc ctEc pkEc : Bytes) : Bytes :=
  sha3 32 (ssPq ++ ssEc ++ ctEc ++ pkEc ++ [0x0B, BitVec.ofNat 8 h])

/-- The key of a hybrid key generation from its two halves' randomness. -/
def hybKey (h : Nat) (r : Bytes) : Bytes :=
  let (f, m, c) := hybHalves h
  pqPrivOf f m (r.take (pqSeedLen f m)) ++ ecKeygenOf (curveAt c) (r.drop (pqSeedLen f m))

/-- Key generation: both halves. -/
def execHybridKeygen (job : Nat) (s : State) : Out :=
  .next (s.runOp job false (fun _ o => match o with
    | .hybKeygen h =>
      let (f, m, c) := hybHalves h
      some (pqSeedLen f m + ecKeygenDraw (curveAt c), fun r => let k := hybKey h r
        .made k ((KeyType.hybrid h false).publicOf k))
    | _ => none))

/-- A hybrid public key that fails its check: the lattice half ends on the core, the classical half in phase V. -/
def hybRefuse (h : Nat) (pk : Bytes) (st : Nat) : OpRes := if hybLatticeBad h pk then .fail st else .refuse st

/-- Encapsulation: the classical half is an ephemeral key generation and a derivation. -/
def hybEncapsOp (j : Job) (h : Nat) : Option (Nat × (Bytes → OpRes)) :=
  let (f, m, c) := hybHalves h
  let cu := curveAt c
  let pk := (j.pubAnd j.in0 (hybPub h)).1
  some (pqEncDraw f + ecKeygenDraw cu + ecDeriveDraw cu, fun r =>
    match hybPubCheck h pk with
    | some st => hybRefuse h pk st
    | none =>
      let x := pqEncaps f m (pk.take (pqPub f m)) (r.take (pqEncDraw f))
      let e := ecKeygenOf cu (r.drop (pqEncDraw f))
      let ct := ecPublic cu e
      let pkEc := pk.drop (pqPub f m)
      .made (hybSecret h x.2 (ecDeriveOf cu e pkEc) ct pkEc) (x.1 ++ ct))

/-- Decapsulation. -/
def hybDecapsOp (j : Job) (h : Nat) : Option (Nat × (Bytes → OpRes)) :=
  let (f, m, c) := hybHalves h
  let cu := curveAt c
  let ct := j.in0.drop (pqCipher f m)
  let d := j.keyBytes.drop (pqPriv f m)
  some (ecDeriveDraw cu, fun _ => .afterV (ecPubCheck cu ct)
    (.made (hybSecret h (pqDecaps f m (j.keyBytes.take (pqPriv f m)) (j.in0.take (pqCipher f m))) (ecDeriveOf cu d ct) ct
      (ecPublic cu d)) []))

/-- Signing: both halves cover the same message. -/
def hybSignOp (j : Job) (h : Nat) : Option (Nat × (Bytes → OpRes)) :=
  let (f, m, c) := hybHalves h
  let cu := curveAt c
  let msg := hybDigest cu j.in0
  some (pqSignDraw f m + ecSignDraw cu msg.length, fun r =>
    .ok (pqSignOf f m 0 (j.keyBytes.take (pqPriv f m)) [] j.in0 (r.take (pqSignDraw f m)) ++
      ecSignOf cu (j.keyBytes.drop (pqPriv f m)) msg (r.drop (pqSignDraw f m))))

/-- Verification: OK only if both halves pass. -/
def hybVerifyOp (j : Job) (h : Nat) : Option (Nat × (Bytes → OpRes)) :=
  let (f, m, c) := hybHalves h
  let cu := curveAt c
  let (pk, sig) := j.pubAnd j.in1 (hybPub h)
  let se := sig.drop (pqSig f m)
  match firstOf [hybPubCheck h pk, ecSigCheck cu se] with
  | some st => pureOp (hybRefuse h pk st)
  | none => pureOp (.verdict (pqVerifyOf f m 0 (pk.take (pqPub f m)) [] j.in0 (sig.take (pqSig f m)) &&
      ecVerifyOf cu (pk.drop (pqPub f m)) (hybDigest cu j.in0) se))

/-- The second opcode of a combination. -/
def execHybridEncapsOrSign (job : Nat) (s : State) : Out :=
  .next (s.runOp job false (fun j o => match o with
    | .hybFirst h => if hybKem h then hybEncapsOp j h else hybSignOp j h
    | _ => none))

/-- The third opcode of a combination. -/
def execHybridDecapsOrVerify (job : Nat) (s : State) : Out :=
  .next (s.runOp job false (fun j o => match o with
    | .hybSecond h => if hybKem h then hybDecapsOp j h else hybVerifyOp j h
    | _ => none))

end Sys2Proof.Machine
end

