-- ==== Sys2Proof/Machine/OpsSym.lean ====
section
/-!
DEFINITION. The symmetric operations: digests, HMAC, KMAC, AES-GCM, GMAC, key wrap, random bytes (R54 to R56, R67, R68).
-/

namespace Sys2Proof.Machine

/-- 0x0101 to 0x0105 (Table 02.5). -/
def execSha2Digest (job : Nat) (s : State) : Out :=
  .next (s.runOp job false (fun j o => match o with
    | .digest h => pureOp (.ok (sha2 h j.in0))
    | _ => none))

/-- 0x0111 to 0x0114. -/
def execSha3Digest (job : Nat) (s : State) : Out :=
  .next (s.runOp job false (fun j o => match o with
    | .digest3 n => pureOp (.ok (sha3 n j.in0))
    | _ => none))

/-- 0x0118, 0x0119. -/
def execShakeOutput (job : Nat) (s : State) : Out :=
  .next (s.runOp job false (fun j o => match o with
    | .shake c => pureOp (.ok (shake c j.in0 j.outLen))
    | _ => none))

/-- 0x011A, 0x011B: In1 holds the two encoded strings (R258). -/
def execCshakeOutput (job : Nat) (s : State) : Out :=
  .next (s.runOp job false (fun j o => match o with
    | .cshake c => pureOp (.ok (if plainShake j.in1 then shake c j.in0 j.outLen else cshakeEnc c j.in0 j.in1 j.outLen))
    | _ => none))

/-- 0x0121 to 0x0125: the leftmost bytes of the tag. -/
def execHmacTag (job : Nat) (s : State) : Out :=
  .next (s.runOp job false (fun j o => match o with
    | .hmac h false => pureOp (.ok ((hmacStored h j.keyBytes j.in0).take j.outLen))
    | _ => none))

/-- 0x0129 to 0x012D. -/
def execHmacVerify (job : Nat) (s : State) : Out :=
  .next (s.runOp job false (fun j o => match o with
    | .hmac h true => pureOp (.verdict ((hmacStored h j.keyBytes j.in0).take j.in1.length == j.in1))
    | _ => none))

/-- 0x0131, 0x0132. -/
def execKmacTag (job : Nat) (s : State) : Out :=
  .next (s.runOp job false (fun j o => match o with
    | .kmac c false => pureOp (.ok (kmac c j.keyBytes j.in0 j.outLen j.in1))
    | _ => none))

/-- 0x0139, 0x013A: In1 is the length of S, S, the expected tag. -/
def execKmacVerify (job : Nat) (s : State) : Out :=
  .next (s.runOp job false (fun j o => match o with
    | .kmac c true =>
      let n := beNat (j.in1.take 2)
      let tag := j.in1.drop (2 + n)
      pureOp (.verdict (kmac c j.keyBytes j.in0 tag.length ((j.in1.drop 2).take n) == tag))
    | _ => none))

/-- 0x0201: In0 is IV ‖ AAD. -/
def execGcmEncrypt (job : Nat) (s : State) : Out :=
  .next (s.runOp job false (fun j o => match o with
    | .gcm false => pureOp (.ok (gcmEncrypt j.keyBytes (j.in0.take 12) (j.in0.drop 12) j.in1))
    | _ => none))

/-- A plaintext that an integrity check held back, or VERIFY_FAIL (R56). -/
def OpRes.opened : Option Bytes → OpRes
  | some p => .ok p
  | none => .fail jVerifyFail

/-- 0x0202. -/
def execGcmDecrypt (job : Nat) (s : State) : Out :=
  .next (s.runOp job false (fun j o => match o with
    | .gcm true => pureOp (.opened (gcmDecrypt j.keyBytes (j.in0.take 12) (j.in0.drop 12) j.in1))
    | _ => none))

/-- The GMAC tag of IV ‖ AAD. -/
def gmacOf (k b : Bytes) : Bytes := gcmTag (aesKeys k) (b.take 12) (b.drop 12) []

/-- 0x0203: the leftmost bytes of the tag. -/
def execGmacGenerate (job : Nat) (s : State) : Out :=
  .next (s.runOp job false (fun j o => match o with
    | .gmac false => pureOp (.ok ((gmacOf j.keyBytes j.in0).take j.outLen))
    | _ => none))

/-- 0x0204. -/
def execGmacVerify (job : Nat) (s : State) : Out :=
  .next (s.runOp job false (fun j o => match o with
    | .gmac true => pureOp (.verdict ((gmacOf j.keyBytes j.in0).take j.in1.length == j.in1))
    | _ => none))

/-- 0x0211. -/
def execKeyWrap (job : Nat) (s : State) : Out :=
  .next (s.runOp job false (fun j o => match o with
    | .wrap false false => pureOp (.ok (keyWrap j.keyBytes j.in0))
    | _ => none))

/-- 0x0212. -/
def execKeyUnwrap (job : Nat) (s : State) : Out :=
  .next (s.runOp job false (fun j o => match o with
    | .wrap false true => pureOp (.opened (keyUnwrap j.keyBytes j.in0))
    | _ => none))

/-- 0x0213. -/
def execKeyWrapPad (job : Nat) (s : State) : Out :=
  .next (s.runOp job false (fun j o => match o with
    | .wrap true false => pureOp (.ok (keyWrapPad j.keyBytes j.in0))
    | _ => none))

/-- RFC 5649 unwrap of any string: one that is not whole semiblocks, at least two, fails its integrity check. -/
def unwrapPadded (k b : Bytes) : Option Bytes := if b.length < 16 || b.length % 8 ≠ 0 then none else keyUnwrapPad k b

/-- 0x0214. -/
def execKeyUnwrapPad (job : Nat) (s : State) : Out :=
  .next (s.runOp job false (fun j o => match o with
    | .wrap true true => pureOp (.opened (unwrapPadded j.keyBytes j.in0))
    | _ => none))

/-- 0x0D01: bytes of the die's DRBG, as many as Out holds. -/
def execRandomBytes (job : Nat) (s : State) : Out :=
  .next (s.runOp job false (fun j o => match o with
    | .random => some (j.outLen, .ok)
    | _ => none))

/-- 0x0D02: the DRBG is reseeded first. -/
def execRandomBytesPr (job : Nat) (s : State) : Out :=
  .next (s.runOp job true (fun j o => match o with
    | .randomPr => some (j.outLen, .ok)
    | _ => none))

end Sys2Proof.Machine
end

