-- ==== Sys2Proof/Machine/OpsKey.lean ====
section
/-!
DEFINITION. Key management, attestation and stream-key installation (R67, R291, R322 to R335).
-/

namespace Sys2Proof.Machine

/-! ## Generation, derivation, import (R67, R323, R324) -/

/-- 0x0C01: a random key of the target's type, at the length that generation gives the type. -/
def execGenerateSecretKey (job : Nat) (s : State) : Out :=
  .next (s.runOp job false (fun j o => match o with
    | .generate =>
      let t := handleType j.targetHandle
      some (((keyTypeOf t).bind KeyType.genLen).getD 0, fun r => .made (symForm t r) [])
    | _ => none))

/-- 0x0C04: KMAC256 with the named key, X the context, S the label, L the length of the target type. -/
def execKmacDerive (job : Nat) (s : State) : Out :=
  .next (s.runOp job false (fun j o => match o with
    | .kdf =>
      let t := handleType j.targetHandle
      let l := byteAt j.in0 0
      let label := (j.in0.drop 1).take l
      let ctx := (j.in0.drop 1).drop l
      pureOp (.made (symForm t (kmac 256 j.keyBytes ctx (((keyTypeOf t).bind KeyType.genLen).getD 0) label)) [])
    | _ => none))

/-- A wrapped form has a length that its type allows (Table 11.2, step 6). -/
def KeyType.importLen (t : KeyType) (n : Nat) : Bool :=
  match t with
  | .hmac => decide (1 ≤ n ∧ n ≤ 128)
  | .kmac | .generic => decide (16 ≤ n ∧ n ≤ 64)
  | _ => t.len == some n

/-- The consistency of an RSA private form (Table 11.3). -/
def rsaImportCheck (k : Nat) (b : Bytes) : Option Nat :=
  let r := rsaParts k b
  let inv := fun x m => decide (r.e * x % m = 1 % m)
  if r.e = 1 then some jInputOne
  else if r.p * r.q = r.n && inv r.dp (r.p - 1) && inv r.dq (r.q - 1) && decide (r.q * r.qinv % r.p = 1 % r.p) then none
  else some jEncoding

/-- The import check of an elliptic-curve private key: a Weierstrass scalar is in range. -/
def ecImportCheck (c : Curve) (b : Bytes) : Option Nat :=
  if c.weier then
    (if beNat b = 0 then some jInputZero else if c.n ≤ beNat b then some jInputRange else none)
  else none

/-- The import check of a secret type with the randomness of its encapsulation (Table 11.3). -/
def KeyType.importCheck (t : KeyType) (b r : Bytes) : Option Nat :=
  match t with
  | .pq f m _ =>
    if f = 7 || f = 8 then
      let x := pqEncaps f m (pqPubOf f m b) r
      if pqDecaps f m b x.1 = x.2 then none else some jEncoding
    else none
  | .rsa z _ => rsaImportCheck (rsaK z) b
  | .ec c _ => ecImportCheck (curveAt c) b
  | .hybrid h _ =>
    let (f, m, c) := hybHalves h
    ecImportCheck (curveAt c) (b.drop (pqPriv f m))
  | _ => none

/-- Random bytes that the import check of a type draws: an encapsulation, or the blinding of the keygen check. -/
def KeyType.importDraw : KeyType → Nat
  | .pq f _ _ => if f = 4 || f = 5 then 0 else pqEncDraw f
  | .ec c _ => ecPublicDraw (curveAt c)
  | .hybrid h _ =>
    let (f, _, c) := hybHalves h
    (if f = 3 then 32 else 0) + ecPublicDraw (curveAt c)
  | .rsa z _ => rsaPrivDraw z
  | _ => 0

/-- The KEK of an import (Table 11.2, step 4). -/
def importKek (ssPq ssEc e p : Bytes) (ti typ : Nat) : Bytes :=
  sha3 32 (ssPq ++ ssEc ++ e ++ p ++ ascii "ZV-KEY-IMPORT" ++ leBytes 2 ti ++ leBytes 1 typ)

/-- Steps 2 to 7 of Table 11.2 on the import key, In0 and the target's type. -/
def importOf (key in0 : Bytes) (ti typ : Nat) (r : Bytes) : OpRes :=
  let e := (in0.drop 1568).take 56
  match uCheck .x448 e with
  | some st => .refuse st
  | none =>
    let kek := importKek (pqDecaps 3 2 (key.take 64) (in0.take 1568)) (ecDeriveOf .x448 (key.drop 64) e) e
      (ecPublic .x448 (key.drop 64)) ti typ
    match unwrapPadded kek (in0.drop 1624) with
    | none => .fail jVerifyFail
    | some b =>
      match keyTypeOf typ with
      | none => .fail jInvalidParam
      | some t =>
        if !t.importLen b.length then .fail jEncoding
        else match t.importCheck b r with
          | some st => .fail st
          | none => .made (symForm typ b) []

/-- 0x0C02. -/
def execKeyImport (job : Nat) (s : State) : Out :=
  .next (s.runOp job false (fun j o => match o with
    | .importKey =>
      let t := handleType j.targetHandle
      let d := ecDeriveDraw .x448
      some (d + ((keyTypeOf t).map KeyType.importDraw).getD 0, fun r => importOf j.keyBytes j.in0 j.ti t (r.drop d))
    | _ => none))

/-! ## Export, deletion, public keys, information -/

/-- 0x0C03: RFC 5649 wrap under the AES key that In1 names, as it was loaded at dispatch (R50, R325). -/
def execExportWrapped (job : Nat) (s : State) : Out :=
  .next (s.runOp job false (fun j o => match o with
    | .exportKey =>
      pureOp (.ok (keyWrapPad (j.krefs.getD 1 (0, [])).2 j.keyBytes))
    | _ => none))

/-- 0x0C05: the deletion happens at the release point (R50). -/
def execDeleteAndZeroise (job : Nat) (s : State) : Out :=
  .next (s.runOp job false (fun _ o => match o with
    | .delete => pureOp (.ok [])
    | _ => none))

/-- 0x0C06: the public key, computed where the stored form does not hold it. -/
def execReadPublicKey (job : Nat) (s : State) : Out :=
  .next (s.runOp job false (fun j o => match o with
    | .readPublic =>
      let n := match keyTypeOf j.keyType with
        | some (.ec c _) => ecPublicDraw (curveAt c)
        | some (.hybrid h _) => ecPublicDraw (curveAt (hybHalves h).2.2)
        | some .importPair => ecPublicDraw .x448
        | _ => 0
      some (n, fun _ => .ok (((keyTypeOf j.keyType).map (fun t => t.publicOf j.keyBytes)).getD []))
    | _ => none))

/-- The check of a public key that becomes resident, by its type (R71). -/
def residentCheck (t : Nat) (b : Bytes) : Option Nat :=
  match keyTypeOf t with
  | some (.pq f m _) => pqPubCheck f m b
  | some (.rsa z _) => rsaPubCheck (rsaK z) b
  | some (.ec c _) => ecPubCheck (curveAt c) b
  | some (.hybrid h _) => hybPubCheck h b
  | some (.hbs w) =>
    let which := if w = 0 then (if hbsPubLen 0 b = some b.length then 0 else 1) else w + 1
    if hbsPubLen which b = some b.length && (hbsSets which b []).fault ≠ 1 then none else some jEncoding
  | _ => some jEncoding

/-- 0x0C07: a public key stored under a handle after its validation. -/
def execMakePublicKeyResident (job : Nat) (s : State) : Out :=
  .next (s.runOp job false (fun j o => match o with
    | .resident => pureOp (.after (residentCheck (handleType j.targetHandle) j.in0) (.made j.in0 []))
    | _ => none))

/-- The information of a slot (Table 11.10, KEY_INFO). -/
def State.keyInfoBytes (s : State) (ti slot : Nat) : Bytes :=
  let k := s.slot ti slot
  let st := match k.state with
    | .empty => 0
    | .pending => 1
    | .occupied => 2
  leBytes 1 k.typ ++ leBytes 1 st ++ leBytes 2 k.usage ++ leBytes 4 k.stored.length ++ leBytes 2 k.gen ++
    leBytes 1 (s.keyDie ti) ++ leBytes 2 k.granules ++ leBytes 3 0

/-- 0x0C08: read at the release point (R50). -/
def execKeyInformation (job : Nat) (s : State) : Out :=
  .next (s.runOp job false (fun _ o => match o with
    | .keyInfo => pureOp (.ok [])
    | _ => none))

/-! ## Attestation (R332, R333) -/

/-- The firmware version, the manifest version and the security version of the running image; zero while the ROM serves. -/
def State.fwVersion (s : State) : Nat := leAt s.boot.head 0x0C 4
def State.fwManifest (s : State) : Nat := leAt s.boot.head 0x14 4
def State.fwSvn (s : State) : Nat := byteAt s.boot.head 0x10

/-- The firmware and the microcode measurement (R377). -/
def State.fwMeasure (s : State) : Bytes := sha2 .sha384 s.boot.head
def State.ucMeasure (s : State) : Bytes := sliceZ s.boot.head (0x20 + 2 * 64 + 16) 48

/-- The import public key of a TI; empty when it holds no pair. -/
def State.importPublic (s : State) (ti : Nat) : Bytes :=
  let k := s.slot ti importSlot
  if k.state = .occupied then KeyType.importPair.publicOf k.stored else []

/-- The identity seeds as the BBKS holds them: the ML-DSA-87 seed and the P-384 scalar. -/
def State.idSeed (s : State) : Bytes := sliceZ s.bbks.identity 0 32
def State.idScalar (s : State) : Bytes := sliceZ s.bbks.identity 32 48

/-- The identity public key: ML-DSA-87, then P-384 (R332). -/
def State.idPublic (s : State) : Bytes := pqPubOf 4 2 s.idSeed ++ ecPublic .p384 s.idScalar

/-- The installed kernels, by index. -/
def State.kernelList (s : State) : List (Nat × Kernel) := s.kernels.filter (fun e => !e.2.header.isEmpty)

/-- The duplex role as quotes report it. -/
def State.quoteRole (s : State) : Nat :=
  if s.fget .DUPLEX_STATUS_STATE 0 = 0 then 0 else if s.fget .DUPLEX_STATUS_ROLE 0 = 1 then 1 else 2

/-- The attestation quote Q (Table 11.6). -/
def State.quoteOf (s : State) (ti : Nat) (nonce : Bytes) (time : Nat) : Bytes :=
  let ks := s.kernelList
  leBytes 4 0x5141565A ++ leBytes 2 1 ++ leBytes 2 (256 + 52 * ks.length) ++ sliceZ s.otp.deviceId 0 16 ++
    leBytes 1 s.dies ++ leBytes 1 (if s.grade = .extended then 0x45 else 0x43) ++ [0x42, 0x31] ++ leBytes 4 s.fwVersion ++
    leBytes 4 s.fwManifest ++ leBytes 1 s.fwSvn ++ leBytes 1 (s.fget .KS_ROOT_EPOCH 0) ++
    leBytes 1 (s.fget .LCS_STATE_STATE 0) ++ leBytes 1 s.mode ++ leBytes 1 (s.fget .DBG_STATE_LEVEL 0) ++
    leBytes 1 (bit s.otp.f2 + 2 * bit s.keysLocked + 4 * s.quoteRole) ++ leBytes 2 ti ++ leBytes 1 ks.length ++ leBytes 3 0 ++
    leBytes 8 time ++ s.fwMeasure ++ s.ucMeasure ++ sha3 32 (s.importPublic ti) ++ leBytes 1 nonce.length ++ leBytes 7 0 ++
    sliceZ nonce 0 64 ++ ks.flatMap (fun k => leBytes 1 k.1 ++ leBytes 3 0 ++ sliceZ k.2.measure 0 48)

/-- A hybrid identity signature over a message: ML-DSA-87 pure with a context, then ECDSA P-384 over SHA-384. -/
def State.idSign (s : State) (m ctx r : Bytes) : Bytes :=
  pqSignOf 4 2 0 s.idSeed ctx m (r.take 32) ++ ecSignOf .p384 s.idScalar (sha2 .sha384 m) (r.drop 32)

/-- Random bytes of an identity signature. -/
def idSignDraw : Nat := 32 + ecSignDraw .p384 48

/-- 0x0E01: the quote, then its two signatures. -/
def execAttestationQuote (job : Nat) (s : State) : Out :=
  .next (s.runOp job false (fun j o => match o with
    | .quote =>
      let q := s.quoteOf j.ti j.in0 (s.replicaNow j.die)
      some (idSignDraw, fun r => .ok (q ++ s.idSign q (ascii "ZV-ATTEST-QUOTE") r))
    | _ => none))

/-! ## Stream keys (R291) -/

/-- The fields of a stream block (R67): context, key identifier, promotion time. -/
def blockCtx (b : Bytes) : Nat := leAt b 0 4
def blockId (b : Bytes) : Nat := leAt b 4 4
def blockTime (b : Bytes) : Nat := leAt b 8 8

/-- A stream context by its global number. -/
def State.stream (s : State) (n : Nat) : Stream := sparseGet Stream.blank s.streams n

/-- A stream context changes. -/
def State.setStream (s : State) (n : Nat) (x : Stream) : State := { s with streams := sparseSet Stream.blank s.streams n x }

/-- A stream-table update: what stood before is kept for the frames whose first byte has entered (R33). -/
def State.reviseStream (s : State) (n : Nat) (x : Stream) : State :=
  let old := s.frames.past.filter (fun e => decide (s.since e.1 < 10000000))
  { s with frames := { s.frames with past := (s.time.ticks, n, s.stream n) :: old } }.setStream n x

/-- A stream block names a context of the submitting TI whose algorithm fits the key; a next key's identifier differs from
the current key's. -/
def State.blockOk (s : State) (j : Job) (next : Bool) : Bool :=
  let x := s.stream (blockCtx j.in0)
  x.live && x.owner == j.ti && (if x.alg = 1 then j.keyType == 7 else j.keyType == 8) &&
    (!next || (match x.cur with
      | some (i, _) => i != blockId j.in0
      | none => true))

/-- The bytes of mask for the form in which a stream table holds a key: the two midstates of an HMAC key, or the key
itself (R36, R38). -/
def streamMaskLen (j : Job) : Nat := if j.keyType = 7 then 64 else j.keyBytes.length

/-- The check of a stream-key operation, and the masks that it draws from the die DRBG (R38); the key is installed when
the job completes (R68, R291). -/
def State.streamOp (s : State) (job : Nat) (next : Bool) : State :=
  s.runOp job false (fun j o =>
    if o = (if next then .streamNext else .streamNow) then
      if s.blockOk j next then some (streamMaskLen j, fun _ => .ok []) else pureOp (.fail jInvalidParam)
    else none)

/-- 0x1001. -/
def execInstallNextStreamKey (job : Nat) (s : State) : Out := .next (s.streamOp job true)

/-- 0x1002. -/
def execReplaceCurrentStreamKey (job : Nat) (s : State) : Out := .next (s.streamOp job false)

end Sys2Proof.Machine
end

