-- ==== Sys2Proof/Machine/Streams.lean ====
section
/-!
DEFINITION. What happens to a stream context: its counters, its keys and their promotion, and what of it crosses to a
standby (R288 to R293, R313, R339).
-/

namespace Sys2Proof.Machine

/-- The die that holds a context. -/
def ctxDie (n : Nat) : Nat := n / 4096

/-- An event of the frame path. -/
def State.frameEvent (s : State) (code sev n d1 d2 : Nat) : State := s.event code sev (ctxDie n) 7 n d1 d2

/-- The places of the counters of Table 10.16. -/
abbrev cntPass : Nat := 0
abbrev cntFailTag : Nat := 1
abbrev cntFailReplay : Nat := 2
abbrev cntUnauth : Nat := 3
abbrev cntNoKey : Nat := 4
abbrev cntLate : Nat := 5
abbrev cntDup : Nat := 6
abbrev cntDelivered : Nat := 7
abbrev cntDropped : Nat := 8
abbrev cntPolicy : Nat := 9
abbrev cntPromoted : Nat := 10
abbrev cntSent : Nat := 11

/-- A context's counter rises, saturating. -/
def Stream.count (x : Stream) (i : Nat) : Stream :=
  { x with counts := x.counts.zipIdx.map (fun c => if c.2 = i then satAdd (2 ^ 32 - 1) c.1 1 else c.1) }

/-- A counter of a context rises. -/
def State.countStream (s : State) (n i : Nat) : State :=
  if (s.stream n).live then s.setStream n ((s.stream n).count i) else s

/-- The form in which a stream table holds a key (R36, R269). -/
def streamForm (alg : Nat) (k : Bytes) : Bytes := if alg = 1 then hmacHalf .sha256 k else k

/-- What of a context crosses to a standby (Table 11.8). -/
def Stream.crossing (x : Stream) : Stream :=
  { Stream.blank with
    live := x.live, owner := x.owner, dir := x.dir, cls := x.cls, mac := x.mac, appid := x.appid, vid := x.vid,
    port := x.port, pair := x.pair, alg := x.alg, tagLen := x.tagLen, unauth := x.unauth, fail := x.fail,
    window := x.window, cntMod := x.cntMod, cur := x.cur, next := x.next }

/-- A change of a context that crosses to the standby; the answer names the sequence number that a CQE waits for (R340). -/
def State.mirrorStream (s : State) (n : Nat) (job : Option Nat) : Option Nat × State :=
  let x := s.stream n
  if x.live && s.flag .TI_KEY_HOME_MIRRORED x.owner && s.mirrors then
    let wait := s.fget .DUPLEX_STATUS_STATE 0 == 5
    let (q, s) := s.mirrorWrite (.context n x.crossing) (if wait then job else none) x.owner
    (if wait then some q else none, s)
  else (none, s)

/-- The next key of a context becomes current (R292); `why` is 1 by frame, 2 by time. -/
def State.promote (s : State) (n why : Nat) : State :=
  let x := s.stream n
  match x.next with
  | none => s
  | some (i, k, _) => (s.reviseStream n ({ x with cur := some (i, k), next := none }.count cntPromoted)).frameEvent 0x7007 1 n i why

/-- A next key whose time has come, or a transmit context's key without a time, is promoted (R292). -/
def State.promoteIfDue (s : State) (n : Nat) : State :=
  let x := s.stream n
  match x.next with
  | none => s
  | some (_, _, t) =>
    if (t ≠ 0 && t ≤ s.replicaNow (ctxDie n)) || (t = 0 && x.dir = 1) then s.promote n 2 else s

/-- A stream key is installed (R291): event 0x7008, then a promotion that is due, then the mirror. -/
def State.installStream (s : State) (j : Job) (next : Bool) : Option Nat × State :=
  let n := blockCtx j.in0
  let x := s.stream n
  let k := streamForm x.alg j.keyBytes
  let i := blockId j.in0
  let s := s.reviseStream n (if next then { x with next := some (i, k, blockTime j.in0) } else { x with cur := some (i, k) })
  let s := s.frameEvent 0x7008 1 n (if next then 1 else 2) i
  (if next then s.promoteIfDue n else s).mirrorStream n (some j.id)

/-- Both keys of a context are zeroised. -/
def State.clearStreamKeys (s : State) (n : Nat) : State :=
  let x := s.stream n
  let i := match x.cur with
    | some (i, _) => i
    | none => 0
  (s.reviseStream n { x with cur := none, next := none }).frameEvent 0x7008 1 n 3 i

/-- The removal of a context crosses to a standby; the mailbox command that asks it does not wait. -/
def State.unmirrorStream (s : State) (n owner : Nat) : State :=
  if s.flag .TI_KEY_HOME_MIRRORED owner && s.mirrors then (s.mirrorWrite (.contextDelete n) none owner).2 else s

/-- A context is destroyed (R288): keys, replay state and subscriptions go, and its owner's quota has it back. -/
def State.dropStream (s : State) (n : Nat) : State :=
  let x := s.stream n
  if x.live then
    let s := s.unmirrorStream n x.owner
    let s := s.reviseStream n Stream.blank
    let fr := s.frames.rx.map (fun f => if f.ctx = some n then { f with seen := { f.seen with live := false } } else f)
    let s := { s with frames := { s.frames with rx := fr } }
    let s := s.fset .TI_STREAM_USED x.owner (s.fget .TI_STREAM_USED x.owner - 1)
    s.frameEvent 0x7009 1 n x.owner 0
  else s

end Sys2Proof.Machine
end

