-- ==== Sys2Proof/Machine/Alarm.lean ====
section
/-!
DEFINITION. What the alarm controller sees: thresholds, response mappings, and the conditions of the alarm sources
(R416 to R423, Tables 15.1, 15.2, 18.7).
-/

namespace Sys2Proof.Machine

/-! ## Set points and thresholds (R417, R471) -/

/-- The VDD_CORE set point of a DVFS point, in mV, and its datapath clock in MHz (Table 18.7). -/
def pointMv (p : Nat) : Nat := [850, 750, 700, 650].getD p 650
def pointMhz (p : Nat) : Nat := [3000, 2400, 1800, 1000].getD p 1000

/-- A running change of a die, until the regulator settles or for 1 ms. -/
def State.dvfsOf (s : State) (d : Nat) : Option Dvfs := s.power.changes.find? (fun c => c.die == d)

/-- The set points of a rail that its low and its high thresholds follow: rail 0 VDD_CORE of a die, 1 VDD_SRAM, 2 VDD_IO. -/
def State.setPoints (s : State) (rail d : Nat) : Nat × Nat :=
  match rail with
  | 0 =>
    let mv := pointMv (s.fget .PWR_DIE_POINT d)
    match s.dvfsOf d with
    | some c =>
      if s.since c.at_ < 1000000 then
        (min (pointMv c.old) (pointMv c.new), max (pointMv c.old) (pointMv c.new))
      else (mv, mv)
    | none => (mv, mv)
  | 1 => (800, 800)
  | _ => (1800, 1800)

/-- Warning, reset and over-voltage thresholds in mV. -/
def State.warnMv (s : State) (rail d : Nat) : Nat := (s.setPoints rail d).1 * 92 / 100
def State.resetMv (s : State) (rail d : Nat) : Nat := (s.setPoints rail d).1 * 86 / 100
def State.overMv (s : State) (rail d : Nat) : Nat := (s.setPoints rail d).2 * 110 / 100

/-- PROT_VTHR[k]. -/
def State.vthr (s : State) (k : Nat) : Nat := s.warnMv k 0 + s.resetMv k 0 * 2 ^ 16 + s.overMv k 0 * 2 ^ 32

/-! ## Mappings (R423) -/

/-- The bits of a mapping: RECORD, NOTIFY, HOLD, LOCKDOWN, ERASE. -/
def rRecord : Nat := 0
def rNotify : Nat := 1
def rHold : Nat := 2
def rLockdown : Nat := 3
def rErase : Nat := 4

/-- The fixed bits of a source. -/
def fixedMap (src : Nat) : Nat := if src < 12 then 16 else if src = 24 || src = 25 then 8 else 0

/-- The floor of a source with its fixed bits. -/
def State.floorMap (s : State) (src : Nat) : Nat := (sparseGet 0 s.otp.floor src % 32) ||| fixedMap src

/-- The effective mapping. -/
def State.effMap (s : State) (src : Nat) : Nat := (sparseGet 0 s.prot.map src % 32) ||| s.floorMap src

/-- Uzothal's mapping at start (Table 15.2). -/
def startMap (src : Nat) : Nat :=
  if src < 12 then 19 else if src < 15 || src = 16 || src = 19 then 7
  else if src = 17 || src = 23 || src = 24 || src = 25 then 11 else 3

/-- The union of the mappings of a set of sources. -/
def State.unionMap (s : State) (mask : Nat) : Nat :=
  (List.range 26).foldl (fun a x => if mask.testBit x then a ||| s.effMap x else a) 0

/-! ## Conditions (R416, R418 to R422) -/

/-- Main power is off. -/
def State.onVbat (s : State) : Bool := s.mode == modeRetention

/-- A bit period of the watermark in nanoseconds (R419). -/
def State.bitNs (s : State) : Nat := if s.onVbat then 15259 else 1000

/-- The inputs are judged: three AO periods and 16 bit periods after the arming (R420). -/
def State.judged (s : State) : Bool := decide (s.prot.armAt + (if s.onVbat then 11 else 4) ≤ s.time.aoTicks)

/-- An input is armed, in the mode that its condition needs. -/
def State.armed (s : State) (src : Nat) : Bool :=
  if src < 4 then (s.fget .PROT_TAMPER_CFG_CASE_ARMED 0).testBit src && s.judged
  else (s.fget .PROT_TAMPER_CFG_LOOP_ARMED 0).testBit (src - 4) && s.judged

/-- A loop is in watermark mode. -/
def State.watermark (s : State) (n : Nat) : Bool := (s.fget .PROT_TAMPER_CFG_WATERMARK 0).testBit n

/-- A local tick kept plus 1 lies less than `ns` back. -/
def State.within (s : State) (t ns : Nat) : Bool := t != 0 && decide (s.since (t - 1) < ns)

/-- The channel of a source that is stimulated now: its report is suppressed (R421). -/
def State.stimulated (s : State) (src ch : Nat) : Bool :=
  match s.prot.bist with
  | some (i, _, _, _) => i == src * 2 + ch
  | none => false

/-- A channel of a source is in service. -/
def State.channelLive (s : State) (src ch : Nat) : Bool :=
  !(if ch = 0 then s.prot.outA.testBit src else s.prot.outB.testBit src) && !s.stimulated src ch

/-- Integrity mismatches within the last 1 ms. -/
def State.bicWindow (s : State) : Nat := min 16 (s.prot.bic.filter (fun t => s.since t < 1000000)).length

/-- The condition of a source is present (Table 15.1); without main power and cell nothing watches. -/
def State.condition (s : State) (src : Nat) : Bool :=
  if s.onVbat && !s.boot.vbat then false
  else if src = 23 then !s.onVbat && (s.prot.outA &&& s.prot.outB) != 0
  else if src = 24 then !s.onVbat && s.bicWindow == 16
  else if 25 ≤ src then false
  else
    (s.channelLive src 0 || s.channelLive src 1) &&
    (if src < 4 then s.armed src && sparseGet 0 s.prot.phys src != 0
     else if src < 12 then
       s.armed src && (if s.watermark (src - 4) then s.within (sparseGet 0 s.prot.loopPair (src - 4)) (8 * s.bitNs)
                       else sparseGet 0 s.prot.phys src != 0)
     else (!s.onVbat || [15, 17, 22].contains src) && sparseGet 0 s.prot.phys src != 0)

/-- PROT_COND.PRESENT. -/
def State.present (s : State) : Nat := ((List.range 26).map (fun x => bit (s.condition x) * 2 ^ x)).sum

end Sys2Proof.Machine
end

