-- ==== Sys2Proof/Machine/Recorder.lean ====
section
/-!
DEFINITION. The event recorder: commit, coalescing, full channels, the retention recorder, reading and clearing
(R446 to R457).
-/

namespace Sys2Proof.Machine

/-- The records of a channel, oldest first. -/
def State.chan (s : State) (c : Nat) : List EvRec := sparseGet [] s.evr.chans c

/-- A channel holding other records. -/
def State.setChan (s : State) (c : Nat) (l : List EvRec) : State :=
  { s with evr := { s.evr with chans := sparseSet [] s.evr.chans c l } }

/-- The quota of a channel (R447). -/
def State.quota (s : State) (c : Nat) : Nat := s.fget .EVR_COUNT_QUOTA c

/-- The bytes of a record (Table 17.2). -/
def EvRec.bytes (e : EvRec) : Bytes :=
  leBytes 8 e.time ++ leBytes 4 e.seq ++ leBytes 2 e.code ++ leBytes 1 (e.chan + 32 * e.sev) ++ leBytes 1 e.src ++
  leBytes 4 e.d0 ++ leBytes 4 e.d1 ++ leBytes 4 e.d2 ++ leBytes 2 e.rep ++ leBytes 2 e.last

/-- LAST: the time from the first occurrence to the last repeat, in the smallest unit that fits (R448). -/
def lastField (ns : Nat) : Nat :=
  if ns / 1000 < 2 ^ 14 then ns / 1000
  else if ns / 1000000 < 2 ^ 14 then 0x4000 + ns / 1000000
  else if ns / 1000000000 < 2 ^ 14 then 0x8000 + ns / 1000000000
  else if ns / 256000000000 < 2 ^ 14 then 0xC000 + ns / 256000000000
  else 0xFFFF

/-- Whether an event repeats a record: same code, source and detail words (R450). The lateness of a deadline fault and
the seconds of a lost PPS are reported as their latest value and do not keep a repeat apart (R154, R170). -/
def repeats (r e : EvRec) : Bool :=
  r.code == e.code && r.src == e.src && (r.d0 == e.d0 || e.code == 0x5007) && r.d1 == e.d1 &&
    (r.d2 == e.d2 || e.code == 0x5001)

/-- The time in ns from a record to its repeat; a retention record of the AO logic counts AO ticks of 1/32,768 s (R448,
R455). -/
def EvRec.after (e r : EvRec) : Nat :=
  if e.chan = 31 && decide (2 ^ 63 ≤ r.time) && decide (2 ^ 63 ≤ e.time) then (e.time - r.time) * 1000000000 / 32768
  else e.time - r.time

/-- A record with one more repeat (R450). -/
def EvRec.again (r e : EvRec) : EvRec :=
  { r with rep := min 0xFFFF (r.rep + 1), last := lastField (e.after r), d0 := e.d0, d2 := e.d2 }

/-- The last record of a list replaced. -/
def replaceLast (l : List EvRec) (e : EvRec) : List EvRec := l.dropLast ++ [e]

/-- PF0 MSI-X vector 1 stands while a bit of EVR_INT is set whose enable is 1 (R457). -/
def State.recLevel (s : State) : Bool := (s.reg .EVR_INT 0 &&& s.reg .EVR_INT_EN 0) != 0

/-- Vector 1 fires when its level has risen since `before`. -/
def State.recVector (s : State) (before : Bool) : State := if s.recLevel && !before then s.vector 1 else s

/-- The place of the oldest record of lower severity (R452). -/
def lowerPlace (sev : Nat) (l : List EvRec) : Option Nat := l.findIdx? (fun r => r.sev < sev)

/-- A cursor after the record at place `j` of channel `c` is removed (R454). -/
def moveCursor (cur : Nat × Nat) (c j : Nat) : Nat × Nat := if cur.1 = c && j < cur.2 then (cur.1, cur.2 - 1) else cur

/-- Every cursor after a removal (R454). -/
def State.moveCursors (s : State) (c j : Nat) : State :=
  let p := moveCursor (s.fget .EVR_CURSOR_CHANNEL 0, s.fget .EVR_CURSOR_INDEX 0) c j
  let s := s.fset .EVR_CURSOR_INDEX 0 p.2
  { s with evr := { s.evr with mpCursor := moveCursor s.evr.mpCursor c j, dbgCursor := moveCursor s.evr.dbgCursor c j } }

/-- The sequence number after `n`: 0xFFFF_FFFF wraps to 1 (R449). -/
def nextSeq (n : Nat) : Nat := if n + 1 ≥ 2 ^ 32 then 1 else n + 1

/-- A new record takes its sequence number and is appended to its channel; the interrupt bits follow (R449, R457). -/
def State.appendRec (s : State) (e : EvRec) (l : List EvRec) (wasFull : Bool) : State :=
  let c := e.chan
  let seq := if c = 31 then s.evr.aoSeq else s.fget .EVR_SEQ_NEXT 0
  let s := s.setChan c (l ++ [{ e with seq := seq }])
  let s := if c = 31 then { s with evr := { s.evr with aoSeq := nextSeq seq } } else s.fset .EVR_SEQ_NEXT 0 (nextSeq seq)
  let s := if c = 30 then s.fset .EVR_INT_SECURITY 0 1 else if c = 31 && s.mode != modeRetention then s.fset .EVR_INT_RETENTION 0 1 else s
  let th := s.fget .EVR_THRESH_THRESH c
  if th ≠ 0 && l.length + 1 = th && !wasFull then
    (s.fset .EVR_INT_THRESHOLD 0 1).setReg .EVR_THRESH_HIT 0 (s.reg .EVR_THRESH_HIT 0 ||| BitVec.ofNat 64 (1 <<< c))
  else s

/-- One event committed to its channel (R450, R451, R452). -/
def State.commitEvent (s : State) (e : EvRec) : State :=
  let before := s.recLevel
  let c := e.chan
  let l := s.chan c
  let done :=
    match l.getLast? with
    | some r => if repeats r e then some (s.setChan c (replaceLast l (r.again e))) else none
    | none => none
  match done with
  | some s => s
  | none =>
    if l.length < s.quota c then (s.appendRec e l false).recVector before
    else if c < 30 then s.fadd .EVR_DROPPED_COUNT c 1
    else
      match lowerPlace e.sev l with
      | none => s.fadd .EVR_DROPPED_COUNT c 1
      | some j =>
        let s := s.moveCursors c j
        let s := if c = 30 then s.fadd .EVR_OVERWRITE_SECURITY 0 1 else s.fadd .EVR_OVERWRITE_RETENTION 0 1
        (s.appendRec e (l.eraseIdx j) true).recVector before

/-- The codes that the retention recorder copies on main power (R455). -/
def retained (code : Nat) : Bool := code == 0x2004 || code == 0x3001 || code == 0x3002 || code == 0x3060

/-- EVENT_COMMIT (R453): the oldest waiting event is committed, with its copy in the retention recorder. -/
def execEventCommit (s : State) : Out :=
  match s.evr.fifo with
  | [] => .next s
  | e :: rest =>
    let s := { s with evr := { s.evr with fifo := rest } }
    let s := s.commitEvent e
    .next (if retained e.code then s.commitEvent { e with chan := 31 } else s)

/-- A record of the AO logic, written on VBAT with the AO tick count (R455). -/
def State.aoEvent (s : State) (code sev d0 d1 d2 : Nat) : State :=
  s.commitEvent { time := 2 ^ 63 + s.time.aoTicks, seq := 0, code := code, chan := 31, sev := sev, src := 0,
                  d0 := d0, d1 := d1, d2 := d2, rep := 0, last := 0 }

/-- The number of a master, for its cursor, snapshot and captures. -/
def masterNo : Master → Nat
  | .pf0 => 0 | .mp => 1 | .dbg => 2

/-- A master's cursor: channel and index (R454). -/
def State.cursor (s : State) : Master → Nat × Nat
  | .pf0 => (s.fget .EVR_CURSOR_CHANNEL 0, s.fget .EVR_CURSOR_INDEX 0)
  | .mp => s.evr.mpCursor
  | .dbg => s.evr.dbgCursor

/-- A master's cursor set. -/
def State.setCursor (s : State) (m : Master) (c i : Nat) : State :=
  match m with
  | .pf0 => (s.fset .EVR_CURSOR_CHANNEL 0 c).fset .EVR_CURSOR_INDEX 0 i
  | .mp => { s with evr := { s.evr with mpCursor := (c % 32, i % 8192) } }
  | .dbg => { s with evr := { s.evr with dbgCursor := (c % 32, i % 8192) } }

/-- A read of EVR_WINDOW[w]: what it returns and what it changes (R454). -/
def State.windowRead (s : State) (m : Master) (w : Nat) : Nat × State :=
  let (c, i) := s.cursor m
  let s :=
    if w = 0 then
      let b := match (s.chan c)[i]? with
        | some r => r.bytes
        | none => List.replicate 32 0
      { s with evr := { s.evr with snaps := sparseSet [] s.evr.snaps (masterNo m) b } }
    else s
  if i < (s.chan c).length then
    let v := leAt (sparseGet [] s.evr.snaps (masterNo m)) (4 * w) 4
    (v, if w = 7 then s.setCursor m c (i + 1) else s)
  else (0, s)

/-- A master that may read the recorder: PF0, the MP, the debug master at level 1 or above (R454). -/
def State.readsRecorder (s : State) : Master → Bool
  | .dbg => s.fget .DBG_STATE_LEVEL 0 != 0
  | _ => true

/-- EVR_WINDOW0_READ (R454): the read that copies the record at the master's cursor into its snapshot. -/
def execEvrWindow0Read (master : Master) (s : State) : Out :=
  if s.readsRecorder master then
    let (v, s) := s.windowRead master 0
    .next (s.emitLocal (.readReturn (leBytes 4 v)))
  else .next s

/-- EVR_WINDOW7_READ (R454): the read that advances the master's cursor. -/
def execEvrWindow7Read (master : Master) (s : State) : Out :=
  if s.readsRecorder master then
    let (v, s) := s.windowRead master 7
    .next (s.emitLocal (.readReturn (leBytes 4 v)))
  else .next s

/-- A channel emptied; event 0x0001 follows (R456, R459). -/
def State.clearChan (s : State) (c : Nat) (who : Nat) : State :=
  let n := (s.chan c).length
  (s.setChan c []).event 0x0001 3 0 1 c n who

end Sys2Proof.Machine
end

