-- ==== Sys2Proof/Machine/View.lean ====
section
/-!
DEFINITION. What a register reads: the registers whose fields follow other state, the places of the register map, and the
copies that the query commands return (R10, R16, R489, R490, R496).
-/

namespace Sys2Proof.Machine

/-! ## Fields that follow other state -/

/-- Jobs on the ready list of a class of a die. -/
def State.classCount (s : State) (d c : Nat) : Nat :=
  (s.sched.jobs.filter (fun j => (j.phase == .ready || j.phase == .saved) && j.die == d && j.cls == c)).length

/-- RING_OUTSTANDING: accepted jobs not ended, or the reservation and the held CQEs of a CQ. -/
def State.outstanding (s : State) (r : Nat) : Nat :=
  if s.ringType r = typeSq then (s.sched.jobs.filter (fun j => j.ring == r)).length
  else if s.ringType r = typeCq && s.ringLive r then min 64 (s.ringx r).held.length * 2 ^ 17 + s.reservation r
  else 0

/-- Owner slots by a property, bit by bit. -/
def State.ownerBits (s : State) (f : OwnerSlot → Bool) : Nat :=
  (s.otp.owners.zipIdx.map (fun x => bit (f x.1) * 2 ^ x.2)).sum

/-- Frames of a pipe that wait for a verdict. -/
def State.pipeQueue (s : State) (die pipe : Nat) : Nat :=
  (s.frames.rx.filter (fun f => f.verdict.isNone && f.port / 16 == die && f.port % 16 / 4 == pipe)).length

/-- Bytes of a die's frame buffer in use. -/
def State.bufferUsed (s : State) (die : Nat) : Nat :=
  ((s.frames.rx.filter (fun f => f.port / 16 == die)).map (fun f => f.own + f.shared)).sum

/-- The word that register `k` at index `i` reads, its read effects apart. -/
def State.view (s : State) (k : RegKind) (i : Nat) : Nat :=
  let w := s.reg k i
  match k with
  | .MBX_DOORBELL | .TIME_SET | .TIME_STEP | .LCS_REQUEST | .DGE_DATA => 0
  | .MBX_RSP => if s.flag .MBX_STATUS_BUSY 0 then 0 else leAt s.mbx.rsp (4 * i) 4
  | .EVR_STATUS => s.evr.fifo.length + bit (s.flag .DEV_READY_EVR 0) * 2 ^ 31
  | .EVR_AO_NOW => s.time.aoTicks
  | .EVR_COUNT => (s.chan i).length + s.quota i * 0x10000
  | .TIME_NOW => s.time.ns
  | .TIME_SLEW => unsignedOf 32 (s.time.slew / (fracOne : Int))
  | .DIE_SCHED_STATE => (withField w 12 0 ((List.range 4).map (s.classCount i)).sum).toNat
  | .DIE_SCHED_CLASS => s.classCount (i / 4) (i % 4)
  | .RING_OUTSTANDING => s.outstanding i
  | .CAL_STAT =>
    let n := s.pipeQueue (i / 4) (i % 4)
    (if n = 0 then 0 else Config.freeNat (s.free + i) % 13) + n * 0x10000
  | .PORT_STATUS => (withField w 3 3 (bit (decide (s.time.ticks < sparseGet 0 s.frames.paused i)))).toNat
  | .FB_STAT => (withField w 15 0 (ceilDiv (s.bufferUsed i) 1024)).toNat
  | .DUPLEX_STATUS =>
    let up := fun (x : Option Nat) => match x with
      | some t => bit (decide (s.since t < s.duplex.hbPeriod * 1000000))
      | none => 0
    w.toNat + up s.duplex.heardA * 2 ^ 8 + up s.duplex.heardB * 2 ^ 9
  | .LCS_STATE =>
    w.toNat + (((List.range 5).map (fun t => match s.otp.marks[t]? with
      | some (a, b) => bit (a == some (t + 1) || b == some (t + 1)) * 2 ^ t
      | none => 0)).sum) * 2 ^ 16
  | .LCS_OTP_LEFT =>
    (s.otp.owners.filter (fun o => o.owner.isEmpty)).length +
      (s.otp.epochs.filter (fun e => e.share.isEmpty)).length * 2 ^ 8 + (64 - s.otp.svn) * 2 ^ 16 + bit s.otp.f2 * 2 ^ 24
  | .LCS_OWNER =>
    (match s.ownerSlot with
     | some n => n + 8
     | none => 0) + s.ownerBits (fun o => !o.kernel.isEmpty) * 2 ^ 4 + s.ownerBits (fun o => !o.debugHash.isEmpty) * 2 ^ 8 +
      s.ownerBits (·.revoked) * 2 ^ 12
  | .PROT_COND => s.present
  | .PROT_BIC => (withField w 4 0 s.bicWindow).toNat
  | .PROT_VTHR => if s.boot.phase = 0 then 0 else s.vthr i
  | .PROT_MAP => if s.boot.phase = 0 then 0 else s.effMap i + s.floorMap i * 2 ^ 16
  | .PROT_F2 => (withField w 31 31 (bit s.otp.f2)).toNat
  | _ => w.toNat

/-! ## The map (R9, R10, R16) -/

/-- The index within a register's arrays, and the byte within the register, of an offset from its base. -/
def indexAt : List (Nat × Nat) → Nat → Nat → Nat → Option (Nat × Nat)
  | [], width, off, acc => if off < width / 8 then some (acc, off) else none
  | (n, st) :: r, width, off, acc => if off / st < n then indexAt r width (off % st) (acc * n + off / st) else none

/-- A DKL register block's offset in a die block: instances 6 and 7 have theirs on die 0 only, and instance 7 has no region
registers (R436, R443). -/
def dklPresent (d rel : Nat) : Bool :=
  let i := (rel - 0x60000) / 0x800
  decide (rel < 0x60000) || decide (8 ≤ i) || decide (i < 6) || (d == 0 && (i == 6 || decide (rel % 0x800 < 0x100)))

/-- Whether an address of BAR0 lies in a die block or a ring or tenant block that the variant has. -/
def State.presentAt (s : State) (addr : Nat) : Bool :=
  if 0x100000 ≤ addr && addr < 0x900000 then
    decide ((addr - 0x100000) / 0x100000 < s.dies) && dklPresent ((addr - 0x100000) / 0x100000) (addr % 0x100000)
  else if 0x1000000 ≤ addr && addr < 0x2000000 then decide ((addr - 0x1000000) / 0x400 < s.part.rings)
  else if 0x2000000 ≤ addr && addr < 0x2400000 then decide ((addr - 0x2000000) / 0x1000 < s.part.tenants)
  else if 0x210 ≤ addr && addr < 0x230 then decide ((addr - 0x210) / 4 < s.dies)
  else true

/-- The register that holds an address of BAR0: its name, its index and the byte within it. -/
def State.regAt (s : State) (addr : Nat) : Option (RegKind × Nat × Nat) :=
  if s.presentAt addr then
    allRegKinds.findSome? (fun k =>
      let row := regRow k
      if addr < row.base then none
      else (indexAt row.dims row.width (addr - row.base) 0).map (fun x => (k, x.1, x.2)))
  else none

/-- One byte of BAR0 as a read returns it; an offset of no register reads as zero. -/
def State.viewByte (s : State) (addr : Nat) : Byte :=
  match s.regAt addr with
  | some (k, i, o) => BitVec.ofNat 8 (s.view k i >>> (8 * o))
  | none => 0

/-- `n` bytes of BAR0 from an address, as a query command copies them (R496). -/
def State.peek (s : State) (addr n : Nat) : Bytes := (List.range n).map (fun i => s.viewByte (addr + i))

/-- The block of a ring, of a TI and of a die. -/
def ringBlock (r : Nat) : Nat := 0x1000000 + 0x400 * r
def tiBlock (n : Nat) : Nat := 0x2000000 + 0x1000 * n
def dieBlock (d : Nat) : Nat := 0x100000 + 0x100000 * d

end Sys2Proof.Machine
end

