-- ==== Sys2Proof/Machine/Tenancy.lean ====
section
/-!
DEFINITION. Device information, tenant interfaces, their quotas, windows and interrupt entries, and their end
(R79 to R93, R100 to R106, R316, R322).
-/

namespace Sys2Proof.Machine

/-! ## Device information (R100) -/

/-- The part's name. -/
def partName : Part → String
  | .zv2800 => "ZV2800" | .zv4800 => "ZV4800" | .zv8800 => "ZV8800"

/-- DEV_INFO (R100, Table 03.9a). -/
def execDevInfo (s : State) : Out :=
  .next (s.cmd 0x0101 (fun s _ => s.respond mSuccess 0
    (sliceZ (ascii (partName s.part)) 0 8 ++ leBytes 1 s.dies ++ ascii (if s.grade = .extended then "E" else "C") ++
     ascii "B1" ++ sliceZ s.boot.head 0x0C 4 ++ leBytes 4 s.fwManifest ++ leBytes 1 s.otp.svn ++
     leBytes 1 (s.fget .KS_ROOT_EPOCH 0) ++ leBytes 1 (s.fget .LCS_STATE_STATE 0) ++ leBytes 1 s.mode ++
     leBytes 1 (bit s.otp.f2) ++ leBytes 1 (s.fget .DBG_STATE_LEVEL 0) ++ leBytes 6 0 ++ sliceZ s.otp.deviceId 0 16 ++
     leBytes 8 s.now ++ leBytes 8 0)))

/-- Stream contexts of the package (Table 03.4). -/
def State.contexts (s : State) : Nat := 4096 * s.dies

/-- DEV_CAPS (R100). -/
def execDevCaps (s : State) : Out :=
  .next (s.cmd 0x0102 (fun s _ => s.respond mSuccess 0
    ([s.part.tenants, s.part.rings, 4096, s.contexts, 28672 * s.dies, 16, 16368, 8, 32, 8 * s.dies].flatMap (leBytes 4))))

/-- A quota field summed over every TI. -/
def State.quotaSum (s : State) (f : Fld) : Nat := ((List.range s.part.tenants).map (s.fget f)).sum

/-- TIs that are FREE. -/
def State.freeTis (s : State) : List Nat := (List.range s.part.tenants).filter (fun n => s.tiState n == tiFree)

/-- DEV_POOLS (R100): what no quota holds. -/
def execDevPools (s : State) : Out :=
  .next (s.cmd 0x0103 (fun s _ => s.respond mSuccess 0
    ([s.freeTis.length, s.part.rings - s.quotaSum .TI_RING_QUOTA, 4096 - s.quotaSum .TI_IMT_QUOTA,
      s.contexts - s.quotaSum .TI_STREAM_QUOTA].flatMap (leBytes 4) ++
     (List.range 8).flatMap (fun d => leBytes 4 (if d < s.dies then s.freeGranules d else 0)))))

/-! ## Queries -/

/-- TI_QUERY (R101): a copy of the TI's registers, nothing cleared (R496). -/
def execTiQuery (s : State) : Out :=
  .next (s.cmdIf 0x020B (fun s p => [(decide (s.part.tenants ≤ leAt p 0 2), mBadParam, 0), zeroAt p 2 2])
    (fun s p => s.respond mSuccess 0 (s.peek (tiBlock (leAt p 0 2)) 64)))

/-- RING_QUERY (R139): a copy of the ring's registers. -/
def execRingQuery (s : State) : Out :=
  .next (s.cmd 0x0307 (fun s p => match s.namedRing p with
    | .error (st, d) => s.respond st d []
    | .ok r => s.respond mSuccess 0 (s.peek (ringBlock r) 80)))

/-- SCHED_QUERY (R166): a copy of a die's scheduling block. -/
def execSchedQuery (s : State) : Out :=
  .next (s.cmdIf 0x0405 (fun s p => [(decide (s.dies ≤ byteAt p 0), mBadParam, 0), zeroAt p 1 3])
    (fun s p => s.respond mSuccess 0 (s.peek (dieBlock (byteAt p 0) + 0x100) 32)))

/-! ## Creation (R80, R88, R102, R316, R322) -/

/-- The key die of a new TI: of the dies that can hold the quota the one with the most free granules, the lower number
first (R316). -/
def State.chooseKeyDie (s : State) (g : Nat) : Option Nat :=
  ((List.range s.dies).filter (fun d => g ≤ s.freeGranules d)).foldl (fun b d => match b with
    | none => some d
    | some x => if s.freeGranules x < s.freeGranules d then some d else some x) none

/-- The granules that quotas reserve on a die. -/
def State.reserveGranules (s : State) (d : Nat) (old new : Nat) : State :=
  s.fset .KS_GRANULES_RESERVED_Q d (s.fget .KS_GRANULES_RESERVED_Q d + new - old)

/-- Random bytes of an import key pair: the ML-KEM-1024 seed, then an X448 key generation. -/
def importPairDraw : Nat := 64 + ecKeygenDraw .x448

/-- The stored form of an import key pair (R322). -/
def importPairOf (r : Bytes) : Bytes := sliceZ r 0 64 ++ ecKeygenOf .x448 (r.drop 64)

/-- An import key pair in its slot, with its generation. -/
def State.setImportPair (s : State) (ti gen : Nat) (r : Bytes) : State :=
  let b := importPairOf r
  let s := s.setSlot ti importSlot { KeySlot.blank with state := .occupied, typ := 0xC0, gen := gen, stored := b,
                                                        share := newShare s.free 2 b, granules := 2 }
  { s with free := s.free + b.length }

/-- The registers of a new TI: CREATED, with its quotas, key die and scheduling defaults. -/
def State.makeTi (s : State) (n d : Nat) (p : Bytes) (r : Bytes) : State :=
  let s := s.fset .TI_STATUS_STATE n tiCreated
  let s := ((s.fset .TI_RING_QUOTA n (leAt p 4 4)).fset .TI_KEY_QUOTA_VALUE n (leAt p 8 4)).fset .TI_STREAM_QUOTA n (leAt p 12 4)
  let s := (s.fset .TI_IMT_QUOTA n (leAt p 16 4)).fset .TI_KEY_HOME_DIE n d
  let s := (s.fset .TI_SCHED_SHARE n 100).fset .TI_SCHED_READY_LIMIT n 256
  (s.reserveGranules d 0 (leAt p 8 4)).setImportPair n 1 r

/-- The checks of TI_CREATE, fields first, then the pools. -/
def State.tiCreateChecks (s : State) (p : Bytes) : List (Bool × Nat × Nat) :=
  let n := leAt p 0 2
  [(n != 0xFFFF && decide (s.part.tenants ≤ n), mBadParam, 0), (n != 0xFFFF && s.tiState n != tiFree, mNotFound, 0),
   zeroAt p 2 2, zeroAt p 20 4, (n == 0xFFFF && s.freeTis.isEmpty, mNoResource, 6),
   (decide (s.part.rings < s.quotaSum .TI_RING_QUOTA + leAt p 4 4), mNoResource, 1),
   ((s.chooseKeyDie (leAt p 8 4)).isNone, mNoResource, 2),
   (decide (s.contexts < s.quotaSum .TI_STREAM_QUOTA + leAt p 12 4), mNoResource, 3),
   (decide (4096 < s.quotaSum .TI_IMT_QUOTA + leAt p 16 4), mNoResource, 4)]

/-- TI_CREATE (R316, R322): it waits for its random input. -/
def execTiCreate (s : State) : Out :=
  .next (s.cmdIf 0x0201 State.tiCreateChecks (fun s p =>
    let n := if leAt p 0 2 = 0xFFFF then s.freeTis.headD 0 else leAt p 0 2
    match s.mpDraw importPairDraw with
    | (none, s) => s
    | (some r, s) =>
      let s := s.makeTi n ((s.chooseKeyDie (leAt p 8 4)).getD 0) p r
      let s := s.event 0x6001 1 0 1 n (leAt p 4 4) (leAt p 8 4)
      s.respond mSuccess 0 (leBytes 2 n ++ leBytes 2 0 ++ leBytes 4 (n * 0x1000))))

/-! ## Binding (R82) -/

/-- The package is the STANDBY of a duplex pair. -/
def State.standby (s : State) : Bool := s.fget .DUPLEX_STATUS_ROLE 0 == 2

/-- On a standby a mirrored TI that is BOUND becomes QUIESCED under the duplex hold (R341). -/
def State.duplexHold (s : State) (n : Nat) : State :=
  if s.standby && s.flag .TI_KEY_HOME_MIRRORED n && s.tiState n == tiBound then
    let s := (s.fset .TI_STATUS_STATE n tiQuiesced).fset .TI_KEY_HOME_DUPLEX_HELD n 1
    (s.ringsOf n).foldl State.discardPrefetch s
  else s

/-- The checks of TI_BIND. -/
def State.tiBindChecks (s : State) (p : Bytes) : List (Bool × Nat × Nat) :=
  let n := leAt p 0 2
  let rebind := (leAt p 2 2).testBit 0
  let pas := leAt p 4 4
  [(decide (s.part.tenants ≤ n), mBadParam, 0),
   (!(s.tiState n == tiCreated || (s.tiState n == tiQuiesced && rebind)), mNotFound, 0),
   (decide (2 ≤ leAt p 2 2), mBadParam, 2), (decide (2 ^ 20 ≤ pas) || !s.host.pasidEnable, mBadParam, 4),
   ((List.range s.part.tenants).any (fun m => m != n && s.pasidOf m == some pas), mExists, 0)]

/-- TI_BIND (R82). -/
def execTiBind (s : State) : Out :=
  .next (s.cmdIf 0x0202 State.tiBindChecks (fun s p =>
    let n := leAt p 0 2
    let re := s.tiState n == tiQuiesced
    let s := (s.fset .TI_STATUS_PASID n (leAt p 4 4)).fset .TI_STATUS_PASID_VALID n 1
    let s := if re then s else (s.fset .TI_STATUS_STATE n tiBound).duplexHold n
    (s.event 0x6002 1 0 1 n (leAt p 4 4) (bit re)).success))

/-! ## Quotas (R89, R90) -/

/-- One quota of TI_SET_QUOTA: its bit, payload offset, field, pool, current use and resource code. -/
structure QuotaRow where
  bit : Nat
  off : Nat
  fld : Fld
  pool : Nat
  used : Nat
  code : Nat

/-- Current use of a TI's keys (R89): granules, or the highest slot in use. -/
def State.keyUse (s : State) (n : Nat) : Nat := max (s.fget .TI_KEY_USED_VALUE n) (s.fget .TI_KEY_TOP_VALUE n)

/-- The four quotas of a TI; the room for keys is that of its key die (R316). -/
def State.quotaRows (s : State) (n : Nat) : List QuotaRow :=
  let room := fun f pool => pool - (s.quotaSum f - s.fget f n)
  [⟨0, 4, .TI_RING_QUOTA, room .TI_RING_QUOTA s.part.rings, s.fget .TI_RING_USED n, 1⟩,
   ⟨1, 8, .TI_KEY_QUOTA_VALUE, s.freeGranules (s.keyDie n) + s.fget .TI_KEY_QUOTA_VALUE n, s.keyUse n, 2⟩,
   ⟨2, 12, .TI_STREAM_QUOTA, room .TI_STREAM_QUOTA s.contexts, s.fget .TI_STREAM_USED n, 3⟩,
   ⟨3, 16, .TI_IMT_QUOTA, room .TI_IMT_QUOTA 4096, s.fget .TI_IMT_USED n, 4⟩]

/-- The rows that a change mask names. -/
def State.quotaNamed (s : State) (p : Bytes) : List QuotaRow :=
  (s.quotaRows (leAt p 0 2)).filter (fun r => (leAt p 2 2).testBit r.bit)

/-- The checks of TI_SET_QUOTA. -/
def State.setQuotaChecks (s : State) (p : Bytes) : List (Bool × Nat × Nat) :=
  s.tiChecks p ++ [(decide (16 ≤ leAt p 2 2), mBadParam, 2), zeroAt p 20 4] ++
    (s.quotaNamed p).flatMap (fun r =>
      [(decide (r.pool < leAt p r.off 4), mNoResource, r.code), (decide (leAt p r.off 4 < r.used), mBusyObject, r.code)])

/-- TI_SET_QUOTA (R89): the quotas named change together. -/
def execTiSetQuota (s : State) : Out :=
  .next (s.cmdIf 0x0203 State.setQuotaChecks (fun s p =>
    let n := leAt p 0 2
    let old := s.fget .TI_KEY_QUOTA_VALUE n
    let s := (s.quotaNamed p).foldl (fun s r => s.fset r.fld n (leAt p r.off 4)) s
    let s := s.reserveGranules (s.keyDie n) old (s.fget .TI_KEY_QUOTA_VALUE n)
    (s.event 0x6004 1 0 1 n (leAt p 2 2) 0).success))

/-! ## Windows (R85 to R87) -/

/-- A window that is in use. -/
def State.windowUsed (s : State) (n w : Nat) : Bool := s.flag .TI_WIN_CTL_READ (n * 16 + w) || s.flag .TI_WIN_CTL_WRITE (n * 16 + w)

/-- Whether a range of bytes meets a window. -/
def State.meetsWindow (s : State) (n w a len : Nat) : Bool :=
  let (b, e, _, _) := s.window n w
  s.windowUsed n w && decide (a < e) && decide (b < a + len)

/-- The checks of TI_ADD_WINDOW. -/
def State.addWindowChecks (s : State) (p : Bytes) : List (Bool × Nat × Nat) :=
  let n := leAt p 0 2
  let len := leAt p 16 4
  s.tiChecks p ++ [(decide (16 ≤ byteAt p 2), mBadParam, 2), (s.windowUsed n (byteAt p 2), mExists, 0),
    (byteAt p 3 == 0 || decide (4 ≤ byteAt p 3), mBadParam, 3), zeroAt p 4 4,
    (decide (leAt p 8 8 % 4096 ≠ 0) || (List.range 16).any (fun w => s.meetsWindow n w (leAt p 8 8) (len * 4096)), mBadParam, 8),
    (len == 0 || decide (2 ^ 28 ≤ len), mBadParam, 16), zeroAt p 20 4]

/-- TI_ADD_WINDOW (R85). -/
def execTiAddWindow (s : State) : Out :=
  .next (s.cmdIf 0x0204 State.addWindowChecks (fun s p =>
    let i := leAt p 0 2 * 16 + byteAt p 2
    let s := s.setReg .TI_WIN_BASE i (BitVec.ofNat 64 (leAt p 8 8))
    let s := (s.fset .TI_WIN_CTL_PAGES i (leAt p 16 4)).fset .TI_WIN_CTL_READ i (byteAt p 3)
    (s.fset .TI_WIN_CTL_WRITE i (byteAt p 3 / 2)).success))

/-- An enabled ring whose header or entries meet a window (R87). -/
def State.windowHeld (s : State) (n w : Nat) : Bool :=
  (s.ringsOf n).any (fun r => s.ringState r == ringEnabled &&
    (s.meetsWindow n w (s.reg .RING_HDR_ADDR r).toNat 64 ||
      s.meetsWindow n w (s.reg .RING_BASE r).toNat (s.ringSize r * s.entrySize r)))

/-- A window is unused. -/
def State.clearWindow (s : State) (n w : Nat) : State := (s.setReg .TI_WIN_BASE (n * 16 + w) 0).setReg .TI_WIN_CTL (n * 16 + w) 0

/-- Jobs of a TI whose buffers have been checked. -/
def State.checkedJobs (s : State) (n : Nat) : List Nat :=
  (s.sched.jobs.filter (fun j => j.ti == n && j.phase != .ready)).map (·.id)

/-- The checks of TI_REMOVE_WINDOW. -/
def State.removeWindowChecks (s : State) (p : Bytes) : List (Bool × Nat × Nat) :=
  let n := leAt p 0 2
  s.tiChecks p ++ [(decide (16 ≤ byteAt p 2), mBadParam, 2), (!s.windowUsed n (byteAt p 2), mNotFound, 0), zeroAt p 3 1,
    (s.windowHeld n (byteAt p 2), mBusyObject, 5)]

/-- TI_REMOVE_WINDOW (R87): the response waits for the jobs that were checked against the old windows. -/
def execTiRemoveWindow (s : State) : Out :=
  .next (s.cmdIf 0x0205 State.removeWindowChecks (fun s p =>
    let n := leAt p 0 2
    (((s.clearWindow n (byteAt p 2)).mbxWait (s.checkedJobs n) none none).mbxSettle)))

/-! ## Interrupt entries (R93, R102) -/

/-- The entries of a command. -/
def imtRange (p : Bytes) : List Nat := (List.range (leAt p 6 2)).map (leAt p 4 2 + ·)

/-- The checks that both commands share. -/
def State.imtChecks (s : State) (p : Bytes) : List (Bool × Nat × Nat) :=
  s.tiChecks p ++ [zeroAt p 2 2, (decide (4096 < leAt p 4 2 + min 4096 (leAt p 6 2)) || decide (4096 ≤ leAt p 4 2), mBadParam, 4),
    (leAt p 6 2 == 0 || decide (4096 < leAt p 6 2), mBadParam, 6)]

/-- TI_ASSIGN_IMT (R102). -/
def execTiAssignImt (s : State) : Out :=
  .next (s.cmdIf 0x0206 (fun s p => s.imtChecks p ++
      [((imtRange p).any (fun n => s.flag .IMT_CTL_ASSIGNED n), mBusyObject, 4),
       (decide (s.fget .TI_IMT_QUOTA (leAt p 0 2) < s.fget .TI_IMT_USED (leAt p 0 2) + leAt p 6 2), mNoResource, 4)])
    (fun s p =>
      let n := leAt p 0 2
      let s := (imtRange p).foldl (fun s e => (s.fset .IMT_CTL_ASSIGNED e 1).fset .IMT_CTL_OWNER e n) s
      (s.fset .TI_IMT_USED n (s.fget .TI_IMT_USED n + leAt p 6 2)).success))

/-- A ring of the TI names the entry. -/
def State.imtNamed (s : State) (n e : Nat) : Bool :=
  (s.ringsOf n).any (fun r => s.flag .RING_INT_IMT_VALID r && s.fget .RING_INT_IMT r == e)

/-- An entry masked, its PEND cleared and given back (R93). -/
def State.releaseImt (s : State) (e : Nat) : State :=
  let s := ((s.fset .IMT_CTL_ASSIGNED e 0).fset .IMT_CTL_OWNER e 0).fset .IMT_CTL_PEND e 0
  { (s.fset .IMT_CTL_MASK e 1) with imtTaint := s.imtTaint.filter (· != e) }

/-- TI_RELEASE_IMT (R93). -/
def execTiReleaseImt (s : State) : Out :=
  .next (s.cmdIf 0x0207 (fun s p =>
      let n := leAt p 0 2
      s.imtChecks p ++
      [((imtRange p).any (fun e => !(s.flag .IMT_CTL_ASSIGNED e && s.fget .IMT_CTL_OWNER e == n)), mBadParam, 4),
       ((imtRange p).any (s.imtNamed n), mBusyObject, 4)])
    (fun s p =>
      let n := leAt p 0 2
      let s := (imtRange p).foldl State.releaseImt s
      (s.fset .TI_IMT_USED n (s.fget .TI_IMT_USED n - leAt p 6 2)).success))

/-! ## Quiesce and resume (R103, R84) -/

/-- TI_QUIESCE (R103): drain waits for the TI's jobs and their CQEs, abort ends them. -/
def execTiQuiesce (s : State) : Out :=
  .next (s.cmdIf 0x0208 (fun s p =>
      [(decide (s.part.tenants ≤ leAt p 0 2), mBadParam, 0), (s.tiState (leAt p 0 2) != tiBound, mNotFound, 0),
       (decide (2 ≤ leAt p 2 2), mBadParam, 2)])
    (fun s p =>
      let n := leAt p 0 2
      let s := (s.ringsOf n).foldl State.discardPrefetch (s.fset .TI_STATUS_STATE n tiQuiesced)
      let s := s.mbxWait ((s.sched.jobs.filter (fun j => j.ti == n)).map (·.id)) none none
      let s := if leAt p 2 2 = 1 then s.eachJob (fun j => j.ti == n) State.abortJob else s
      s.mbxSettle))

/-- The doorbell recorded for a ring is acted on. -/
def State.playDoorbell (s : State) (r : Nat) : State :=
  let x := s.ringx r
  match x.recorded with
  | none => s
  | some ctl => (s.setRingx r { x with recorded := none }).ringDoorbell r ctl

/-- A TI resumes: its enabled rings restart, then its recorded doorbells are acted on. -/
def State.resumeTi (s : State) (n : Nat) : State :=
  let s := s.fset .TI_STATUS_STATE n tiBound
  let s := ((s.ringsOf n).filter (fun r => s.ringState r == ringEnabled)).foldl State.restartFetch s
  (s.ringsOf n).foldl State.playDoorbell s

/-- TI_RESUME (R103, R341). -/
def execTiResume (s : State) : Out :=
  .next (s.cmdIf 0x0209 (fun s p =>
      let n := leAt p 0 2
      [(decide (s.part.tenants ≤ n), mBadParam, 0), (s.tiState n != tiQuiesced, mNotFound, 0), zeroAt p 2 2,
       (s.flag .TI_KEY_HOME_DUPLEX_HELD n, mBusyObject, 0)])
    (fun s p => (s.resumeTi (leAt p 0 2)).success))

/-! ## Destruction (R104, Table 03.12) -/

/-- Every key of a TI is zeroised, its import key pair too (step 5). -/
def State.zeroTiKeys (s : State) (n : Nat) : State :=
  let s := (s.tiSlots n).foldl (fun s k => (s.deleteKey n k.1 none).2) s
  { s with slots := sparseDel s.slots (slotKey n importSlot) }

/-- The contexts of a TI are destroyed (step 5). -/
def State.dropTiStreams (s : State) (n : Nat) : State :=
  (s.streams.filter (fun e => e.2.owner == n)).foldl (fun s e => s.dropStream e.1) s

/-- The cores that a TI reserves are given back. -/
def State.dropReserves (s : State) (n : Nat) : State :=
  let s := (List.range 8).foldl (fun s d => s.setReg .TI_RESV (n * 8 + d) 0) s
  let s := { s with sched := { s.sched with
    reserved := s.sched.reserved.filter (fun e => e.2 != n + 1)
    leaving := s.sched.leaving.filter (fun v => sparseGet 0 s.sched.reserved v != n + 1)
    vt := s.sched.vt.filter (fun e => e.1 % 1024 != n) } }
  (List.range s.dies).foldl State.growAll s

/-- Entries and rings of a TI are given back (step 6). -/
def State.dropTiObjects (s : State) (n : Nat) : State :=
  let s := ((List.range 4096).filter (fun e => s.flag .IMT_CTL_ASSIGNED e && s.fget .IMT_CTL_OWNER e == n)).foldl State.releaseImt s
  (s.ringsOf n).foldl State.removeRing s

/-- The register kinds of a TI's block. -/
def tiKinds : List RegKind :=
  [.TI_STATUS, .TI_RING, .TI_STREAM, .TI_IMT, .TI_KEY_QUOTA, .TI_KEY_USED, .TI_KEY_TOP, .TI_KEY_HOME, .TI_DB_REJECT,
   .TI_BUF_FAULTS, .TI_DL_FAULTS, .TI_SCHED]

/-- A TI's block returns to reset and its key quota to the pool (step 7). -/
def State.wipeTi (s : State) (n : Nat) : State :=
  let s := s.reserveGranules (s.keyDie n) (s.fget .TI_KEY_QUOTA_VALUE n) 0
  let s := tiKinds.foldl (fun s k => s.clearRegs k n 1) s
  let s := (List.range (16 * s.dies)).foldl (fun s p =>
    if s.fget .PORT_RINGS_RAW_TI p = n then s.fset .PORT_RINGS_RAW_TI p 0xFFFF else s) s
  (s.clearRegs .TI_WIN_BASE (n * 16) 16).clearRegs .TI_WIN_CTL (n * 16) 16

/-- Whether a message was made for a TI. -/
def OutMsg.forTi (n : Nat) : OutMsg → Bool
  | .memWrite _ ti _ _ _ => ti == some n
  | _ => false

/-- The destroy sequence of Table 03.12 as one step: no CQE and no interrupt message is written. -/
def State.destroyTi (s : State) (n : Nat) (byReset : Bool) : State :=
  let jobs := (s.sched.jobs.filter (fun j => j.ti == n)).length
  let s := (s.ringsOf n).foldl State.discardPrefetch (s.fset .TI_STATUS_STATE n tiDestroying)
  let s := s.eachJob (fun j => j.ti == n) State.endQuiet
  let s := { s with host := { s.host with waiting := s.host.waiting.filter (fun m => !m.forTi n) } }
  let s := (((s.zeroTiKeys n).dropTiStreams n).dropTiObjects n).wipeTi n
  (s.dropReserves n).event 0x6003 2 0 1 n jobs (bit byReset)

/-- TI_DESTROY (R104). -/
def execTiDestroy (s : State) : Out :=
  .next (s.cmdIf 0x020A (fun s p => s.tiChecks p ++ [zeroAt p 2 2]) (fun s p => (s.destroyTi (leAt p 0 2) false).success))

/-! ## Function Level Reset (R79) -/

/-- Every TI is destroyed by a reset of the function. -/
def State.destroyAll (s : State) : State :=
  ((List.range s.part.tenants).filter (fun n => s.tiState n != tiFree)).foldl (fun s n => s.destroyTi n true) s

/-- The register kinds of the mailbox. -/
def mbxKinds : List RegKind := [.MBX_DOORBELL, .MBX_CTL, .MBX_TIMEOUT, .MBX_COUNT, .MBX_CMD]

/-- The mailbox is reset: a command before its commit point is abandoned, a later one completes unreported. -/
def State.resetMailbox (s : State) : State :=
  let s := mbxKinds.foldl (fun s k => s.clearRegs k 0 0x10000) s
  let s := ((s.fset .MBX_STATUS_BUSY 0 0).fset .MBX_STATUS_DONE 0 0).fset .MBX_STATUS_OVERRUN 0 0
  { s with mbx := { s.mbx with phase := .idle, snap := [], waitJobs := [], waitRing := none, waitSeq := none, rsp := [], otpAt := none } }

/-- What a reset of the function does to the host link's interrupts: every IMT entry masked, the MSI-X table cleared, messages
that wait dropped. -/
def State.resetInterrupts (s : State) : State :=
  let s := (List.range 4096).foldl (fun s e => s.fset .IMT_CTL_MASK e 1) s
  { s with host := { s.host with vecAddr := [], vecData := [], vecMask := 0xFF, pba := 0, waiting := [] }, imtTaint := [] }

/-- Configuration space after a reset of the function: the enables of the PCI Express base specification are clear. -/
def State.resetConfig (s : State) : State :=
  { s with host := { s.host with busMaster := false, d3hot := false, pasidEnable := false, msixEnable := false,
                                 msixMask := false, ctoValue := 0, bars := [], mrrs := 512, stoppedAt := some (s.host.stoppedAt.getD s.time.ticks) } }

/-- The rings and the TI that each port names, as another state has them. -/
def State.portsOf (s old : State) : State :=
  (List.range (16 * s.dies)).foldl (fun s p => s.setReg .PORT_RINGS p (old.reg .PORT_RINGS p)) s

/-- A reset of the function (R79): mailbox, interrupts and configuration space first, so that nothing answers or leaves;
then every TI is destroyed, and what still waits is dropped. The frame path's port configuration stays. -/
def State.functionReset (s : State) : State := (s.resetMailbox.resetConfig.resetInterrupts.destroyAll.portsOf s).resetInterrupts

/-- FUNCTION_LEVEL_RESET (R79). -/
def execFunctionLevelReset (s : State) : Out := .next s.functionReset

end Sys2Proof.Machine
end

