-- ==== Sys2Proof/Machine/Keys.lean ====
section
/-!
DEFINITION. The key commands of the mailbox, sealing, the root and its epochs, and the key store's own work
(R315 to R335, R346).
-/

namespace Sys2Proof.Machine

/-! ## Checks -/

/-- A slot that a command names: below the quota, or the import slot where that is allowed (R346). -/
def State.slotField (s : State) (p : Bytes) (import_ : Bool) : Bool × Nat × Nat :=
  let n := leAt p 4 4
  (!(decide (n < s.fget .TI_KEY_QUOTA_VALUE (leAt p 0 2)) || (import_ && n == importSlot)), mBadParam, 4)

/-- The debug lock (R346, R413). -/
def State.lockField (s : State) : Bool × Nat × Nat := (s.keysLocked, mLifecycleDenied, 0)

/-- A change of mirrored keys under the duplex hold (R341). -/
def State.heldField (s : State) (ti usage : Nat) : Bool × Nat × Nat :=
  (s.flag .TI_KEY_HOME_DUPLEX_HELD ti && usage.testBit uMirror, mBusyObject, 2)

/-! ## Information and deletion (R346) -/

/-- KEY_INFO. -/
def execKeyInfo (s : State) : Out :=
  .next (s.cmdIf 0x0501 (fun s p => s.tiChecks p ++ [zeroAt p 2 2, s.slotField p true])
    (fun s p => s.respond mSuccess 0 (s.keyInfoBytes (leAt p 0 2) (leAt p 4 4))))

/-- KEY_DELETE: a mirrored deletion answers with its acknowledgement. -/
def execKeyDelete (s : State) : Out :=
  .next (s.cmdIf 0x0502 (fun s p =>
      let k := s.slot (leAt p 0 2) (leAt p 4 4)
      s.tiChecks p ++ [zeroAt p 2 2, s.slotField p false, (k.state == .empty, mNotFound, 0), (k.state == .pending, mBusyObject, 2),
        s.heldField (leAt p 0 2) k.usage])
    (fun s p => match s.deleteKey (leAt p 0 2) (leAt p 4 4) none with
      | (some q, s) => s.mbxWait [] none (some q)
      | (none, s) => s.success))

/-- KS_QUERY: a copy of a die's key-store block. -/
def execKsQuery (s : State) : Out :=
  .next (s.cmdIf 0x050A (fun s p => [(decide (s.dies ≤ byteAt p 0), mBadParam, 0), zeroAt p 1 3])
    (fun s p => s.respond mSuccess 0 (s.peek (dieBlock (byteAt p 0) + 0x90000) 32)))

/-! ## Moving and copying (R334, R335) -/

/-- Tenant granules of a TI's occupied keys. -/
def State.tiOccupied (s : State) (n : Nat) : Nat := ((s.tiSlots n).map (·.2.occupied)).sum

/-- The keys of a TI and its reservation cross to another die. -/
def State.moveHome (s : State) (n d : Nat) : State :=
  let o := s.keyDie n
  let g := s.tiOccupied n
  let q := s.fget .TI_KEY_QUOTA_VALUE n
  let s := (s.fset .KS_GRANULES_OCCUPIED o (s.fget .KS_GRANULES_OCCUPIED o - g)).reserveGranules o q 0
  let s := (s.fset .KS_GRANULES_OCCUPIED d (s.fget .KS_GRANULES_OCCUPIED d + g)).reserveGranules d 0 q
  (s.fset .TI_KEY_HOME_DIE n d).event 0xC003 2 o 9 n o d

/-- KEY_MOVE_HOME (R334), as one step; a move to the key die itself changes nothing. -/
def execKeyMoveHome (s : State) : Out :=
  .next (s.cmdIf 0x0503 (fun s p =>
      let n := leAt p 0 2
      let d := byteAt p 2
      s.lockField :: s.tiChecks p ++ [(decide (s.dies ≤ d), mBadParam, 2), zeroAt p 3 1,
        (d != s.keyDie n && decide (s.freeGranules d < s.fget .TI_KEY_QUOTA_VALUE n), mNoResource, 2)])
    (fun s p =>
      let n := leAt p 0 2
      let d := byteAt p 2
      (if d = s.keyDie n then s else s.moveHome n d).success))

/-- A resident Classic McEliece public key. -/
def residentType (typ : Nat) : Bool :=
  match keyTypeOf typ with
  | some (.pq 8 _ true) => true
  | _ => false
def KeySlot.resident (k : KeySlot) : Bool := k.state == .occupied && residentType k.typ

/-- The cluster of a die that holds a copy. -/
def KeySlot.copyOn (k : KeySlot) (d : Nat) : Option Nat := k.copies.find? (fun c => c / 2 == d)

/-- KEY_PLACE_COPY (R335). -/
def execKeyPlaceCopy (s : State) : Out :=
  .next (s.cmdIf 0x0504 (fun s p =>
      let n := leAt p 0 2
      let d := byteAt p 2
      let add := byteAt p 3 == 1
      let k := s.slot n (leAt p 4 4)
      s.tiChecks p ++ [(decide (s.dies ≤ d), mBadParam, 2), (decide (2 ≤ byteAt p 3), mBadParam, 3), s.slotField p false,
        (!k.resident || (!add && (k.copyOn d).isNone), mNotFound, 0), (add && (k.copyOn d).isSome, mExists, 0),
        (add && decide (s.fget .TI_KEY_QUOTA_VALUE n < s.fget .TI_KEY_USED_VALUE n + 1), mNoResource, 2),
        (add && !s.residentFits (s.roomiest d) k.stored.length, mNoResource, 0)])
    (fun s p =>
      let n := leAt p 0 2
      let d := byteAt p 2
      let k := s.slot n (leAt p 4 4)
      let k' := if byteAt p 3 = 1 then { k with copies := k.copies ++ [s.roomiest d], granules := k.granules + 1 }
        else { k with copies := k.copies.filter (fun c => c / 2 != d), granules := k.granules - 1 }
      (s.setSlot n (leAt p 4 4) k').success))

/-! ## The root (R326 to R329, R332) -/

/-- The root of an epoch slot: both shares together (R326). -/
def State.rootOf (s : State) (k : Nat) : Bytes :=
  xorBytes (sliceZ (s.otp.epochs.getD k ⟨[], [], false, 0⟩).share 0 32) (sliceZ s.bbks.share 0 32)

/-- K_seal and the check word of a root (R326). -/
def sealKey (root : Bytes) (epoch : Nat) : Bytes := kmac 256 root (leBytes 1 epoch) 32 (ascii "ZV-SEAL")
def rootCheck (root : Bytes) (epoch : Nat) : Bytes := kmac 256 root (leBytes 1 epoch) 8 (ascii "ZV-ROOT-CHECK")

/-- The epoch in force; its slot is one less (R328). -/
def State.epoch (s : State) : Nat := s.fget .KS_ROOT_EPOCH 0
def State.rootValid (s : State) : Bool := s.flag .KS_ROOT_VALID 0

/-- The sealing key in force. -/
def State.kSeal (s : State) : Bytes := sealKey (s.rootOf (s.epoch - 1)) s.epoch

/-- Random bytes of the identity seeds: the ML-DSA-87 seed, then a P-384 key generation. -/
def identityDraw : Nat := 32 + ecKeygenDraw .p384
def identityOf (r : Bytes) : Bytes := sliceZ r 0 32 ++ ecKeygenOf .p384 (r.drop 32)

/-- The lowest epoch slot whose share and tally are unprogrammed. -/
def State.freeEpoch (s : State) : Option Nat := s.otp.epochs.findIdx? (fun e => e.share.isEmpty && !e.commit)

/-- KS_ROOT.SLOTS follows the OTP. -/
def State.rootSlots (s : State) : State :=
  s.fset .KS_ROOT_SLOTS 0 ((s.otp.epochs.zipIdx.map (fun e => bit (!e.1.share.isEmpty) * 2 ^ e.2)).sum)

/-- The pair record is gone: UNPAIRED, and nothing waits for the peer. -/
def State.dropPair (s : State) : State :=
  let b := s.bbks
  let jobs := s.duplex.unacked.filterMap (fun u => u.2.2.1)
  let s := { s with
    bbks := { b with paired := false, secret := [], keyI2R := [], keyR2I := [], peer := [], initiator := false }
    duplex := { s.duplex with heardA := none, heardB := none, peerRole := 0, peerEpoch := 0, peerState := 0, unacked := [],
                              pairing := none, syncEnd := none, named := [], namedCtx := [], fromSync := false } }
  let s := ((s.fset .DUPLEX_STATUS_STATE 0 0).fset .DUPLEX_STATUS_ROLE 0 0).setReg .DUPLEX_LAG 0 0
  let s := ((s.setReg .DUPLEX_TX_SEQ 0 0).setReg .DUPLEX_RX_SEQ 0 0).setReg .DUPLEX_EPOCH 0 0
  (jobs.foldl State.releaseCqe s).mbxSettle

/-- A new epoch in slot `k` (Table 11.4): shares, check word, tally with the owner slot, the store overwritten; the erasure
latch and count are cleared (R429). -/
def State.provision (s : State) (k : Nat) (r : Bytes) : State :=
  let e := k + 1
  let share := sliceZ r 0 32
  let other := sliceZ r 32 32
  let root := xorBytes share other
  let ep : EpochSlot := { share := share, check := rootCheck root e, commit := true, owner := s.ownerSlot.getD 0 }
  let s := s.dropPair
  let s := { s with otp := { s.otp with epochs := s.otp.epochs.set k ep }
                    bbks := { Bbks.zero with share := other, identity := identityOf (r.drop 64) } }
  let s := ((s.fset .KS_ROOT_EPOCH 0 e).fset .KS_ROOT_VALID 0 1).rootSlots
  let s := (s.fset .PROT_ERASE_LATCHED 0 0).fset .PROT_ERASE_COUNT 0 0
  (s.readySet .DEV_READY_ROOT 0 1).event 0xC011 5 0 9 e k 0

/-- ROOT_PROVISION (R328, R366). -/
def execRootProvision (s : State) : Out :=
  .next (s.cmdIf 0x0508 (fun s _ => [(s.freeEpoch.isNone, mNoResource, 0)]) (fun s _ =>
    if s.flag .RNG_BORROW_BORROWING 0 then s.dropMpDraw.respond mEntropy 0 []
    else if s.hold then s
    else s.program (fun s => match s.mpFresh (64 + identityDraw), s.freeEpoch with
      | (some r, s), some k => (s.provision k r).success
      | (_, s), _ => s)))

/-- IDENTITY_READ (R332). -/
def execIdentityRead (s : State) : Out :=
  .next (s.cmdIf 0x0509 (fun s _ => [(!s.rootValid, mNotFound, 0)])
    (fun s _ => s.respond mSuccess 0 (leBytes 1 s.epoch ++ s.idPublic)))

/-! ## Sealed keys (R330, R331) -/

/-- Bytes 0 to 43 of a sealed blob (Table 11.5). -/
def State.sealHead (s : State) (ti : Nat) (k : KeySlot) (iv : Bytes) : Bytes :=
  leBytes 4 0x4253565A ++ leBytes 1 1 ++ leBytes 1 s.epoch ++ leBytes 2 ti ++ leBytes 1 k.typ ++ leBytes 1 0 ++
    leBytes 2 k.usage ++ leBytes 4 k.stored.length ++ sliceZ s.otp.deviceId 0 16 ++ iv

/-- The sealed blob of a key. -/
def State.sealBlob (s : State) (ti : Nat) (k : KeySlot) (iv : Bytes) : Bytes :=
  let h := s.sealHead ti k iv
  h ++ gcmEncrypt s.kSeal iv h k.stored

/-- KEY_SEAL (R330). -/
def execKeySeal (s : State) : Out :=
  .next (s.cmdIf 0x0505 (fun s p =>
      let k := s.slot (leAt p 0 2) (leAt p 4 4)
      s.lockField :: s.tiChecks p ++ [zeroAt p 2 2, s.slotField p true,
        (k.state != .occupied || !k.usage.testBit uExport || !s.rootValid, mNotFound, 0)])
    (fun s p =>
      if s.hold then s
      else match s.mpDraw 12 with
        | (none, s) => s
        | (some iv, s) =>
          let n := leAt p 0 2
          let b := s.sealBlob n (s.slot n (leAt p 4 4)) iv
          (s.event 0xC004 1 0 9 n (leAt p 4 4) 1).respond mSuccess 0 b))

/-- The key that a blob restores under K_seal, when epoch, device and tag agree. -/
def State.openBlob (s : State) (b : Bytes) : Option Bytes :=
  if s.rootValid && byteAt b 5 == s.epoch && sliceZ b 16 16 == sliceZ s.otp.deviceId 0 16 &&
      60 + leAt b 12 4 == b.length then
    gcmDecrypt s.kSeal (sliceZ b 32 12) (b.take 44) (b.drop 44)
  else none

/-- Granules of the key in a blob. -/
def blobGranules (b : Bytes) : Nat :=
  ((keyTypeOf (byteAt b 8)).map (fun t => t.granules (leAt b 12 4))).getD (ceilDiv (leAt b 12 4) 64)

/-- The key of a blob in its slot; a Classic McEliece public key goes to the roomier cluster of the TI's key die (R41,
R335). -/
def State.unsealed (s : State) (n slot : Nat) (b k : Bytes) : State :=
  let cs := if residentType (byteAt b 8) then [s.roomiest (s.keyDie n)] else []
  let s := (s.createKey n slot (byteAt b 8) (leAt b 10 2) k none).2
  let s := if cs.isEmpty then s else s.setSlot n slot { s.slot n slot with copies := cs }
  (s.event 0xC004 1 0 9 n slot 2).success

/-- KEY_UNSEAL (R331). -/
def execKeyUnseal (s : State) : Out :=
  .next (s.cmdIf 0x0506 (fun s p =>
      let n := leAt p 0 2
      let b := p.drop 8
      s.lockField :: s.tiChecks p ++ [zeroAt p 2 2, s.slotField p false,
        ((s.slot n (leAt p 4 4)).state != .empty, mBadParam, 4), (leAt b 6 2 != n, mBadParam, 14), s.heldField n (leAt b 10 2),
        (decide (s.fget .TI_KEY_QUOTA_VALUE n < s.fget .TI_KEY_USED_VALUE n + blobGranules b), mNoResource, 2),
        ((s.openBlob b).isNone, mVerifyFailed, 0),
        (residentType (byteAt b 8) && !s.residentFits (s.roomiest (s.keyDie n)) (leAt b 12 4), mNoResource, 0)])
    (fun s p =>
      if s.hold then s
      else
        let n := leAt p 0 2
        let b := p.drop 8
        match s.openBlob b, keyTypeOf (byteAt b 8) with
        | some k, some t =>
          (match s.mpDraw t.importDraw with
           | (none, s) => s
           | (some r, s) =>
             match t.importCheck k r with
             | some _ => s.respond mBadParam 8 []
             | none => s.unsealed n (leAt p 4 4) b k)
        | _, _ => s.respond mBadParam 8 []))

/-! ## Import keys (R322) -/

/-- IMPORT_KEY_ROTATE. -/
def execImportKeyRotate (s : State) : Out :=
  .next (s.cmdIf 0x0507 (fun s p => s.lockField :: s.tiChecks p ++ [zeroAt p 2 2]) (fun s p =>
    if s.hold then s
    else match s.mpDraw importPairDraw with
      | (none, s) => s
      | (some r, s) =>
        let n := leAt p 0 2
        let g := nextGen (s.slot n importSlot).gen
        ((s.setImportPair n g r).event 0xC012 2 0 9 n g 0).success))

/-! ## The store's own work (R320, R321) -/

/-- Granules of a die that hold keys, the reserved ones of import key pairs included. -/
def State.dieGranules (s : State) (d : Nat) : Nat :=
  ((s.slots.filter (fun e => s.keyDie (e.1 / 2 ^ 24) == d)).map (fun e => e.2.occupied)).sum

/-- KEY_REMASK_PASS (R320): once per second. Its draw is of class 4 and waits; HOLD skips the pass. -/
def execKeyRemaskPass (die dt : Nat) (s : State) : Out :=
  let s := s.elapse dt
  let r := s.rngOf die
  if s.dies ≤ die || !s.flag .KS_STATE_READY die || r.remaskQ ≠ 0 || s.since r.remaskAt < 1000000000 then .next s
  else
    let s := s.setRng die { r with remaskAt := s.time.ticks }
    if s.hold then .next (s.remaskSkip die)
    else
      let n := 64 * s.dieGranules die
      if n = 0 then .next (s.remaskDone die [])
      else .next ((s.setRng die { (s.rngOf die).wait 1 s.time.ticks with remaskQ := n }))

/-- KEY_STORE_ECC_LOSS (R321): an error in a granule of a key, `single` when it is of one bit and corrected. -/
def execKeyStoreEccLoss (ti slot : Nat) (single : Bool) (s : State) : Out :=
  let k := s.slot ti slot
  let d := s.keyDie ti
  if k.state ≠ .occupied then .next s
  else if single then .next (s.fadd .KS_ECC_CORRECTED d 1)
  else
    let s := if slot = importSlot then s.setSlot ti slot { KeySlot.blank with gen := k.gen } else (s.deleteKey ti slot none).2
    .next ((s.fadd .KS_ECC_UNCORRECTED d 1).event 0xC001 4 d 9 d ti slot)

/-! ## Waits for random input (R363) -/

/-- The limit of a class in nanoseconds. -/
def State.waitLimit (s : State) (die cls : Nat) : Nat := s.fget .RNG_WAIT_LIMIT_US (die * 3 + cls) * 1000

/-- How long a consumer of a die has waited. -/
def State.waited (s : State) (die k : Nat) : Option Nat :=
  match sparseGet 0 (s.rngOf die).since k with
  | 0 => none
  | t + 1 => some (s.since t)

/-- A time-out is counted and recorded. -/
def State.countWait (s : State) (die cls ring : Nat) : State :=
  (s.fadd .RNG_WAIT_TIMEOUTS (die * 3 + cls) 1).rngEvent 0xB007 3 die cls ring

/-- A draw of masks on one of a job's cores, by an instruction, a save or a restore, has waited for the limit (R188). -/
def State.maskWaitPast (s : State) (die : Nat) (j : Job) : Bool :=
  (s.coresOf j.id).any (fun v => match (s.core v).wait with
    | some (t, true) => decide (s.waitLimit die 0 ≤ s.since t)
    | _ => false)

/-- RANDOM_WAIT_TIMEOUT (Table 12.4): class 0 a job's draw, from the DRBG or of masks, 1 the MP's, 2 the remask's. -/
def execRandomWaitTimeout (die cls job dt : Nat) (s : State) : Out :=
  let s := s.elapse dt
  let past := fun k => match s.waited die k with
    | some t => decide (s.waitLimit die cls ≤ t)
    | none => false
  match cls with
  | 0 =>
    (match s.job? job with
     | none => .next s
     | some j =>
       if past (job + 2) || (j.running && s.maskWaitPast die j) then
         if die = j.die then .next ((s.countWait die 0 j.ring).endJob j jEntropy 0 true) else .next s
       else .next s)
  | 1 =>
    if die = 0 && past 0 then
      let s := s.dropMpDraw.countWait 0 1 0xFFFFFFFF
      .next (if s.mbx.phase = .running then s.respond mEntropy 0 [] else s)
    else .next s
  | 2 => if past 1 then .next ((s.remaskSkip die).countWait die 2 0xFFFFFFFF) else .next s
  | _ => .next s

end Sys2Proof.Machine
end

