-- ==== Sys2Proof/Machine/Release.lean ====
section
/-!
DEFINITION. The release of results (R72, R134, R245, R246): the release check, what a completion does to keys and stream
tables, and the completion of a long-integer command.
-/

namespace Sys2Proof.Machine

/-- The operations whose result a release check judges (Table 02.20, R245). -/
def Oper.checked (o : Oper) (kt : Nat) : Bool :=
  match o with
  | .hmac _ v | .kmac _ v | .gmac v => !v
  | .gcm d => !d
  | .wrap _ u => !u
  | .kemKeygen _ _ | .kemEncaps _ _ | .kemDecaps _ _ | .sigSign _ _ _ | .rsaSign _ _ _ | .rsaDecrypt _ _ => true
  | .kdf | .ecKeygen _ | .ecSign _ | .ecDerive _ | .hybKeygen _ | .hybFirst _ | .importKey | .exportKey | .quote => true
  | .hybSecond h => hybKem h
  | .readPublic => match keyTypeOf kt with
    | some (.ec _ _) | some (.hybrid _ _) | some .importPair => true
    | _ => false
  | _ => false

/-- A machine check of a core is recorded (R218, R232): VC_MC_LAST and event 0x8001. -/
def State.coreCheck (s : State) (v cause groups uaddr ring : Nat) : State :=
  let s := ((s.fset .VC_MC_LAST_CAUSE v cause).fset .VC_MC_LAST_GROUPS v groups).fset .VC_MC_LAST_UADDR v uaddr
  s.event 0x8001 5 (v / 16) 4 v (cause * 2 ^ 24 + groups % 256 * 2 ^ 16 + uaddr % 2 ^ 14) ring

/-- A failed release check (R72): its record, then the job's replay or its end with MACHINE_CHECK. The microcode address of
a check on a core is not published. -/
def State.failCheck (s : State) (j : Job) (o : Oper) : State :=
  let s := match j.lie with
    | some k => s.event 0x9001 5 (k / 2) 5 k (o.lieCode j.keyType * 256 + o.lieSize j.keyType) j.ring
    | none =>
      match j.core with
      | some v => let (u, s) := s.draw; s.coreCheck v 6 0 u j.ring
      | none => s
  s.checkJob j s.eventSeq

/-- The bytes of a handle. -/
def handleBytes (h : Nat) : Bytes := leBytes 8 h

/-- A key that a job creates goes into its slot (R45); a Classic McEliece public key goes to the roomier cluster of the
job's die (R41, R335). -/
def State.makeKey (s : State) (j : Job) (k : Bytes) : Option Nat × State :=
  let th := j.targetHandle
  let ti := j.ti
  let slot := handleSlot th
  let code := match keyTypeOf (handleType th) with
    | some (.pq 8 _ true) => true
    | _ => false
  let cl := s.roomiest j.die
  let (w, s) := s.createKey ti slot (handleType th) (sqeUsage j.sqe) k (some j.id)
  (w, if code then s.setSlot ti slot { s.slot ti slot with copies := [cl] } else s)

/-- A job passes its release point with OK: its effect on keys and stream tables, Out, the CQE. -/
def State.finish (s : State) (j : Job) (o : Oper) : State :=
  let key := sqeKey j.sqe
  match o with
  | .delete =>
    if s.handleOk j.ti key then
      let (w, s) := s.deleteKey j.ti (handleSlot key) (some j.id)
      s.complete j jOk 0 false [] w
    else s.endJob j jKeyHandle 0 false
  | .keyInfo =>
    if s.handleOk j.ti key then s.complete j jOk 0 false (s.keyInfoBytes j.ti (handleSlot key)) none
    else s.endJob j jKeyHandle 0 false
  | .streamNext | .streamNow =>
    if s.blockOk j (o == .streamNext) then
      let (w, s) := s.installStream j (o == .streamNext)
      s.complete j jOk 0 false [] w
    else s.endJob j jInvalidParam 0 false
  | _ =>
    match j.newKey with
    | some k =>
      let (w, s) := s.makeKey j k
      s.complete j jOk 0 false (handleBytes (s.handleOf j.ti (handleSlot j.targetHandle)) ++ j.result) w
    | none => s.complete j jOk 0 false j.result none

/-- A result reaches its release point (R72, R134): with `pass` its release check has passed, where it has one. -/
def State.releaseJob (s : State) (j : Job) (pass : Bool) : State :=
  match j.oper with
  | none => s
  | some o =>
    if j.status ≠ jOk then s.endJob j j.status j.detail false
    else if o.checked j.keyType && !pass then s.failCheck j o
    else s.finish j o

/-- JOB_COMPLETION: a job whose result stands, and whose engine half has ended, is released. -/
def execJobCompletion (job : Nat) (pass : Bool) (dt : Nat) (s : State) : Out :=
  let s := s.elapse dt
  match s.job? job with
  | none => .next s
  | some j => if j.phase = .computed && j.lie.isNone then .next (s.releaseJob j pass) else .next s

/-- A command's half of a job ends: the engine is counted and clears its slots; the job goes on (R249). -/
def State.freeEngine (s : State) (j : Job) (k : Nat) : State :=
  let s := if j.refused then s else s.fadd .LIE_JOBS_COUNT k 1
  (s.clearLie k).setJob { j with lie := none }

/-- LIE_COMPLETION (R245, R246, R249): phase K has judged the positions, `pass` false where a fault has spoiled it; or V
has refused. A job on the engine alone is released in that cycle; a hybrid gives the engine back and goes on with its
core. -/
def execLieCompletion (engine : Nat) (pass : Bool) (dt : Nat) (s : State) : Out :=
  let s := s.elapse dt
  match s.sched.jobs.find? (fun j => j.lie == some engine && j.phase == .computed && !s.tap.halted.contains (256 + engine)) with
  | none => .next s
  | some j =>
    match j.oper with
    | none => .next s
    | some o =>
      if (j.status = jOk || (j.core.isNone && !j.refused)) && o.checked j.keyType && !(pass && (s.lieAt engine).good) then .next (s.failCheck j o)
      else
        let s := s.freeEngine j engine
        match s.job? j.id with
        | some j => if j.core.isNone then .next (s.releaseJob j true) else .next s
        | none => .next s

end Sys2Proof.Machine
end

