-- ==== Sys2Proof/Machine/Lie.lean ====
section
/-!
DEFINITION. The long-integer engines apart from their jobs: clearing, memory errors, the public tables, DIAG and the
direct commands (R235 to R240, R247 to R254).
-/

namespace Sys2Proof.Machine

/-- An event of an engine. -/
def State.lieEvent (s : State) (code sev k d1 ring : Nat) : State := s.event code sev (k / 2) 5 k d1 ring

/-- The ring of the job that an engine runs, or 0xFFFF_FFFF. -/
def State.lieJob (s : State) (k : Nat) : Option Job := s.sched.jobs.find? (fun j => j.lie == some k)
def State.lieRing (s : State) (k : Nat) : Nat := ((s.lieJob k).map (·.ring)).getD 0xFFFFFFFF

/-- DIAG (R252). -/
def State.lieDiag (s : State) (k : Nat) : Bool := s.fget .LIE_STATE_STATE k == 3

/-! ## The window (R253) -/

/-- Word `w` of the selected slot as LIE_WINDOW presents it (R253). -/
def State.lieWindow (s : State) (k w : Nat) : Nat :=
  let L := s.lieWords k
  let slot := s.fget .LIE_SLOT_SEL_SLOT k
  if s.lieDiag k && w < L && slot < s.lieSlots k then leNat ((s.lieAt k).read (8 * (L * slot + w)) 8) else 0

/-- A write through LIE_WINDOW. -/
def State.setLieWindow (s : State) (k w v : Nat) : State :=
  let L := s.lieWords k
  let slot := s.fget .LIE_SLOT_SEL_SLOT k
  if w < L && slot < s.lieSlots k then s.setLie k ((s.lieAt k).write (8 * (L * slot + w)) (leBytes 8 v)) else s

/-! ## Direct commands (R253) -/

/-- The end of a direct command: the outputs in their positions, the slots left for reading, DONE and STATUS set. An
engine whose tables the window has overwritten computes free values. -/
def State.directEnd (s : State) (k code size base : Nat) : State :=
  let L := s.lieWords k
  let g := s.lieRun k code size
  let len := 8 * L * g
  let x := s.lieAt k
  let addr := fun p => 8 * L * (base + g * p)
  let at' := fun p => leNat (x.read (addr p) len)
  let r := directResult code size at' (fun p q => (at' p + at' q) % 2 ^ (8 * len))
  let (ps, sh) := directOutputs code
  let f := s.free
  let x' := if !r.failed && decide (3 ≤ code) && !x.tab.isEmpty then
      layWork len addr f (ps ++ sh.flatMap (fun q => [q.1, q.2]) ++ directWork code) x
    else x.outcome code len addr f r
  let s := { (s.setLie k { x' with cmd := none }) with free := f + 16 * len }
  let s := ((s.fset .LIE_DONE_DONE k 1).fset .LIE_DONE_STATUS k r.status).fset .LIE_STATE_COMMAND k 0
  if r.status = jMachineCheck then s.lieEvent 0x9001 5 k (code * 256 + size) 0xFFFFFFFF else s

/-- A write to LIE_CMD in DIAG (R253). -/
def State.directStart (s : State) (k code size base : Nat) : State :=
  let x := s.lieAt k
  let err := s.fset .LIE_DONE_ERR k 1
  if !s.lieDiag k then s
  else if x.cmd.isSome then err
  else if !directOk code size || (3 ≤ code && (s.lieWords k != 36 || !x.tables)) then err
  else if s.lieSlots k < base + s.lieRun k code size * directPositions code then err.fset .LIE_DONE_STATUS k jInvalidParam
  else (s.setLie k { x with cmd := some (code, size, base), started := s.time.ticks }).fset .LIE_STATE_COMMAND k code

/-- DIRECT_COMMAND_DONE (R253): the phases have run; a refusal in V ends the command there. -/
def execDirectCommandDone (engine dt : Nat) (s : State) : Out :=
  let s := s.elapse dt
  match (s.lieAt engine).cmd with
  | none => .next s
  | some (code, size, base) =>
    let g := s.lieRun engine code size
    let len := 8 * s.lieWords engine * g
    let at' := fun p => leNat ((s.lieAt engine).read (8 * s.lieWords engine * (base + g * p)) len)
    let (v, c, k) := directTimes code size
    let refused := (directResult code size at' (fun p q => (at' p + at' q) % 2 ^ (8 * len))).refused
    let need := scaled ((if refused then v else v + c + k) * 100000) (s.lieMhz engine) / 1000
    if need ≤ s.since (s.lieAt engine).started && !s.tap.halted.contains (256 + engine) then .next (s.directEnd engine code size base) else .next s

/-! ## SLOT_WORDS (R252) -/

/-- A write of SLOT_WORDS: only while idle in DIAG; every slot is cleared, and 36 makes the MP reload the tables. -/
def State.writeSlotWords (s : State) (k v : Nat) : State :=
  let x := s.lieAt k
  if s.lieDiag k && x.cmd.isNone then
    let L := clampNat 4 144 (v % 256)
    let s := (s.fset .LIE_CFG_SLOT_WORDS k L).fset .LIE_CFG_SLOT_COUNT k (8192 / L)
    s.setLie k { x with mem := [], tab := [], tables := false, why := if L = 36 then 4 else 0 }
  else s

/-! ## DIAG (R252, R397) -/

/-- An engine enters DIAG: out of dispatch, its slots cleared, the tables reloaded. -/
def State.enterDiag (s : State) (k : Nat) : State :=
  let s := (s.setLie k { s.lieAt k with mem := [], tab := [], tables := true, why := 0, diagWait := false, cmd := none }).fset .LIE_STATE_STATE k 3
  ((s.lieEvent 0x9005 2 k 1 0xFFFFFFFF).rulesUpdated (k / 2 * 8 + 3 + k % 2)).mbxSettle

/-- An engine leaves DIAG: L is 36 again, every slot cleared; it returns to dispatch once its tables are rewritten. -/
def State.leaveDiag (s : State) (k : Nat) : State :=
  let s := (s.fset .LIE_CFG_SLOT_WORDS k 36).fset .LIE_CFG_SLOT_COUNT k 227
  let s := s.setLie k { s.lieAt k with mem := [], tab := [], tables := false, why := 3, cmd := none }
  (((s.fset .LIE_STATE_STATE k 0).fset .LIE_STATE_COMMAND k 0).lieEvent 0x9005 2 k 0 0xFFFFFFFF).rulesUpdated (k / 2 * 8 + 3 + k % 2)

/-- The checks of DIAG_LIE. -/
def State.diagLieChecks (s : State) (p : Bytes) : List (Bool × Nat × Nat) :=
  let k := byteAt p 0
  let st := s.fget .LIE_STATE_STATE k
  [(decide (2 * s.dies ≤ k), mBadParam, 0), (decide (2 ≤ byteAt p 1), mBadParam, 1), zeroAt p 2 2,
   (st == 4 || (byteAt p 1 == 1) == (st == 3), mNotFound, 0),
   (byteAt p 1 == 0 && (s.lieAt k).cmd.isSome, mBusyObject, 0)]

/-- DIAG_LIE (R252, R397): entry waits for the bound job and its clearing. -/
def execDiagLie (s : State) : Out :=
  .next (s.cmdIf 0x0C10 State.diagLieChecks (fun s p =>
    let k := byteAt p 0
    if byteAt p 1 = 0 then (s.leaveDiag k).success
    else
      let s := s.readyBit .DEV_READY_MAP_LIE (k / 2) (k % 2) false
      let s := (s.setLie k { s.lieAt k with diagWait := true }).mbxWait [] none none
      if s.fget .LIE_STATE_STATE k = 0 && !s.flag .LIE_STATE_TI_VALID k then s.enterDiag k else s))

/-! ## Clearing, errors and tables (R247, R248, R250, R251) -/

/-- LIE_CLEAR_DONE (R247): the clearing ends and the engine is idle, or enters the DIAG that waits for it. -/
def execLieClearDone (engine dt : Nat) (s : State) : Out :=
  let s := s.elapse dt
  let st := s.fget .LIE_STATE_STATE engine
  if (s.lieAt engine).diagWait then
    if (st = 0 && !s.flag .LIE_STATE_TI_VALID engine) || st = 2 then .next (s.enterDiag engine)
    else if st = 4 then .next ((s.setLie engine { s.lieAt engine with diagWait := false }).respond mNotFound 0 [])
    else .next s
  else if st = 2 then .next (s.fset .LIE_STATE_STATE engine 0)
  else .next s

/-- Positions and operand slots of a bound job, from slot 0 (R238). -/
def State.jobSlots (_s : State) (_k : Nat) (j : Job) : Nat :=
  match j.oper with
  | none => 0
  | some o =>
    let code := o.lieCode j.keyType
    ceilDiv (directBytes code (o.lieSize j.keyType)) 288 * directPositions code

/-- The job of an engine is cleared by a fault of its memory: replayed, or ended with MACHINE_CHECK and PARTIAL. -/
def State.lieFault (s : State) (k : Nat) : State :=
  match s.lieJob k with
  | some j => s.checkJob j s.eventSeq
  | none => s

/-- LIE_ECC_UNCORRECTABLE (R250): a word of operand memory is read with an error; `single` is an error of one bit, which is
corrected and counted. -/
def execLieEccUncorrectable (engine slot word : Nat) (single : Bool) (s : State) : Out :=
  if 2 * s.dies ≤ engine then .next s
  else if single then .next (s.fadd .LIE_ECC_CORRECTED engine 1)
  else
    let table := (s.lieAt engine).tables && s.lieWords engine == 36 && decide (171 ≤ slot)
    let hit := match s.lieJob engine with
      | some j => decide (slot < s.jobSlots engine j)
      | none => false
    let s := (s.fadd .LIE_ECC_UNCORRECTED engine 1).lieEvent 0x9002 4 engine (slot % 2048 * 65536 + word % 256) (s.lieRing engine)
    let s := if hit || table then s.lieFault engine else s
    if table then
      let s := s.setLie engine { s.lieAt engine with tables := false, tab := [], why := 1 }
      .next (s.readyBit .DEV_READY_MAP_LIE (engine / 2) (engine % 2) false)
    else .next s

/-- ERASE reaches the engines (R248): slots and tables are cleared, and the MP reloads the tables before the engine next
reports ready. -/
def State.lieErase (s : State) (k : Nat) : State :=
  let s := s.setLie k { s.lieAt k with mem := [], tab := [], tables := false, why := 2, cmd := none }
  if s.fget .LIE_STATE_STATE k = 4 then s else s.readyBit .DEV_READY_MAP_LIE (k / 2) (k % 2) false

/-- LIE_TABLES_REWRITTEN (R250, R251): the tables stand again and the engine returns to dispatch, or their read-back has
failed and it is offline. In DIAG the tables are there for direct commands. -/
def execLieTablesRewritten (engine : Nat) (good : Bool) (dt : Nat) (s : State) : Out :=
  let s := s.elapse dt
  let x := s.lieAt engine
  if 2 * s.dies ≤ engine || x.tables || x.why = 0 || s.fget .LIE_STATE_STATE engine = 4 then .next s
  else if !good then .next ((s.setLie engine { x with why := 0 }).lieOfflineNow engine 2 (s.lieRing engine))
  else
    let s := s.setLie engine { x with tables := true, tab := [], why := 0 }
    let s := if x.why = 4 then s else s.lieEvent 0x9006 3 engine x.why (s.lieRing engine)
    .next (if s.lieDiag engine || x.diagWait then s
           else s.readyBit .DEV_READY_MAP_LIE (engine / 2) (engine % 2) true)

end Sys2Proof.Machine
end

