-- ==== Sys2Proof/Machine/Protect.lean ====
section
/-! DEFINITION. The alarm controller of die 0's AO domain: reports, responses, erasure, the monitors' built-in test, bus
integrity and the protection commands (R416 to R433). -/

namespace Sys2Proof.Machine

/-! ## Reports of the monitors (R416, R418, R419) -/

/-- HOLD's end is measured from the moment at which no HOLD-mapped condition is present (R391, R425). -/
def State.holdTrack (s : State) : State :=
  let on := (List.range 26).any (fun x => s.condition x && (s.effMap x).testBit rHold)
  let c := if !s.hold || on then none else
    match s.prot.clearAt with
    | some t => some t
    | none => some s.time.ticks
  { s with prot := { s.prot with clearAt := c } }

/-- A monitor of a source reports, on a die, with the detail words of its event. -/
def State.report (s : State) (src die : Nat) (on : Bool) (d1 d2 : Nat) : State :=
  let m := sparseGet 0 s.prot.phys src
  let m' := if on then m ||| (1 <<< die) else if m.testBit die then m - 2 ^ die else m
  let s := { s with prot := { s.prot with phys := sparseSet 0 s.prot.phys src m',
                                          info := if on then sparseSet (0, 0) s.prot.info src (d1, d2) else s.prot.info } }
  let s := if on && s.condition src then { s with prot := { s.prot with pend := s.prot.pend ||| (1 <<< src) } } else s
  s.holdTrack

/-- CASE_SWITCH_OPEN (R418): an input has read open, or closed again, for its filter. -/
def execCaseSwitchOpen (sw : Nat) (isOpen : Bool) (s : State) : Out :=
  .next (if sw < 4 then s.report sw 0 isOpen (s.effMap sw) (bit s.onVbat) else s)

/-- LOOP_OPEN (R419): a static loop. -/
def execLoopOpen (loop : Nat) (isOpen : Bool) (s : State) : Out :=
  .next (if loop < 8 && !s.watermark loop then s.report (4 + loop) 0 isOpen 1 (bit s.onVbat) else s)

/-- WATERMARK_MISMATCH (R419): one bit of an armed watermark loop mismatches. -/
def execWatermarkMismatch (loop dt : Nat) (s : State) : Out :=
  let s := s.elapse dt
  if loop < 8 && s.watermark loop && s.armed (4 + loop) then
    let n := natBits (s.fget .PROT_LOOP_ERR_COUNT 0) (4 * loop + 3) (4 * loop)
    let s := s.setReg .PROT_LOOP_ERR 0 (withField (s.reg .PROT_LOOP_ERR 0) (4 * loop + 3) (4 * loop) (min 15 (n + 1)))
    let last := sparseGet 0 s.prot.loopLast loop
    let two := s.within last (8 * s.bitNs)
    let s := { s with prot := { s.prot with loopLast := sparseSet 0 s.prot.loopLast loop (s.time.ticks + 1),
                                            loopPair := if two then sparseSet 0 s.prot.loopPair loop last else s.prot.loopPair } }
    .next (if two then
        { s with prot := { s.prot with info := sparseSet (0, 0) s.prot.info (4 + loop) (2, bit s.onVbat),
                                       pend := s.prot.pend ||| (bit (s.condition (4 + loop)) <<< (4 + loop)) } }
      else s)
  else .next s

/-- OVERVOLTAGE (source 16): rail and die together name the monitor. -/
def execOvervoltage (rail die mv : Nat) (s : State) : Out :=
  .next (if rail < 3 && die < s.dies && !s.onVbat then
    s.report 16 (rail * 8 + die) (decide (s.overMv rail die < mv)) die mv else s)

/-- VBAT_LOW (source 15). -/
def execVbatLow (mv : Nat) (s : State) : Out := .next (s.report 15 0 (decide (mv < 2300)) mv 0)

/-- TEMPERATURE_LIMIT (sources 17 and 18): one sample of a sensor, 0 to 7 of a die, 8 of the package, in °C. -/
def execTemperatureLimit (sensor : Nat) (c : Int) (s : State) : Out :=
  let lo : Int := if s.grade = .extended then -55 else -15
  let hi : Int := if s.grade = .extended then 115 else 110
  if 8 < sensor || (sensor < 8 && s.dies ≤ sensor) || (s.onVbat && sensor ≠ 8) then .next s
  else .next ((s.report 17 sensor (decide (c < lo)) sensor (unsignedOf 32 c)).report 18 sensor
    (decide (hi < c) && !s.onVbat) sensor (unsignedOf 32 c))

/-- REFCLOCK_FAULT (sources 19 to 21): clock 0 SYS, 1 PCIE, 2 NET of a die; kind 1 frequency, 2 glitch, 0 as it should be. -/
def execRefclockFault (clock die kind : Nat) (s : State) : Out :=
  .next (if clock < 3 && die < s.dies && kind < 3 && !s.onVbat then s.report (19 + clock) die (decide (kind ≠ 0)) kind die else s)

/-- AO_XTAL_STOP (source 22). -/
def execAoXtalStop (stopped : Bool) (s : State) : Out := .next (s.report 22 0 stopped 0 0)

/-! ## ERASE (R427 to R429) -/

/-- The jobs end without a CQE, the held CQEs and the writes that wait go (Table 04.10). -/
def State.eraseJobs (s : State) : State :=
  let s := s.dropPrefetch.eachJob (fun _ => true) State.endQuiet
  let s := ((List.range s.part.rings).filter (fun r => s.ringLive r && s.ringType r == typeSq)).foldl State.dropHeld s
  { s with host := { s.host with waiting := s.host.waiting.filter (fun m => match m with
    | .memWrite _ (some _) _ _ _ => false
    | _ => true) } }

/-- A context without its keys and its replay state. -/
def Stream.keyless (x : Stream) : Stream := { x with cur := none, next := none, last := none, hist := [] }

/-- Every key store and slot directory, and the keys and replay state of the stream tables. -/
def State.eraseKeys (s : State) : State :=
  let s := { s with slots := []
                    streams := s.streams.map (fun e => (e.1, e.2.keyless))
                    frames := { s.frames with past := [] } }
  let s := (List.range s.dies).foldl (fun s d => s.fset .KS_GRANULES_OCCUPIED d 0) s
  (List.range s.part.tenants).foldl (fun s n => (s.setReg .TI_KEY_USED n 0).setReg .TI_KEY_TOP n 0) s

/-- Every core, shared memory, save slot, engine and digest channel. -/
def State.eraseUnits (s : State) : State :=
  let s := (List.range (16 * s.dies)).foldl State.freeVc s
  let s := { s with cores := [], shared := [], saves := [] }
  let s := (List.range s.dies).foldl State.saveFull s
  let s := (List.range (2 * s.dies)).foldl State.lieErase s
  (List.range (4 * s.dies)).foldl State.dgeClear s

/-- Entropy of every die; a mailbox command that waits for random bits is answered. -/
def State.eraseEntropy (s : State) : State :=
  let waits := s.mbx.phase == .running && (sparseGet 0 (s.rngOf 0).since 0 != 0)
  let s := (List.range s.dies).foldl State.rngErase s
  if waits then s.respond mEntropy 0 [] else s

/-- The whole battery-backed store; with it the root and the pair are gone. -/
def State.eraseBbks (s : State) : State :=
  let s := { s.dropPair with bbks := Bbks.zero }
  ((s.fset .KS_ROOT_VALID 0 0).readySet .DEV_READY_ROOT 0 0).fset .PROT_ERASE_LATCHED 0 1

/-- The clear of Table 15.3 on main power. -/
def State.eraseAll (s : State) : State := s.eraseJobs.eraseKeys.eraseUnits.eraseEntropy.eraseBbks

/-- An ERASE on main power: the clear starts, or starts again, and the rings fail (R133). -/
def State.startErase (s : State) (src mask : Nat) : State :=
  let p := s.prot
  let again := p.eraseAt.isSome
  let s := { s with prot := { p with eraseAt := some s.time.ticks, eraseMask := (if again then p.eraseMask else 0) ||| mask,
                                     eraseSrc := if again then p.eraseSrc else src, eraseN := (if again then p.eraseN else 0) + 1 } }
  ((((s.fset .PROT_ERASE_DONE 0 0).fadd .PROT_ERASE_COUNT 0 1).eraseAll).eraseRings).refuseAllHeld

/-- An ERASE on VBAT: the store is cleared, the latched bits and the seeds are armed again (R426, Table 15.3). -/
def State.eraseOnVbat (s : State) (src mask : Nat) : State :=
  let s := { s with bbks := Bbks.zero }
  let s := ((s.fset .PROT_ERASE_LATCHED 0 1).fset .PROT_ERASE_ON_VBAT 0 1).fadd .PROT_ERASE_COUNT 0 1
  let s := (s.aoEvent 0x3060 7 src mask 0x100).setReg .PROT_ALARM 0 0
  let (b, s) := s.drawBytes 32
  { s with prot := { s.prot with seeds := (s.prot.seeds.map (fun e => (e.1, leAt b (4 * e.1) 4))) } }

/-- The 3060 records of an erase: one, and a repeat for each time that it started again. -/
def State.eraseRecords (s : State) : Nat → State
  | 0 => s
  | n + 1 => (s.event 0x3060 7 0 0 s.prot.eraseSrc s.prot.eraseMask (s.fget .PROT_ERASE_DONE 0)).eraseRecords n

/-- ERASE_COMPLETE (R428): within 5 µs every die reports done. -/
def execEraseComplete (dt : Nat) (s : State) : Out :=
  let s := s.elapse dt
  if s.prot.eraseAt.isNone || s.onVbat then .next s
  else
    let s := s.eraseAll
    let s := (s.fset .PROT_ERASE_DONE 0 (2 ^ s.dies - 1)).fset .PROT_ERASE_ON_VBAT 0 0
    let s := (s.eraseRecords s.prot.eraseN).enterLockdown 2
    .next { s with prot := { s.prot with eraseAt := none } }

/-! ## Alarms and responses (R424 to R426) -/

/-- ALARM_N is low: a latched source has NOTIFY in its mapping. -/
def State.alarmLow (s : State) : Bool := (s.unionMap (s.fget .PROT_ALARM_LATCHED 0)).testBit rNotify

/-- ALARM_SUMMARY (Table 18.9). -/
def State.alarmSummary (s : State) : Nat :=
  bit (decide (s.fget .PROT_ALARM_LATCHED 0 ≠ 0)) + 2 * bit s.alarmLow + 4 * bit (s.mode == modeLockdown) + 8 * bit s.hold +
    16 * s.fget .THM_STAT_THERM 0

/-- SMB_ALERT_N goes low when ALARM_SUMMARY has changed from `before`. -/
def State.alertFrom (s : State) (before : Nat) : State := if s.alarmSummary = before then s else s.smbAlert

/-- The event of a source: code, severity and detail words (Table 15.6); sources 23 to 25 are recorded where they arise. -/
def State.alarmEvent (s : State) (src : Nat) : Option (Nat × Nat × Nat × Nat) :=
  let i := sparseGet (0, 0) s.prot.info src
  if src < 4 then some (0x3001, 7, s.effMap src, bit s.onVbat)
  else if src < 12 then some (0x3002, 7, i.1, bit s.onVbat)
  else if src < 15 then some (0x3010, 5, i.1, i.2)
  else if src = 15 then some (0x3015, 3, i.1, 0)
  else if src = 16 then some (0x3011, 6, i.1, i.2)
  else if src < 19 then some (0x3020, 5, i.1, i.2)
  else if src < 22 then some (0x3030, 5, i.1, i.2)
  else if src = 22 then some (0x3031, 4, 0, 0)
  else none

/-- RECORD of one source: on VBAT in the retention recorder. -/
def State.recordAlarm (s : State) (src : Nat) : State :=
  match s.alarmEvent src with
  | none => s
  | some (code, sev, a, b) => if s.onVbat then s.aoEvent code sev src a b else s.event code sev 0 0 src a b

/-- The new sources of an evaluation. -/
def maskList (m : Nat) : List Nat := (List.range 26).filter (fun x => m.testBit x)

/-- The responses on main power, in the order of R424. -/
def State.respondAlarms (s : State) (new : Nat) : State :=
  let u := s.unionMap new
  let has := fun (r : Nat) => (maskList new).filter (fun x => (s.effMap x).testBit r)
  let locks := has rLockdown
  let s := if u.testBit rErase then s.startErase ((has rErase).headD 0) u else s
  let s := if u.testBit rLockdown && !u.testBit rErase then
      s.enterLockdown (if locks.all (fun x => x == 24 || x == 25) then 3 else 2) else s
  let s := if u.testBit rHold then s.startHold else s
  let s := if u.testBit rNotify then s.vector 2 else s
  (has rRecord).foldl State.recordAlarm s

/-- The responses on VBAT (R426). -/
def State.respondOnVbat (s : State) (new : Nat) : State :=
  let mapped := (maskList new).filter (fun x => s.effMap x != 0)
  let s := mapped.foldl State.recordAlarm s
  let u := s.unionMap new
  if u.testBit rErase then
    s.eraseOnVbat (((maskList new).filter (fun x => (s.effMap x).testBit rErase)).headD 0) u
  else s

/-- The level of a die's erase-command pair: die 0 drives both lines while an erase runs, and a line that is broken or
floats reads as active (R26). -/
def State.erasePair (s : State) (d : Nat) : Nat :=
  if d = 0 then 0 else (sparseGet 0 s.prot.wires d % 4) ||| (if s.prot.eraseAt.isSome then 3 else 0)

/-- One die clears what it holds of Table 15.3. -/
def State.eraseDie (s : State) (d : Nat) : State :=
  let s : State := s.eachJob (fun j => j.phase ≠ .ready && j.die == d) State.endQuiet
  let mine := fun (ti : Nat) => s.keyDie ti == d
  let s : State := { s with slots := s.slots.filter (fun e => !mine (e.1 / 2 ^ 24))
                            streams := s.streams.map (fun e => if e.1 / 4096 = d then (e.1, e.2.keyless) else e)
                            frames := { s.frames with past := s.frames.past.filter (fun e => e.2.1 / 4096 != d) } }
  let s := (((List.range s.part.tenants).filter mine).foldl (fun s n => (s.setReg .TI_KEY_USED n 0).setReg .TI_KEY_TOP n 0) s).fset
    .KS_GRANULES_OCCUPIED d 0
  let s := (dieVcs d).foldl State.freeVc s
  let s := { s with cores := s.cores.filter (fun e => e.1 / 16 != d), shared := s.shared.filter (fun e => e.1 / 2 != d)
                    saves := s.saves.filter (fun e => e.1 / 8 != d) }
  let s := [2 * d, 2 * d + 1].foldl State.lieErase (s.saveFull d)
  (((List.range 4).map (4 * d + ·)).foldl State.dgeClear s).rngErase d

/-- On main power a die whose pair reads active without a package erase erases by itself (R26). -/
def State.eraseWired (s : State) : State :=
  if s.onVbat || s.prot.eraseAt.isSome then s
  else ((List.range s.dies).filter (fun d => s.erasePair d != 0)).foldl State.eraseDie s

/-- One evaluation: the pending sources that are not latched yet are latched and answered together. -/
def State.evaluate (s : State) : State :=
  let before := s.alarmSummary
  let old := s.fget .PROT_ALARM_LATCHED 0
  let new := ((s.present ||| s.prot.pend) % 2 ^ 26 ||| old) ^^^ old
  let s := { s with prot := { s.prot with pend := 0 } }
  let s := if new = 0 then s else
    let s := s.fset .PROT_ALARM_LATCHED 0 (old ||| new)
    if s.onVbat then s.respondOnVbat new else s.respondAlarms new
  (s.holdTrack).alertFrom before

/-- ALARM_EVALUATION (R424), every 10 ns. -/
def execAlarmEvaluation (dt : Nat) (s : State) : Out := .next (s.elapse dt).eraseWired.evaluate

/-- A write of 1s to PROT_ALARM: the bits clear, and latch again at the next evaluation while their condition stands. -/
def State.alarmClear (s : State) (mask : Nat) : State :=
  let before := s.alarmSummary
  let l := s.fget .PROT_ALARM_LATCHED 0
  (s.fset .PROT_ALARM_LATCHED 0 ((l ||| mask % 2 ^ 26) ^^^ (mask % 2 ^ 26))).alertFrom before

/-- PROT_ALARM_CLEAR (R424). -/
def execProtAlarmClear (mask : Nat) (s : State) : Out := .next (s.alarmClear mask)

/-! ## Built-in test of the monitors (R421, R422) -/

/-- The channel now stimulated, in PROT_BIST_STAT. -/
def State.bistShow (s : State) (i : Nat) : State := (s.fset .PROT_BIST_STAT_UNDER_TEST 0 (i / 2)).fset .PROT_BIST_STAT_CHANNEL 0 (i % 2)

/-- A run starts with channel A of source 0. -/
def State.startBist (s : State) : State :=
  let s := (s.fset .PROT_BIST_STAT_RUNNING 0 1).bistShow 0
  { s with prot := { s.prot with bist := some (0, s.time.ticks, 0, 0) } }

/-- A run ends: results, event, NOTIFY of a failure, and the channels that stay out of service. -/
def State.endBist (s : State) (a b : Nat) : State :=
  let was := s.prot.outA &&& s.prot.outB
  let s := (s.fset .PROT_BIST_RESULT_FAIL_A 0 a).fset .PROT_BIST_RESULT_FAIL_B 0 b
  let s := ((s.fset .PROT_BIST_STAT_RUNNING 0 0).fset .PROT_BIST_STAT_DONE 0 1).fadd .PROT_BIST_STAT_RUNS 0 1
  let s := s.bistShow 0
  let s := { s with prot := { s.prot with bist := none, outA := a, outB := b,
                                          pend := if (a &&& b) != 0 && was == 0 then s.prot.pend ||| 2 ^ 23 else s.prot.pend } }
  let s := s.event 0x3050 (if (a ||| b) = 0 then 2 else 5) 0 0 0 a b
  (if (a ||| b) = 0 then s else s.vector 2).holdTrack

/-- BIST_CHANNEL_TEST (R421, R422): 50 µs of one channel end. -/
def execBistChannelTest (pass : Bool) (dt : Nat) (s : State) : Out :=
  let s := s.elapse dt
  match s.prot.bist with
  | none => .next s
  | some (i, t, a, b) =>
    if s.since t < 50000 || s.onVbat then .next s
    else
      let f := if pass then 0 else 2 ^ (i / 2)
      let a' := if i % 2 = 0 then a ||| f else a
      let b' := if i % 2 = 1 then b ||| f else b
      if 51 ≤ i then .next (s.endBist a' b')
      else .next ({ s with prot := { s.prot with bist := some (i + 1, s.time.ticks, a', b') } }.bistShow (i + 1))

/-! ## Bus integrity (R430) -/

/-- An integrity mismatch: the transfer is refused, counted and recorded, with RECORD and NOTIFY; 16 within 1 ms, or one on
a key-store, BBKS or OTP path, are conditions of sources 24 and 25. -/
def State.bicMismatch (s : State) (master addr die : Nat) (keyPath : Bool) : State :=
  let s := s.fadd .PROT_BIC_MISMATCHES 0 1
  let s := { s with prot := { s.prot with bic := s.prot.bic.filter (fun t => s.since t < 1000000) ++ [s.time.ticks] } }
  let p := bit (s.bicWindow == 16) * 2 ^ 24 ||| bit keyPath * 2 ^ 25
  let s := { s with prot := { s.prot with pend := s.prot.pend ||| p } }
  (s.event 0x3070 5 die 0 master addr die).vector 2

/-! ## Commands (R432) -/

/-- PROT_QUERY. -/
def execProtQuery (s : State) : Out := .next (s.cmd 0x0901 (fun s _ => s.respond mSuccess 0 (s.peek 0x40200 64)))

/-- PROT_SET_MAP (R423). -/
def execProtSetMap (s : State) : Out :=
  .next (s.cmdIf 0x0902 (fun _ p => [(decide (25 < byteAt p 0), mBadParam, 0), (decide (32 ≤ byteAt p 1), mBadParam, 1), zeroAt p 2 2])
    (fun s p =>
      let before := s.alarmSummary
      let s := { s with prot := { s.prot with map := sparseSet 0 s.prot.map (byteAt p 0) (byteAt p 1) } }
      (((s.event 0x3080 4 0 0 (byteAt p 0) (byteAt p 1) 1).holdTrack).alertFrom before).success))

/-- Loops that are armed in watermark mode. -/
def armWatermarks (p : Bytes) : List Nat := (List.range 8).filter (fun n => (byteAt p 1).testBit n && (byteAt p 2).testBit n)

/-- A new arming. -/
def State.arm (s : State) (p seeds : Bytes) : State :=
  let s := (s.fset .PROT_TAMPER_CFG_CASE_ARMED 0 (byteAt p 0)).fset .PROT_TAMPER_CFG_LOOP_ARMED 0 (byteAt p 1)
  let s := s.fset .PROT_TAMPER_CFG_WATERMARK 0 (byteAt p 2)
  let l := (armWatermarks p).zipIdx.map (fun e => (e.1, leAt seeds (4 * e.2) 4))
  let s := { s with prot := { s.prot with seeds := l, armAt := s.time.aoTicks, loopLast := [], loopPair := [] } }
  s.event 0x3080 4 0 0 0 (leAt p 0 3) 2

/-- PROT_ARM (R420): a zero draw is drawn again. -/
def execProtArm (s : State) : Out :=
  .next (s.cmdIf 0x0903 (fun _ p => [(decide (16 ≤ byteAt p 0), mBadParam, 0), zeroAt p 3 1])
    (fun s p =>
      let l := armWatermarks p
      if l.isEmpty then (s.arm p []).success
      else match s.mpDraw (4 * l.length) with
        | (none, s) => s
        | (some r, s) => if (List.range l.length).any (fun i => leAt r (4 * i) 4 == 0) then s else (s.arm p r).success))

/-- PROT_BIST (R421): answered IN_PROGRESS. -/
def execProtBist (s : State) : Out :=
  .next (s.cmdIf 0x0904 (fun s _ => [(s.prot.bist.isSome, mBusyObject, 0)]) (fun s _ => s.startBist.respond mInProgress 0 []))

/-- PROT_F2_SET (R5): the bit is programmed, and nothing clears it. -/
def execProtF2Set (s : State) : Out :=
  .next (s.cmdIf 0x0905 (fun s _ => [(s.otp.f2, mExists, 0)]) (fun s _ =>
    s.program (fun s => ({ s with otp := { s.otp with f2 := true } }).success)))

end Sys2Proof.Machine
end

