-- ==== Sys2Proof/Machine/Reset.lean ====
section
/-!
DEFINITION. Resets and what they leave standing, main power and the backup cell, and PERST_N (R372 to R374, R384, R387,
R474, Table 13.1).
-/

namespace Sys2Proof.Machine

/-! ## What the AO domain keeps -/

/-- The registers that the AO domain holds. -/
def aoKinds : List RegKind := [.DEV_RESET_CAUSE, .DEV_FW_SLOT, .PROT_ALARM, .PROT_TAMPER_CFG, .PROT_ERASE]

/-- A register of the AO domain. -/
def aoHeld (key : Nat) : Bool := aoKinds.any (fun k => k.ctorIdx == key % 256)

/-- An erase that runs is completed: the hardware needs no firmware for it (R427, R428). -/
def State.settleErase (s : State) : State :=
  if s.prot.eraseAt.isNone then s
  else
    let s := { (s.eraseAll.fset .PROT_ERASE_DONE 0 (2 ^ s.dies - 1)) with prot := { s.prot with eraseAt := none } }
    s.commitEvent { time := s.replicaNow 0, seq := 0, code := 0x3060, chan := 31, sev := 7, src := 0, d0 := s.prot.eraseSrc,
                    d1 := s.prot.eraseMask, d2 := s.fget .PROT_ERASE_DONE 0, rep := 0, last := 0 }

/-- Everything but the OTP, the flash, the pins and the AO domain is as after reset (Table 13.1). -/
def State.cleared (s : State) : State :=
  let b := s.boot
  { State.reset with
    part := s.part, grade := s.grade, otp := s.otp, bbks := s.bbks, tap := { s.tap with halted := [] }
    regs := s.regs.filter (fun e => aoHeld e.1)
    host := { State.reset.host with perst := s.host.perst }
    evr := { State.reset.evr with chans := s.evr.chans.filter (fun e => e.1 == 31), aoSeq := s.evr.aoSeq }
    time := { State.reset.time with aoTicks := s.time.aoTicks, aoRem := s.time.aoRem }
    prot := { Prot.idle with phys := s.prot.phys, info := s.prot.info, seeds := s.prot.seeds, armAt := s.prot.armAt,
                             wires := s.prot.wires }
    boot := { Boot.blank with sel := b.sel, flash := b.flash, installed := b.installed, invalid := b.invalid,
                              powered := b.powered, resetPin := b.resetPin, thermal := b.thermal, vbat := b.vbat,
                              alert := b.alert, low := b.low, hotBoot := b.hotBoot, sfdp := b.sfdp, otpMv := b.otpMv }
    out := s.out, free := s.free, pending := s.pending }

/-- The debug level and the mode that a reset ends are recorded in the recorder that starts afresh (R412, R389). -/
def State.afterReset (s old : State) : State :=
  let l := old.fget .DBG_STATE_LEVEL 0
  let s := if l = 0 then s else s.event 0x2010 5 0 1 l 0 4
  if old.mode = s.mode then s else (s.event 0x1004 3 0 1 old.mode s.mode 3).smbAlert

/-- A device reset with its cause, a bit of DEV_RESET_CAUSE (R372). -/
def State.deviceReset (s : State) (cause : Fld) : State :=
  let s := s.settleErase
  (s.cleared.fset cause 0 1).afterReset s

/-- The AO domain stops without its cell: store, retention recorder, boot-select word and tamper state are gone
(R375, R474). -/
def State.dropAo (s : State) : State :=
  { s with bbks := Bbks.zero, regs := s.regs.filter (fun e => !aoHeld e.1), prot := { Prot.idle with wires := s.prot.wires }
           evr := { s.evr with chans := s.evr.chans.filter (fun e => e.1 != 31), aoSeq := 1 }
           time := { s.time with aoTicks := 0, aoRem := 0 }
           boot := { s.boot with vbat := false } }

/-! ## Device resets -/

/-- POWER_ON_RESET: PWRGOOD rises. -/
def execPowerOnReset (s : State) : Out :=
  .next ({ s with boot := { s.boot with powered := true } }.deviceReset .DEV_RESET_CAUSE_POR)

/-- PWRGOOD_FALL: the device is held in reset until PWRGOOD rises again. -/
def execPwrgoodFall (s : State) : Out :=
  if s.onVbat then .next s
  else
    let s := { s.settleErase with boot := { s.boot with powered := false } }
    .next (s.cleared.afterReset s)

/-- RESET_PIN: RESET_N has been low for `dt`, or rises. -/
def execResetPin (low : Bool) (dt : Nat) (s : State) : Out :=
  let s := s.elapse dt
  if !low then .next { s with boot := { s.boot with resetPin := false } }
  else if dt < 10000 || s.onVbat then .next s
  else .next ({ s with boot := { s.boot with resetPin := true } }.deviceReset .DEV_RESET_CAUSE_PIN)

/-- SUPPLY_RESET (R372, R416, R417): a rail of a die is measured; below its reset threshold it resets the device, which
stays in reset until the rail is back. -/
def execSupplyReset (rail die mv : Nat) (s : State) : Out :=
  if 3 ≤ rail || s.dies ≤ die || s.onVbat then .next s
  else
    let n := rail * 8 + die
    if mv < s.resetMv rail die then
      if s.boot.low.contains n then .next s
      else .next ({ s with boot := { s.boot with low := n :: s.boot.low } }.deviceReset .DEV_RESET_CAUSE_SUPPLY)
    else .next { s with boot := { s.boot with low := s.boot.low.filter (· != n) } }

/-- A thermal shutdown (R479): the device stays in reset. -/
def State.thermalShutdown (s : State) : State :=
  { s with boot := { s.boot with thermal := true, hotBoot := true } }.deviceReset .DEV_RESET_CAUSE_THERMAL

/-- THERMAL_SHUTDOWN (R479): two consecutive samples of a sensor, in °C. -/
def execThermalShutdown (sensor : Nat) (first second : Int) (s : State) : Out :=
  .next (if sensor ≤ 8 && (sensor = 8 || sensor < s.dies) && 120 ≤ first && 120 ≤ second && !s.onVbat then s.thermalShutdown else s)

/-- THERMAL_SHUTDOWN_RELEASE (R479): every sensor has read below 100 °C for `dt`. -/
def execThermalShutdownRelease (dt : Nat) (s : State) : Out :=
  let s := s.elapse dt
  .next (if 1000000000 ≤ dt then { s with boot := { s.boot with thermal := false } } else s)

/-! ## Main power and the backup cell (R387, R474) -/

/-- MAIN_POWER_LOSS: RETENTION on the cell, or nothing at all without one. An erase that runs is completed on VBAT. -/
def execMainPowerLoss (s : State) : Out :=
  if s.onVbat then .next s
  else
    let erasing := s.prot.eraseAt.isSome
    let src := s.prot.eraseSrc
    let mask := s.prot.eraseMask
    let s := { s with boot := { s.boot with powered := false, thermal := false, low := [], alert := false, hotBoot := false } }
    let s := { s.cleared with tap := Tap.idle }.fset .DEV_MODE_MODE 0 modeRetention
    let s := { s with prot := { s.prot with phys := s.prot.phys.filter (fun e => e.1 < 12 || e.1 == 15 || e.1 == 22) } }
    .next (if !s.boot.vbat then s.dropAo
           else if erasing then ({ s with bbks := Bbks.zero }.fset .PROT_ERASE_ON_VBAT 0 1).aoEvent 0x3060 7 src mask 0x100 else s)

/-- VBAT_APPLIED (R469): the cell is there; an AO domain that had no supply starts with its first values. -/
def execVbatApplied (s : State) : Out :=
  let s := if s.onVbat && !s.boot.vbat then s.dropAo else s
  .next { s with boot := { s.boot with vbat := true } }

/-- VBAT_EXHAUSTED (R474): VBAT falls below 2.1 V while main power is off. -/
def execVbatExhausted (s : State) : Out := .next (if s.onVbat then s.dropAo else s)

/-! ## PERST_N (R373, R374) -/

/-- The mailbox serves, or would: boot has ended and something serves it (R386, R392). -/
def State.mailboxUp (s : State) : State :=
  if s.boot.phase = 3 && !s.host.perst then ((s.loadRules 6).fset .MBX_STATUS_READY 0 1).readySet .DEV_READY_MBX 0 1 else s

/-- PERST_ASSERT: the endpoint and the mailbox are in reset; the TIs are destroyed (R79). -/
def execPerstAssert (s : State) : Out :=
  let s := s.functionReset
  let s := { s with host := { s.host with perst := true } }
  .next (((s.fset .MBX_STATUS_READY 0 0).readySet .DEV_READY_PCIE 0 0).readySet .DEV_READY_MBX 0 0)

/-- PERST_DEASSERT: configuration space answers, and the mailbox is ready again where it serves. -/
def execPerstDeassert (s : State) : Out :=
  if s.onVbat then .next s
  else
    let s := { s with host := { s.host with perst := false } }
    .next (if s.boot.phase = 0 then s else (s.readySet .DEV_READY_PCIE 0 1).mailboxUp)

end Sys2Proof.Machine
end

