-- ==== Sys2Proof/Machine/Lifecycle.lean ====
section
/-!
DEFINITION. Life-cycle states and transitions, owner commands, debug tokens and grants, and the TAP instructions
(R399 to R413).
-/

namespace Sys2Proof.Machine

/-! ## States (R399, R400) -/

def lcBlank : Nat := 0
def lcTest : Nat := 1
def lcSealed : Nat := 2
def lcOwned : Nat := 3
def lcReturned : Nat := 4
def lcScrap : Nat := 5
def lcLost : Nat := 15

/-- The pattern of state group G(i + 1) (Table 14.1). -/
def groupPattern (i : Nat) : Nat := [0x5A3C, 0xC3A5, 0x96E1, 0x3CC3, 0x7E7E].getD i 0

/-- A progress mark for target `t` is valid: either copy decodes to it (R403). -/
def Otp.marked (o : Otp) (t : Nat) : Bool :=
  match o.marks[t - 1]? with
  | some (a, b) => decide (1 ≤ t) && (a == some t || b == some t)
  | none => false

/-- Group `i` counts as programmed: its pattern, or uncorrectable under a mark that includes it. -/
def Otp.grouped (o : Otp) (i : Nat) : Bool :=
  match o.groups.getD i none with
  | some v => v == groupPattern i
  | none => (List.range 6).any (fun t => decide (i < t) && o.marked t)

/-- Programmed groups from G1 on. -/
def Otp.run (o : Otp) : Nat := ((List.range 5).takeWhile o.grouped).length

/-- The state that the OTP decodes to: the run, when every later group is erased. -/
def Otp.lifeCycle (o : Otp) : Nat :=
  if (List.range 5).all (fun i => decide (i < o.run) || o.groups.getD i none == some 0) then o.run else lcLost

/-- The state in force. -/
def State.lcs (s : State) : Nat := s.fget .LCS_STATE_STATE 0

/-- Groups up to a target programmed: bits are only added. -/
def programGroups (t : Nat) (g : List (Option Nat)) : List (Option Nat) :=
  g.zipIdx.map (fun x => if x.2 < t then x.1.map (· ||| groupPattern x.2) else x.1)

/-! ## Transitions (R401 to R403) -/

/-- The current owner slot is revoked. -/
def State.revokeOwner (s : State) : State :=
  match s.ownerSlot with
  | none => s
  | some k =>
    let o := s.otp.owners.getD k ⟨[], [], [], false⟩
    ({ s with otp := { s.otp with owners := s.otp.owners.set k { o with revoked := true } } }).event 0x2005 5 0 1 k 3 0

/-- The BBKS share zeroised; with it the root is gone. -/
def State.zeroShare (s : State) : State := { s with bbks := { s.bbks with share := [] } }

/-- The side effects of entering a state (Table 14.3). -/
def State.enterState (s : State) (t : Nat) : State :=
  if t = lcReturned then (s.revokeOwner.dropPair).zeroShare
  else if t = lcScrap then ((s.startErase 0 16).settleErase).revokeOwner
  else s

/-- Whether Table 14.2 allows a target; `dbg` says that the debug master writes. -/
def State.mayEnter (s : State) (dbg : Bool) (t : Nat) : Bool :=
  let o := s.otp
  match t with
  | 1 => s.lcs == lcBlank && s.mode == modeBoot && dbg
  | 2 => s.lcs == lcTest && s.mode == modeCommissioning && !o.deviceId.isEmpty && !o.imageHash.isEmpty &&
      !o.vendorDebug.isEmpty && !o.floor.isEmpty
  | 3 => s.lcs == lcSealed && s.mode == modeCommissioning && !(o.owners.getD 0 ⟨[], [], [], false⟩).owner.isEmpty
  | 4 => s.lcs == lcOwned && s.mode == modeCommissioning && s.flag .LCS_PERMIT_RETURN 0
  | 5 => true
  | _ => false

/-- A decision awaits its second evaluation (R431). -/
def State.doubt (s : State) (d : Doubled) : State := { s with prot := { s.prot with doubled := s.prot.doubled ++ [d] } }

/-- Steps 2 to 5 of R402, as one step once VDD_OTP permits a program pulse (R470). -/
def State.commitLife (s : State) (t : Nat) : State :=
  if s.otpGood then
    let s := { s with otp := { s.otp with marks := s.otp.marks.set (t - 1) (some t, some t),
                                          groups := programGroups t s.otp.groups } }
    (s.enterState t).deviceReset .DEV_RESET_CAUSE_COMMAND
  else { s with boot := { s.boot with waitOtp := some t } }

/-- A write of LCS_REQUEST (R401, R402): with F2 compatibility mode set, the commit is decided twice. -/
def State.lcsRequest (s : State) (dbg : Bool) (t : Nat) : State :=
  if s.flag .LCS_STATUS_BUSY 0 || !s.mayEnter dbg t then
    (s.fset .LCS_STATUS_REFUSED 0 1).event 0x2002 3 0 1 s.lcs t s.mode
  else
    let s := (s.fset .LCS_STATUS_BUSY 0 1).event 0x2001 5 0 1 s.lcs t 0
    if s.otp.f2 then s.doubt (.commit t) else s.commitLife t

/-- Who may write LCS_REQUEST: PF0, and the debug master at level 3 (R401). -/
def State.lcsWriter (s : State) : Master → Bool
  | .pf0 => true
  | .mp => false
  | .dbg => s.fget .DBG_STATE_LEVEL 0 == 3

/-- A LCS_REQUEST write by a master. -/
def State.lcsWrite (s : State) (m : Master) (t : Nat) : State := if s.lcsWriter m then s.lcsRequest (m == .dbg) t else s

/-- LCS_TO_TEST. -/
def execLcsToTest (master : Master) (s : State) : Out := .next (s.lcsWrite master lcTest)

/-- LCS_TO_SEALED. -/
def execLcsToSealed (master : Master) (s : State) : Out := .next (s.lcsWrite master lcSealed)

/-- LCS_TO_OWNED. -/
def execLcsToOwned (master : Master) (s : State) : Out := .next (s.lcsWrite master lcOwned)

/-- LCS_TO_RETURNED. -/
def execLcsToReturned (master : Master) (s : State) : Out := .next (s.lcsWrite master lcReturned)

/-- LCS_TO_SCRAP. -/
def execLcsToScrap (master : Master) (s : State) : Out := .next (s.lcsWrite master lcScrap)

/-- The highest target with a valid mark whose groups are not all programmed (R403). -/
def Otp.unfinished (o : Otp) : Option Nat :=
  match (List.range 6).reverse.find? o.marked with
  | some t => if decide (o.run < t) then some t else none
  | none => none

/-- An owner transfer that a reset cut short: an older slot still unrevoked (R408). -/
def State.finishTransfer (s : State) : State :=
  match s.ownerSlot with
  | none => s
  | some k =>
    let old := (List.range k).filter (fun i =>
      let o := s.otp.owners.getD i ⟨[], [], [], false⟩
      !o.owner.isEmpty && !o.revoked)
    if old.isEmpty || !s.otpGood then s
    else
      let rev := old.foldl (fun l i => l.set i { (l.getD i ⟨[], [], [], false⟩) with revoked := true }) s.otp.owners
      { s with otp := { s.otp with owners := rev } }.zeroShare

/-- The life-cycle state as the ROM decodes it (R399, R400). -/
def State.decodeState (s : State) : State :=
  let c := s.otp.lifeCycle
  (s.fset .LCS_STATE_STATE 0 c).fset .LCS_STATE_LOST 0 (bit (c == lcLost))

/-- Step 2 of Table 13.5: an interrupted transition resumes and the boot goes on in its target, the state is decoded,
a loss is recorded (R403). -/
def State.decodeLife (s : State) : State :=
  let s := match s.otp.unfinished with
    | none => s.decodeState
    | some t =>
      let n := s.otp.run
      let before := s.decodeState
      let s := { before with otp := { s.otp with groups := programGroups t s.otp.groups } }
      let s := ((s.enterState t).fset .LCS_STATE_STATE 0 t).fset .LCS_STATE_LOST 0 0
      (s.fset .LCS_STATUS_RESUMED 0 1).event 0x2003 5 0 0xF t n 0
  let s := if s.lcs = lcLost then
      let (raw, s) := s.draw
      s.event 0x2004 7 0 0xF raw 0 0
    else s
  s.finishTransfer

/-! ## Owner commands (R406 to R409) -/

/-- A state that a command does not allow. -/
def State.lcDenied (s : State) (l : List Nat) : Bool × Nat × Nat := (!l.contains s.lcs, mLifecycleDenied, 0)

/-- LCS_QUERY. -/
def execLcsQuery (s : State) : Out := .next (s.cmd 0x0801 (fun s _ => s.respond mSuccess 0 (s.peek 0x40000 32)))

/-- AUTH_NONCE (R406). -/
def execAuthNonce (s : State) : Out :=
  .next (s.cmdIf 0x0802 (fun s _ => [s.lcDenied [0, 1, 2, 3, 4, 5]]) (fun s _ =>
    match s.mpDraw 32 with
    | (none, s) => s
    | (some r, s) =>
      ({ s with auth := { s.auth with nonce := r, nonceAt := s.time.ticks, nonceLive := true } }).respond mSuccess 0 r))

/-- An owner slot's contents. -/
def State.setOwner (s : State) (k : Nat) (o : OwnerSlot) : State :=
  { s with otp := { s.otp with owners := s.otp.owners.set k o } }

/-- OWNER_CLAIM. -/
def execOwnerClaim (s : State) : Out :=
  .next (s.cmdIf 0x0803 (fun s _ =>
      [s.lcDenied [lcSealed], (!(s.otp.owners.getD 0 ⟨[], [], [], false⟩).owner.isEmpty, mExists, 0)])
    (fun s p => s.program (fun s => ((s.setOwner 0 ⟨sliceZ p 0 48, [], [], false⟩).event 0x2005 5 0 1 0 1 0).success)))

/-- The slot that OWNER_SET_KEYS programs. -/
def State.currentOwner (s : State) : OwnerSlot := s.otp.owners.getD (s.ownerSlot.getD 0) ⟨[], [], [], false⟩

/-- OWNER_SET_KEYS. -/
def execOwnerSetKeys (s : State) : Out :=
  .next (s.cmdIf 0x0804 (fun s p =>
      [s.lcDenied [lcOwned], (decide (4 ≤ byteAt p 0), mBadParam, 0), zeroAt p 1 3,
       ((byteAt p 0).testBit 0 && !s.currentOwner.kernel.isEmpty, mExists, 0),
       ((byteAt p 0).testBit 1 && !s.currentOwner.debugHash.isEmpty, mExists, 0)])
    (fun s p =>
      let o := s.currentOwner
      let o := if (byteAt p 0).testBit 0 then { o with kernel := sliceZ p 4 48 } else o
      let o := if (byteAt p 0).testBit 1 then { o with debugHash := sliceZ p 52 48 } else o
      let k := s.ownerSlot.getD 0
      s.program (fun s => ((s.setOwner k o).event 0x2005 5 0 1 k 4 0).success)))

/-- OWNER_TRANSFER (R408): the next slot is programmed, the current one revoked, the share zeroised, the device reset. -/
def execOwnerTransfer (s : State) : Out :=
  .next (s.cmdIf 0x0805 (fun s _ => [s.lcDenied [lcOwned], (s.ownerSlot.getD 3 == 3, mNoResource, 0)])
    (fun s p =>
      let k := s.ownerSlot.getD 0
      let o := s.currentOwner
      s.program (fun s =>
        let s := (s.setOwner (k + 1) ⟨sliceZ p 0 48, [], [], false⟩).event 0x2005 5 0 1 (k + 1) 2 0
        let s := (s.setOwner k { o with revoked := true }).event 0x2005 5 0 1 k 3 0
        (s.success.zeroShare).deviceReset .DEV_RESET_CAUSE_COMMAND)))

/-- RETURN_AUTHORISE (R409). -/
def execReturnAuthorise (s : State) : Out :=
  .next (s.cmdIf 0x0806 (fun s _ => [s.lcDenied [lcOwned]]) (fun s _ => (s.fset .LCS_PERMIT_RETURN 0 1).success))

/-! ## Debug challenges, tokens and grants (R411 to R413) -/

/-- A new challenge replaces the last; where its bytes come from is not said: they are free values. -/
def State.newChallenge (s : State) : State :=
  let (b, s) := s.drawBytes 32
  { s with auth := { s.auth with chal := b, chalAt := s.time.ticks, chalLive := true,
                                 chalTtl := clampNat 1 3600 (s.fget .DBG_CHAL_TTL_SECONDS 0) } }

/-- DBG_CHALLENGE. -/
def execDbgChallenge (s : State) : Out :=
  .next (s.cmdIf 0x0807 (fun s _ => [s.lcDenied [0, 1, 2, 3, 4]]) (fun s _ =>
    let s := s.newChallenge
    s.respond mSuccess 0 s.auth.chal))

/-- The debug level changes, recorded (R412): 1 token, 2 expiry, 3 relock. -/
def State.setLevel (s : State) (l why : Nat) : State :=
  let old := s.fget .DBG_STATE_LEVEL 0
  if old = l then s else (s.fset .DBG_STATE_LEVEL 0 l).event 0x2010 5 0 1 old l why

/-- The challenge in a token is the one in force. -/
def State.challengeOk (s : State) (t : Bytes) : Bool :=
  s.auth.chalLive && sliceZ t 24 32 == s.auth.chal && decide (s.since s.auth.chalAt < s.auth.chalTtl * 1000000000)

/-- The key kind that Table 14.1 names, and the highest level of Table 14.9. -/
def State.debugKey (s : State) : Option (Nat × Nat) :=
  match s.lcs with
  | 1 => some (0, 3)
  | 2 | 4 => some (0, 2)
  | 3 => some (1, 2)
  | _ => none

/-- The hash that a token's key must have. -/
def State.debugHash (s : State) : Bytes :=
  if s.lcs = lcOwned then (match s.ownerSlot with
    | some k => (s.otp.owners.getD k ⟨[], [], [], false⟩).debugHash
    | none => [])
  else s.otp.vendorDebug

/-- The checks of Table 14.8 in order: the status and the error code of the first that fails. -/
def State.tokenFail (s : State) (t : Bytes) : Option (Nat × Nat) :=
  let lv := byteAt t 6
  let pk := sliceZ t 64 2049
  firstFail
    [(s.flag .DBG_FAILS_BLOCKED 0 || leAt t 0 4 != 0x5444565A || leAt t 4 2 != 1 || leAt t 60 4 != 0, mNotAuthorised, 1),
     (sliceZ t 8 16 != s.otp.deviceId || !s.challengeOk t, mNotAuthorised, 2),
     ((match s.debugKey with
       | none => true
       | some (k, top) => byteAt t 7 != k || lv == 0 || decide (top < lv)), mLifecycleDenied, 3),
     (s.lcs == lcOwned && lv == 2 && s.mode != modeCommissioning && s.mode != modeMaintenance, mWrongMode, 4),
     (s.debugHash.isEmpty || sha3 48 pk != s.debugHash, mNotAuthorised, 5),
     (!hybridCheck pk (t.take 64) (ascii "ZV-DEBUG-TOKEN") (sliceZ t 2113 3309) (sliceZ t 5422 96), mVerifyFailed, 6)]

/-- The key store is locked on every die (R413): started secret jobs end, quotes go on. -/
def State.lockKeyStore (s : State) : State :=
  let s := (List.range s.dies).foldl (fun s d => s.fset .KS_STATE_DEBUG_LOCKED d 1) s
  let s := s.fset .DBG_STATE_KS_LOCKED 0 1
  s.eachJob (fun j => (j.running || j.phase == .saved) && s.jobSecret j && j.oper != some .quote)
    (fun s j => s.endJob j jServiceLockdown 0 true)

/-- A refused token: counted, recorded, and the eighth in a row blocks (R411). `via` is 1 mailbox, 2 TAP. -/
def State.refuseToken (s : State) (err via : Nat) : State :=
  let n := min 8 (s.fget .DBG_FAILS_COUNT 0 + 1)
  let s := ((s.fset .DBG_FAILS_COUNT 0 n).fset .DBG_STATE_ERR_CODE 0 err).event 0x2011 4 0 1 err via n
  if n = 8 then s.fset .DBG_FAILS_BLOCKED 0 1 else s

/-- A token's grant (R412). -/
def State.grant (s : State) (t : Bytes) : State :=
  let lv := byteAt t 6
  let dur := leAt t 56 4
  let s := ((s.setLevel lv 1).fset .DBG_STATE_KEY 0 (byteAt t 7)).fset .DBG_FAILS_COUNT 0 0
  let s := s.setReg .DBG_EXPIRY 0 (BitVec.ofNat 64 (if dur = 0 then 0 else s.now + dur * 1000000000))
  if s.lcs = lcOwned && lv = 2 then s.lockKeyStore else s

/-- A token is presented: what a mailbox answers, and the state after; no answer while the second evaluation of F2
compatibility mode is awaited. A challenge serves once. -/
def State.token (s : State) (t : Bytes) (via : Nat) : Option Nat × State :=
  let r := s.tokenFail t
  let s := if s.auth.chalLive && sliceZ t 24 32 == s.auth.chal then { s with auth := { s.auth with chalLive := false } } else s
  match r with
  | some (st, err) => (some st, s.refuseToken err via)
  | none => if s.otp.f2 then (none, s.doubt (.unlock t via)) else (some mSuccess, s.grant t)

/-- The running command's token awaits its second evaluation, or has failed it. -/
def State.unlockWaits (s : State) : Bool :=
  s.prot.doubled.any (fun d => match d with
    | .unlock _ v => v == 1
    | .unanswered => true
    | _ => false)

/-- DBG_UNLOCK. -/
def execDbgUnlock (s : State) : Out :=
  .next (s.cmd 0x0808 (fun s p =>
    if s.unlockWaits then s
    else match s.token p 1 with
      | (some st, s) => s.respond st 0 []
      | (none, s) => s))

/-- The level falls to 0, and with it the grant's end. -/
def State.dropLevel (s : State) (why : Nat) : State := (s.setLevel 0 why).setReg .DBG_EXPIRY 0 0

/-- DBG_RELOCK. -/
def execDbgRelock (s : State) : Out := .next (s.cmd 0x0809 (fun s _ => (s.dropLevel 3).success))

/-- DEBUG_GRANT_EXPIRY (R412). -/
def execDebugGrantExpiry (dt : Nat) (s : State) : Out :=
  let s := s.elapse dt
  let e := (s.reg .DBG_EXPIRY 0).toNat
  .next (if e ≠ 0 && e ≤ s.now then s.dropLevel 2 else s)

/-! ## The TAP (R410) -/

/-- An instruction in force. -/
def State.tapSelect (s : State) (ir : Nat) : State := { s with tap := { s.tap with ir := ir } }

/-- A data register is shifted out. -/
def State.shiftOut (s : State) (bits v : Nat) : State := s.emitLocal (.tdo bits (v % 2 ^ bits))

/-- An instruction that is not available acts as BYPASS: the captured bit is 0. -/
def State.asBypass (s : State) : State := (s.tapSelect 0xFF).shiftOut 1 0

/-- The TAP has power, and an instruction runs where it is available. -/
def State.tap? (s : State) (ir : Nat) (ok : Bool) (f : State → State) : State :=
  if s.onVbat then s else if ok then f (s.tapSelect ir) else s.asBypass

/-- The part field of IDCODE. -/
def partCode : Part → Nat
  | .zv2800 => 0x2800
  | .zv4800 => 0x4800
  | .zv8800 => 0x8800

/-- The identification code (Table 14.5). -/
def State.idcode (s : State) : Nat := 0x10000000 + partCode s.part * 2 ^ 12 + Config.jedec % 2 ^ 11 * 2 + 1

/-- States in which challenges and tokens pass through the TAP. -/
def State.tapDebug (s : State) : Bool := [lcTest, lcSealed, lcOwned, lcReturned].contains s.lcs

/-- TAP_RESET: TRST_N or Test-Logic-Reset selects IDCODE. -/
def execTapReset (s : State) : Out := .next (if s.onVbat then s else s.tapSelect 0x01)

/-- IDCODE. -/
def execIdcode (s : State) : Out := .next (s.tap? 0x01 true (fun s => s.shiftOut 32 s.idcode))

/-- SAMPLE_PRELOAD: the pins are sampled and shifted out, the boundary register is preloaded. -/
def execSamplePreload (bits pins preload : Nat) (s : State) : Out :=
  .next (s.tap? 0x02 true (fun s => { s.shiftOut bits pins with tap := { s.tap with ir := 0x02, boundary := preload % 2 ^ bits } }))

/-- BYPASS: what is shifted in comes out one bit later, after the captured 0. -/
def execBypass (bits value : Nat) (s : State) : Out := .next (s.tap? 0xFF true (fun s => s.shiftOut bits (2 * value)))

/-- EXTEST: the preloaded boundary is driven, the pins are shifted out, and what is shifted in is driven next. -/
def execExtest (bits pins preload : Nat) (s : State) : Out :=
  .next (s.tap? 0x00 (s.lcs == lcTest || s.lcs == lcReturned) (fun s =>
    let s := (s.emitLocal (.boundary s.tap.boundary)).shiftOut bits pins
    { s with tap := { s.tap with boundary := preload % 2 ^ bits } }.emitLocal (.boundary (preload % 2 ^ bits))))

/-- TAP_DBG_CHAL: a challenge is issued and shifted out. -/
def execTapDbgChal (s : State) : Out :=
  .next (s.tap? 0x10 s.tapDebug (fun s =>
    let s := s.newChallenge
    s.shiftOut 256 (leNat s.auth.chal)))

/-- TAP_DBG_TOKEN: a token is checked at Update-DR. -/
def execTapDbgToken (token : Bytes) (s : State) : Out :=
  .next (s.tap? 0x11 s.tapDebug (fun s => (s.token (sliceZ token 0 5518) 2).2))

/-- TAP_DBG_STATUS: DBG_STATE is shifted out. -/
def execTapDbgStatus (s : State) : Out := .next (s.tap? 0x12 true (fun s => s.shiftOut 32 (s.reg .DBG_STATE 0).toNat))

/-- TAP_DBG_RELOCK. -/
def execTapDbgRelock (s : State) : Out := .next (s.tap? 0x14 true (fun s => s.dropLevel 3))

end Sys2Proof.Machine
end

