-- ==== Sys2Proof/Machine/Rules.lean ====
section
/-!
DEFINITION. What a deckle decides, and the access-control commands (R436 to R439, R443, R444, R491).
-/

namespace Sys2Proof.Machine

/-- A master ID matches an entry (R437). -/
def entryMatches (e m : Nat) : Bool :=
  let mask := e / 2 ^ 16 % 2 ^ 16
  mask != 0 && (m &&& mask) == (e % 2 ^ 16 &&& mask)

/-- A region covers a granule and has a matching entry of the kind. -/
def State.regionGrants (s : State) (k r m : Nat) (write : Bool) (off : Nat) : Bool :=
  let b := s.regionWord k r 0
  decide (b ≤ off / 64) && decide (off / 64 < b + s.regionWord k r 1) &&
    (List.range 4).any (fun e => entryMatches (s.regionWord k r ((if write then 6 else 2) + e)) m)

/-- The offsets of a LIE block that DIAG opens, and its read-only part (Table 16.2, R252). -/
def lieOpen (off : Nat) : Bool := decide (off < 0x40) || (decide (0x1000 ≤ off) && decide (off < 0x1480))
def lieGuarded (off : Nat) : Bool := decide (8 ≤ off ∧ off < 16)

/-- The grants of Table 16.2 that allow an access, by their places in the table's cell. -/
def State.uzLines (s : State) (k m : Nat) (write : Bool) (off : Nat) : List Nat :=
  let d := k / 8
  let i := k % 8
  let c := masterClass m
  let mp := m == 0x2000
  let agent := m == 0x3000 + d
  let disp := m == 0x4000 + d
  let pick := fun (l : List Bool) => (l.zipIdx.filter (·.1)).map (·.2)
  if i = 0 then pick [c == 0xA, mp && Config.slotDirectory off]
  else if i = 1 || i = 2 then
    pick [c == 5 && m % 4096 / 8 == d * 2 + (i - 1), m == 0x6000 + d * 2 + (i - 1), disp, mp, agent]
  else if i = 3 || i = 4 then
    let diag := s.lieDiag (d * 2 + (i - 3))
    pick [!write && decide (off < 0x40) && !lieGuarded off && (m == 0x1000 || mp || disp),
          disp && (lieOpen off && (lieGuarded off || decide (0x1000 ≤ off))),
          diag && lieOpen off && (mp || m == 0x1000)]
  else if i = 5 then pick [!write && (m == 0x1000 || mp || agent), write && (mp || agent), write && m == 0x1000]
  else pick [!write && (m == 0x1000 || mp), write && mp, write && m == 0x1000]

/-- What the debug level opens (Table 14.9): level 1 the public registers, level 2 public memory too, level 3 everything but
the window of an engine that is not in DIAG, which is open to no master (R252). -/
def State.debugGranted (s : State) (k : Nat) (write : Bool) (off : Nat) : Bool :=
  let l := s.fget .DBG_STATE_LEVEL 0
  let i := k % 8
  let shut := (i == 3 || i == 4) && (lieGuarded off || decide (0x1000 ≤ off ∧ off < 0x1480)) && !s.lieDiag (k / 8 * 2 + (i - 3))
  !shut && (l == 3 || (l == 2 && (i == 1 || i == 2)) ||
    (decide (1 ≤ l) && !write && (i == 5 || i == 6 || ((i == 3 || i == 4) && off < 0x40 && !lieGuarded off))))

/-- The reserved area of a cluster's shared memory (R41). -/
def inReserved (off : Nat) : Bool :=
  let b := Config.reservedArea % (15 * 0x40000 + 1)
  decide (b ≤ off) && decide (off < b + 0x40000)

/-- The regions of Table 14.10 that lie behind a deckle. -/
def State.secretRegion (s : State) (k off : Nat) : Bool :=
  match k % 8 with
  | 0 => true
  | 1 => inReserved off
  | 2 => inReserved off
  | 5 => decide (0x70000 ≤ off) && decide (off < 0x71000) && s.flag .DGE_STAT_MASKED (k / 8 * 4 + (off - 0x70000) / 0x400)
  | 6 => false
  | 7 => false
  | i =>
    let st := s.fget .LIE_STATE_STATE (k / 8 * 2 + (i - 3))
    (st == 1 || st == 2) && decide (0x1000 ≤ off) && decide (off < 0x1480)

/-- The fixed denials (R438). -/
def State.fixedDenial (s : State) (k m off : Nat) : Bool :=
  let i := k % 8
  match masterClass m with
  | 0x0 => true
  | 0xE => true
  | 0xF => true
  | 0x1 => i == 0 || i == 1 || i == 2 || i == 7
  | 0xD => decide (i < 7)
  | 0xC => s.secretRegion k off
  | _ => false

/-- PF0 may write the register at an address: its PF0 column (R491). -/
def State.pf0Takes (s : State) (addr : Nat) : Bool :=
  match s.regAt addr with
  | none => false
  | some (k, i, _) =>
    match (regRow k).pf0 with
    | .none => false
    | .write => true
    | .diag => s.lieDiag (if k = .LIE_WINDOW then i / 144 else i)

/-- The rules in force allow an access to a granule (R437, R442). Under the boot rule DEV_ID answers all the same (Table
19.2). -/
def State.granted (s : State) (k m : Nat) (write : Bool) (off : Nat) : Bool :=
  let x := s.dklAt k
  if masterClass m = 0xC && s.debugGranted k write off then true
  else if s.flag .DKL_CTL_BOOT_RULE k then
    m == 0x2000 || m == 0x3000 + k / 8 || (k == 6 && m == 0x1000 && !write && decide (off < 4))
  else
    (List.range 16).any (fun r => (!x.loaded || x.rewritten.contains r) && s.regionGrants k r m write off) ||
      (x.loaded && (s.uzLines k m write off).any (fun l => !x.rewritten.contains (Config.uzRegion k l % 16)))

/-- The decision of instances 0 to 6 for a byte: 1 allowed, 0 refused, 2 fixed denial. A PF0 write needs its register's
column as well (R491). -/
def State.decision (s : State) (k m : Nat) (write : Bool) (off : Nat) : Nat :=
  if s.fixedDenial k m off then 2
  else if s.granted k m write off && (!write || m != 0x1000 || s.pf0Takes (bar0Of k off)) then 1
  else 0

/-- The decision of instance 7 for a byte of host memory: the TI's windows (R443). -/
def State.dmaDecision (s : State) (m ti : Nat) (write : Bool) (addr : Nat) : Nat :=
  if s.fixedDenial 7 m addr then 2
  else if m == 0x9000 + ti && (s.tiState ti == tiBound || s.tiState ti == tiQuiesced) && s.bufferOk ti addr 1 (!write) write then 1
  else 0

/-- An access is cut before an offset: a region starts or ends there (R439). -/
def State.regionEdge (s : State) (k off : Nat) : Bool :=
  let x := s.dklAt k
  off % 64 == 0 && (List.range 16).any (fun r =>
    let b := s.regionWord k r 0
    let n := s.regionWord k r 1
    (!x.loaded || x.rewritten.contains r) && n != 0 && (off / 64 == b || off / 64 == b + n))

/-- A window of a TI starts or ends at an address. -/
def State.windowEdge (s : State) (ti addr : Nat) : Bool :=
  (List.range 16).any (fun w =>
    let (b, e, _, _) := s.window ti w
    b != e && (addr == b || addr == e))

/-- The parts of `n` bytes from an offset: offset, length, decision. -/
def partsFrom (dec : Nat → Nat) (cut : Nat → Bool) : Nat → Nat → List (Nat × Nat × Nat)
  | 0, _ => []
  | n + 1, o =>
    match partsFrom dec cut n (o + 1) with
    | [] => [(o, 1, dec o)]
    | (o', l, d) :: r => if dec o = d && !cut (o + 1) then (o, l + 1, d) :: r else (o, 1, dec o) :: (o', l, d) :: r

/-! ## Commands (R444) -/

/-- A deckle number of a payload. -/
def State.deckleCheck (s : State) (p : Bytes) : Bool × Nat × Nat := (!s.hasDeckle (leAt p 0 2), mBadParam, 0)

/-- The block of a deckle. -/
def dklBlock (k : Nat) : Nat := dieBlock (k / 8) + 0x60000 + 0x800 * (k % 8)

/-- ACL_QUERY: nothing is cleared. -/
def execAclQuery (s : State) : Out :=
  .next (s.cmdIf 0x0E01 (fun s p => [s.deckleCheck p, zeroAt p 2 2]) (fun s p =>
    let k := leAt p 0 2
    let rules := if k % 8 = 7 then [] else
      (List.range 16).flatMap (fun r => (List.range 10).flatMap (fun w => leBytes 4 (s.regionWord k r w)))
    s.respond mSuccess 0 (s.peek (dklBlock k) 32 ++ rules)))

/-- The parts of an access: one under a single decision, else cut at every region boundary too (R439). -/
def accessParts (dec : Nat → Nat) (edge : Nat → Bool) (n o : Nat) : List (Nat × Nat × Nat) :=
  let l := partsFrom dec (fun _ => false) n o
  if l.length ≤ 1 then l else partsFrom dec edge n o

/-- The parts that ACL_TEST reports. -/
def State.testParts (s : State) (p : Bytes) : List (Nat × Nat × Nat) :=
  let k := leAt p 0 2
  let m := leAt p 2 2
  let w := byteAt p 4 == 1
  let ti := leAt p 20 2
  let o := leAt p 8 8
  let n := leAt p 16 4
  (if k % 8 = 7 then accessParts (s.dmaDecision m ti w) (s.windowEdge ti) n o
   else accessParts (s.decision k m w) (s.regionEdge k) n o).take 32

/-- ACL_TEST: no data moves, no counter changes, no hold is waited for. -/
def execAclTest (s : State) : Out :=
  .next (s.cmdIf 0x0E02 (fun s p =>
      [s.deckleCheck p, (decide (1 < byteAt p 4), mBadParam, 4), zeroAt p 5 3,
       (leAt p 16 4 == 0 || decide (4096 < leAt p 16 4), mBadParam, 16),
       (leAt p 0 2 % 8 == 7 && decide (s.part.tenants ≤ leAt p 20 2), mBadParam, 20), zeroAt p 22 2])
    (fun s p =>
      let l := s.testParts p
      s.respond mSuccess 0 (leBytes 4 l.length ++ l.flatMap (fun x => leBytes 8 x.1 ++ leBytes 4 x.2.1 ++ leBytes 4 x.2.2))))

/-- ACL_RECORD. -/
def execAclRecord (s : State) : Out :=
  .next (s.cmdIf 0x0E03 (fun s p =>
      [(leAt p 0 2 != 0xFFFF && !s.hasDeckle (leAt p 0 2), mBadParam, 0), (decide (1 < byteAt p 2), mBadParam, 2), zeroAt p 3 1])
    (fun s p =>
      let l := if leAt p 0 2 = 0xFFFF then (List.range 64).filter s.hasDeckle else [leAt p 0 2]
      (l.foldl (fun s k => s.setDkl k { s.dklAt k with quiet := byteAt p 2 == 0 }) s).success))

end Sys2Proof.Machine
end

