-- ==== Sys2Proof/Machine/Time.lean ====
section
/-!
DEFINITION. The package time base: steps, slew, target, PPS and replicas (R35, R37, R168 to R171).
-/

namespace Sys2Proof.Machine

/-- A bit of TIME_INT set; vector 5 fires when TIME_INT_EN enables it (R171). -/
def State.timeInt (s : State) (f en : Fld) : State :=
  let s := s.fset f 0 1
  if s.flag en 0 then s.vector 5 else s

/-- TARGET is set once, when the PHC has reached or passed an armed TIME_TARGET (R171). -/
def State.checkTarget (s : State) : State :=
  if s.time.targetArmed && decide ((s.reg .TIME_TARGET 0).toNat ≤ s.now) then
    { s with time := { s.time with targetArmed := false } }.timeInt .TIME_INT_TARGET .TIME_INT_EN_TARGET
  else s

/-- A write of TIME_TARGET arms the target (R171). -/
def State.writeTarget (s : State) (v : Nat) : State :=
  let s := s.setReg .TIME_TARGET 0 (BitVec.ofNat 64 v)
  { s with time := { s.time with targetArmed := true } }.checkTarget

/-- A step is committed: it takes effect 2 µs later and replaces a pending one (R168). -/
def State.commitStep (s : State) (kind : Nat) (v : Int) : State :=
  let s := { s with time := { s.time with step := some (kind, v, s.time.ticks + 4000) } }
  s.fset .TIME_CTL_STEP_PENDING 0 1

/-- A slew offset written: the remainder is replaced (R168). -/
def State.writeSlew (s : State) (v : Nat) : State :=
  { s with time := { s.time with slew := signedOf 32 v * (fracOne : Int) } }

/-- TIME_INCR within ±1,000 ppm of nominal (R168). -/
def clampIncr (v : Nat) : Nat := clampNat (2 ^ 47 - 2 ^ 47 / 1000) (2 ^ 47 + 2 ^ 47 / 1000) (v % 2 ^ 48)

/-- The pending step takes effect at once on every die; PPS_OUT rises where it carries the PHC over its second (R37, R168,
R170). -/
def State.applyStep (s : State) (kind : Nat) (v : Int) : State :=
  let old := s.time.ns
  let new := if kind = 1 then unsignedOf 64 v else unsignedOf 64 ((old : Int) + v)
  let diff := unsignedOf 64 ((new : Int) - (old : Int))
  let fr := if kind = 1 then 0 else s.time.frac
  let p := s.ppsPasses old new
  let s := { s with time := { s.time with ns := new, frac := fr, slew := 0, step := none, ppsOut := s.time.ppsOut || p,
                                          ppsOutAt := if p then s.time.ticks else s.time.ppsOutAt } }
  let s := s.fset .TIME_CTL_STEP_PENDING 0 0
  let s := s.timeInt .TIME_INT_STEPPED .TIME_INT_EN_STEPPED
  let s := s.event 0x5005 2 0 1 kind (diff / 2 ^ 32) (diff % 2 ^ 32)
  s.checkTarget

/-- TIME_SET (R168). -/
def execTimeSet (value : Nat) (s : State) : Out := .next (s.commitStep 1 ((value % 2 ^ 64 : Nat) : Int))

/-- TIME_STEP (R168). -/
def execTimeStep (value : Nat) (s : State) : Out := .next (s.commitStep 2 (signedOf 64 value))

/-- TIME_SLEW (R168). -/
def execTimeSlew (value : Nat) (s : State) : Out := .next (s.writeSlew value)

/-- STEP_TAKES_EFFECT (R37). -/
def execStepTakesEffect (dt : Nat) (s : State) : Out :=
  let s := s.elapse dt
  match s.time.step with
  | none => .next s
  | some (kind, v, due) => if due ≤ s.time.ticks then .next (s.applyStep kind v) else .next s

/-- TIME_TARGET (R171). -/
def execTimeTarget (value : Nat) (s : State) : Out := .next (s.writeTarget value)

/-- TARGET_REACHED (R171). -/
def execTargetReached (dt : Nat) (s : State) : Out := .next (s.elapse dt).checkTarget

/-- PPS_OUT_EDGE (R170): time passes, and PPS_OUT rises where the PHC passes a whole second plus PPS_OFFSET, as it does
under every command that lets time pass. -/
def execPpsOutEdge (dt : Nat) (s : State) : Out := .next (s.elapse dt)

/-- PPS_OUT_PULSE_END (R170): the pulse has lasted PPS_WIDTH_MS. -/
def execPpsOutPulseEnd (dt : Nat) (s : State) : Out :=
  let s := s.elapse dt
  if s.time.ppsOut && decide (s.fget .TIME_PPS_OUT_PPS_WIDTH_MS 0 * 1000000 ≤ s.since s.time.ppsOutAt) then
    .next { s with time := { s.time with ppsOut := false } }
  else .next s

/-- Whether a PPS_IN edge counts: enabled, of the selected kind, at least 0.5 s after the last captured one (R170). -/
def State.ppsTaken (s : State) (falling : Bool) : Bool :=
  s.flag .TIME_CTL_PPS_IN_EN 0 && (s.flag .TIME_CTL_PPS_IN_EDGE 0 == falling) &&
    (match s.time.ppsLast with
     | none => true
     | some t => decide (500000000 ≤ s.since t))

/-- PPS_IN_EDGE (R170): the PHC at the edge is captured, within ±5 ns of it. -/
def execPpsInEdge (falling : Bool) (dt : Nat) (s : State) : Out :=
  let s := s.elapse dt
  if s.ppsTaken falling then
    let (f, s) := s.draw
    let v := unsignedOf 64 ((s.now : Int) + ((f % 11 : Nat) : Int) - 5)
    let s := s.setReg .TIME_PPS_IN 0 (BitVec.ofNat 64 v)
    let s := { s with time := { s.time with ppsLast := some s.time.ticks, ppsBase := s.time.ticks, ppsLost := 0 } }
    .next (s.timeInt .TIME_INT_PPS_IN .TIME_INT_EN_PPS_IN)
  else .next s

/-- PPS_IN_LOST (R170): no edge for 1.1 s, and again each further second. -/
def execPpsInLost (dt : Nat) (s : State) : Out :=
  let s := s.elapse dt
  let gap := s.since s.time.ppsBase
  if s.flag .TIME_CTL_PPS_IN_EN 0 && decide (1100000000 + s.time.ppsLost * 1000000000 ≤ gap) then
    let s := { s with time := { s.time with ppsLost := s.time.ppsLost + 1 } }
    let s := s.timeInt .TIME_INT_PPS_LOST .TIME_INT_EN_PPS_LOST
    .next (s.event 0x5007 4 0 1 (gap / 1000000000) 0 0)
  else .next s

/-- Every replica brought to within ±2 ns of the master (R35). -/
def correctReplicas (start : Nat) : Nat → Sparse Int → Sparse Int
  | 0, m => m
  | d + 1, m => correctReplicas start d (sparseSet 0 m d (((Config.freeNat (start + d) % 5 : Nat) : Int) - 2))

/-- REPLICA_CORRECTION (R35). -/
def execReplicaCorrection (dt : Nat) (s : State) : Out :=
  let s := s.elapse dt
  .next { s with time := { s.time with replica := correctReplicas s.free s.dies s.time.replica },
                 free := s.free + s.dies }

end Sys2Proof.Machine
end

