-- ==== Sys2Proof/Machine/Access.lean ====
section
/-!
DEFINITION. Register accesses: sizes and splitting, integrity, deckles and holds, access codes, the registers that act when
they are read or written, the rule updates of the deckles, direct commands and DBG_ACCESS (R9 to R16, R169, R252, R253, R386,
R414, R430, R435, R439 to R442, R491, R492, R494).
-/

namespace Sys2Proof.Machine

/-! ## Writing a register (R12, R15) -/

/-- A value written by the access codes of Table 00.5; reserved and read-only bits stay. -/
def State.plainWrite (s : State) (k : RegKind) (i v : Nat) : State :=
  let row := regRow k
  let b := BitVec.ofNat 64 v
  let m := fun (n : Nat) => BitVec.ofNat 64 n
  s.setReg k i ((((s.reg k i &&& ~~~(m row.rw)) ||| (b &&& m row.rw)) ||| (b &&& m row.w1s)) &&& ~~~(b &&& m row.w1c))

/-- The state that a meaning answers. -/
def ran (o : Out) (s : State) : State :=
  match o with
  | .next t => t
  | _ => s

/-- TIME_CTL (R168, R170). -/
def State.writeTimeCtl (s : State) (v : Nat) : State :=
  let was := s.flag .TIME_CTL_PPS_IN_EN 0
  let s := (s.plainWrite .TIME_CTL 0 v).fset .TIME_CTL_SLEW_PPM 0 (clampNat 1 1000 (natBits v 25 16))
  let s := if !was && v.testBit 1 then { s with time := { s.time with ppsLast := none, ppsLost := 0, ppsBase := s.time.ticks } } else s
  if v.testBit 0 then s else { s with time := { s.time with ppsOut := false } }

/-- IMT_ADDR or IMT_DATA changed while the entry is assigned and unmasked leaves its messages undefined (R92). -/
def State.writeImt (s : State) (k : RegKind) (n v : Nat) : State :=
  let old := s.reg k n
  let s := s.plainWrite k n v
  if s.reg k n ≠ old && s.flag .IMT_CTL_ASSIGNED n && !s.flag .IMT_CTL_MASK n && !s.imtTaint.contains n then
    { s with imtTaint := n :: s.imtTaint }
  else s

/-- IMT_CTL.MASK (R91, R92). -/
def State.writeImtMask (s : State) (n v : Nat) : State :=
  if v % 2 = 1 then { (s.fset .IMT_CTL_MASK n 1) with imtTaint := s.imtTaint.filter (· != n) }
  else if s.flag .IMT_CTL_MASK n then s.imtUnmask n
  else s

/-- DGE_CTL (R262): NBYTES and FUNC, then INIT and FIN. -/
def State.writeDgeCtl (s : State) (c v : Nat) : State :=
  let s := s.plainWrite .DGE_CTL c v
  let s := if v.testBit 8 then ran (execDgeInit c (v % 16) s) s else s
  if v.testBit 9 then ran (execDgeFin c s) s else s

/-- RNG_CTL (R367). -/
def State.writeRngCtl (s : State) (d v : Nat) : State :=
  let was := s.flag .RNG_CTL_EN d
  let s := s.plainWrite .RNG_CTL d v
  if v.testBit 0 && !was then s.entropyEnable d else s.reborrow

/-- DKL_CTL.EN cleared: the boot rule ends, and later accesses are held (R441, R442). -/
def State.dklDisable (s : State) (k : Nat) : State := (s.fset .DKL_CTL_EN k 0).fset .DKL_CTL_BOOT_RULE k 0

/-- DKL_CTL.EN set: event 0x4003 (R441). -/
def State.dklMark (s : State) (k : Nat) : State := (s.fset .DKL_CTL_EN k 1).rulesUpdated k

/-- A write to a region register: it takes effect while EN is clear (R441). -/
def State.dklRegion (s : State) (k r w v writer : Nat) : State :=
  if s.flag .DKL_CTL_EN k then
    let off := 0x100 + 0x40 * r + (if w < 2 then 4 * w else 0x10 + 4 * (w - 2))
    (s.fset .DKL_STAT_ERR k 1).event 0x4004 4 (k / 8) 0xC k off writer
  else s.writeRegion k r w v

/-- A register takes a write of its whole width by a master; what a write triggers follows. -/
def State.commitReg (s : State) (m : Master) (k : RegKind) (i v : Nat) : State :=
  match k with
  | .MBX_DOORBELL => if v % 2 = 1 then s.go else s
  | .MBX_CTL =>
    let s := s.fset .MBX_CTL_DONE_IE 0 (v % 2)
    if v.testBit 1 then s.mbxAbort else s
  | .MBX_TIMEOUT => s.fset .MBX_TIMEOUT_LIMIT_MS 0 (clampNat 10 60000 (v % 2 ^ 16))
  | .MBX_CMD => if s.flag .MBX_STATUS_BUSY 0 then s else s.plainWrite k i v
  | .EVR_CURSOR => s.setCursor m (natBits v 28 24) (natBits v 12 0)
  | .EVR_INT_EN => (s.plainWrite k i v).recVector s.recLevel
  | .TIME_CTL => s.writeTimeCtl v
  | .TIME_SET => ran (execTimeSet v s) s
  | .TIME_STEP => ran (execTimeStep v s) s
  | .TIME_INCR => s.setReg k i (BitVec.ofNat 64 (clampIncr v))
  | .TIME_SLEW => s.writeSlew v
  | .TIME_PPS_OUT => (s.plainWrite k i v).fset .TIME_PPS_OUT_PPS_WIDTH_MS 0 (clampNat 1 999 (natBits v 31 22))
  | .TIME_TARGET => s.writeTarget v
  | .LCS_REQUEST => s.lcsWrite m (v % 16)
  | .DBG_CHAL_TTL => s.fset .DBG_CHAL_TTL_SECONDS 0 (clampNat 1 3600 (v % 2 ^ 12))
  | .PROT_ALARM => s.alarmClear v
  | .PWR_CAP => s.fset .PWR_CAP_CAP_W 0 (clampNat 75 s.part.tdp (v % 2 ^ 9))
  | .THM_CTL => s.fset .THM_CTL_WARN_C 0 (clampNat 60 s.grade.limit (v % 2 ^ 8))
  | .RNG_CTL => s.writeRngCtl i v
  | .DGE_CTL => s.writeDgeCtl i v
  | .DGE_DATA => ran (execDgeData i v s) s
  | .DGE_CMP => if v.testBit 8 then ran (execDgeCompare i (v % 128) s) s else s.fset .DGE_CMP_LEN i (clampNat 1 64 (v % 128))
  | .LIE_CFG => s.writeSlotWords i v
  | .LIE_SLOT_SEL => if s.lieDiag i then s.plainWrite k i v else s
  | .LIE_CMD => s.directStart i (v % 256) (natBits v 10 8) (natBits v 22 12)
  | .LIE_WINDOW => if s.lieDiag (i / 144) then s.setLieWindow (i / 144) (i % 144) v else s
  | .IMT_ADDR => s.writeImt k i v
  | .IMT_DATA => s.writeImt k i v
  | .IMT_CTL => s.writeImtMask i v
  | .DKL_CTL => if i % 8 = 7 then s else if v % 2 = 0 then s.dklDisable i else if s.flag .DKL_CTL_EN i then s else s.dklMark i
  | .DKL_RGN_BASE => s.dklRegion (i / 16) (i % 16) 0 v (masterId m)
  | .DKL_RGN_SIZE => s.dklRegion (i / 16) (i % 16) 1 v (masterId m)
  | .DKL_RGN_RD => s.dklRegion (i / 64) (i / 4 % 16) (2 + i % 4) v (masterId m)
  | .DKL_RGN_WR => s.dklRegion (i / 64) (i / 4 % 16) (6 + i % 4) v (masterId m)
  | _ => s.plainWrite k i v

/-! ## Reading a register (R12, R14, R169, R454) -/

/-- The top 16 bits of the PHC's fraction go into a master's shadow (R169). -/
def State.captureFrac (s : State) (m : Master) : State :=
  { s with time := { s.time with fracCap := sparseSet 0 s.time.fracCap (masterNo m) (s.time.frac / 2 ^ 32) } }

/-- What a register reads for a master, and the state after: RC bits clear, but not for the debug master. -/
def State.readReg (s : State) (m : Master) (k : RegKind) (i : Nat) : Nat × State :=
  match k with
  | .EVR_WINDOW => s.windowRead m i
  | .EVR_CURSOR => ((s.cursor m).1 * 2 ^ 24 + (s.cursor m).2, s)
  | .TIME_NOW_FRAC => (sparseGet 0 s.time.fracCap (masterNo m), s)
  | .LIE_WINDOW => (if s.lieDiag (i / 144) then s.lieWindow (i / 144) (i % 144) else 0, s)
  | .LIE_SLOT_SEL => (if s.lieDiag i then s.view k i else 0, s)
  | .LIE_CMD => (0, s)
  | .DKL_RGN_BASE => (s.regionWord (i / 16) (i % 16) 0, s)
  | .DKL_RGN_SIZE => (s.regionWord (i / 16) (i % 16) 1, s)
  | .DKL_RGN_RD => (s.regionWord (i / 64) (i / 4 % 16) (2 + i % 4), s)
  | .DKL_RGN_WR => (s.regionWord (i / 64) (i / 4 % 16) (6 + i % 4), s)
  | _ =>
    let rc := (regRow k).rc
    (s.view k i, if m = .dbg || rc = 0 then s else s.setReg k i (s.reg k i &&& ~~~(BitVec.ofNat 64 rc)))

/-! ## The two halves of a 64-bit register (R11) -/

def State.half (s : State) : Master → Master64
  | .pf0 => s.pf0Half
  | .mp => s.mpHalf
  | .dbg => s.dbgHalf

def State.setHalf (s : State) (m : Master) (x : Master64) : State :=
  match m with
  | .pf0 => { s with pf0Half := x }
  | .mp => { s with mpHalf := x }
  | .dbg => { s with dbgHalf := x }

/-- One access of 4 or 8 bytes written to the register at an address. -/
def State.writePiece (s : State) (m : Master) (a : Nat) (b : Bytes) : State :=
  match s.regAt a with
  | none => s
  | some (k, i, o) =>
    let v := leNat b
    let h := s.half m
    if (regRow k).width = 32 || b.length = 8 then s.commitReg m k i v
    else if o = 0 then s.setHalf m { h with staged := some (regKey k i, v) }
    else
      let (low, h') := match h.staged with
        | some (key, l) => if key = regKey k i then (l, { h with staged := none }) else ((s.readReg m k i).1 % 2 ^ 32, h)
        | none => ((s.readReg m k i).1 % 2 ^ 32, h)
      (s.setHalf m h').commitReg m k i (low + v * 2 ^ 32)

/-- One access of `n` bytes read at an address: the value and the state after. -/
def State.readPiece (s : State) (m : Master) (a n : Nat) : Nat × State :=
  match s.regAt a with
  | none => (0, s)
  | some (k, i, o) =>
    if (regRow k).width = 32 then s.readReg m k i
    else
      let s := if k = .TIME_NOW && o = 0 then s.captureFrac m else s
      let (v, s) := s.readReg m k i
      let h := s.half m
      if n = 8 then (v, s)
      else if o = 0 then (v % 2 ^ 32, s.setHalf m { h with shadow := some (regKey k i, v / 2 ^ 32) })
      else match h.shadow with
        | some (key, x) => if key = regKey k i then (x, s.setHalf m { h with shadow := none }) else (v / 2 ^ 32, s)
        | none => (v / 2 ^ 32, s)

/-! ## Accesses and their parts (R439, R491, R492) -/

/-- A naturally aligned 64-bit register starts at an address. -/
def State.wideAt (s : State) (a : Nat) : Bool :=
  match s.regAt a with
  | some (k, _, o) => (regRow k).width == 64 && o == 0 && a % 8 == 0
  | none => false

/-- The accesses that `n` bytes from an address make: a 64-bit register covered whole takes one, every other word its own. -/
def State.cuts (s : State) : Nat → Nat → Nat → List (Nat × Nat)
  | 0, _, _ => []
  | f + 1, a, n =>
    if n = 0 then []
    else
      let w := if 8 ≤ n && s.wideAt a then 8 else 4
      (a, w) :: s.cuts f (a + w) (n - w)

/-- The offset of an address in its target. -/
def State.offsetOf (s : State) (a : Nat) : Nat := ((s.deckleOf a).map (·.2)).getD 0

/-- What has happened so far in an access: the state, the last decision (3 at the start), whether two differed, the data
read. -/
structure Running where
  st : State
  last : Nat
  mixed : Bool
  data : Bytes

/-- One more access of deckle `k`: it is checked by itself; neighbours refused alike are one part (R439). `bus` is what the
master's address has beyond the BAR0 offset. -/
def Running.go (r : Running) (k : Nat) (m : Master) (write : Bool) (bus : Int) (data : Bytes) (a w : Nat) : Running :=
  let s := r.st
  let off := s.offsetOf a
  let d := s.decision k (masterId m) write off
  let mixed := r.mixed || (r.last != 3 && r.last != d)
  if d = 1 then
    if write then ⟨s.writePiece m a (data.take w), d, mixed, []⟩
    else
      let (v, s) := s.readPiece m a w
      ⟨s, d, mixed, r.data ++ leBytes w v⟩
  else
    let s := if r.last = d then s else s.refusePart k (masterId m) write off ((a : Int) + bus).toNat
    ⟨s, d, mixed, r.data ++ (if write then [] else List.replicate w 0)⟩

/-- The accesses of a list, one after another. -/
def Running.all (k : Nat) (m : Master) (write : Bool) (bus : Int) : Running → Bytes → List (Nat × Nat) → Running
  | r, _, [] => r
  | r, d, (a, w) :: t => Running.all k m write bus (r.go k m write bus d a w) (d.drop w) t

/-- What a master sees of an access: data of a read; the debug master also a response byte, whose value for an access that
is allowed is not given. -/
def State.answer (s : State) (m : Master) (write : Bool) (data : Bytes) (refused : Bool) : State :=
  match m with
  | .dbg =>
    if refused then s.emitLocal (.debug (leNat data) 1)
    else
      let (f, s) := s.draw
      s.emitLocal (.debug (if write then 0 else leNat data) ((f % 255 + 2) % 256))
  | _ => if write then s else s.emitLocal (.readReturn data)

/-- An access that a deckle checks now. -/
def State.runAccess (s : State) (k : Nat) (m : Master) (write : Bool) (a bus : Nat) (data : Bytes) (n : Nat) : State :=
  let r := Running.all k m write ((bus : Int) - (a : Int)) ⟨s, 3, false, []⟩ data (s.cuts 17 a n)
  let s := if r.mixed then r.st.fadd .DKL_SPLIT_COUNT k 1 else r.st
  s.answer m write r.data (r.last != 1)

/-- The master of an ID, for the accesses that are held. -/
def masterOf (m : Nat) : Master := if m = 0x1000 then .pf0 else if m = 0x2000 then .mp else .dbg

/-! ## The order of one master's accesses to a die block (R32) -/

/-- The register block of a BAR0 address: 0 to 7 the dies', 8 the package's. -/
def regBlock (a : Nat) : Nat := if 0x100000 ≤ a && a < 0x900000 then (a - 0x100000) / 0x100000 else 8

/-- The accesses that have not taken effect, with their deckles: those held, and those that wait behind one. -/
def State.waitingAccesses (s : State) : List (Nat × HeldAccess) :=
  s.dkl.flatMap (fun e => (e.2.held ++ e.2.behind).map (fun h => (e.1, h)))

/-- An access of deckle `k` must wait: an earlier one of its master to the same block has not taken effect, and is not
held by the same deckle, which keeps their order itself. -/
def State.mustWait (s : State) (k : Nat) (h : HeldAccess) : Bool :=
  s.dkl.any (fun e =>
    let earlier := fun (x : HeldAccess) => x.master == h.master && regBlock x.addr == regBlock h.addr && decide (x.no < h.no)
    (e.1 != k && e.2.held.any earlier) || e.2.behind.any earlier)

/-- An access is checked now. -/
def State.runHeld (s : State) (k : Nat) (h : HeldAccess) : State :=
  s.runAccess k (masterOf h.master) h.write h.addr h.bus h.data h.size

/-- A DKL register of a die: its accesses are not held, or an update of instance 5 could not end. -/
def inDkl (a : Nat) : Bool := decide (0x100000 ≤ a) && decide (a < 0x900000) && decide (0x60000 ≤ a % 0x100000) && decide (a % 0x100000 < 0x64000)

/-- An access before its deckle: it waits for an earlier one (R32), but for a write of an update; it is held while EN is
clear, refused when 64 are held, else checked (R441). -/
def State.atDeckle (s : State) (k : Nat) (h : HeldAccess) : State :=
  let x := s.dklAt k
  if s.mustWait k h && !(inDkl h.addr && h.write) then s.setDkl k { x with behind := x.behind ++ [h] }
  else if s.flag .DKL_CTL_EN k || inDkl h.addr then s.runHeld k h
  else if 64 ≤ x.held.length then s.holdRefused k h 2
  else (s.setHeld k (x.held ++ [h])).fadd .DKL_HELD_TOTAL_COUNT k 1

/-- An access among those before it, in their order. -/
def insertAccess (e : Nat × HeldAccess) : List (Nat × HeldAccess) → List (Nat × HeldAccess)
  | [] => [e]
  | x :: l => if x.2.no ≤ e.2.no then x :: insertAccess e l else e :: x :: l

/-- The accesses that waited for others come before their deckles again, in their order. -/
def State.drainBehind (s : State) : State :=
  let l := (s.dkl.flatMap (fun e => e.2.behind.map (fun h => (e.1, h)))).foldl (fun l e => insertAccess e l) []
  l.foldl (fun s e => s.atDeckle e.1 { e.2 with at_ := s.time.ticks }) { s with dkl := s.dkl.map (fun e => (e.1, { e.2 with behind := [] })) }

/-- EN set (R441): the held accesses are checked under the new rules in arrival order, and those that waited for them
follow. -/
def State.dklEnable (s : State) (k : Nat) : State :=
  let l := (s.dklAt k).held
  let s := (s.setHeld k []).dklMark k
  (l.foldl (fun s h => s.runHeld k h) s).drainBehind

/-- HELD_ACCESS_TIMEOUT (R441): the accesses held for 2 µs are refused. -/
def execHeldAccessTimeout (deckle dt : Nat) (s : State) : Out := .next ((s.elapse dt).holdTimeout deckle).drainBehind

/-- A write that sets EN of a deckle whose EN is clear, and which one. -/
def State.setsEn (s : State) (m : Master) (write : Bool) (a : Nat) (data : Bytes) (n : Nat) : Option Nat :=
  match s.regAt a with
  | some (.DKL_CTL, i, 0) =>
    if write && n = 4 && (data.headD 0).toNat % 2 = 1 && !s.flag .DKL_CTL_EN i &&
        s.decision (i / 8 * 8 + 5) (masterId m) true (s.offsetOf a) = 1 then some i else none
  | _ => none

/-- An access reaches its deckle. -/
def State.arrive (s : State) (m : Master) (write : Bool) (a bus : Nat) (data : Bytes) (n : Nat) : State :=
  match s.deckleOf a with
  | none => s.answer m write (List.replicate n 0) false
  | some (k, _) =>
    match s.setsEn m write a data n with
    | some i => (s.dklEnable i).answer m write [] false
    | none =>
      let no := (s.waitingAccesses.map (fun e => e.2.no + 1)).foldl max 0
      s.atDeckle k ⟨masterId m, write, a, bus, data, n, s.time.ticks, no⟩

/-! ## Integrity (R430, R435) -/

/-- One byte of the CRC-8 x⁸ + x⁵ + x³ + x² + x + 1, most significant bit first. -/
def crcByte (c : Nat) (b : Byte) : Nat :=
  (List.range 8).foldl (fun c _ => if 128 ≤ c then (c * 2 % 256) ^^^ 0x2F else c * 2) (c ^^^ b.toNat)

/-- The integrity code of a string. -/
def crc8 (b : Bytes) : Nat := (b.foldl crcByte 0xFF) ^^^ 0xFF

/-- The code of one 64-bit lane: its bytes, its address and the master ID. -/
def laneCode (m lane : Nat) (b : Bytes) : Nat := crc8 (b ++ leBytes 6 lane ++ leBytes 2 m)

/-- The bytes of an access that lie in a lane, disabled bytes as zero. -/
def laneBytes (a : Nat) (data : Bytes) (lane : Nat) : Bytes :=
  (List.range 8).map (fun i => if a ≤ lane + i then data.getD (lane + i - a) 0 else 0)

/-- Every lane of an access carries its code: lane n's in bits 8n + 7 to 8n. -/
def codesOk (m a n : Nat) (data : Bytes) (code : Nat) : Bool :=
  let l0 := a / 8 * 8
  (List.range (ceilDiv (a + n - l0) 8)).all (fun j =>
    natBits code (8 * j + 7) (8 * j) == laneCode m (l0 + 8 * j) (laneBytes a data (l0 + 8 * j)))

/-- The die of an address of BAR0. -/
def dieOfAddr (a : Nat) : Nat := if 0x100000 ≤ a && a < 0x900000 then (a - 0x100000) / 0x100000 else 0

/-- An address of a key store's block: the transfer runs on a key-store path (R430). -/
def onKeyPath (a : Nat) : Bool := decide (0x100000 ≤ a) && decide (a < 0x900000) && a % 0x100000 / 0x10000 == 9

/-- The sizes and places that BAR0 accepts (R492). -/
def readShape (a n : Nat) : Bool := (n == 4 || n == 8) && a % n == 0
def writeShape (a n : Nat) (full : Bool) : Bool :=
  full && decide (4 ≤ n) && decide (n ≤ 64) && n % 4 == 0 && a % 4 == 0 && decide (a % 4096 + n ≤ 4096)

/-- An access that BAR0 does not accept is refused as a whole (R492). -/
def State.refuseWhole (s : State) (m : Master) (write : Bool) (a n : Nat) : State :=
  let s := match s.deckleOf a with
    | none => s
    | some (k, off) => s.refusePart k (masterId m) write off a
  s.answerRefused (masterId m) write n

/-- A BAR0 access: its form, its integrity, its deckle. -/
def State.bar0 (s : State) (m : Master) (write : Bool) (a : Nat) (data : Bytes) (n : Nat) (full : Bool) (code : Nat) : State :=
  if !(if write then writeShape a n full else readShape a n) then s.refuseWhole m write a n
  else if !codesOk (masterId m) a n data code then
    (s.bicMismatch (masterId m) (a % 2 ^ 32) (dieOfAddr a) (onKeyPath a)).answerRefused (masterId m) write n
  else s.arrive m write a a data n

/-! ## BAR4 and configuration space (R74, R75, R94, R494) -/

/-- One word of the MSI-X table. -/
def State.writeMsix (s : State) (a v : Nat) : State :=
  let n := a / 16
  let h := s.host
  if a % 4 ≠ 0 || 128 ≤ a then s
  else match a % 16 / 4 with
    | 0 => { s with host := { h with vecAddr := sparseSet 0 h.vecAddr n (sparseGet 0 h.vecAddr n / 2 ^ 32 * 2 ^ 32 + v % 2 ^ 32 / 4 * 4) } }
    | 1 => { s with host := { h with vecAddr := sparseSet 0 h.vecAddr n (sparseGet 0 h.vecAddr n % 2 ^ 32 + v % 2 ^ 32 * 2 ^ 32) } }
    | 2 => { s with host := { h with vecData := sparseSet 0 h.vecData n (v % 2 ^ 32) } }
    | _ => { s with host := { h with vecMask := h.vecMask - (if h.vecMask.testBit n then 2 ^ n else 0) + v % 2 * 2 ^ n } }

/-- One word of BAR4. -/
def State.readMsix (s : State) (a : Nat) : Nat :=
  let n := a / 16
  if a < 128 then
    match a % 16 / 4 with
    | 0 => sparseGet 0 s.host.vecAddr n % 2 ^ 32
    | 1 => sparseGet 0 s.host.vecAddr n / 2 ^ 32
    | 2 => sparseGet 0 s.host.vecData n
    | _ => bit (s.host.vecMask.testBit n)
  else if a = 0x8000 then s.host.pba
  else 0

/-- A string written to BAR4 word by word. -/
def State.writeBar4 (s : State) (a : Nat) : List Bytes → State
  | [] => s
  | b :: t => (s.writeMsix a (leNat b)).writeBar4 (a + 4) t

/-- The size of a BAR, by its number (Table 03.2). -/
def barSize (n : Nat) : Nat := if n = 0 then 2 ^ 26 else if n = 2 then 2 ^ 22 else if n = 4 then 2 ^ 16 else 0

/-- A BAR register: 64-bit, non-prefetchable, its address aligned to its size (R74). -/
def State.barWord (s : State) (n : Nat) : Nat := if barSize n = 0 then 0 else sparseGet 0 s.host.bars n + 4

/-- An item of configuration space as PF0 reads it, by its number in log entry 91 (R73, R74, Table 03.1). -/
def State.readCfg (s : State) (n : Nat) : Nat :=
  let h := s.host
  match n with
  | 0 => bit h.pasidEnable
  | 1 => bit h.msixEnable
  | 2 => bit h.msixMask
  | 3 => h.ctoValue
  | 4 => Config.vendorId % 2 ^ 16
  | 5 => s.part.device
  | 6 => 0xB1
  | 7 => 0x108000
  | 8 => 5            -- link speed 32 GT/s
  | 9 => 16           -- link width
  | 10 => 512         -- Max_Payload_Size supported
  | 11 => h.mrrs
  | 12 => 1           -- 10-bit tags
  | 13 => 768         -- outstanding non-posted requests
  | 14 => bit h.busMaster
  | 15 => if h.d3hot then 3 else 0
  | 16 => 1           -- No_Soft_Reset
  | 17 => 8           -- MSI-X vectors
  | 18 => 0x0000 + 4  -- MSI-X table: BAR4 at +0x0000
  | 19 => 0x8000 + 4  -- PBA: BAR4 at +0x8000
  | 20 => 20          -- PASID width; Execute and Privileged Mode not supported
  | 21 => 1           -- AER
  | 22 => 1           -- Function Level Reset
  | 32 => s.barWord 0
  | 34 => s.barWord 2
  | 36 => s.barWord 4
  | _ => 0

/-- A setting of configuration space, by its number: 0 PASID Enable, 1 MSI-X Enable, 2 Function Mask, 3 Completion Timeout
Value, 11 Max_Read_Request_Size, 32 to 36 a BAR. -/
def State.writeCfg (s : State) (n v : Nat) : State :=
  let h := s.host
  match n with
  | 0 => { s with host := { h with pasidEnable := v % 2 == 1 } }
  | 1 => { s with host := { h with msixEnable := v % 2 == 1 } }
  | 2 => { s with host := { h with msixMask := v % 2 == 1 } }
  | 3 => { s with host := { h with ctoValue := v % 16 } }
  | 11 => if [128, 256, 512, 1024, 2048, 4096].contains v then { s with host := { h with mrrs := v } } else s
  | 32 | 34 | 36 =>
    let z := barSize (n - 32)
    { s with host := { h with bars := sparseSet 0 h.bars (n - 32) (v % 2 ^ 64 / z * z) } }
  | _ => s

/-- PF0's accesses reach the device outside PERST_N; its BARs answer in D0 only. Any other master has power alone. -/
def State.reaches (s : State) (m : Master) (sp : Space) : Bool :=
  !s.onVbat && (m != .pf0 || (!s.host.perst && (sp == .cfg || !s.host.d3hot)))

/-- REGISTER_WRITE (R12, R491, R492): only PF0 reaches the spaces other than BAR0. -/
def execRegisterWrite (master : Master) (space : Space) (addr : Nat) (data : Bytes) (full : Bool) (code : Nat) (s : State) : Out :=
  if !s.reaches master space then .next s
  else match space with
    | .bar0 => .next (s.bar0 master true addr data data.length full code)
    | .bar2 => .next (if master = .pf0 then s.doorbell addr data else s)
    | .bar4 => .next (if master = .pf0 then s.writeBar4 addr (pieces 4 data) else s)
    | .cfg => .next (if master = .pf0 then s.writeCfg addr (leNat data) else s)

/-- RC_REGISTER_READ (R12, R14, R491): a read of a register; its RC fields clear. A doorbell page reads as zero (R83). -/
def execRcRegisterRead (master : Master) (space : Space) (addr size code : Nat) (s : State) : Out :=
  if !s.reaches master space then .next s
  else match space with
    | .bar0 => .next (s.bar0 master false addr [] size true code)
    | .bar4 =>
      .next (if master = .pf0 then
        s.emitLocal (.readReturn ((List.range (ceilDiv size 4)).flatMap (fun i => leBytes 4 (s.readMsix (addr + 4 * i))))) else s)
    | .bar2 => .next (if master = .pf0 then s.emitLocal (.readReturn (List.replicate size 0)) else s)
    | .cfg => .next (if master = .pf0 then s.emitLocal (.readReturn (leBytes size (s.readCfg addr))) else s)

/-- TIME_NOW_CAPTURE_READ (R169): a 64-bit read of TIME_NOW, or one of its low half. -/
def execTimeNowCaptureRead (master : Master) (wide : Bool) (s : State) : Out :=
  .next (if s.reaches master .bar0 then s.arrive master false 0x30008 0x30008 [] (if wide then 8 else 4) else s)

/-! ## Engines in DIAG (R252, R253) -/

/-- LIE_SLOT_WORDS_WRITE: PF0 or the MP writes LIE_CFG of an engine in DIAG. -/
def execLieSlotWordsWrite (master : Master) (engine value : Nat) (s : State) : Out :=
  .next (if 2 * s.dies ≤ engine then s
    else s.arrive master true (bar0Of (engine / 2 * 8 + 3 + engine % 2) 0) (bar0Of (engine / 2 * 8 + 3 + engine % 2) 0) (leBytes 4 value) 4)

/-- A write to LIE_CMD with a code. -/
def State.writeLieCmd (s : State) (m : Master) (k code size base : Nat) : State :=
  if 2 * s.dies ≤ k then s
  else
    let a := bar0Of (k / 2 * 8 + 3 + k % 2) 0xC
    s.arrive m true a a (leBytes 4 (code + size % 8 * 2 ^ 8 + base % 2 ^ 11 * 2 ^ 12)) 4

/-- DIRECT_RSA_PRIVATE. -/
def execDirectRsaPrivate (master : Master) (engine size base : Nat) (s : State) : Out :=
  .next (s.writeLieCmd master engine 0x01 size base)

/-- DIRECT_RSA_PUBLIC. -/
def execDirectRsaPublic (master : Master) (engine size base : Nat) (s : State) : Out :=
  .next (s.writeLieCmd master engine 0x02 size base)

/-- DIRECT_ECDSA_KEYGEN. -/
def execDirectEcdsaKeygen (master : Master) (engine size base : Nat) (s : State) : Out :=
  .next (s.writeLieCmd master engine 0x11 size base)

/-- DIRECT_ECDSA_SIGN. -/
def execDirectEcdsaSign (master : Master) (engine size base : Nat) (s : State) : Out :=
  .next (s.writeLieCmd master engine 0x12 size base)

/-- DIRECT_ECDSA_VERIFY. -/
def execDirectEcdsaVerify (master : Master) (engine size base : Nat) (s : State) : Out :=
  .next (s.writeLieCmd master engine 0x13 size base)

/-- DIRECT_ECDH. -/
def execDirectEcdh (master : Master) (engine size base : Nat) (s : State) : Out :=
  .next (s.writeLieCmd master engine 0x14 size base)

/-- DIRECT_EDDSA_KEYGEN. -/
def execDirectEddsaKeygen (master : Master) (engine size base : Nat) (s : State) : Out :=
  .next (s.writeLieCmd master engine 0x21 size base)

/-- DIRECT_EDDSA_SIGN. -/
def execDirectEddsaSign (master : Master) (engine size base : Nat) (s : State) : Out :=
  .next (s.writeLieCmd master engine 0x22 size base)

/-- DIRECT_EDDSA_VERIFY. -/
def execDirectEddsaVerify (master : Master) (engine size base : Nat) (s : State) : Out :=
  .next (s.writeLieCmd master engine 0x23 size base)

/-- DIRECT_X_KEYGEN. -/
def execDirectXKeygen (master : Master) (engine size base : Nat) (s : State) : Out :=
  .next (s.writeLieCmd master engine 0x31 size base)

/-- DIRECT_X_DERIVE. -/
def execDirectXDerive (master : Master) (engine size base : Nat) (s : State) : Out :=
  .next (s.writeLieCmd master engine 0x32 size base)

/-! ## Rule updates (R441) -/

/-- Who writes the DKL registers of a die: the MP and its die agent. -/
def dklWriter (k writer : Nat) : Bool := writer == 0x2000 || writer == 0x3000 + k / 8

/-- A DKL register write by a master ID: anyone but the writers is refused by instance 5. -/
def State.dklBy (s : State) (k writer off : Nat) (f : State → State) : State :=
  if !s.hasDeckle k || k % 8 = 7 then s
  else if dklWriter k writer then f s
  else s.refusePart (k / 8 * 8 + 5) writer true (0x60000 + 0x800 * (k % 8) + off) (dieBlock (k / 8) + 0x60000 + 0x800 * (k % 8) + off)

/-- DKL_DISABLE. -/
def execDklDisable (deckle writer : Nat) (s : State) : Out :=
  .next (s.dklBy deckle writer 0 (fun s => s.dklDisable deckle))

/-- DKL_ENABLE. -/
def execDklEnable (deckle writer : Nat) (s : State) : Out :=
  .next (s.dklBy deckle writer 0 (fun s => if s.flag .DKL_CTL_EN deckle then s else s.dklEnable deckle))

/-- DKL_REGION_WRITE: word 0 base, 1 size, 2 to 5 read entries, 6 to 9 write entries. -/
def execDklRegionWrite (deckle region word value writer : Nat) (s : State) : Out :=
  .next (if 16 ≤ region || 10 ≤ word then s
    else s.dklBy deckle writer (0x100 + 0x40 * region + (if word < 2 then 4 * word else 0x10 + 4 * (word - 2)))
      (fun s => s.dklRegion deckle region word value writer))

/-! ## DBG_ACCESS (R386, R404, R412, R414) -/

/-- A denied debug access: event 0x2012, zero data, response 0x01 (R414, Table 16.4). -/
def State.debugDenied (s : State) (addr : Nat) (write : Bool) : State :=
  (s.event 0x2012 6 0 0 (addr % 2 ^ 32) (addr / 2 ^ 32 % 2 ^ 16) (if write then 2 else 1)).emitLocal (.debug 0 1)

/-- Four bytes of a memory read or written. -/
def wordAccess (m : Memory) (a : Nat) (write : Bool) (data : Nat) : Memory := if write then memWrite 0 m a (leBytes 4 data) else m

/-- Bytes of an operand store that the debug master is denied: SECRET segments and share records (Table 14.10). -/
def VCore.debugSecret (c : VCore) (a : Nat) : Bool :=
  (List.range 4).any (fun i =>
    c.segs.any (fun g => g.secret && decide (g.base ≤ a + i) && decide (a + i < g.base + g.size)) ||
      (sparseGet (0, 0) c.recs ((a + i) / 512)).1 != 0)

/-- A vendor setting of the OTP, programmed once in BLANK or TEST (Table 14.4). -/
def State.programVendor (s : State) (n : Nat) (v : Bytes) : State :=
  let o := s.otp
  if !s.otpGood then s
  else match n with
  | 0 => if o.deviceId.isEmpty then { s with otp := { o with deviceId := sliceZ v 0 16 } } else s
  | 1 => if o.imageHash.isEmpty then { s with otp := { o with imageHash := sliceZ v 0 48 } } else s
  | 2 => if o.vendorDebug.isEmpty then { s with otp := { o with vendorDebug := sliceZ v 0 48 } } else s
  | 3 =>
    if o.floor.isEmpty then
      { s with otp := { o with floor := (List.range 26).foldl (fun f x => sparseSet 0 f x (byteAt v x % 32)) [] } }
    else s
  | _ => s

/-- A unit is halted or resumed (R412). -/
def State.haltUnit (s : State) (u : Nat) (halt : Bool) : State :=
  let l := s.tap.halted.filter (· != u)
  { s with tap := { s.tap with halted := if halt then u :: l else l } }

/-- DBG_ACCESS beyond the register space: what the level allows. -/
def State.debugAccess (s : State) (addr : Nat) (t : DbgTarget) (write : Bool) (data : Nat) : State :=
  let lv := s.fget .DBG_STATE_LEVEL 0
  let done := fun (s : State) => s.answer .dbg true [] false
  match t with
  | .register a =>
    if a % 4 ≠ 0 then s.debugDenied addr write
    else s.arrive .dbg write a addr (leBytes 4 data) 4
  | .denied => s.debugDenied addr write
  | .shared cl a =>
    let k := cl / 2 * 8 + 1 + cl % 2
    if 2 * s.dies ≤ cl || 2 ^ 22 < a + 4 then done s
    else if s.decision k 0xC000 write a ≠ 1 then (s.refusePart k 0xC000 write a addr).emitLocal (.debug 0 1)
    else
      let m := sparseGet [] s.shared cl
      ({ s with shared := sparseSet [] s.shared cl (wordAccess m a write data) }).answer .dbg write (memRead 0 m a 4) false
  | .store v a =>
    let c := s.core v
    if 16 * s.dies ≤ v || 2 ^ 18 < a + 4 then done s
    else if lv < 2 || c.debugSecret a then s.debugDenied addr write
    else (s.setCore v { c with mem := wordAccess c.mem a write data }).answer .dbg write (memRead 0 c.mem a 4) false
  | .otp n v =>
    if write && lv = 3 && (s.lcs = lcBlank || s.lcs = lcTest) then done (s.programVendor n v) else s.debugDenied addr write
  | .core v => if 2 ≤ lv && v < 16 * s.dies then done (s.haltUnit v (write && data % 2 == 1)) else s.debugDenied addr write
  | .engine k => if 2 ≤ lv && k < 2 * s.dies then done (s.haltUnit (256 + k) (write && data % 2 == 1)) else s.debugDenied addr write
  | .agent d => if 2 ≤ lv && d < s.dies then done (s.haltUnit (512 + d) (write && data % 2 == 1)) else s.debugDenied addr write

/-- DBG_ACCESS: at level 0 it acts as BYPASS. -/
def execDbgAccess (address : Nat) (target : DbgTarget) (write : Bool) (data : Nat) (s : State) : Out :=
  .next (s.tap? 0x13 (s.fget .DBG_STATE_LEVEL 0 != 0) (fun s => s.debugAccess address target write data))

end Sys2Proof.Machine
end

