-- ==== Sys2Proof/Machine/VecArith.lean ====
section
/-!
DEFINITION. The arithmetic of kernel instructions: elementwise, compare, multiply, dot product, carry-less, permute,
bit, move, predicate, modulus and butterfly forms (R179 to R184).
-/

namespace Sys2Proof.Machine

/-- Every width. -/
def allW : List Nat := [0, 1, 2, 3]

/-! ## Elementwise forms (R179) -/

/-- VD = g(VA, VB), element by element. -/
def vBin (cyc : Nat) (ws : List Nat) (g : Nat → Nat → Nat → Nat) : VOp := fun f e c =>
  vcheck f [.w, .pred, .vd, .va, .vb] ws
    (vecOut f e c cyc f.w [c.vtag f.va, c.vtag f.vb]
      (packV f.w (fun i => g (eBits f.w) (elem f.w (c.vreg f.va) i) (elem f.w (c.vreg f.vb) i))))

/-- VD = g(VA), element by element. -/
def vUn (cyc : Nat) (ws : List Nat) (g : Nat → Nat → Nat) : VOp := fun f e c =>
  vcheck f [.w, .pred, .vd, .va] ws
    (vecOut f e c cyc f.w [c.vtag f.va] (packV f.w (fun i => g (eBits f.w) (elem f.w (c.vreg f.va) i))))

/-- VD = g(VA, IMM), element by element. -/
def vImm (cyc : Nat) (ws : List Nat) (g : Nat → Nat → Nat → Nat) : VOp := fun f e c =>
  vcheck f [.w, .pred, .vd, .va, .imm] ws
    (vecOut f e c cyc f.w [c.vtag f.va] (packV f.w (fun i => g (eBits f.w) (elem f.w (c.vreg f.va) i) f.imm)))

/-- Shifts and rotates by IMM[5:0]. -/
def vShift (g : Nat → Nat → Nat → Nat) : VOp := vImm 1 allW (fun n a k => g n a (k % 64))

/-- `a - b` modulo 2^n. -/
def subW (n a b : Nat) : Nat := (a + (2 ^ n - b % 2 ^ n)) % 2 ^ n

/-- Shifts and rotates of an element of `n` bits; amounts at or above `n` give zero or sign fill (R179). -/
def sllW (n a k : Nat) : Nat := if n ≤ k then 0 else (a <<< k) % 2 ^ n
def srlW (n a k : Nat) : Nat := if n ≤ k then 0 else a >>> k
def sraW (n a k : Nat) : Nat := unsignedOf n (signedOf n a / ((2 ^ min k n : Nat) : Int))
def rolW (n a k : Nat) : Nat :=
  let r := k % n
  if r = 0 then a else ((a <<< r) % 2 ^ n) ||| (a >>> (n - r))

/-- Minimum or maximum by a comparison. -/
def pick (c : Bool) (a b : Nat) : Nat := if c then a else b

/-- VSEL: VD = P[PRED] ? VA : VB, PEN clear (R179). P[PRED] is a source of the tag only when PEN is 1 (R189), so here it
is none. -/
def vSel : VOp := fun f e c =>
  if f.pen = 1 || f.zm = 1 then .fault cField
  else
    vcheck f [.w, .pred, .vd, .va, .vb] allW
      (let src := [c.vtag f.va, c.vtag f.vb]
       if clash src then .fault cShares
       else .plain (c.setV f.vd (packV f.w (fun i =>
          if (c.preg f.pred).testBit (i * eBytes f.w) then elem f.w (c.vreg f.va) i else elem f.w (c.vreg f.vb) i))
          (formTag src)) e 1)

/-- A compare to P[VD[2:0]]. -/
def vCmp (g : Nat → Nat → Nat → Bool) : VOp := fun f e c =>
  vcheck f [.w, .pred, .vd, .va, .vb] allW
    (predOut f e c 1 f.w [c.vtag f.va, c.vtag f.vb]
      (fun i => g (eBits f.w) (elem f.w (c.vreg f.va) i) (elem f.w (c.vreg f.vb) i)))

/-- VMULL: 1 cycle at widths 0 to 2, 4 at width 3. -/
def vMull : VOp := fun f e c => vBin (if f.w = 3 then 4 else 1) allW (fun _ a b => a * b) f e c

/-- The product of two elements read signed, as a number of `m` bits. -/
def mulS (n m a b : Nat) : Nat := unsignedOf m (signedOf n a * signedOf n b)

/-- Widening multiplies: element `2i + odd` of VA and VB into element `i` of twice the width. -/
def vWiden (odd : Nat) (signed : Bool) : VOp := fun f e c =>
  vcheck f [.w, .pred, .vd, .va, .vb] [1, 2]
    (vecOut f e c 2 (f.w + 1) [c.vtag f.va, c.vtag f.vb]
      (packV (f.w + 1) (fun i =>
        let a := elem f.w (c.vreg f.va) (2 * i + odd)
        let b := elem f.w (c.vreg f.vb) (2 * i + odd)
        if signed then mulS (eBits f.w) (eBits (f.w + 1)) a b else a * b)))

/-- A result that adds to VD. The old VD is a source of the tag only when merging (R189). -/
def accOut (f : VFields) (e : VEnv) (c : VCore) (cyc : Nat) (g : Nat → Nat → Nat) : VRes :=
  vecOut f e c cyc f.w [c.vtag f.va, c.vtag f.vb]
    (packV f.w (fun i => g i (elem f.w (c.vreg f.vd) i)))

/-- VMACL: VD + low bits of VA × VB. -/
def vMacl : VOp := fun f e c =>
  vcheck f [.w, .pred, .vd, .va, .vb] [0, 1, 2]
    (accOut f e c 2 (fun i d => d + elem f.w (c.vreg f.va) i * elem f.w (c.vreg f.vb) i))

/-- Dot products (R180): each element of VD at width `w` gains the products of its `n` parts of width `u`. -/
def vDot (w u n : Nat) (signed : Bool) : VOp := fun f e c =>
  vcheck f [.w, .pred, .vd, .va, .vb] [w]
    (accOut f e c 2 (fun i d =>
      (List.range n).foldl (fun s k =>
        let a := elem u (c.vreg f.va) (n * i + k)
        let b := elem u (c.vreg f.vb) (n * i + k)
        (s + (if signed then mulS (eBits u) (eBits w) a b else a * b)) % 2 ^ eBits w) d))

/-- Carry-less product of two numbers, by the bits of the second. -/
def clmul (a b : Nat) : Nat → Nat
  | 0 => 0
  | n + 1 => clmul a b n ^^^ (if b.testBit n then a <<< n else 0)

/-- VCLMUL and VCLMULX (R180). -/
def vClmul (acc : Bool) : VOp := fun f e c =>
  vcheck f [.w, .pred, .vd, .va, .vb] [3]
    (let prod := fun i => clmul (elem 3 (c.vreg f.va) i) (elem 3 (c.vreg f.vb) i) 64
     let old := fun r i => if acc then elem 3 (c.vreg r) i else 0
     pairOut f e c 4 3 [c.vtag f.va, c.vtag f.vb]
      (packV 3 (fun i => (prod i % 2 ^ 64) ^^^ old f.vd i)) (packV 3 (fun i => (prod i >>> 64) ^^^ old (f.vd + 1) i)))

/-! ## Permutes and bit forms (R181) -/

/-- VD[i] from VA and VB by place. -/
def vPlace (cyc : Nat) (g : Nat → Nat → VReg → VReg → Nat) : VOp := fun f e c =>
  vcheck f [.w, .pred, .vd, .va, .vb] allW
    (vecOut f e c cyc f.w [c.vtag f.va, c.vtag f.vb] (packV f.w (fun i => g f.w i (c.vreg f.va) (c.vreg f.vb))))

/-- Slides by `k` elements. -/
def slide (up : Bool) (w k : Nat) (x : VReg) (i : Nat) : Nat :=
  if up then (if i < k then 0 else elem w x (i - k)) else (if i + k < eCount w then elem w x (i + k) else 0)

/-- VSLIDEUP and VSLIDEDN by IMM. -/
def vSlideI (up : Bool) : VOp := fun f e c =>
  vcheck f [.w, .pred, .vd, .va, .imm] allW
    (vecOut f e c 1 f.w [c.vtag f.va] (packV f.w (slide up f.w f.imm (c.vreg f.va))))

/-- VSLIDEUPS and VSLIDEDNS by SS. -/
def vSlideS (up : Bool) : VOp := fun f e c =>
  vcheck f [.w, .pred, .vd, .va, .ss] allW
    (vecOut f e c 1 f.w [c.vtag f.va, c.stag f.ss] (packV f.w (slide up f.w (c.sreg f.ss).toNat (c.vreg f.va))))

/-- Element IMM of VA; an index past the last element names none, and the value is free. -/
def elemImm (f : VFields) (e : VEnv) (c : VCore) : Nat :=
  if f.imm < eCount f.w then elem f.w (c.vreg f.va) f.imm else Config.freeNat e.free % 2 ^ eBits f.w

/-- A result that may have drawn one free value. -/
def VRes.used (r : VRes) (n : Nat) : VRes :=
  match r with
  | .done c free sh cyc d => .done c (free + n) sh cyc d
  | x => x

/-- VBCAST. -/
def vBcast : VOp := fun f e c =>
  vcheck f [.w, .pred, .vd, .va, .imm] allW
    ((vecOut f e c 1 f.w [c.vtag f.va] (packV f.w (fun _ => elemImm f e c))).used 1)

/-- VTR32: in each group of 32 lanes, bit j of lane i moves to bit i of lane j. -/
def transpose32 (x : VReg) (lane : Nat) : Nat :=
  let g := lane / 32 * 32
  let j := lane % 32
  (List.range 32).foldr (fun i a => a * 2 + bitAt (elem 2 x (g + i)) j) 0
where
  /-- Bit `j` of a number. -/
  bitAt (n j : Nat) : Nat := (n >>> j) % 2

/-- VTR8: in each 64-bit element, bit j of byte k moves to bit k of byte j. -/
def transpose8 (x : Nat) : Nat :=
  (List.range 64).foldr (fun b a => a * 2 + (x >>> (8 * (b % 8) + b / 8)) % 2) 0

/-- Bit reversal within `n` bits. -/
def bitRev (n x : Nat) : Nat := (List.range n).foldr (fun b a => a * 2 + (x >>> (n - 1 - b)) % 2) 0

/-- VTR32. -/
def vTr32 : VOp := fun f e c =>
  vcheck f [.w, .pred, .vd, .va] [2] (vecOut f e c 4 2 [c.vtag f.va] (packV 2 (transpose32 (c.vreg f.va))))

/-- VBITSEL: (VC & VA) | (~VC & VB). -/
def vBitsel : VOp := fun f e c =>
  vcheck f [.w, .pred, .vd, .va, .vb, .vc] allW
    (let m := c.vreg f.vc
     vecOut f e c 1 f.w [c.vtag f.va, c.vtag f.vb, c.vtag f.vc] ((m &&& c.vreg f.va) ||| (~~~m &&& c.vreg f.vb)))

/-! ## Moves and predicates (R181, R189) -/

/-- VMOVI. -/
def vMovi : VOp := fun f e c =>
  vcheck f [.w, .pred, .vd, .imm] allW (vecOut f e c 1 f.w [] (packV f.w (fun _ => unsignedOf (eBits f.w) f.simm)))

/-- VMOVS. -/
def vMovs : VOp := fun f e c =>
  vcheck f [.w, .pred, .vd, .ss] allW
    (vecOut f e c 1 f.w [c.stag f.ss] (packV f.w (fun _ => (c.sreg f.ss).toNat)))

/-- VEXT. -/
def vExt : VOp := fun f e c =>
  vcheck f [.w, .vd, .va, .imm] allW ((scalarOut f e c 1 [c.vtag f.va] (elemImm f e c)).used 1)

/-- VINS: other elements kept; an index past the last element names none. The old VD is a source of the tag only when merging
(R189). -/
def vIns : VOp := fun f e c =>
  vcheck f [.w, .pred, .vd, .ss, .imm] allW
    (vecOut f e c 1 f.w [c.stag f.ss]
      (packV f.w (fun i => if i = f.imm then (c.sreg f.ss).toNat else elem f.w (c.vreg f.vd) i)))

/-- VZERO: the register and its tag are cleared. -/
def vZero : VOp := fun f e c => vcheck f [.w, .vd] [0] (.plain (c.setV f.vd 0 VTag.clear) e 1)

/-- Predicate logic: P[VD] from P[VA] and P[VB]. -/
def pBin (un : Bool) (g : Bool → Bool → Bool) : VOp := fun f e c =>
  vcheck f (if un then [.w, .vd, .va] else [.w, .vd, .va, .vb]) [0]
    (if 8 ≤ f.vd || 8 ≤ f.va || 8 ≤ f.vb then .fault cField
     else .plain (c.setP f.vd (packP 0 (fun i => g ((c.preg f.va).testBit i) ((c.preg f.vb).testBit i)))
        (c.ptag f.va || (!un && c.ptag f.vb))) e 1)

/-- PSET: the first IMM elements active, T cleared. -/
def pSet : VOp := fun f e c =>
  vcheck f [.w, .vd, .imm] allW
    (if 8 ≤ f.vd then .fault cField else .plain (c.setP f.vd (packP f.w (fun i => i < f.imm)) false) e 1)

/-- PCNT: the count of active elements of P[VA]. -/
def pCnt : VOp := fun f e c =>
  vcheck f [.w, .vd, .va] allW
    (if 8 ≤ f.va then .fault cField
     else scalarOut f e c 1 [⟨c.ptag f.va, 0, 0⟩]
        ((List.range (eCount f.w)).countP (fun i => (c.preg f.va).testBit (i * eBytes f.w))))

/-! ## Modulus registers (R182) -/

/-- −q⁻¹ modulo 2³² for odd q, by four Newton steps. -/
def negInv32 (q : Nat) : Nat :=
  let x := (List.range 4).foldl (fun x _ => x * (2 ^ 33 + 2 - (q * x) % 2 ^ 32) % 2 ^ 32) q
  (2 ^ 32 - x % 2 ^ 32) % 2 ^ 32

/-- A modulus register from q (Table 06.7). -/
def modulusOf (q : Nat) : Nat :=
  let i := negInv32 q
  q + i * 2 ^ 32 + (i % 2 ^ 16) * 2 ^ 64 + (if q < 2 ^ 15 then 2 ^ 32 % q else 0) * 2 ^ 80 + (2 ^ 64 % q) * 2 ^ 96 +
    (2 ^ 32 / q) * 2 ^ 128 + (2 ^ 64 / q) * 2 ^ 160

/-- QSET (R182). -/
def qSet : VOp := fun f e c =>
  vcheck f [.qs, .ss] [0]
    (let q := (c.sreg f.ss).toNat
     if (c.stag f.ss).t then .fault cCount
     else if q % 2 = 0 || q < 3 || 2 ^ 31 ≤ q then .fault cModulus
     else .plain { c with q := sparseSet 0 c.q f.qs (modulusOf q) } e 40)

/-- The fields of a modulus register by QRD index: lowest bit and width. -/
def qField : Nat → Nat × Nat
  | 0 => (0, 32) | 1 => (32, 32) | 2 => (64, 16) | 3 => (80, 16) | 4 => (96, 32) | 5 => (128, 32) | 6 => (160, 64)
  | _ => (224, 0)

/-- QRD: field IMM[2:0], zero-extended, public. -/
def qRd : VOp := fun f e c =>
  vcheck f [.vd, .qs, .imm] [0]
    (let (lo, n) := qField (f.imm % 8)
     .plain (c.setS f.vd (BitVec.ofNat 64 ((c.qreg f.qs >>> lo) % 2 ^ n)) VTag.clear) e 1)

/-- q of Q[QS]. -/
def VCore.modq (c : VCore) (f : VFields) : Nat := c.qreg f.qs % 2 ^ 32

/-- The modulus is zero or too wide for the width (R183). -/
def badModulus (w q : Nat) : Bool := q == 0 || (w == 1 && 2 ^ 15 ≤ q) || (w == 2 && 2 ^ 31 ≤ q)

/-- A · B · R⁻¹ mod q with R = 2^n, by Montgomery reduction. -/
def montMul (n q a b : Nat) : Nat :=
  let t := a * b
  let m := (t % 2 ^ n) * (negInv32 q % 2 ^ n) % 2 ^ n
  ((t + m * q) / 2 ^ n) % q

/-- `a - b` modulo q. -/
def modSub (q a b : Nat) : Nat := (a % q + (q - b % q)) % q

/-- A modular form: g(bits, q, a, b). -/
def mBin (cyc : Nat) (g : Nat → Nat → Nat → Nat → Nat) : VOp := fun f e c =>
  vcheck f [.w, .pred, .vd, .va, .vb, .qs] [1, 2]
    (if badModulus f.w (c.modq f) then .fault cModulus
     else vecOut f e c cyc f.w [c.vtag f.va, c.vtag f.vb]
      (packV f.w (fun i => g (eBits f.w) (c.modq f) (elem f.w (c.vreg f.va) i) (elem f.w (c.vreg f.vb) i))))

/-- A modular form of one source. -/
def mUn (cyc : Nat) (g : Nat → Nat → Nat → Nat) : VOp := fun f e c =>
  vcheck f [.w, .pred, .vd, .va, .qs] [1, 2]
    (if badModulus f.w (c.modq f) then .fault cModulus
     else vecOut f e c cyc f.w [c.vtag f.va]
      (packV f.w (fun i => g (eBits f.w) (c.modq f) (elem f.w (c.vreg f.va) i))))

/-- MCENTER: the residue mapped to (−q/2, q/2]. -/
def centre (n q a : Nat) : Nat :=
  let r := a % q
  if q < 2 * r then unsignedOf n ((r : Int) - (q : Int)) else r

/-- Butterflies across registers (R184). -/
def vButterfly (gs : Bool) : VOp := fun f e c =>
  vcheck f [.w, .pred, .vd, .va, .vb, .vc, .qs] [1, 2]
    (let q := c.modq f
     let n := eBits f.w
     let a := elem f.w (c.vreg f.va)
     let b := elem f.w (c.vreg f.vb)
     let k := elem f.w (c.vreg f.vc)
     if badModulus f.w q then .fault cModulus
     else pairOut f e c 3 f.w [c.vtag f.va, c.vtag f.vb, c.vtag f.vc]
      (packV f.w (fun i => if gs then (a i + b i) % q else (a i + montMul n q (b i) (k i)) % q))
      (packV f.w (fun i => if gs then montMul n q (modSub q (a i) (b i)) (k i)
                           else modSub q (a i) (montMul n q (b i) (k i)))))

/-- In-register butterflies: pairs (j, j + d), the twiddle from VB[j] (R184). -/
def vButterflyIn (gs : Bool) : VOp := fun f e c =>
  vcheck f [.w, .pred, .vd, .va, .vb, .qs, .imm] [1, 2]
    (let q := c.modq f
     let n := eBits f.w
     let d := 2 ^ (f.imm % 8)
     let a := elem f.w (c.vreg f.va)
     let k := elem f.w (c.vreg f.vb)
     if badModulus f.w q then .fault cModulus
     else if eCount f.w ≤ d then .fault cUnit
     else vecOut f e c 3 f.w [c.vtag f.va, c.vtag f.vb]
      (packV f.w (fun i =>
        if i / d % 2 = 0 then
          (if gs then (a i + a (i + d)) % q else (a i + montMul n q (a (i + d)) (k i)) % q)
        else
          (let j := i - d
           if gs then montMul n q (modSub q (a j) (a i)) (k j) else modSub q (a j) (montMul n q (a i) (k j))))))

end Sys2Proof.Machine
end

