-- ==== Sys2Proof/Machine/VecUnit.lean ====
section
/-!
DEFINITION. The hash, AES and mask units of a vector core (R185, R186, R256 to R259).
-/

namespace Sys2Proof.Machine

/-! ## Share sets as operands (R186, R191, R192) -/

/-- The tags of `n` vector registers from `r`. -/
def VCore.vtags (c : VCore) (r n : Nat) : List VTag := (regRange r n).map c.vtag

/-- The fault of a share set of `n` vector registers at `r`, if it has one: placement, a set of fewer shares than an
ORDER 2 kernel demands, or a malformed set (R178, R191, R192). -/
def VCore.setFault (c : VCore) (r n : Nat) : Option Nat :=
  if 32 < r + n then some cPlace
  else if setOk (c.vtags r n) then none
  else if c.order == 2 && n == 3 && setOk (c.vtags r 2) then some cOrder
  else some cSet

/-- The exclusive or of `n` registers from `r`. -/
def VCore.xorSet (c : VCore) (r n : Nat) : VReg := (regRange r n).foldl (fun a k => a ^^^ c.vreg k) 0

/-- The value that a unit instruction takes in VA with its tag, or its fault: one register, or with MSK a share set
that the unit folds (R186). Under a declared order of 2 the set has three shares (R192). -/
def unitValue (f : VFields) (c : VCore) : Except Nat (VReg × Bool) :=
  if f.msk then
    if c.order = 2 && f.ord = 0 then .error cOrder
    else match c.setFault f.va f.shares with
      | some x => .error x
      | none => .ok (c.xorSet f.va f.shares, true)
  else .ok (c.vreg f.va, (c.vtag f.va).t)

/-- Mask bits that an input draws: 4,096 per register with MSK. -/
def unitDraw (f : VFields) : Nat := if f.msk then 4096 * f.shares else 0

/-- A unit instruction's field list: ORD belongs to MSK where it takes a share set. -/
def unitFields (f : VFields) (base : List VF) : List VF := base ++ [.msk] ++ (if f.msk then [.ord] else [])

/-- A unit result into VD: with MSK a new two-share group in VD and VD + 1, otherwise one register (R186). -/
def unitOut (f : VFields) (e : VEnv) (c : VCore) (cyc : Nat) (tag : Bool) (x : VReg) : VRes :=
  if f.msk then
    if 32 < f.vd + 2 then .fault cPlace
    else
      let m := freeReg e.free
      let gid := c.newGid (e.free + 1) (regRange f.vd 2)
      .done ((c.setShares f.vd gid [m, x ^^^ m] 0).setDom gid (0, 0, 0)) (e.free + 2) e.shared cyc 0
  else .plain (c.setV f.vd x ⟨tag, 0, 0⟩) e cyc

/-! ## SHA-2 (Table 06.10) -/

/-- SHA-2 functions by the code of S2INIT. -/
def s2Fn : Nat → Sha2
  | 0 => .sha224 | 1 => .sha256 | 2 => .sha384 | 3 => .sha512 | _ => .sha512t256

/-- Unit time of one block. -/
def s2Time (h : Sha2) : Nat := if h.block = 64 then 32 else 40

/-- A compressor in the initial state of a function. -/
def s2Start (fn : Nat) : HashUnit := { HashUnit.empty with live := true, fn := fn, h := (s2Fn fn).init }

/-- Bytes absorbed: the unit, and the blocks compressed. -/
def HashUnit.s2Absorb (u : HashUnit) (b : Bytes) : HashUnit × Nat :=
  let k := (s2Fn u.fn).block
  let all := u.buf ++ b
  let n := all.length / k
  ({ u with h := sha2Absorb (s2Fn u.fn).word u.h (all.take (n * k)), buf := all.drop (n * k),
            count := (u.count + b.length) % 2 ^ 64 }, n)

/-- The digest at finish, padded from the count alone (R256). -/
def HashUnit.s2Digest (u : HashUnit) : Bytes := sha2Finish (s2Fn u.fn) u.h (u.count - u.buf.length) u.buf

/-- Blocks that padding completes. -/
def HashUnit.s2PadBlocks (u : HashUnit) : Nat :=
  let k := (s2Fn u.fn).block
  ceilDiv (u.buf.length + 1 + k / 8) k

/-- A compressor of the core. -/
def VCore.s2u (c : VCore) (i : Nat) : HashUnit := sparseGet HashUnit.empty c.s2 i
def VCore.setS2 (c : VCore) (i : Nat) (u : HashUnit) : VCore := { c with s2 := sparseSet HashUnit.empty c.s2 i u }

/-- Cycles until a unit is free. -/
def VCore.waitFor (c : VCore) (t : Nat) : Nat := t - c.cycles

/-- S2INIT. -/
def s2Init : VOp := fun f e c =>
  vcheck f [.imm] [0]
    (let i := f.imm % 4
     let fn := f.imm / 4 % 8
     let w := c.waitFor (c.s2u i).doneAt
     if 4 < fn then .fault cUnit
     else .plain (c.setS2 i { s2Start fn with doneAt := c.cycles + w + 1 }) e (w + 1))

/-- The byte count of an absorb or squeeze in S[SS], or its fault (R185). -/
def byteCountOf (f : VFields) (c : VCore) : Except Nat Nat :=
  if (c.stag f.ss).t then .error cCount
  else if 512 < (c.sreg f.ss).toNat then .error cUnit
  else .ok (c.sreg f.ss).toNat

/-- S2ABS. -/
def s2Abs : VOp := fun f e c =>
  vcheck f (unitFields f [.va, .ss, .imm]) [0]
    (let i := f.imm % 4
     let u := c.s2u i
     match byteCountOf f c with
     | .error x => .fault x
     | .ok n =>
       if !u.live then .fault cUnit
       else match unitValue f c with
        | .error x => .fault x
        | .ok (x, t) =>
          drawing e (unitDraw f)
            (let w := c.waitFor u.doneAt
             let (u', k) := u.s2Absorb ((vBytes x).take n)
             .done (c.setS2 i { u' with tag := u.tag || t, masked := u.masked || f.msk,
                                        doneAt := c.cycles + w + 1 + k * s2Time (s2Fn u.fn) })
               e.free e.shared (w + 1) (unitDraw f)))

/-- S2FIN: the digest, and the initial state of the same function (R259). -/
def s2Fin : VOp := fun f e c =>
  vcheck f [.vd, .imm, .msk] [0]
    (let i := f.imm % 4
     let u := c.s2u i
     if !u.live then .fault cUnit
     else
      let w := c.waitFor u.doneAt
      let cyc := w + 1 + u.s2PadBlocks * s2Time (s2Fn u.fn)
      unitOut f e (c.setS2 i { s2Start u.fn with doneAt := c.cycles + cyc }) cyc u.tag (vOfBytes u.s2Digest))

/-- A SHA-2 midstate from bytes. -/
def s2State (fn : Nat) (b : Bytes) : List Nat :=
  let k := (s2Fn fn).word / 8
  (List.range 8).map (fun j => beNat (sliceZ b (j * k) k))

/-- S2LDS: the midstate from VA and the count from SS, its bits below the block length taken as zero (R257). -/
def s2Lds : VOp := fun f e c =>
  vcheck f (unitFields f [.va, .ss, .imm]) [0]
    (let i := f.imm % 4
     let u := c.s2u i
     if (c.stag f.ss).t then .fault cCount
     else if !u.live then .fault cUnit
     else match unitValue f c with
      | .error x => .fault x
      | .ok (x, t) =>
        drawing e (unitDraw f)
          (let w := c.waitFor u.doneAt
           let k := (s2Fn u.fn).block
           .done (c.setS2 i { s2Start u.fn with h := s2State u.fn (vBytes x), tag := t, masked := f.msk,
                                                count := (c.sreg f.ss).toNat / k * k, doneAt := c.cycles + w + 1 })
             e.free e.shared (w + 1) (unitDraw f)))

/-- S2STS: the midstate to VD. -/
def s2Sts : VOp := fun f e c =>
  vcheck f [.vd, .imm, .msk] [0]
    (let u := c.s2u (f.imm % 4)
     if !u.live then .fault cUnit
     else unitOut f e c (c.waitFor u.doneAt + 1) u.tag (vOfBytes (sha2Out (s2Fn u.fn).word u.h)))

/-! ## Keccak (Table 06.10) -/

/-- Rate in bytes by the code of KINIT. -/
def kRate : Nat → Nat
  | 0 => 144 | 1 => 136 | 2 => 104 | 3 => 72 | 4 => 168 | 5 => 136 | 6 => 168 | _ => 136

/-- Domain byte by the code of KINIT (Table 09.2). -/
def kDomain (m : Nat) : Byte := if m < 4 then 0x06 else if m < 6 then 0x1F else 0x04

/-- A Keccak unit in the initial state of a mode. -/
def kStart (m : Nat) : HashUnit := { HashUnit.empty with live := true, fn := m, h := keccakZero }

/-- Bytes absorbed from a place in the rate: the lanes and the permutations made. -/
def kAbsorbAt (rate pos : Nat) (h : List Nat) (b : Bytes) : List Nat × Nat :=
  (pieces rate (List.replicate pos 0 ++ b)).foldl
    (fun s x => let h' := keccakXor s.1 x; if x.length = rate then (keccakF h', s.2 + 1) else (h', s.2)) (h, 0)

/-- A unit ready to absorb: the first absorb after a finish starts again (R259). -/
def HashUnit.kReady (u : HashUnit) : HashUnit := if u.fin then { kStart u.fn with doneAt := u.doneAt } else u

/-- Bytes absorbed: the unit and the permutations made. -/
def HashUnit.kAbsorb (u : HashUnit) (b : Bytes) : HashUnit × Nat :=
  let u := u.kReady
  let r := kAbsorbAt (kRate u.fn) (u.count % kRate u.fn) u.h b
  ({ u with h := r.1, count := (u.count + b.length) % 2 ^ 64, off := 0 }, r.2)

/-- Padding and the last permutation (R256). -/
def HashUnit.kFinish (u : HashUnit) : HashUnit :=
  let u := u.kReady
  let rate := kRate u.fn
  let pos := u.count % rate
  let pad := List.replicate pos 0 ++ xorBytes (kDomain u.fn :: List.replicate (rate - pos - 1) 0)
    (List.replicate (rate - pos - 1) 0 ++ [0x80])
  { u with h := keccakF (keccakXor u.h pad), fin := true, off := 0 }

/-- `n` bytes squeezed from the unit's place, with the permutations made; `fuel` bounds the blocks met. -/
def kSqueezeGo (rate : Nat) : Nat → List Nat → Nat → Nat → Bytes × List Nat × Nat × Nat
  | 0, h, off, _ => ([], h, off, 0)
  | fuel + 1, h, off, n =>
    if n = 0 then ([], h, off, 0)
    else if rate ≤ off then
      let r := kSqueezeGo rate fuel (keccakF h) 0 n
      (r.1, r.2.1, r.2.2.1, r.2.2.2 + 1)
    else
      let k := min n (rate - off)
      let r := kSqueezeGo rate fuel h (off + k) (n - k)
      (sliceZ (keccakBytes h) off k ++ r.1, r.2.1, r.2.2.1, r.2.2.2)

/-- A Keccak unit of the core. -/
def VCore.kku (c : VCore) (i : Nat) : HashUnit := sparseGet HashUnit.empty c.kk i
def VCore.setKk (c : VCore) (i : Nat) (u : HashUnit) : VCore := { c with kk := sparseSet HashUnit.empty c.kk i u }

/-- KINIT. -/
def kInit : VOp := fun f e c =>
  vcheck f [.imm] [0]
    (let i := f.imm % 2
     let m := f.imm / 2 % 16
     let w := c.waitFor (c.kku i).doneAt
     if 7 < m then .fault cUnit
     else .plain (c.setKk i { kStart m with doneAt := c.cycles + w + 1 }) e (w + 1))

/-- KABS. -/
def kAbs : VOp := fun f e c =>
  vcheck f (unitFields f [.va, .ss, .imm]) [0]
    (let i := f.imm % 2
     let u := c.kku i
     match byteCountOf f c with
     | .error x => .fault x
     | .ok n =>
       if !u.live then .fault cUnit
       else match unitValue f c with
        | .error x => .fault x
        | .ok (x, t) =>
          drawing e (unitDraw f)
            (let w := c.waitFor u.doneAt
             let (u', k) := u.kAbsorb ((vBytes x).take n)
             .done (c.setKk i { u' with tag := u'.tag || t, masked := u'.masked || f.msk,
                                        doneAt := c.cycles + w + 1 + 12 * k })
               e.free e.shared (w + 1) (unitDraw f)))

/-- KFIN. -/
def kFin : VOp := fun f e c =>
  vcheck f [.imm] [0]
    (let i := f.imm % 2
     let u := c.kku i
     let w := c.waitFor u.doneAt
     if !u.live then .fault cUnit
     else .plain (c.setKk i { u.kFinish with doneAt := c.cycles + w + 13 }) e (w + 1))

/-- KSQZ: 1 to 512 bytes. -/
def kSqz : VOp := fun f e c =>
  vcheck f [.vd, .ss, .imm, .msk] [0]
    (let i := f.imm % 2
     let u := c.kku i
     match byteCountOf f c with
     | .error x => .fault x
     | .ok n =>
       if !u.live || n = 0 then .fault cUnit
       else
        let w := c.waitFor u.doneAt
        let r := kSqueezeGo (kRate u.fn) 20 u.h u.off n
        let cyc := w + 1 + 12 * r.2.2.2
        unitOut f e (c.setKk i { u with h := r.2.1, off := r.2.2.1, doneAt := c.cycles + cyc }) cyc u.tag (vOfBytes r.1))

/-- KPERM. -/
def kPerm : VOp := fun f e c =>
  vcheck f [.imm] [0]
    (let i := f.imm % 2
     let u := c.kku i
     let w := c.waitFor u.doneAt
     if !u.live then .fault cUnit
     else .plain (c.setKk i { u with h := keccakF u.h, off := 0, doneAt := c.cycles + w + 13 }) e (w + 1))

/-- KLDS: the state from bytes 0 to 199 of VA, and the count from SS (R257). -/
def kLds : VOp := fun f e c =>
  vcheck f (unitFields f [.va, .ss, .imm]) [0]
    (let i := f.imm % 2
     let u := c.kku i
     if (c.stag f.ss).t then .fault cCount
     else if !u.live then .fault cUnit
     else match unitValue f c with
      | .error x => .fault x
      | .ok (x, t) =>
        drawing e (unitDraw f)
          (let w := c.waitFor u.doneAt
           .done (c.setKk i { kStart u.fn with h := (List.range 25).map (fun j => leAt (vBytes x) (8 * j) 8), tag := t,
                                               masked := f.msk, count := (c.sreg f.ss).toNat,
                                               doneAt := c.cycles + w + 1 })
             e.free e.shared (w + 1) (unitDraw f)))

/-- KSTS: the state to VD. -/
def kSts : VOp := fun f e c =>
  vcheck f [.vd, .imm, .msk] [0]
    (let u := c.kku (f.imm % 2)
     if !u.live then .fault cUnit
     else unitOut f e c (c.waitFor u.doneAt + 1) u.tag (vOfBytes (keccakBytes u.h)))

/-! ## AES (Table 06.10) -/

/-- Unit time of a pass of 32 blocks, by key length. -/
def aesTime (n : Nat) : Nat := if n = 16 then 40 else if n = 24 then 48 else 56

/-- AKEY: the key of IMM[1:0] from VA. -/
def aKey : VOp := fun f e c =>
  vcheck f (unitFields f [.va, .imm]) [0]
    (if f.imm % 4 = 3 then .fault cUnit
     else match unitValue f c with
      | .error x => .fault x
      | .ok (x, t) =>
        drawing e (unitDraw f)
          (let w := c.waitFor c.aes.doneAt
           let n := 16 + 8 * (f.imm % 4)
           .done { c with aes := { live := true, key := (vBytes x).take n, tag := t,
                                   doneAt := c.cycles + w + 1 + (10 + 2 * (f.imm % 4)) } }
             e.free e.shared (w + 1) (unitDraw f)))

/-- A pass of the AES unit over VA into VD. -/
def aPass (g : Bytes → Bytes → Bytes) : VOp := fun f e c =>
  vcheck f [.vd, .va, .msk] [0]
    (if !c.aes.live then .fault cUnit
     else
      let cyc := c.waitFor c.aes.doneAt + aesTime c.aes.key.length
      unitOut f e { c with aes := { c.aes with doneAt := c.cycles + cyc } } cyc (c.aes.tag || (c.vtag f.va).t)
        (vOfBytes (g c.aes.key (vBytes (c.vreg f.va)))))

/-- The 32 blocks of a register, each through a block function. -/
def ecb (g : Bytes → Bytes) (x : Bytes) : Bytes := (pieces 16 x).flatMap g

/-- The keystream of 32 counter blocks: the last 32 bits of block 0 are incremented big-endian. -/
def ctrStream (k x : Bytes) : Bytes :=
  let ks := aesKeys k
  (List.range 32).flatMap (fun i => aesEncKeys ks (x.take 12 ++ beBytes 4 (beNat (sliceZ x 12 4) + i)))

/-! ## Masks (R187) -/

/-- MRD: 4,096 fresh mask bits. -/
def mRd : VOp := fun f e c =>
  vcheck f [.vd] [0]
    (drawing e 4096 (.done (c.setV f.vd (freeReg e.free) ⟨true, 0, 0⟩) (e.free + 1) e.shared 1 4096))

/-- MSTAT: the word of VC_MGEN_STAT, public. -/
def mStat : VOp := fun f e c =>
  vcheck f [.vd] [0] (.plain (c.setS f.vd (BitVec.ofNat 64 e.mgen) VTag.clear) e 1)

/-! ## Completion and yield (R185, R209) -/

/-- A SHA-2 unit holds an unfinished state. -/
def HashUnit.s2Held (u : HashUnit) : Bool := u.live && (u.count != 0 || !u.buf.isEmpty || u.h != (s2Fn u.fn).init)

/-- A Keccak unit holds an unfinished state. -/
def HashUnit.kHeld (u : HashUnit) : Bool := u.live && !u.fin && (u.count != 0 || u.h != keccakZero)

/-- Some unit holds state that a yield may not carry (R209). -/
def VCore.unitHeld (c : VCore) : Bool :=
  c.aes.live || c.s2.any (fun x => x.2.s2Held) || c.kk.any (fun x => x.2.kHeld)

/-- The unit operations that run at run cycle `t` or earlier are finished (HASH_UNIT_COMPLETE). -/
def VCore.freeUnit (c : VCore) (u : Nat) : VCore :=
  let t := if u < 4 then (c.s2u u).doneAt else if u < 6 then (c.kku (u - 4)).doneAt else c.aes.doneAt
  let c := { c with cycles := max c.cycles t }
  if u < 4 then c.setS2 u { c.s2u u with doneAt := 0 }
  else if u < 6 then c.setKk (u - 4) { c.kku (u - 4) with doneAt := 0 }
  else { c with aes := { c.aes with doneAt := 0 } }

end Sys2Proof.Machine
end

