-- ==== Sys2Proof/Machine/VecMask.lean ====
section
/-!
DEFINITION. Tags, share sets, gadgets and declassification (R191 to R193, Table 06.11). The masks that hide a value are
free values; what the shares recombine to is fixed.
-/

namespace Sys2Proof.Machine

/-- TAGV: T on VD; SI and GID kept. -/
def tagV : VOp := fun f e c =>
  vcheck f [.vd] [0] (.plain { c with vt := sparseSet VTag.clear c.vt f.vd { c.vtag f.vd with t := true } } e 1)

/-- TAGS: T on S[VD]. -/
def tagS : VOp := fun f e c =>
  vcheck f [.vd] [0] (.plain { c with st := sparseSet VTag.clear c.st f.vd { c.stag f.vd with t := true } } e 1)

/-- A tag as TAGRD lays it out. -/
def VTag.word (t : VTag) : Nat := (if t.t then 1 else 0) + 2 * t.si + 8 * t.gid

/-- TAGRD: the tag of V[VA], or of S[VA] when IMM[8] is 1; public. -/
def tagRd : VOp := fun f e c =>
  vcheck f [.vd, .va, .imm] [0]
    (let t := if f.imm.testBit 8 then c.stag f.va else c.vtag f.va
     .plain (c.setS f.vd (BitVec.ofNat 64 t.word) VTag.clear) e 1)

/-! ## Domains (R191) -/

/-- The domain code of IMM[1:0], or the fault of a code or modulus that names none: 0 Boolean, 1 arithmetic mod 2^w,
2 arithmetic mod q. -/
def domainFault (f : VFields) (c : VCore) (allowed : List Nat) : Option Nat :=
  let d := f.imm % 4
  if !allowed.contains d then some cField
  else if d == 2 && (f.w == 0 || f.w == 3) then some cWidth
  else if d == 2 && badModulus f.w (c.modq f) then some cModulus
  else none

/-- QS is used in domain 2 alone. -/
def domFields (f : VFields) : List VF := if f.imm % 4 = 2 then [.qs] else []

/-- Two elements combined in a domain: `n` bits, modulus `q`. -/
def domAdd (d n q a b : Nat) : Nat :=
  if d = 0 then a ^^^ b else if d = 1 then (a + b) % 2 ^ n else (a + b) % q

/-- The element that with `b` gives `a` in a domain. -/
def domSub (d n q a b : Nat) : Nat :=
  if d = 0 then a ^^^ b else if d = 1 then subW n a b else modSub q a b

/-- A mask element in a domain from free bits. -/
def domMask (d n q m : Nat) : Nat := if d = 2 then m % q else m % 2 ^ n

/-- Element by element combination of registers. -/
def vDom (g : Nat → Nat → Nat → Nat → Nat → Nat) (d w q : Nat) (x y : VReg) : VReg :=
  packV w (fun i => g d (eBits w) q (elem w x i) (elem w y i))

/-- The value of a share set in a domain. -/
def VCore.recombine (c : VCore) (d w q r n : Nat) : VReg :=
  match regRange r n with
  | [] => 0
  | a :: rest => rest.foldl (fun x k => vDom domAdd d w q x (c.vreg k)) (if d = 2 then packV w (fun i => elem w (c.vreg a) i % q) else c.vreg a)

/-- Shares of a value in a domain: `n - 1` free masks and the rest. -/
def shareOut (d w q : Nat) (free : Nat) (x : VReg) (n : Nat) : List VReg :=
  let ms := (List.range (n - 1)).map (fun k => packV w (fun i => domMask d (eBits w) q (elem w (freeReg (free + k)) i)))
  ms ++ [ms.foldl (fun a m => vDom domSub d w q a m) x]

/-- A new group of `n` shares of `x` in VD's set, with `bits` of mask drawn. -/
def groupOut (f : VFields) (e : VEnv) (c : VCore) (d cyc bits : Nat) (x : VReg) : VRes :=
  let n := f.shares
  if 32 < f.vd + n then .fault cPlace
  else
    let q := c.modq f
    let gid := c.newGid (e.free + n) (regRange f.vd n)
    drawing e bits
      (.done ((c.setShares f.vd gid (shareOut d f.w q e.free x n) 0).setDom gid (d, f.w, q)) (e.free + n + 1) e.shared cyc bits)

/-- Cycles or mask bits by order. -/
def byOrder (f : VFields) (a b : Nat) : Nat := if f.ord = 0 then a else b

/-- An owner kernel's declared order is above the order of the word (R192). -/
def belowOrder (f : VFields) (c : VCore) : Bool := c.order == 2 && f.ord == 0

/-- SPLIT: VA shared in the domain into VD's set. -/
def vSplit : VOp := fun f e c =>
  vcheck f ([.w, .vd, .va, .ord, .imm] ++ domFields f) allW
    (if belowOrder f c then .fault cOrder
     else match domainFault f c [0, 1, 2] with
      | some x => .fault x
      | none => groupOut f e c (f.imm % 4) 2 (byOrder f 4096 8192) (c.vreg f.va))

/-- REFRESH: fresh masks on VA's set, written to VD's set; a two-share set may enter order 2 (R192). -/
def vRefresh : VOp := fun f e c =>
  vcheck f ([.w, .vd, .va, .ord, .imm] ++ domFields f) allW
    (let d := f.imm % 4
     let n := f.shares
     let two := f.ord = 1 ∧ setOk (c.vtags f.va 2) ∧ ¬ setOk (c.vtags f.va 3)
     let na := if two then 2 else n
     if belowOrder f c then .fault cOrder
     else match domainFault f c [0, 1, 2] with
      | some x => .fault x
      | none =>
        if 32 < f.va + na || 32 < f.vd + n || partOverlap f.vd n f.va na then .fault cPlace
        else if !setOk (c.vtags f.va na) then .fault cSet
        else
          let q := c.modq f
          let gid := (c.vtag f.va).gid
          let x := c.recombine d f.w q f.va na
          drawing e (byOrder f 4096 8192)
            (.done ((c.setShares f.vd gid (shareOut d f.w q e.free x n) 0).setDom gid (d, f.w, q)) (e.free + n) e.shared
              (byOrder f 2 3) (byOrder f 4096 8192)))

/-- The fault of a gadget's source set. -/
def gadgetFault (f : VFields) (c : VCore) (r : Nat) : Option Nat :=
  match c.setFault r f.shares with
  | some x => some x
  | none => if partOverlap f.vd f.shares r f.shares then some cPlace else none

/-- The first fault of a list. -/
def firstFault : List (Option Nat) → Option Nat
  | [] => none
  | some x :: _ => some x
  | none :: r => firstFault r

/-- GMULQ: the Montgomery product of two sets modulo q, as a new group. -/
def gMulq : VOp := fun f e c =>
  vcheck f [.w, .vd, .va, .vb, .qs, .ord] [1, 2]
    (let q := c.modq f
     if belowOrder f c then .fault cOrder
     else if badModulus f.w q then .fault cModulus
     else match firstFault [gadgetFault f c f.va, gadgetFault f c f.vb] with
      | some x => .fault x
      | none =>
        let a := c.recombine 2 f.w q f.va f.shares
        let b := c.recombine 2 f.w q f.vb f.shares
        groupOut f e c 2 (byOrder f 8 20) (byOrder f 4096 12288)
          (packV f.w (fun i => montMul (eBits f.w) q (elem f.w a i) (elem f.w b i))))

/-- GAND: the AND of two Boolean sets, as a new group. -/
def gAnd : VOp := fun f e c =>
  vcheck f [.w, .vd, .va, .vb, .ord] allW
    (if belowOrder f c then .fault cOrder
     else match firstFault [gadgetFault f c f.va, gadgetFault f c f.vb] with
      | some x => .fault x
      | none =>
        groupOut f e c 0 (byOrder f 4 10) (byOrder f 4096 12288)
          (c.recombine 0 f.w 0 f.va f.shares &&& c.recombine 0 f.w 0 f.vb f.shares))

/-- GA2B: an arithmetic set as a Boolean set of the same value. -/
def gA2b : VOp := fun f e c =>
  vcheck f ([.w, .vd, .va, .ord, .imm] ++ domFields f) [1, 2]
    (let d := f.imm % 4
     if belowOrder f c then .fault cOrder
     else match firstFault [domainFault f c [1, 2], gadgetFault f c f.va] with
      | some x => .fault x
      | none =>
        let cyc := (if f.w = 1 then byOrder f 24 52 else byOrder f 30 64) + (if d = 2 then 8 else 0)
        groupOut f e c 0 cyc (byOrder f 12288 32768) (c.recombine d f.w (c.modq f) f.va f.shares))

/-- GB2A: a Boolean set as an arithmetic set of the same value. -/
def gB2a : VOp := fun f e c =>
  vcheck f ([.w, .vd, .va, .ord, .imm] ++ domFields f) allW
    (let d := f.imm % 4
     if belowOrder f c then .fault cOrder
     else match firstFault [domainFault f c [1, 2], gadgetFault f c f.va] with
      | some x => .fault x
      | none =>
        groupOut f e c d (byOrder f 12 28 + (if d = 2 then 8 else 0)) (byOrder f 8192 24576)
          (c.recombine 0 f.w 0 f.va f.shares))

/-! ## Declassification (R193) -/

/-- The word at the place of issue is a declared site: of the kernel header, or of vendor microcode's own list, which a
microword names in SITE (Table 07.5). -/
def VCore.atSite (c : VCore) : Bool := c.sites.contains c.pc

/-- DECLV. -/
def decV : VOp := fun f e c =>
  vcheck f ([.w, .vd, .va, .msk] ++ (if f.msk then [.ord, .imm] ++ domFields f else [])) allW
    (if !c.atSite then .fault cSite
     else if f.msk then
      match domainFault f c [0, 1, 2] with
      | some x => .fault x
      | none =>
        if 32 < f.va + f.shares then .fault cPlace
        else if !setOk (c.vtags f.va f.shares) then .fault cSet
        else .plain (c.setV f.vd (c.recombine (f.imm % 4) f.w (c.modq f) f.va f.shares) VTag.clear) e 2
     else .plain (c.setV f.vd (c.vreg f.va) VTag.clear) e 1)

/-- The value of a scalar share set in a domain, element by element of 64 bits. -/
def VCore.recombineS (c : VCore) (d w q r n : Nat) : Nat :=
  packN w (fun i => (regRange r n).foldl
    (fun a k => domAdd d (eBits w) q a (((c.sreg k).toNat >>> (i * eBits w)) % 2 ^ eBits w)) 0) (8 / eBytes w)

/-- DECLS. -/
def decS : VOp := fun f e c =>
  vcheck f ([.w, .vd, .va, .msk] ++ (if f.msk then [.ord, .imm] ++ domFields f else [])) allW
    (if !c.atSite then .fault cSite
     else if f.msk then
      match domainFault f c [0, 1, 2] with
      | some x => .fault x
      | none =>
        if 32 < f.va + f.shares then .fault cPlace
        else if !setOk ((regRange f.va f.shares).map c.stag) then .fault cSet
        else .plain (c.setS f.vd (BitVec.ofNat 64 (c.recombineS (f.imm % 4) f.w (c.modq f) f.va f.shares)) VTag.clear) e 2
     else .plain (c.setS f.vd (c.sreg f.va) VTag.clear) e 1)

/-! ## The refresh of a save and of a restore (R156, R187, R192) -/

/-- Shares of the set that begins at a register: three, two, or none. -/
def setLen (tag : Nat → VTag) (r : Nat) : Nat :=
  if (tag r).t && r + 3 ≤ 32 && setOk ((regRange r 3).map tag) then 3
  else if (tag r).t && r + 2 ≤ 32 && setOk ((regRange r 2).map tag) then 2
  else 0

/-- The share sets of a register file, ascending: first register and number of shares. -/
def setsFrom (tag : Nat → VTag) : Nat → Nat → List (Nat × Nat)
  | 0, _ => []
  | n + 1, r =>
    match setLen tag r with
    | 0 => setsFrom tag n (r + 1)
    | k => (r, k) :: setsFrom tag n (r + k)

/-- The tagged share sets of a core's vector and scalar registers. -/
def VCore.vSets (c : VCore) : List (Nat × Nat) := setsFrom c.vtag 32 0
def VCore.sSets (c : VCore) : List (Nat × Nat) := setsFrom c.stag 32 0

/-- The mask bits that the refresh of every tagged share group draws, each at its own order (R187). -/
def VCore.refreshBits (c : VCore) : Nat :=
  (c.vSets.map (fun x => (x.2 - 1) * 4096)).sum + (c.sSets.map (fun x => (x.2 - 1) * 64)).sum

/-- One vector set with fresh masks: the value that it holds in its domain is kept, its group and indices too. -/
def VCore.refreshV (c : VCore) (free : Nat) (r n : Nat) : VCore :=
  let gid := (c.vtag r).gid
  let (d, w, q) := sparseGet (0, 0, 0) c.doms gid
  c.setShares r gid (shareOut d w q free (c.recombine d w q r n) n) 0

/-- One scalar set with fresh masks. -/
def VCore.refreshS (c : VCore) (free : Nat) (r n : Nat) : VCore :=
  let (d, w, q) := sparseGet (0, 0, 0) c.doms (c.stag r).gid
  let x : VReg := BitVec.ofNat 4096 (c.recombineS d w q r n)
  ((shareOut d w q free x n).zipIdx).foldl (fun c e => c.setS (r + e.2) (BitVec.ofNat 64 e.1.toNat) (c.stag (r + e.2))) c

/-- Every tagged share group refreshed; the free counter goes on. -/
def VCore.refresh (c : VCore) (free : Nat) : VCore × Nat :=
  let x := c.vSets.foldl (fun (x : VCore × Nat) e => (x.1.refreshV x.2 e.1 e.2, x.2 + e.2)) (c, free)
  c.sSets.foldl (fun (x : VCore × Nat) e => (x.1.refreshS x.2 e.1 e.2, x.2 + e.2)) x

end Sys2Proof.Machine
end

