-- ==== Sys2Proof/Machine/VecMem.lean ====
section
/-!
DEFINITION. Memory instructions of a vector core: segments, share records, plain, strided, first-fault, indexed and
share forms (R197 to R205).
-/

namespace Sys2Proof.Machine

/-! ## Addresses (R197, R199, R201) -/

/-- Where an access of `n` bytes at `a` falls: in a segment, in cluster shared memory, or nowhere with its cause. -/
inductive VPlace where
  | seg (s : VSeg)
  | shared
  | bad (cause : Nat)
deriving DecidableEq, Repr

/-- The cluster deckle grants vendor microcode an access of `n` bytes to shared memory: every granule of 64 bytes lies in
a grant (R437). A write is checked apart. -/
def VCore.shGranted (c : VCore) (write : Bool) (a n : Nat) : Bool :=
  (List.range ((a + n - 1) / 64 - a / 64 + 1)).all (fun i =>
    c.grants.any (fun g => decide (g.1 ≤ (a / 64 + i) * 64 ∧ (a / 64 + i) * 64 < g.1 + g.2.1) && (if write then g.2.2.2 else g.2.2.1)))

/-- The place of an access. Owner kernels are granted no region of cluster shared memory (Table 07.1); vendor microcode
reaches it through the cluster deckle. -/
def VCore.place (c : VCore) (a n : Nat) : VPlace :=
  match c.segs.find? (fun s => s.base ≤ a && a + n ≤ s.base + s.size) with
  | some s => .seg s
  | none =>
    if 0x10000000 ≤ a && a + n ≤ 0x10400000 then
      (if c.kernel = 0xFF && (c.shGranted false (a - 0x10000000) n || c.shGranted true (a - 0x10000000) n) then .shared
       else .bad cDeckle)
    else .bad cAddress

/-- S[SS] + IMM, sign-extended, as a byte address. -/
def VCore.base (c : VCore) (f : VFields) : Nat := ((c.sreg f.ss).toNat + unsignedOf 64 f.simm) % 2 ^ 64

/-- The block of an address has a non-empty share record. -/
def VCore.hasRec (c : VCore) (a : Nat) : Bool := sparseGet (0, 0) c.recs (a / 512) != (0, 0)

/-- Bytes at a place. -/
def VCore.readAt (c : VCore) (sh : Memory) (p : VPlace) (a n : Nat) : Bytes :=
  match p with
  | .seg _ => memRead 0 c.mem a n
  | .shared => memRead 0 sh (a - 0x10000000) n
  | .bad _ => List.replicate n 0

/-- One element loaded by a plain form: its bytes and whether it came from a SECRET segment (R204). With `obl`, an
address outside reads as zero (R203). -/
def VCore.loadEl (c : VCore) (sh : Memory) (obl : Bool) (a n : Nat) : Except Nat (Bytes × Bool) :=
  if a % n ≠ 0 then .error cAlign
  else match c.place a n with
    | .bad x => if obl then .ok (List.replicate n 0, false) else .error x
    | .shared => if c.shGranted false (a - 0x10000000) n then .ok (c.readAt sh .shared a n, false) else .error cDeckle
    | .seg s => if c.hasRec a then .error cShareMove else .ok (c.readAt sh (.seg s) a n, s.secret)

/-- Elements loaded in ascending order; an inactive one gives zero bytes. -/
def VCore.loadEls (c : VCore) (sh : Memory) (obl : Bool) (n : Nat) (act : Nat → Bool) (addr : Nat → Nat) :
    List Nat → Except Nat (Bytes × Bool)
  | [] => .ok ([], false)
  | e :: r =>
    if act e then
      match c.loadEl sh obl (addr e) n with
      | .error x => .error x
      | .ok (b, t) =>
        match c.loadEls sh obl n act addr r with
        | .error x => .error x
        | .ok (bs, u) => .ok (b ++ bs, t || u)
    else
      match c.loadEls sh obl n act addr r with
      | .error x => .error x
      | .ok (bs, u) => .ok (List.replicate n 0 ++ bs, u)

/-- The check of one element stored by a plain form: `secret` when the register or the index is tagged (R204). -/
def VCore.storeFault (c : VCore) (obl secret : Bool) (a n : Nat) : Option Nat :=
  if a % n ≠ 0 then some cAlign
  else match c.place a n with
    | .bad x => if obl then none else some x
    | .shared => if c.shGranted true (a - 0x10000000) n then none else some cDeckle
    | .seg s => if !s.wr then some cWrite else if secret && !s.secret then some cPublic else none

/-- Bytes stored at a place; a write empties the share record of its block (R200). -/
def VCore.writeAt (c : VCore) (sh : Memory) (a : Nat) (b : Bytes) : VCore × Memory :=
  match c.place a b.length with
  | .seg _ => ({ c with mem := memWrite 0 c.mem a b, recs := sparseDel c.recs (a / 512) }, sh)
  | .shared => (c, memWrite 0 sh (a - 0x10000000) b)
  | .bad _ => (c, sh)

/-- Elements stored in ascending order, so the higher-numbered one stays. -/
def storeEls (w : Nat) (x : VReg) (act : Nat → Bool) (addr : Nat → Nat) : List Nat → VCore × Memory → VCore × Memory
  | [], s => s
  | e :: r, s =>
    storeEls w x act addr r (if act e then s.1.writeAt s.2 (addr e) (leBytes (eBytes w) (elem w x e)) else s)

/-- The largest number of counted elements in one bank (R198, R201). -/
def bankWait (cnt : Nat → Bool) (addr : Nat → Nat) (n : Nat) : Nat :=
  ((List.range 16).map (fun b => (List.range n).countP (fun e => cnt e && addr e / 16 % 16 == b))).foldl max 0

/-- Elements that a memory wait counts: every one when the predicate is tagged (R175). -/
def VCore.counted (c : VCore) (f : VFields) (e : Nat) : Bool := (f.pen == 1 && c.ptag f.pred) || c.active f f.w e

/-- A loaded register written under predication (R201, R204). -/
def loadOut (f : VFields) (e : VEnv) (c : VCore) (cyc : Nat) (obl idx : Bool) (addr : Nat → Nat) : VRes :=
  match c.loadEls e.shared obl (eBytes f.w) (c.active f f.w) addr (List.range (eCount f.w)) with
  | .error x => .fault x
  | .ok (b, t) =>
    let tag := t || idx || (c.predTag f).any (·.t) || (f.merging && (c.vtag f.vd).t)
    .plain (c.setV f.vd (c.predicated f f.w (c.vreg f.vd) (vOfBytes b)) ⟨tag, 0, 0⟩) e cyc

/-- A register stored (R201, R204). -/
def storeOut (f : VFields) (e : VEnv) (c : VCore) (cyc : Nat) (obl idx : Bool) (addr : Nat → Nat) : VRes :=
  let t := c.vtag f.va
  let els := (List.range (eCount f.w)).filter (c.active f f.w)
  if t.si ≠ 0 then .fault cShareMove
  else match firstFault (els.map (fun i => c.storeFault obl (t.t || idx) (addr i) (eBytes f.w))) with
    | some x => .fault x
    | none =>
      let r := storeEls f.w (c.vreg f.va) (fun _ => true) addr els (c, e.shared)
      .done r.1 e.free r.2 cyc 0

/-- Addresses of a unit-stride form. -/
def unitAddr (f : VFields) (c : VCore) (e : Nat) : Nat := (c.base f + e * eBytes f.w) % 2 ^ 64

/-- Addresses of a strided form: the stride is S[VB]. -/
def strideAddr (f : VFields) (c : VCore) (e : Nat) : Nat := (c.base f + e * (c.sreg f.vb).toNat) % 2 ^ 64

/-- Addresses of an indexed form: S[SS] + (VB[e] << IMM[1:0]). -/
def indexAddr (f : VFields) (c : VCore) (e : Nat) : Nat :=
  ((c.sreg f.ss).toNat + (elem f.w (c.vreg f.vb) e <<< (f.imm % 4))) % 2 ^ 64

/-- The memory wait of an unaligned unit-stride form. -/
def unaligned (f : VFields) (c : VCore) : Nat := if c.base f % 16 = 0 then 0 else 1

/-! ## Plain forms (Table 07.2) -/

/-- VLD. -/
def vLd : VOp := fun f e c =>
  vcheck f [.w, .pred, .vd, .ss, .imm] allW
    (if (c.stag f.ss).t then .fault cBase else loadOut f e c (2 + unaligned f c) false false (unitAddr f c))

/-- VLDS. -/
def vLds : VOp := fun f e c =>
  vcheck f [.w, .pred, .vd, .vb, .ss, .imm] allW
    (if (c.stag f.ss).t || (c.stag f.vb).t then .fault cBase
     else loadOut f e c (2 + bankWait (c.counted f) (strideAddr f c) (eCount f.w)) false false (strideAddr f c))

/-- VST. -/
def vSt : VOp := fun f e c =>
  vcheck f [.w, .pred, .va, .ss, .imm] allW
    (if (c.stag f.ss).t then .fault cBase else storeOut f e c (1 + unaligned f c) false false (unitAddr f c))

/-- VSTS. -/
def vSts : VOp := fun f e c =>
  vcheck f [.w, .pred, .va, .vb, .ss, .imm] allW
    (if (c.stag f.ss).t || (c.stag f.vb).t then .fault cBase
     else storeOut f e c (1 + bankWait (c.counted f) (strideAddr f c) (eCount f.w)) false false (strideAddr f c))

/-- The first active element whose address faults (R202). -/
def VCore.firstBad (c : VCore) (f : VFields) (addr : Nat → Nat) : Option Nat :=
  (List.range (eCount f.w)).find? (fun i => c.active f f.w i &&
    (match c.place (addr i) (eBytes f.w) with
     | .bad _ => true
     | .shared => !c.shGranted false (addr i - 0x10000000) (eBytes f.w)
     | .seg _ => false))

/-- VLDFF (R202). -/
def vLdff : VOp := fun f e c =>
  vcheck f [.w, .pred, .vd, .vb, .vc, .ss, .imm] allW
    (let addr := unitAddr f c
     let n := eCount f.w
     let stop := (c.firstBad f addr).getD n
     let act := fun i => c.active f f.w i && decide (i < stop)
     let cnt := (List.range n).countP act
     if 8 ≤ f.vc then .fault cField
     else if (c.stag f.ss).t then .fault cBase
     else if stop < n && cnt = 0 then
      .fault (match c.place (addr stop) (eBytes f.w) with
        | .bad x => x
        | _ => cDeckle)
     else match c.loadEls e.shared false (eBytes f.w) act addr (List.range n) with
      | .error x => .fault x
      | .ok (b, t) =>
        let new := vOfBytes b
        let m := c.predicated f f.w (c.vreg f.vd) new
        let x := if stop < n then packV f.w (fun i => if i < stop then elem f.w m i else 0) else m
        let tag := t || (c.predTag f).any (·.t) || (f.merging && (c.vtag f.vd).t)
        let c := c.setV f.vd x ⟨tag, 0, 0⟩
        let c := c.setP f.vc (packP f.w act) false
        .plain (c.setS f.vb (BitVec.ofNat 64 cnt) VTag.clear) e (2 + unaligned f c))

/-- Cycles of an indexed form. -/
def indexCycles (f : VFields) (c : VCore) : Nat :=
  if (c.vtag f.vb).t then 4 * eCount f.w else 2 + bankWait (c.counted f) (indexAddr f c) (eCount f.w)

/-- What an indexed form checks of its base: with a tagged index it lies in the operand store (R203). -/
def indexBaseFault (f : VFields) (c : VCore) : Option Nat :=
  let a := (c.sreg f.ss).toNat
  if (c.stag f.ss).t then some cBase
  else if !(c.vtag f.vb).t || a < 0x40000 then none
  else if 0x10000000 ≤ a && a < 0x10400000 then some cDeckle
  else some cAddress

/-- VGATHER (R203); IMM[15:2] must be zero (R201). -/
def vGather : VOp := fun f e c =>
  vcheck f [.w, .pred, .vd, .vb, .ss, .imm] allW
    (if 4 ≤ f.imm then .fault cField else match indexBaseFault f c with
     | some x => .fault x
     | none => loadOut f e c (indexCycles f c) (c.vtag f.vb).t (c.vtag f.vb).t (indexAddr f c))

/-- S[SS] lies in a SECRET segment. -/
def VCore.inSecret (c : VCore) (a : Nat) : Bool :=
  c.segs.any (fun s => s.base ≤ a && a < s.base + s.size && s.secret)

/-- VSCATTER (R203); IMM[15:2] must be zero (R201). -/
def vScatter : VOp := fun f e c =>
  vcheck f [.w, .pred, .va, .vb, .ss, .imm] allW
    (if 4 ≤ f.imm then .fault cField else match indexBaseFault f c with
     | some x => .fault x
     | none =>
      if (c.vtag f.vb).t && !c.inSecret (c.sreg f.ss).toNat then .fault cPublic
      else storeOut f e c (indexCycles f c) (c.vtag f.vb).t (c.vtag f.vb).t (indexAddr f c))

/-! ## Share forms (R205) -/

/-- The fault of `n` consecutive 512-byte blocks at `a`, for a write or a read. -/
def VCore.blocksFault (c : VCore) (a n : Nat) (write : Bool) : Option Nat :=
  if a % 512 ≠ 0 then some cAlign
  else firstFault ((List.range n).map (fun k =>
    match c.place (a + 512 * k) 512 with
    | .bad x => some x
    | .shared => some cShareMove
    | .seg s => if write && !s.wr then some cWrite else if write && !s.secret then some cPublic else none))

/-- VSTSH: share k to the k-th block, with a new memory group number. -/
def vStsh : VOp := fun f e c =>
  vcheck f [.w, .va, .ord, .ss, .imm] allW
    (let n := f.shares
     let a := c.base f
     if (c.stag f.ss).t then .fault cBase
     else if 32 < f.va + n then .fault cPlace
     else match c.blocksFault a n true with
      | some x => .fault x
      | none =>
        if !setOk (c.vtags f.va n) then .fault cSet
        else if 65535 < c.nextGroup then .fault cGroups
        else
          let c' := (List.range n).foldl (fun c k =>
            { c with mem := memWrite 0 c.mem (a + 512 * k) (vBytes (c.vreg (f.va + k))),
                     recs := sparseSet (0, 0) c.recs (a / 512 + k) (c.nextGroup, k + 1) }) c
          .plain { c' with nextGroup := c.nextGroup + 1,
                           mdoms := sparseSet (0, 0, 0) c.mdoms c.nextGroup (sparseGet (0, 0, 0) c.doms (c.vtag f.va).gid) }
            e (2 * n))

/-- The blocks at `a` hold one complete memory group of `n` shares and no more. -/
def VCore.groupAt (c : VCore) (a n : Nat) : Bool :=
  let g := (sparseGet (0, 0) c.recs (a / 512)).1
  g != 0 && (List.range n).all (fun k => sparseGet (0, 0) c.recs (a / 512 + k) == (g, k + 1)) &&
    c.recs.all (fun r => r.2.1 != g || r.2.2 ≤ n)

/-- VLDSH: the shares to VD onwards as a new group. -/
def vLdsh : VOp := fun f e c =>
  vcheck f [.w, .vd, .ord, .ss, .imm] allW
    (let n := f.shares
     let a := c.base f
     if (c.stag f.ss).t then .fault cBase
     else if 32 < f.vd + n then .fault cPlace
     else match c.blocksFault a n false with
      | some x => .fault x
      | none =>
        if !c.groupAt a n then .fault cShareMove
        else
          let xs := (List.range n).map (fun k => vOfBytes (memRead 0 c.mem (a + 512 * k) 512))
          let gid := c.newGid e.free (regRange f.vd n)
          (VRes.plain ((c.setShares f.vd gid xs 0).setDom gid
            (sparseGet (0, 0, 0) c.mdoms (sparseGet (0, 0) c.recs (a / 512)).1)) e (2 * n)).used 1)

/-! ## Scalar forms -/

/-- SLD. -/
def sLd : VOp := fun f e c =>
  vcheck f [.w, .vd, .ss, .imm] [0]
    (if (c.stag f.ss).t then .fault cBase
     else match c.loadEl e.shared false (c.base f) 8 with
      | .error x => .fault x
      | .ok (b, t) => .plain (c.setS f.vd (BitVec.ofNat 64 (leNat b)) ⟨t, 0, 0⟩) e 2)

/-- SST. -/
def sSt : VOp := fun f e c =>
  vcheck f [.w, .va, .ss, .imm] [0]
    (let t := c.stag f.va
     if (c.stag f.ss).t then .fault cBase
     else if t.si ≠ 0 then .fault cShareMove
     else match c.storeFault false t.t (c.base f) 8 with
      | some x => .fault x
      | none =>
        let r := c.writeAt e.shared (c.base f) (leBytes 8 (c.sreg f.va).toNat)
        .done r.1 e.free r.2 1 0)

end Sys2Proof.Machine
end

