-- ==== Sys2Proof/Machine/VecScalar.lean ====
section
/-!
DEFINITION. Scalar and control instructions of the sequencer (R207 to R211).
-/

namespace Sys2Proof.Machine

/-- S[VD] = g(S[VA], S[VB]). -/
def sBin (cyc : Nat) (g : Nat → Nat → Nat) : VOp := fun f e c =>
  vcheck f [.vd, .va, .vb] [0]
    (scalarOut f e c cyc [c.stag f.va, c.stag f.vb] (g (c.sreg f.va).toNat (c.sreg f.vb).toNat))

/-- SADDI. -/
def sAddi : VOp := fun f e c =>
  vcheck f [.vd, .va, .imm] [0]
    (scalarOut f e c 1 [c.stag f.va] ((c.sreg f.va).toNat + unsignedOf 64 f.simm))

/-- SLUI: IMM placed in bits 16k + 15 to 16k, k = VB[1:0]. -/
def sLui : VOp := fun f e c =>
  vcheck f [.vd, .va, .vb, .imm] [0]
    (let k := f.vb % 4
     scalarOut f e c 1 [c.stag f.va] (withField (c.sreg f.va) (16 * k + 15) (16 * k) f.imm).toNat)

/-- The next word to issue. -/
def VCore.goto (c : VCore) (a : Nat) : VCore := { c with pc := a }

/-- A transfer of control to word `a`: beyond the last code word it faults (R208). -/
def jump (e : VEnv) (c : VCore) (a cyc : Nat) : VRes :=
  if c.codeLen ≤ a then .fault cFlow else .plain (c.goto a) e cyc

/-- B. -/
def cB : VOp := fun f e c => vcheck f [.imm] [0] (jump e c f.imm 2)

/-- Conditional branches on S[SS] (R208). -/
def cBranchIf (test : RegWord → Bool) : VOp := fun f e c =>
  vcheck f [.ss, .imm] [0]
    (if (c.stag f.ss).t then .fault cBranch
     else if test (c.sreg f.ss) then jump e c f.imm 2
     else .plain (c.goto (c.pc + 1)) e 1)

/-- LOOP (R208). -/
def cLoop : VOp := fun f e c =>
  vcheck f [.ss, .imm] [0]
    (if (c.stag f.ss).t then .fault cBranch
     else
      let x := c.sreg f.ss - 1
      let c' := c.setS f.ss x (c.stag f.ss)
      if x = 0 then .plain (c'.goto (c.pc + 1)) e 1 else jump e c' f.imm 1)

/-- CALL (R208). -/
def cCall : VOp := fun f e c =>
  vcheck f [.imm] [0]
    (if 16 ≤ c.stack.length then .fault cFlow else jump e { c with stack := (c.pc + 1) :: c.stack } f.imm 2)

/-- RET (R208). -/
def cRet : VOp := fun f e c =>
  vcheck f [] [0]
    (match c.stack with
     | [] => .fault cFlow
     | a :: r => jump e { c with stack := r } a 2)

/-- When the last running unit operation ends, in run cycles. -/
def VCore.unitsDone (c : VCore) : Nat :=
  max c.aes.doneAt (max ((c.s2.map (·.2.doneAt)).foldl max 0) ((c.kk.map (·.2.doneAt)).foldl max 0))

/-- FENCE: wait until no unit instruction runs. -/
def cFence : VOp := fun f e c => vcheck f [] [0] (.plain c e (1 + (c.unitsDone - c.cycles)))

/-- NOP. -/
def cNop : VOp := fun f e c => vcheck f [] [0] (.plain c e 1)

/-- SPARAM: job parameter IMM[3:0], untagged; the table names 0 to 7. -/
def cSparam : VOp := fun f e c =>
  vcheck f [.vd, .imm] [0]
    (let k := f.imm % 16
     let x := if k < 8 then c.params.getD k 0 else Config.freeNat e.free
     (VRes.plain (c.setS f.vd (BitVec.ofNat 64 x) VTag.clear) e 1).used 1)

end Sys2Proof.Machine
end

