-- ==== Sys2Proof/Machine/Issue.lean ====
section
/-!
DEFINITION. The issue of one kernel instruction on a vector core of the package: its surroundings, its result, faults, key
loads, yields and the end of an entry (R174, R194, R195, R206 to R211, R224).
-/

namespace Sys2Proof.Machine

/-! ## Machine checks and reloads (R218 to R220) -/

/-- CLU_GOLD_STAT.QUEUED: the reloads of a package cluster that wait behind the one that runs (R219). -/
def State.showReloads (s : State) (cl : Nat) : State :=
  s.fset .CLU_GOLD_STAT_QUEUED cl (min 15 ((s.reloads.filter (fun v => v / 8 == cl)).length - 1))

/-- A halted core is out of dispatch until its store has been rewritten (R159). -/
def State.exclude (s : State) (v : Nat) : State := (s.fset .VC_STATE_STATE v 4).fset .DIE_VC_CLOCK_EXCLUDED v 1

/-- A halted core waits for its control store to be reloaded, in order of halt. -/
def State.queueReload (s : State) (v : Nat) : State :=
  ({ s.exclude v with reloads := s.reloads ++ [v] }).showReloads (v / 8)

/-- A core is retired until the next reset (R220); its record carries the cause and the groups of the last check (R232). -/
def State.retireCore (s : State) (v cause : Nat) : State :=
  let s := s.fset .VC_STATE_STATE v 5
  let s := ({ s with reloads := s.reloads.filter (· != v) }).showReloads (v / 8)
  let s := s.event 0x8003 6 (v / 16) 4 v (cause * 2 ^ 24 + s.fget .VC_MC_LAST_GROUPS v * 2 ^ 16) 0
  ((s.vcReady v false).unreserve v).growAll (v / 16)

/-- The machine checks of causes 0x01 to 0x04 that a core has taken within the last second, this one among them. -/
def State.recentChecks (s : State) (v : Nat) : List Nat :=
  (sparseGet [] s.mcTimes v).filter (fun t => s.since t < 1000000000) ++ [s.time.ticks]

/-- A machine check on a core (R218 to R220): recorded, its job replayed or ended, the core excluded until its control
store or kernel store has been rewritten, or retired. A check during a save or a restore ends the job. -/
def State.machineCheck (s : State) (v cause groups addr : Nat) : State :=
  let st := s.fget .VC_STATE_STATE v
  if 4 ≤ st then s
  else
    let s := s.coreCheck v cause groups addr (s.coreRing v)
    let seq := s.eventSeq
    let s := match (s.core v).job.bind s.job? with
      | none => s
      | some j => if st = 2 || st = 3 then s.endJob j jMachineCheck seq true else s.checkJob j seq
    let times := s.recentChecks v
    let s := { s with mcTimes := sparseSet [] s.mcTimes v times }
    if 3 ≤ times.length then s.retireCore v cause
    else if cause = 3 then s.exclude v
    else s.queueReload v

/-! ## Faults (R194, R195) -/

/-- The kernel-store word address of word `pc` of an owner kernel, or vendor microcode's control-store address (R196). -/
def State.wordAddr (s : State) (kernel pc : Nat) : Nat := if kernel = 0xFF then pc else (s.kernelAt kernel).block * 64 + pc

/-- A secrecy or kernel fault at the issue on core `v` at word `pc`: owner kernels lose the job, vendor microcode its core
too. In a CHECK entry it fails the release check (R224). -/
def State.vcFault (s : State) (v : Nat) (j : Job) (kernel pc cause : Nat) : State :=
  let sec := decide (cause < 0x10)
  let checking := (s.core v).checking
  let s := if sec then s.fadd .VC_FAULTS_SECRECY v 1 else s.fadd .VC_FAULTS_KERNEL v 1
  let owner := kernel != 0xFF
  let (code, sev) := if !owner then (0x8105, 6) else if sec then (0x8101, 5) else (0x8102, 4)
  let s := s.event code sev (v / 16) 4 v (cause * 2 ^ 24 + s.wordAddr kernel pc % 2 ^ 16) j.ring
  let st := if !owner then jMachineCheck else if sec then jSecrecyFault else jKernelFault
  if checking then s.failCheck j (.kernel kernel (s.core v).entry)
  else
    let s := s.endJob j st s.eventSeq true
    if owner then s else s.queueReload v

/-! ## Issue -/

/-- The job for which a core may issue: running, bound, and, for an owner kernel, staged. -/
def State.issuing (s : State) (v : Nat) : Option Job :=
  let c := s.core v
  if s.fget .VC_STATE_STATE v = 1 && c.codeLen != 0 && !s.tap.halted.contains v then
    match c.job.bind s.job? with
    | some j => if j.phase = .bound then some j else none
    | none => none
  else none

/-- What surrounds an issue on core `v`. -/
def State.vcEnv (s : State) (v : Nat) : VEnv :=
  { fill := s.fget .VC_MGEN_STAT_FILL v, mgen := (s.reg .VC_MGEN_STAT v).toNat, free := s.free,
    shared := sparseGet [] s.shared (v / 8) }

/-- The word that an owner kernel's core fetches next, as SECDED corrects it: the kernel's own (R217, R228). -/
def State.kernelWord (s : State) (v : Nat) : Nat := leAt (s.kernelAt (s.core v).kernel).code (8 * (s.core v).pc) 8

/-- The bits of that kernel-store word, or of its check bits, that have changed since it was written. -/
def State.kernelBits (s : State) (v : Nat) : Nat :=
  sparseGet 0 (s.seqOf v).krn (s.wordAddr (s.core v).kernel (s.core v).pc)

/-- The microword that a core fetches next: its sequencer's, or the one that carries out the next kernel word (R212). -/
def State.microAddr (s : State) (v : Nat) : Nat :=
  if (s.core v).kernel = 0xFF then (s.seqOf v).addr else Config.microDecode (s.kernelWord v) % 16384

/-- What a core's fetch detects: cause, groups and address of a machine check (R214, R217). -/
def State.fetchFault (s : State) (v : Nat) : Option (Nat × Nat × Nat) :=
  match s.ctlFault v (s.microAddr v) with
  | some (c, g) => some (c, g, s.microAddr v)
  | none =>
    let c := s.core v
    if c.kernel ≠ 0xFF ∧ c.pc < c.codeLen ∧ 2 ≤ popCount 72 (s.kernelBits v) then some (3, 0, s.wordAddr c.kernel c.pc) else none

/-- A kernel-store word in which one bit has changed is corrected on fetch and counted (R217). -/
def State.countCorrected (s : State) (v : Nat) : State :=
  if (s.core v).kernel ≠ 0xFF ∧ popCount 72 (s.kernelBits v) = 1 then s.fadd .VC_MC_COUNT_KS_CORRECTED v 1 else s

/-- The microword of vendor microcode that a core executes. -/
def State.micro (s : State) (v : Nat) : Micro := microOf (s.ctlWord v (s.seqOf v).addr)

/-- What the cluster deckle grants a core's vendor microcode in shared memory (R197, R437): base, size, read, write. -/
def State.vcGrants (s : State) (v : Nat) : List (Nat × Nat × Bool × Bool) :=
  let k := v / 16 * 8 + 1 + v / 8 % 2
  let m := 0x5000 + v
  let x := s.dklAt k
  let kind := fun (r w : Nat) => (List.range 4).any (fun e => entryMatches (s.regionWord k r (w + e)) m)
  if s.flag .DKL_CTL_BOOT_RULE k then []
  else
    ((List.range 16).filter (fun r => !x.loaded || x.rewritten.contains r)).map (fun r =>
        (s.regionWord k r 0 * 64, s.regionWord k r 1 * 64, kind r 2, kind r 6)) ++
      (if x.loaded && (s.uzLines k m false 0).any (fun l => !x.rewritten.contains (Config.uzRegion k l % 16))
       then [(0, 0x400000, true, true)] else [])

/-- The cycles of the sequencer that an instruction has waited on a core: for masks or a key (R188, R206, R210). -/
def State.waitCycles (s : State) (v : Nat) : Nat :=
  match (s.core v).wait with
  | none => 0
  | some (t, _) => (s.time.ticks - t) * s.coreMhz v / 4000

/-- The core with the cycles that it has waited. -/
def State.caught (s : State) (v : Nat) : VCore :=
  let c := s.core v
  { c with cycles := c.cycles + s.waitCycles v, sinceYield := c.sinceYield + s.waitCycles v, wait := none }

/-- An instruction that cannot issue yet waits from now, if it does not wait already. -/
def State.waitOn (s : State) (v : Nat) (masks : Bool) : State :=
  let c := s.core v
  s.setCore v { c with wait := some ((c.wait.map (·.1)).getD s.time.ticks, masks) }

/-- The core as it issues: vendor microcode at its control-store address, with the site that the microword names (R193),
and with what its deckle grants. -/
def State.atIssue (s : State) (v : Nat) : VCore :=
  let c := s.caught v
  if c.kernel = 0xFF then
    let a := (s.seqOf v).addr
    { c with pc := a, sites := if (s.micro v).site = 0 then [] else [a], grants := s.vcGrants v }
  else c

/-- The declared cycle count of an owner kernel's job (R222). -/
def State.declaredOf (s : State) (j : Job) : Nat :=
  match j.oper with
  | some (.kernel i e) => declaredCycles ((s.kernelAt i).entry e) (j.in0.length + j.in1.length)
  | _ => 0

/-- A pre-emptible owner kernel has reached 3,000 cycles since its last yield point (R210). -/
def State.yieldOver (s : State) (c : VCore) : Bool :=
  c.kernel != 0xFF && decide ((s.kernelAt c.kernel).pages ≤ 8) && decide (3000 ≤ c.sinceYield)

/-- An owner kernel's job has reached four times its declared cycle count (R211). -/
def State.runOver (s : State) (j : Job) (c : VCore) : Bool := c.kernel != 0xFF && decide (4 * s.declaredOf j ≤ c.cycles)

/-- What an issue on a core meets before its own effect: execution past the last word, or a limit reached. -/
def State.issueFault (s : State) (j : Job) (c : VCore) : Option Nat :=
  if c.kernel ≠ 0xFF && c.codeLen ≤ c.pc then some cFlow
  else if s.yieldOver c then some cYieldCount
  else if s.runOver j c then some cRun
  else none

/-- The core after an issue of `cyc` cycles. -/
def VCore.spent (c : VCore) (cyc : Nat) : VCore := { c with cycles := c.cycles + cyc, sinceYield := c.sinceYield + cyc }

/-- A finished issue is kept: the core, its cycles, the masks drawn, shared memory, and the free counter. -/
def State.vcDone (s : State) (v : Nat) (c : VCore) (free : Nat) (shared : Memory) (cyc drawn : Nat) : State :=
  let s := { s.setCore v (c.spent cyc) with free := free, shared := sparseSet [] s.shared (v / 8) shared }
  let s := s.fset .VC_MGEN_STAT_FILL v (s.fget .VC_MGEN_STAT_FILL v - drawn)
  s.fset .VC_RUN_CYCLES_CYCLES v (min (2 ^ 32 - 1) (c.cycles + cyc))

/-! ## The sequence of microwords (R213, R214, Table 07.6) -/

/-- A source of an instruction is tagged. -/
def srcTagged (f : VFields) (c : VCore) : Bool :=
  (c.vtag f.va).t || (c.vtag f.vb).t || (c.vtag f.vc).t || (c.stag f.ss).t

/-- Condition CSEL of Table 07.6 as a core with word `w` decoded reads it. The bits of that word count from [61:58] down,
then from [28:21] down; the four selects past them read 0. -/
def State.cselBit (s : State) (v : Nat) (f : VFields) (w : Nat) (c : VCore) (sel : Nat) : Bool :=
  let q := s.seqOf v
  match sel with
  | 0 => false
  | 1 => true
  | 2 => q.zero
  | 3 => q.neg
  | 4 => q.carry
  | 5 => q.loopZero
  | 6 => c.s2.any (fun u => decide (c.cycles < u.2.doneAt))
  | 7 => c.kk.any (fun u => decide (c.cycles < u.2.doneAt))
  | 8 => decide (c.cycles < c.aes.doneAt)
  | 9 => decide (4096 ≤ (s.vcEnv v).usable)
  | 0xA => c.preempt
  | 0xB => srcTagged f c
  | n =>
    if n < 0x10 then false
    else if n < 0x14 then w.testBit (61 - (n - 0x10))
    else if n < 0x1C then w.testBit (28 - (n - 0x14))
    else if n < 0x20 then false
    else Config.vendorStatus n s.free

/-- The conditions that a microword's multi-way branch takes. -/
def Micro.taken (m : Micro) : List Nat := if m.nsel = 1 then m.csel.take m.mway else []

/-- A branch takes a condition from a tagged scalar (R214). -/
def State.condTagged (s : State) (v : Nat) : Bool :=
  (s.seqOf v).tagged && (s.micro v).taken.any (fun n => decide (2 ≤ n ∧ n ≤ 5))

/-- The next micro-address, with the return addresses after it. What a return with no address on the stack and the entry
of the decode microroutine give is not stated: a free value. -/
def State.nextMicro (s : State) (v : Nat) (f : VFields) (w : Nat) (c : VCore) : Nat × List Nat :=
  let q := s.seqOf v
  let m := s.micro v
  match m.nsel with
  | 1 => (m.next ||| ((m.taken.zipIdx).map (fun x => if s.cselBit v f w c x.1 then 2 ^ x.2 else 0)).sum, q.stack)
  | 2 => match q.stack with
    | a :: r => (a, r)
    | [] => (Config.freeNat s.free % 16384, [])
  | 3 => (m.next, (q.addr + 1) % 16384 :: q.stack)
  | 4 => (Config.freeNat s.free % 16384, q.stack)
  | _ => (m.next, q.stack)

/-- The conditions that an instruction of major opcode `m` and function `n` leaves: the last scalar result of 0x30, the
count of LOOP. A carry is that of SADD and SADDI; of other operations it is not stated, a free value. -/
def MicroSeq.after (q : MicroSeq) (free m n : Nat) (f : VFields) (c d : VCore) : MicroSeq :=
  if m = 0x30 then
    let x := d.sreg f.vd
    let sum := (c.sreg f.va).toNat + (if n = 0 then (c.sreg f.vb).toNat else unsignedOf 64 f.simm)
    { q with zero := x == 0, neg := x.msb, tagged := (d.stag f.vd).t
             carry := if n = 0 || n = 9 then decide (2 ^ 64 ≤ sum) else Config.freeNat free % 2 == 1 }
  else if m = 0x33 then { q with loopZero := d.sreg f.ss == 0, tagged := (d.stag f.ss).t }
  else q

/-! ## One instruction -/

/-- The byte of shared memory that a memory instruction asks for and its deckle refuses first, where there is one. -/
def refusedAt (m n : Nat) (f : VFields) (c : VCore) : Option Nat :=
  let at_ := fun (k : Nat) (addr : Nat → Nat) (act : Nat → Bool) =>
    ((List.range k).find? (fun e => act e && decide (0x10000000 ≤ addr e ∧ addr e < 0x10400000))).map (fun e => addr e - 0x10000000)
  let els := fun addr => at_ (eCount f.w) addr (c.active f f.w)
  if m = 0x28 || m = 0x29 then
    (if n = 1 then els (strideAddr f c)
     else if n = 3 then at_ f.shares (fun k => c.base f + 512 * k) (fun _ => true)
     else els (unitAddr f c))
  else if m = 0x2A || m = 0x2B then els (indexAddr f c)
  else if m = 0x31 then at_ 1 (fun _ => c.base f) (fun _ => true)
  else none

/-- An issue ends in a fault; a refusal by the cluster deckle is counted there (R440). -/
def State.issueFaults (s : State) (v : Nat) (j : Job) (c : VCore) (i : Nat × Nat) (f : VFields) (x : Nat) : State :=
  let s := if x = cDeckle then
      match refusedAt i.1 i.2 f c with
      | some o => s.countRefusal (v / 16 * 8 + 1 + v / 8 % 2) ((if c.kernel = 0xFF then 0x5000 else 0xD000) + v) o
      | none => s
    else s
  s.vcFault v j c.kernel c.pc x

/-- A core has reached a yield point: the interval is kept, and a pending request starts the save (R156). -/
def State.yieldPoint (s : State) (v : Nat) : State :=
  let c := s.core v
  match c.job.bind s.job? with
  | none => s
  | some j =>
    let s := if s.preemptible j then
        s.fset .VC_YIELD_MAX_CYCLES v (max (s.fget .VC_YIELD_MAX_CYCLES v) (min 4095 c.sinceYield))
      else s
    let s := s.setCore v { c with sinceYield := 0, yieldAt := s.time.ticks }
    if c.preempt && s.saveRoom v then s.fset .VC_STATE_STATE v 2 else s

/-- Vendor microcode goes on to its next microword, at a yield point where NSEL is 5. -/
def State.microStep (s : State) (v : Nat) (i : Nat × Nat) (f : VFields) (c : VCore) : State :=
  let q := (s.seqOf v).after s.free i.1 i.2 f c (s.core v)
  let yields := (s.micro v).nsel == 5
  let (a, st) := (s.setSeq v q).nextMicro v f (kword i.1 i.2 f) (s.core v)
  let s := { s.setSeq v { q with addr := a, stack := st } with free := s.free + 1 }
  if yields then s.yieldPoint v else s

/-- A command, the instruction of major opcode `i.1` and function `i.2`, issues what the core has fetched: any instruction
of vendor microcode, and of an owner kernel the one at its word (R177). A fetch that a machine check stops, a limit that
is reached and a reserved word come first (R178, R208, R210, R214). -/
def State.fetched (s : State) (v : Nat) (i : Nat × Nat) (f : VFields) (k : Job → VCore → State → State) : State :=
  match s.issuing v with
  | none => s
  | some j =>
    match s.fetchFault v with
    | some (cause, groups, addr) => s.machineCheck v cause groups addr
    | none =>
      let c := s.atIssue v
      match s.issueFault j c with
      | some x => s.vcFault v j c.kernel c.pc x
      | none =>
        if c.kernel = 0xFF then
          (if s.condTagged v then s.vcFault v j c.kernel c.pc cBranch else (k j c s).microStep v i f c)
        else
          match kdecode (s.kernelWord v) with
          | none => (s.countCorrected v).vcFault v j c.kernel c.pc cField
          | some x => if x = (i.1, i.2, f.cut) then k j c (s.countCorrected v) else s

/-- One instruction on core `v`. A control instruction sets the next word itself. -/
def State.issueWith (s : State) (v : Nat) (i : Nat × Nat) (f : VFields) (op : Job → VOp) (control : Bool) : State :=
  s.fetched v i f (fun j c s =>
    match op j f.cut (s.vcEnv v) c with
    | .stall => s.waitOn v true
    | .fault x => s.issueFaults v j c i f.cut x
    | .done c' free sh cyc drawn =>
      s.vcDone v (if control then c' else c'.goto (c.pc + 1)) free sh cyc drawn)

/-- An instruction that falls through to the next word. -/
def State.issue (s : State) (v : Nat) (i : Nat × Nat) (f : VFields) (op : VOp) : State := s.issueWith v i f (fun _ => op) false

/-- A branch, LOOP, CALL or RET. -/
def State.issueControl (s : State) (v : Nat) (i : Nat × Nat) (f : VFields) (op : VOp) : State :=
  s.issueWith v i f (fun _ => op) true

/-! ## Key loads (R206) -/

/-- The key that a reference names: its type code and stored form; type 0 is an undeclared one. -/
def Job.keyRef (j : Job) (c : VCore) (k : Nat) : Nat × Bytes :=
  if c.kernel = 0xFF then (if k = 0 then (j.keyType, j.keyBytes) else (0, [])) else j.krefs.getD k (0, [])

/-- The key that a KEYLOAD names is a secret one. -/
def Job.loadSecret (j : Job) (c : VCore) (f : VFields) : Bool := (keyTypeOf (j.keyRef c (f.imm / 16 % 4)).1).any KeyType.secret

/-- A KEYLOAD of core `v` waits for the second evaluation of its release (R206, R431). -/
def State.doubtLoad (s : State) (v : Nat) : State :=
  if s.prot.doubled.contains (.load v) then s.waitOn v false
  else { s.waitOn v false with prot := { s.prot with doubled := s.prot.doubled ++ [.load v] } }

/-- KEYLOAD: a chunk of a stored form, as a share group for a secret key, in VD alone for a public one. -/
def keyLoad (j : Job) : VOp := fun f e c =>
  vcheck f [.w, .vd, .imm] [0]
    (if f.imm / 2 % 8 ≠ 0 || f.imm / 64 % 4 ≠ 0 then .fault cField
     else
      let k := j.keyRef c (f.imm / 16 % 4)
      let x := vOfBytes (sliceZ k.2 (f.imm / 256 * 512) 512)
      let n := f.imm % 2 + 2
      match keyTypeOf k.1 with
      | none => .fault cKref
      | some t =>
        if !t.secret then
          if f.imm % 2 = 1 then .fault cKref else .plain (c.setV f.vd x VTag.clear) e 8
        else if c.order = 2 && n = 2 then .fault cOrder
        else if 32 < f.vd + n then .fault cPlace
        else
          .done (c.setShares f.vd (c.newGid (e.free + n) (regRange f.vd n)) (shareOut 0 0 0 e.free x n) 0) (e.free + n + 1)
            e.shared (8 * n) 0)

/-- A KEYLOAD on core `v`: it waits for a key that has not arrived, and a locked key store ends the job. With F2 mode set, the
release of a secret key is a security decision, evaluated twice (R6, R150). -/
def State.issueKey (s : State) (v : Nat) (i : Nat × Nat) (f : VFields) : State :=
  s.fetched v i f (fun j c s =>
    if s.keysLocked then s.endJob j jServiceLockdown 0 true
    else if j.due.contains (if c.kernel = 0xFF then 0 else f.imm / 16 % 4) then s.waitOn v false
    else if s.otp.f2 && j.loadSecret c f && !c.released then s.doubtLoad v
    else
      match keyLoad j f.cut (s.vcEnv v) c with
      | .stall => s.waitOn v true
      | .fault x => s.vcFault v j c.kernel c.pc x
      | .done c' free sh cyc drawn => s.vcDone v { c'.goto (c.pc + 1) with released := false } free sh cyc drawn)

/-! ## Yield points (R155, R209, R210) -/

/-- YIELD: as FENCE, and a fault while a unit holds state. -/
def cYield : VOp := fun f e c =>
  vcheck f [] [0] (if c.unitHeld then .fault cYieldUnit else .plain c e (1 + (c.unitsDone - c.cycles)))

/-- The core once its units have finished, as FENCE waits for them. -/
def VCore.fenced (c : VCore) : VCore := { c with sinceYield := c.sinceYield + (c.unitsDone - c.cycles) }

/-- A YIELD on core `v`: the wait for the units counts towards the limit (R209, R210). -/
def State.issueYield (s : State) (v : Nat) (i : Nat × Nat) (f : VFields) : State :=
  s.fetched v i f (fun j c s =>
    match cYield f.cut (s.vcEnv v) c with
    | .stall => s
    | .fault x => s.vcFault v j c.kernel c.pc x
    | .done c' free sh cyc drawn =>
      if s.yieldOver c.fenced then s.vcFault v j c.kernel c.pc cYieldCount
      else (s.vcDone v (c'.goto (c.pc + 1)) free sh cyc drawn).yieldPoint v)

/-! ## The end of an entry (R211, R224) -/

/-- The Out segment of a job's entry: base and size in bytes. -/
def Kernel.outSeg (k : Kernel) (e : Nat) : Nat × Nat :=
  let i := entryLayout (k.entry e) / 16 % 4
  let x := k.segPages.getD i (0, 0, false, false)
  (x.1 * 4096, x.2.1 * 4096)

/-- The CHECK entry begins: registers cleared, segments intact. -/
def VCore.startCheck (c : VCore) (k : Kernel) (e : Nat) : VCore :=
  { VCore.idle with
    job := c.job, kernel := c.kernel, entry := e, checking := true, pc := leAt (k.entry e) 0 4, codeLen := c.codeLen,
    sites := c.sites, order := c.order, segs := c.segs, mem := c.mem, recs := c.recs, nextGroup := c.nextGroup,
    params := c.params.take 7 ++ [e], cycles := c.cycles, sinceYield := c.sinceYield, preempt := c.preempt,
    passed := c.passed }

/-- END of an owner kernel's entry with status `st` and length `n`: the result waits for its release check. -/
def State.kernelEnd (s : State) (v : Nat) (j : Job) (c : VCore) (st n : Nat) : State :=
  match j.oper with
  | some (.kernel i e) =>
    let k := s.kernelAt i
    let o := k.outSeg e
    if j.outLen < n || o.2 < n || (st = 1 && n ≠ 0) || (c.checking && n ≠ 0) then s.vcFault v j c.kernel c.pc cEnd
    else if c.checking then
      if st = 1 then s.failCheck j (.kernel i e) else s.setResult j (.ok j.result)
    else if st = 1 then s.setResult j (.fail jVerifyFail)
    else
      let out := memRead 0 c.mem o.1 n
      let ck := byteAt (k.entry e) 20
      if ck = 0xFF then s.setResult j (.ok out)
      else (s.setJob { j with result := out }).setCore v (c.startCheck k ck)
  | _ => s

/-- An END on core `v`. Vendor microcode ends its jobs by the operation's own row. -/
def State.issueEnd (s : State) (v : Nat) (i : Nat × Nat) (f : VFields) : State :=
  s.fetched v i f (fun j c s =>
    let g := f.cut
    if !g.clean [.ss, .imm] then s.vcFault v j c.kernel c.pc cField
    else if c.kernel = 0xFF then s
    else
      let s := s.vcDone v c s.free (s.vcEnv v).shared 1 0
      s.kernelEnd v j (s.core v) (g.imm % 2) (c.sreg g.ss).toNat)

/-! ## Limits and units (R185, R210, R211) -/

/-- HASH_UNIT_COMPLETE (R185): the operation of a unit ends; units are the SHA-2 compressors 0 to 3, the Keccak units 4 and
5, and the AES unit 6. -/
def execHashUnitComplete (vc unit : Nat) (s : State) : Out :=
  match s.issuing vc with
  | none => .next s
  | some _ =>
    if unit < 7 then
      let c := s.core vc
      let c' := c.freeUnit unit
      .next (s.setCore vc { c' with sinceYield := c.sinceYield + (c'.cycles - c.cycles) })
    else .next s

/-- YIELD_INTERVAL_EXCEEDED (R210). -/
def execYieldIntervalExceeded (vc : Nat) (s : State) : Out :=
  match s.issuing vc with
  | none => .next s
  | some j =>
    let c := s.core vc
    if s.yieldOver (s.caught vc) then .next (s.vcFault vc j c.kernel c.pc cYieldCount) else .next s

/-- DECLARED_COUNT_PASSED (R211): event 0x8204, once for a job. -/
def execDeclaredCountPassed (vc : Nat) (s : State) : Out :=
  match s.issuing vc with
  | none => .next s
  | some j =>
    let c := s.core vc
    if c.kernel ≠ 0xFF && !c.passed && s.declaredOf j < (s.caught vc).cycles then
      .next ((s.setCore vc { c with passed := true }).event 0x8204 3 (vc / 16) 4 c.kernel (j.op % 8) j.ring)
    else .next s

/-- RUN_LIMIT_REACHED (R211). -/
def execRunLimitReached (vc : Nat) (s : State) : Out :=
  match s.issuing vc with
  | none => .next s
  | some j =>
    let c := s.core vc
    if s.runOver j (s.caught vc) then .next (s.vcFault vc j c.kernel c.pc cRun) else .next s

/-! ## Calls (R230) -/

/-- A core that starts an entry of an owner kernel: segments set, inputs staged (R199, R230). -/
def kernelCore (k : Kernel) (i e : Nat) (id : Nat) (in0 in1 : Bytes) (lo : Nat) : VCore :=
  let d := k.entry e
  let l := entryLayout d
  let sg := k.segPages
  let base := fun n => ((sg.getD n (0, 0, false, false)).1) * 4096
  let m := if l.testBit 6 then memWrite 0 [] (base (l % 4)) in0 else []
  let m := if l.testBit 7 then memWrite 0 m (base (l / 4 % 4)) in1 else m
  { VCore.idle with
    job := some id, kernel := i, entry := e, pc := leAt d 0 4, codeLen := k.code.length / 8, sites := k.sites,
    order := k.order, segs := segBytesOf sg, mem := m,
    params := [in0.length, in1.length, lo, base 0, base 1, base 2, base 3, e] }

/-- OWNER_KERNEL_CALL (R230): a bound call's inputs are staged at the bases of their segments, and execution starts at the
entry's OFFSET. -/
def execOwnerKernelCall (job : Nat) (s : State) : Out :=
  match s.job? job with
  | none => .next s
  | some j =>
    match j.oper, j.core with
    | some (.kernel i e), some v =>
      if j.phase = .bound && s.fget .VC_STATE_STATE v = 1 && (s.core v).job = some job && (s.core v).codeLen = 0 then
        .next (s.setCore v { kernelCore (s.kernelAt i) i e j.id j.in0 j.in1 j.outLen with preempt := (s.core v).preempt })
      else .next s
    | _, _ => .next s

end Sys2Proof.Machine
end

