-- ==== Sys2Proof/Machine/Kernels.lean ====
section
/-!
DEFINITION. Control stores, machine checks and owner kernels: scrubbing, reloads, staging, installation and removal
(R212 to R229).
-/

namespace Sys2Proof.Machine

/-! ## Scrubbing and machine checks (R216 to R218) -/

/-- Bits change in a store: 1 the core's control store, 2 its kernel store, 3 its cluster's golden copy. -/
def State.upset (s : State) (v kind mask addr : Nat) : State :=
  match kind with
  | 1 => s.setSeq v ((s.seqOf v).flipCtl (addr % 16384) mask)
  | 2 => s.setSeq v ((s.seqOf v).flipKrn (addr % 8192) mask)
  | 3 => s.flipGold (v / 8) (addr % 16384) mask
  | _ => s

/-- CONTROL_STORE_SCRUB (R216): an idle or running core reads the next word of its control store, unless scrubbing is
disabled. The table has no row for an upset: the bits `groups` of the word `addr` of store `cause` change first, none with
`cause` 0. -/
def execControlStoreScrub (vc cause groups addr : Nat) (s : State) : Out :=
  if s.dies * 16 ≤ vc then .next s
  else
    let s := s.upset vc cause groups addr
    if 2 ≤ s.fget .VC_STATE_STATE vc || !s.flag .VC_CS_SCRUB_EN vc then .next s
    else
      let a := s.fget .VC_CS_SCRUB_NEXT vc
      let s := s.fwrap .VC_CS_SCRUB_NEXT vc 1
      .next (match s.ctlFault vc a with
        | some (1, g) => s.machineCheck vc 2 g a
        | _ => s)

/-- A core returns to dispatch (R218 step 5). -/
def State.reloaded (s : State) (v : Nat) : State :=
  let s := ({ s with reloads := s.reloads.filter (· != v) }).showReloads (v / 8)
  ((s.fset .VC_STATE_STATE v 0).fset .DIE_VC_CLOCK_EXCLUDED v 0).growAll (v / 16)

/-- CONTROL_STORE_RELOAD_DONE (R218, R219): the reload that its cluster's golden copy serves has taken 60,000 sequencer
cycles. `good` says whether the read-back passed; the bits `corrected` of the golden copy's word `bad` have changed before
the reload reads it. A word in which one bit has changed is corrected and counted; one in which more have is not. -/
def execControlStoreReloadDone (vc : Nat) (good : Bool) (corrected bad dt : Nat) (s : State) : Out :=
  let s := s.elapse dt
  let cl := vc / 8
  if (s.reloads.find? (fun v => v / 8 == cl)) ≠ some vc || s.goldBad.contains cl || dt * s.setMhz (vc / 16) < 120000000 then .next s
  else
    let s := s.flipGold cl (bad % 16384) corrected
    let s := s.fadd .CLU_GOLD_STAT_CORRECTED cl (s.goldOnes cl).length
    match s.goldMany cl with
    | a :: _ =>
      let s := (s.event 0x8002 6 (vc / 16) 4 vc a cl).fset .CLU_GOLD_STAT_VALID cl 0
      .next (({ s with goldBad := s.goldBad ++ [cl] }).groupBits (vc / 16))
    | [] =>
      if good then .next (((s.reloadCtl vc).reloaded vc).fadd .VC_MC_COUNT_RELOADS vc 1)
      else .next (s.retireCore vc (s.fget .VC_MC_LAST_CAUSE vc))

/-- KERNEL_STORE_REWRITE_DONE (R217): the kernel store holds the MP's copies again. -/
def execKernelStoreRewriteDone (vc dt : Nat) (s : State) : Out :=
  let s := s.elapse dt
  if s.fget .VC_STATE_STATE vc = 4 && !s.reloads.contains vc then .next ((s.reloadKrn vc).reloaded vc) else .next s

/-- GOLDEN_COPY_REWRITE_DONE (R219): the golden copy holds the verified microcode again, and the waiting reloads proceed. -/
def execGoldenCopyRewriteDone (cluster dt : Nat) (s : State) : Out :=
  let s := s.elapse dt
  if s.goldBad.contains cluster then
    let s := { s with goldBad := s.goldBad.filter (· != cluster), gold := sparseSet [] s.gold cluster [] }
    .next ((s.fset .CLU_GOLD_STAT_VALID cluster 1).groupBits (cluster / 2))
  else .next s

/-! ## Kernel images (R221 to R225) -/

/-- The header fields of an image. -/
def kCodeLen (b : Bytes) : Nat := leAt b 8 4
def kSites (b : Bytes) : Nat := leAt b 12 2

/-- Length of M: header, site list and code. -/
def kMessageLen (b : Bytes) : Nat := 256 + 4 * kSites b + kCodeLen b

/-- A kernel from the bytes of M. -/
def kernelOf (m : Bytes) (block : Nat) : Kernel :=
  { header := m.take 256, sites := (List.range (kSites m)).map (fun i => leAt m (256 + 4 * i) 4),
    code := sliceZ m (256 + 4 * kSites m) (kCodeLen m), measure := sha3 48 m, block := block, callable := true }

/-- A list rises strictly. -/
def rising : List Nat → Bool
  | a :: b :: t => decide (a < b) && rising (b :: t)
  | _ => true

/-- A word that is a DECLV or a DECLS: MAJOR 0x3B, FUNC 0 or 1 beside MSK and ORD. -/
def isDeclass (w : Nat) : Bool := natBits w 63 58 == 0x3B && decide (natBits w 26 21 ≤ 1)

/-- A segment word obeys its layout. -/
def segWordOk (w : Nat) : Bool := decide (w % 128 ≤ 64) && natBits w 13 7 == 0

/-- An entry descriptor obeys Table 07.10 and the segment rules. -/
def entryOk (k : Kernel) (d : Bytes) : Bool :=
  let l := entryLayout d
  let used := fun (b seg : Nat) => l.testBit b && k.seg seg % 128 == 0
  let in0 := if l.testBit 6 then k.segBytes (l % 4) else 0
  let in1 := if l.testBit 7 then k.segBytes (l / 4 % 4) else 0
  let o := k.seg (l / 16 % 4)
  decide (leAt d 0 4 < k.code.length / 8) && decide (1688 ≤ leAt d 4 4) && decide (4 ≤ leAt d 8 4) && decide (l < 2048) &&
    leAt d 14 2 == 0 && !used 6 (l % 4) && !used 7 (l / 4 % 4) && !used 8 (l / 16 % 4) &&
    (!l.testBit 8 || (o.testBit 14 && !o.testBit 15)) && decide (leAt d 16 4 ≤ in0 + in1) &&
    (byteAt d 20 == 0xFF || decide (byteAt d 20 < k.entries)) && leAt d 21 3 == 0

/-- Check 3 of R228 on the bytes of M. -/
def kernelHeaderOk (m : Bytes) : Bool :=
  let k := kernelOf m 0
  let n := k.entries
  leAt m 0 4 == 0x4B4F565A && leAt m 4 2 == 0x0100 && leAt m 6 2 == 256 && decide (8 ≤ kCodeLen m) &&
    decide (kCodeLen m ≤ 65536) && kCodeLen m % 8 == 0 && decide (kSites m ≤ 64) && (k.order == 1 || k.order == 2) &&
    decide (1 ≤ n) && decide (n ≤ 8) && decide (leAt m 16 4 ≤ 1) && (List.range 4).all (fun i => segWordOk (k.seg i)) &&
    decide (k.pages ≤ 64) && allZero (sliceZ m 56 8) && (List.range n).all (fun e => entryOk k (k.entry e)) &&
    allZero (sliceZ m (64 + 24 * n) (192 - 24 * n)) && rising k.sites &&
    k.sites.all (fun w => decide (w < k.code.length / 8) && isDeclass (leAt k.code (8 * w) 8))

/-! ## The kernel store (R228) -/

/-- Blocks of 64 words that a kernel takes. -/
def Kernel.blocks (k : Kernel) : Nat := ceilDiv k.code.length 512

/-- Whether a block is taken by an installed kernel. -/
def State.blockTaken (s : State) (b : Nat) : Bool :=
  s.kernels.any (fun e => !e.2.header.isEmpty && decide (e.2.block ≤ b) && decide (b < e.2.block + e.2.blocks))

/-- The lowest free run of `n` blocks. -/
def State.freeBlocks (s : State) (n : Nat) : Option Nat :=
  (List.range 128).find? (fun b => decide (b + n ≤ 128) && (List.range n).all (fun i => !s.blockTaken (b + i)))

/-- A kernel is installed. -/
def State.setKernel (s : State) (i : Nat) (k : Kernel) : State := { s with kernels := sparseSet Kernel.none s.kernels i k }

/-- The words of a kernel, from word address `a` and `n` of them, are written in every core's kernel store. -/
def State.writeStores (s : State) (a n : Nat) : State :=
  s.seqs.foldl (fun s e => s.setSeq e.1 { e.2 with krn := e.2.krn.filter (fun x => decide (x.1 < a ∨ a + n ≤ x.1)) }) s

/-! ## Commands (R226 to R229) -/

/-- The payload checks that the kernel commands share: an index from 0 to 31, then three zero bytes. -/
def kernelIndex (p : Bytes) : List (Bool × Nat × Nat) :=
  [(decide (31 < byteAt p 0), mBadParam, 0), (!allZero (sliceZ p 1 3), mBadParam, 1)]

/-- KERNEL_STAGE_OPEN (R227): an earlier image is discarded, and channel 1 of die 0 is bound to M, which the key and the
signatures follow (R264). -/
def execKernelStageOpen (s : State) : Out :=
  .next (s.cmd 0x0B10 (fun s p =>
    match firstFail (kernelIndex p ++ [(decide (73728 < leAt p 4 4), mBadParam, 4)]) with
    | some (st, d) => s.respond st d []
    | none => ((({ s with kstage := ⟨some (byteAt p 0), leAt p 4 4, []⟩ }).snoopStage 1 10 2 (leAt p 4 4 - 5454)).success)))

/-- Bytes of a staged image that its measurement covers. -/
def Stage.message (g : Stage) : Bytes := g.data.take (kMessageLen g.data)

/-- KERNEL_STAGE_DATA (R227): the bytes follow the last ones without gap or overlap, within the declared length; DGE
channel 1 of die 0 absorbs those of M as they arrive. -/
def execKernelStageData (s : State) : Out :=
  .next (s.cmd 0x0B11 (fun s p =>
    let g := s.kstage
    let d := p.drop 8
    match firstFail [(g.target.isNone, mNotFound, 0), (leAt p 0 4 != g.data.length, mBadParam, 0),
        (leAt p 4 4 != 0, mBadParam, 4), (decide (g.size < g.data.length + d.length), mBadParam, 8)] with
    | some (st, x) => s.respond st x []
    | none =>
      (({ s with kstage := { g with data := g.data ++ d } }).snoopFeed 1 d).success))

/-- The checks of KERNEL_COMMIT in order (R228). -/
def State.commitFail (s : State) (i : Nat) : Option (Nat × Nat) :=
  let g := s.kstage
  let b := g.data
  let n := kMessageLen b
  let m := g.message
  let pk := sliceZ b n 2049
  let hash := match s.ownerSlot with
    | some k => (s.otp.owners.getD k ⟨[], [], [], false⟩).kernel
    | none => []
  firstFail [(g.target != some i || b.length != g.size, mNotFound, 0), (!(s.kernelAt i).header.isEmpty, mExists, 0),
    (b.length != n + 5454 || !kernelHeaderOk m, mBadParam, 0), (hash.isEmpty || sha3 48 pk != hash, mNotAuthorised, 0),
    (!hybridCheck pk m (ascii "ZV-OWNER-KERNEL") (sliceZ b (n + 2049) 3309) (sliceZ b (n + 5358) 96), mVerifyFailed, 0),
    ((s.freeBlocks (kernelOf m 0).blocks).isNone, mNoResource, 0)]

/-- The digest of the owner kernel key goes through channel 1 and its doubled comparator (R225, R271). -/
def State.ownerKeyCompared (s : State) : State :=
  let hash := match s.ownerSlot with
    | some k => (s.otp.owners.getD k ⟨[], [], [], false⟩).kernel
    | none => []
  let s := s.snoopDrop 1
  if s.dgeDirect 1 then
    (((s.dgeStart 1 10).dgeAbsorb 1 (sliceZ s.kstage.data (kMessageLen s.kstage.data) 2049)).dgeFinish 1).compareWith 1 hash
  else s

/-- KERNEL_COMMIT (R228): a kernel that passes every check is written to the lowest free blocks and is callable. -/
def execKernelCommit (s : State) : Out :=
  .next (s.cmd 0x0B12 (fun s p =>
    let i := byteAt p 0
    match firstFail (kernelIndex p) with
    | some (st, d) => s.respond st d []
    | none =>
      let f := s.commitFail i
      let s := if f.all (fun x => x.1 == mNotAuthorised || x.1 == mVerifyFailed || x.1 == mNoResource) then s.ownerKeyCompared else s
      match f with
      | some (st, d) => (s.event 0x8203 4 0 1 i st 0).respond st d []
      | none =>
        let m := s.kstage.message
        let k := kernelOf m ((s.freeBlocks (kernelOf m 0).blocks).getD 0)
        (((s.writeStores (k.block * 64) (k.blocks * 64)).setKernel i k).event 0x8201 2 0 1 i k.version (leAt k.measure 0 4)).success))

/-- The jobs of a kernel: those that wait for dispatch, and those that run. -/
def State.callsOf (s : State) (i : Nat) (running : Bool) : List Job :=
  s.sched.jobs.filter (fun j => j.op / 256 == 0x0F && j.op % 256 / 8 == i &&
    (if running then j.phase == .bound || j.phase == .computed || j.phase == .saved else j.phase == .ready))

/-- KERNEL_REMOVE (R229): uncallable at once; the response and the zeroising follow the last running call. -/
def execKernelRemove (s : State) : Out :=
  .next (s.cmd 0x0B13 (fun s p =>
    let i := byteAt p 0
    match firstFail (kernelIndex p ++ [((s.kernelAt i).header.isEmpty, mNotFound, 0)]) with
    | some (st, d) => s.respond st d []
    | none =>
      let k := s.kernelAt i
      let s := (s.setKernel i { k with callable := false }).event 0x8202 2 0 1 i k.version (s.callsOf i false).length
      (s.mbxWait ((s.callsOf i true).map (·.id)) none none).mbxSettle))

/-- KERNEL_QUERY (R226): the header and the measurement of an installed kernel. -/
def execKernelQuery (s : State) : Out :=
  .next (s.cmd 0x0B14 (fun s p =>
    let k := s.kernelAt (byteAt p 0)
    match firstFail (kernelIndex p ++ [(k.header.isEmpty, mNotFound, 0)]) with
    | some (st, d) => s.respond st d []
    | none => s.respond mSuccess 0 (k.header ++ k.measure)))

end Sys2Proof.Machine
end

