-- ==== Sys2Proof/Machine/Boot.lean ====
section
/-!
DEFINITION. Boot: selection, image verification, the verdict, leaving BOOT and readiness (R375 to R386, R327, R343).
-/

namespace Sys2Proof.Machine

/-! ## Images (R376, Table 13.3) -/

/-- `n` bytes of a flash slot; erased flash reads 0xFF. -/
def flashAt (f : Bytes) (o n : Nat) : Bytes :=
  let b := (f.drop o).take n
  b ++ List.replicate (n - b.length) 0xFF

/-- The header H of a slot. -/
def imageHead (f : Bytes) : Bytes := flashAt f 0 512

/-- Offset and length of component `i`, from 0. -/
def compOffset (h : Bytes) (i : Nat) : Nat := leAt h (0x20 + 64 * i + 4) 4
def compLength (h : Bytes) (i : Nat) : Nat := leAt h (0x20 + 64 * i + 8) 4

/-- A component of a slot. -/
def component (f : Bytes) (i : Nat) : Bytes := flashAt f (compOffset (imageHead f) i) (compLength (imageHead f) i)

/-- A component's entry: its type, its boundary, its place after the one before and within the image. -/
def compOk (h : Bytes) (i : Nat) : Bool :=
  let o := compOffset h i
  byteAt h (0x20 + 64 * i) == i + 1 && o % 4096 == 0 && decide (0x8000 ≤ o) &&
    (i == 0 || decide (compOffset h (i - 1) + compLength h (i - 1) ≤ o)) && decide (o + compLength h i ≤ leAt h 8 4)

/-- Step 1 of Table 13.4. -/
def headOk (h : Bytes) : Bool :=
  leAt h 0 4 == 0x4946565A && leAt h 4 2 == 1 && leAt h 6 2 == 6 && decide (leAt h 8 4 ≤ 2 ^ 24) && (List.range 6).all (compOk h)

/-- Step 3: the LMS signature over H, of the parameter sets that the vendor uses. -/
def lmsOk (pk h sig : Bytes) : Bool :=
  beNat (sliceZ pk 0 4) == 8 && beNat (sliceZ pk 4 4) == 3 && (hbsSets 0 pk sig).fault == 0 && hbsTypesMatch 0 pk sig &&
    hbsVerify 0 pk h sig

/-- Step 5 in OWNED: the owner block. -/
def ownerBlockOk (hash f : Bytes) : Bool :=
  let pk := flashAt f 0x4004 2049
  leNat (flashAt f 0x4000 4) == 0x4F43565A && !hash.isEmpty && sha3 48 pk == hash &&
    hybridCheck pk (imageHead f) (ascii "ZV-OWNER-FW") (flashAt f 0x4805 3309) (flashAt f 0x54F2 96)

/-- The first component whose digest differs from its entry. -/
def badComponent (f : Bytes) : Option Nat :=
  (List.range 6).find? (fun i => sha2 .sha384 (component f i) != sliceZ (imageHead f) (0x20 + 64 * i + 16) 48)

/-- Table 13.4 on a slot: the step that rejects it, 0 for none, and the component type of step 7. The check of the
microwords (R214) goes with the digests of step 7. -/
def State.imageFail (s : State) (f : Bytes) : Nat × Nat :=
  let h := imageHead f
  let lms := flashAt f 0x0400 56
  let ml := flashAt f 0x0F44 2592
  if !headOk h then (1, 0)
  else if s.otp.imageHash.isEmpty || sha3 48 (lms ++ ml) != s.otp.imageHash then (2, 0)
  else if !lmsOk lms h (flashAt f 0x0438 2828) then (3, 0)
  else if !mlDsaVerify 2 ml 0 (ascii "ZV-FIRMWARE") h (flashAt f 0x1964 4627) then (4, 0)
  else if s.lcs == lcOwned && !ownerBlockOk s.ownerHash f then (5, 0)
  else if byteAt h 0x10 < s.otp.svn then (6, 0)
  else match badComponent f with
    | some i => (7, i + 1)
    | none => if microBad (component f 2) then (7, 3) else (0, 0)

/-- A slot of the flash. -/
def State.slotFlash (s : State) (k : Nat) : Bytes := s.boot.flash.getD k []

/-- One component measured by channel 0 of die 0 with SHA-384 as it is read: bound, fed and finished (R263, R264, R378). -/
def State.measure (s : State) (b : Bytes) : State :=
  (((s.snoopDrop 0).dgeBindTo 0 2 [] ⟨1, b.length, none, 0xFFFFFFFF⟩).snoopFeed 0 b |>.dgeFinish 0).fset .DGE_STAT_SOURCE 0 0

/-- A key hash decided by the doubled comparator of channel 0 (R378). -/
def State.keyCompared (s : State) (pk hash : Bytes) : State :=
  ((((s.snoopDrop 0).dgeStart 0 10).dgeAbsorb 0 pk).dgeFinish 0).compareWith 0 hash

/-- Components that step 7 reads: up to the first whose digest differs. -/
def readComponents (f : Bytes) : Nat := ((badComponent f).map (· + 1)).getD 6

/-- What channel 0 and its comparator do while a slot is verified (R378): H measured, the key hashes of steps 2 and 5
compared, and each component measured and compared once step 7 is reached. -/
def State.measureSlot (s : State) (f : Bytes) (step : Nat) : State :=
  let past := fun n => step == 0 || decide (n ≤ step)
  let s := s.measure (imageHead f)
  let s := if past 2 then s.keyCompared (flashAt f 0x0400 56 ++ flashAt f 0x0F44 2592) s.otp.imageHash else s
  let s := if past 5 && s.lcs == lcOwned then s.keyCompared (flashAt f 0x4004 2049) s.ownerHash else s
  if past 7 then
    (List.range (readComponents f)).foldl (fun s i =>
      (s.measure (component f i)).compareWith 0 (sliceZ (imageHead f) (0x20 + 64 * i + 16) 48)) s
  else s

/-! ## Release from reset (Table 13.5, steps 1 and 2; R375, R380, R386) -/

/-- Nothing holds the device in reset. A life-cycle transition that a reset cut short waits for VDD_OTP (R470). -/
def State.mayRelease (s : State) : Bool :=
  (s.otp.unfinished.isNone || s.otpGood) &&
  s.boot.phase == 0 && s.boot.powered && !s.boot.resetPin && !s.boot.thermal && s.boot.low.isEmpty && !s.onVbat

/-- Steps 1 and 2 of R380: an unconfirmed trial has had its boot, or has it now. -/
def State.trialStep (s : State) : State :=
  if !s.flag .DEV_FW_SLOT_TRIAL 0 then s
  else if s.flag .DEV_FW_SLOT_TRIES 0 then
    let p := 1 - s.fget .DEV_FW_SLOT_PREFERRED 0
    ((s.fset .DEV_FW_SLOT_PREFERRED 0 p).fset .DEV_FW_SLOT_TRIAL 0 0).event 0x1003 4 0 0xF p 2 0
  else s.fset .DEV_FW_SLOT_TRIES 0 1

/-- RESET_RELEASE: T0, with the BOOT_SEL pins. -/
def execResetRelease (sel : Nat) (s : State) : Out :=
  if !s.mayRelease then .next s
  else
    let s := { s with boot := { s.boot with sel := sel % 4, phase := 1 }
                      time := { s.time with ns := 0, frac := 0, ticks := 0, slew := 0 } }
    let s := (s.fset .DEV_BOOT_BOOT_SEL 0 (sel % 4)).decodeLife.startBist
    .next (if s.lcs = lcBlank then
        let s := s.fset .DBG_STATE_LEVEL 0 3
        if s.host.perst then s else s.readySet .DEV_READY_PCIE 0 1
      else if sel % 4 = 3 then s.enterLockdown 7
      else if sel % 4 = 2 then s.trialStep
      else s)

/-! ## The verdict (R378 to R380) -/

/-- The slots that the policy permits, in order. -/
def State.bootSlots (s : State) : List Nat :=
  match s.boot.sel with
  | 0 => [0]
  | 1 => [1]
  | _ =>
    let p := s.fget .DEV_FW_SLOT_PREFERRED 0
    [p, 1 - p]

/-- The mode that the ROM chooses from a slot's SFDP table (R466). -/
def fastRead (t : Bool × Bool) : FlashRead := if t.1 then .octalDdr else if t.2 then .octalOut else .single

/-- The three stages in which the ROM reads a slot (R466). -/
def State.readFlash (s : State) (k : Nat) : State :=
  ((s.emitLocal (.flash k .first)).emitLocal (.flash k .sfdp)).emitLocal (.flash k (fastRead (s.boot.sfdp.getD k (false, false))))

/-- One slot read and verified: the step that rejects it, and the state after. -/
def State.trySlot (s : State) (k : Nat) : Nat × State :=
  let s := s.readFlash k
  let f := s.slotFlash k
  let (step, typ) := s.imageFail f
  let s := (s.measureSlot f step).fset .DEV_BOOT_FAIL_STEP 0 step
  (step, if step = 0 then s else s.event 0x1002 5 0 0xF k step typ)

/-- The default kernels in component 5, one after another; at most 32. -/
def splitKernels : Nat → Bytes → List Bytes
  | 0, _ => []
  | n + 1, b =>
    let k := kMessageLen b
    if leAt b 0 4 = 0x4B4F565A && k ≤ b.length then b.take k :: splitKernels n (b.drop k) else []

/-- The default kernels are installed at the indices that the image assigns (R229). -/
def State.loadKernels (s : State) (f : Bytes) : State :=
  ((splitKernels 32 (component f 4)).zipIdx).foldl (fun s x =>
    match s.freeBlocks (kernelOf x.1 0).blocks with
    | some b => s.setKernel (Config.kernelIndex (imageHead f) x.2 % 32) (kernelOf x.1 b)
    | none => s) s

/-- The firmware's settings at start: the default mapping of the alarms (R423). -/
def State.startFirmware (s : State) : State :=
  { s with prot := { s.prot with map := (List.range 26).map (fun x => (x, startMap x)) } }

/-- A slot passes: event 0x1001, and the MP firmware is released (R379). -/
def State.bootFrom (s : State) (k : Nat) (fallback : Bool) : State :=
  let f := s.slotFlash k
  let h := imageHead f
  let s := ((s.fset .DEV_BOOT_SLOT 0 k).fset .DEV_BOOT_SVN 0 (byteAt h 0x10)).fset .DEV_BOOT_FALLBACK 0 (bit fallback)
  let s := s.fset .DEV_BOOT_OWNER_CS 0 (bit (s.lcs == lcOwned))
  let s := if fallback then
      ((s.fset .DEV_FW_SLOT_TRIAL 0 0).fset .DEV_FW_SLOT_PREFERRED 0 k).event 0x1003 4 0 0xF k 1 0
    else s
  let s := s.event 0x1001 2 0 0xF k (leAt h 0x0C 4) (byteAt h 0x10)
  let s := ({ s with boot := { s.boot with phase := 2, head := h, micro := component f 2 } }.startFirmware).loadKernels f
  if s.boot.hotBoot then
    { s.event 0xD004 6 0 1 (unsignedOf 32 (signedOf 16 (s.fget .THM_TEMP_TEMP 8) / 16)) 0 0 with
      boot := { s.boot with hotBoot := false } }
  else s

/-- The verdict on a slot: with F2 compatibility mode set, it is taken twice before the firmware is released (R431). -/
def State.passVerdict (s : State) (k : Nat) (fallback : Bool) : State :=
  if s.otp.f2 then s.doubt (.verdict k fallback) else s.bootFrom k fallback

/-- A verdict awaits its second evaluation. -/
def State.verdictWaits (s : State) : Bool := s.prot.doubled.any (fun d => d.number == 4)

/-- BOOT_VERDICT: the permitted slots are verified in order; a LOCKDOWN taken before stops it (R387). -/
def execBootVerdict (dt : Nat) (s : State) : Out :=
  let s := s.elapse dt
  if s.boot.phase ≠ 1 || s.mode ≠ modeBoot || s.lcs = lcBlank || s.verdictWaits then .next s
  else
    match s.bootSlots with
    | [] => .next s
    | a :: rest =>
      let (step, s) := s.trySlot a
      if step = 0 then .next (s.passVerdict a false)
      else
        match rest with
        | [] => .next (s.enterLockdown 7)
        | b :: _ =>
          let (step, s) := s.trySlot b
          .next (if step = 0 then s.passVerdict b true else s.enterLockdown 7)

/-! ## The root check (R327, R405) -/

/-- The epoch that counts: the highest committed one of the current owner slot; 0 for none. -/
def State.ownEpoch (s : State) : Nat :=
  match s.ownerSlot with
  | none => 0
  | some o => (((List.range 16).filter (fun k =>
      let e := s.otp.epochs.getD k ⟨[], [], false, 0⟩
      e.commit && e.owner == o)).map (· + 1)).foldl max 0

/-- The root recombined and its check word compared. -/
def State.rootCheckNow (s : State) : State :=
  let e := s.ownEpoch
  let s := (s.fset .KS_ROOT_EPOCH 0 e).rootSlots
  if e = 0 then s
  else if rootCheck (s.rootOf (e - 1)) e == (s.otp.epochs.getD (e - 1) ⟨[], [], false, 0⟩).check then
    (s.fset .KS_ROOT_VALID 0 1).readySet .DEV_READY_ROOT 0 1
  else s.event 0xC010 6 0 9 e 0 0

/-- A paired package starts STANDBY and LINK_LOST (R343). -/
def State.startPair (s : State) : State :=
  if s.bbks.paired && s.rootValid then
    { ((s.fset .DUPLEX_STATUS_ROLE 0 2).fset .DUPLEX_STATUS_STATE 0 2) with
      duplex := { s.duplex with keyTick := s.time.ticks } }
  else s

/-! ## Leaving BOOT (R385, R386) -/

/-- The mode of Table 13.7, or the cause of LOCKDOWN. -/
def State.firstMode (s : State) : Except Nat Nat :=
  if s.lcs = lcScrap || s.lcs = lcLost then .error 6
  else if (s.fget .KS_ROOT_EPOCH 0 ≠ 0 && !s.rootValid) || s.flag .PROT_ERASE_LATCHED 0 then .error 1
  else if s.lcs = lcOwned && s.rootValid then .ok modeService
  else .ok modeCommissioning

/-- Boot has ended: the endpoint answers and the mailbox is ready. -/
def State.bootEnds (s : State) : State :=
  let s := { s with boot := { s.boot with phase := 3 } }
  (if s.host.perst then s else s.readySet .DEV_READY_PCIE 0 1).mailboxUp

/-- LEAVE_BOOT: step 8 of Table 13.5. The root is recombined before, outside HOLD (R390); after a LOCKDOWN in BOOT the ROM
or the firmware serves the mailbox of R392. -/
def execLeaveBoot (dt : Nat) (s : State) : Out :=
  let s := s.elapse dt
  if s.lcs = lcBlank || (s.boot.phase ≠ 1 && s.boot.phase ≠ 2) then .next s
  else if s.boot.phase = 1 then .next (if s.mode = modeLockdown then s.bootEnds else s)
  else if s.hold then .next s
  else
    let s := s.rootCheckNow.startPair
    if s.mode = modeLockdown then .next s.bootEnds
    else match s.firstMode with
      | .error c => .next (s.enterLockdown c).bootEnds
      | .ok m => .next (s.setMode m 3).bootEnds

/-! ## Readiness (R382, R383) -/

/-- A unit that the firmware has loaded reports ready: a golden copy once the microcode is written there, a core once its
control store has been copied from it and read back (R215). -/
def State.unitReady (s : State) : ReadyUnit → State
  | .pcie => if s.host.perst then s else s.readySet .DEV_READY_PCIE 0 1
  | .phc => s.readySet .DEV_READY_PHC 0 1
  | .recorder => s.readySet .DEV_READY_EVR 0 1
  | .fetch => s.readySet .DEV_READY_FETCH 0 1
  | .die d => if d < s.dies then (s.loadDieRules d).readySet .DEV_READY_MAP_DIE d 1 else s
  | .golden cl =>
    if cl < 2 * s.dies && s.flag .DEV_READY_MAP_DIE (cl / 2) && !s.goldBad.contains cl then
      ({ s with gold := sparseDel s.gold cl }.fset .CLU_GOLD_STAT_VALID cl 1).groupBits (cl / 2) else s
  | .core v =>
    if v < 16 * s.dies && s.flag .DEV_READY_MAP_DIE (v / 16) && s.flag .CLU_GOLD_STAT_VALID (v / 8) && !s.vcRetired v &&
        !s.boot.bistBad.contains (v / 8) && (s.boot.bist.all (fun b => b.1 != v / 8)) then
      ((s.reloadCtl v).reloadKrn v).vcReady v true else s
  | .engine k =>
    if k < 2 * s.dies && s.flag .DEV_READY_MAP_DIE (k / 2) && !s.lieOffline k && s.fget .LIE_STATE_STATE k ≠ 3 &&
        (sparseGet LieX.idle s.lies k).tables then s.readyBit .DEV_READY_MAP_LIE (k / 2) (k % 2) true else s
  | .calender d c =>
    if d < s.dies && c < 4 && s.flag .DEV_READY_MAP_DIE d then s.readyBit .DEV_READY_MAP_CAL d c true else s
  | .port p =>
    if p < 16 * s.dies && s.flag .DEV_READY_MAP_DIE (p / 16) then s.readyBit .DEV_READY_MAP_PORT (p / 16) (p % 16) true else s
  | .keyStore d =>
    if d < s.dies && s.flag .DEV_READY_MAP_DIE d && !s.boot.bistBad.contains (128 + d) then
      (s.fset .KS_STATE_READY d 1).readySet .DEV_READY_MAP_KS d 1 else s

/-- UNIT_READY: a unit finishes loading while the firmware runs. -/
def execUnitReady (unit : ReadyUnit) (s : State) : Out := .next (if 2 ≤ s.boot.phase && !s.boot.head.isEmpty then s.unitReady unit else s)

end Sys2Proof.Machine
end

