-- ==== Sys2Proof/Machine/Commit.lean ====
section
/-! DEFINITION. The second evaluation of the doubled decisions of F2 compatibility mode, and the supplies as they are
measured: what waits for either goes on (R6, R431, R416, R470). -/

namespace Sys2Proof.Machine

/-! ## F2 doubled decisions (R6, R431) -/

/-- The action of a decision whose evaluations agree (Table 15.5). -/
def State.agreed (s : State) : Doubled → State
  | .unlock t via =>
    if via = 1 then (if s.mbx.phase = .running && s.cmdOpcode == 0x0808 then (s.grant t).success else s) else s.grant t
  | .commit t => s.commitLife t
  | .key job ref => match s.job? job with
    | some j => s.setJob { j with due := j.due.filter (· != held ref) }
    | none => s
  | .load v => s.setCore v { s.core v with released := true }
  | .verdict k fallback => if s.boot.phase = 1 && s.mode = modeBoot then s.bootFrom k fallback else s
  | .unanswered => s

/-- The decision of a kind that was taken first. -/
def State.firstDoubled (s : State) (n : Nat) : Option Doubled := s.prot.doubled.find? (fun d => d.number == n)

/-- F2_SECOND_EVALUATION: the first waiting decision of a kind, 1 to 4 of Table 15.5, is evaluated again after a delay in
cycles; its action follows where both evaluations agree, and LOCKDOWN where they do not. -/
def execF2SecondEvaluation (decision delay : Nat) (agree : Bool) (dt : Nat) (s : State) : Out :=
  let s := s.elapse dt
  if decision = 0 || delay < 16 || 1023 < delay then .next s
  else match s.firstDoubled decision with
    | none => .next s
    | some d =>
      let s := { s with prot := { s.prot with doubled := s.prot.doubled.erase d } }
      let s := (s.fset .PROT_F2_LAST_DELAY 0 delay).fadd .PROT_F2_DECISIONS 0 1
      .next (if agree then s.agreed d
        else
          let s := (s.event 0x3040 7 0 0 0 decision delay).enterLockdown 4
          match d with
          | .unlock _ via => if via = 1 then s.doubt .unanswered else s
          | _ => s)

/-! ## Supplies (R416, R470) -/

/-- VDD_OTP is measured: a life-cycle transition that waits for it goes on once it permits a program pulse (R470). -/
def State.measureOtp (s : State) (mv : Nat) : State :=
  let s := { s with boot := { s.boot with otpMv := mv } }
  match s.boot.waitOtp with
  | some t => if s.otpGood then s.commitLife t else s
  | none => s

/-- SUPPLY_WARNING: a rail is measured; below its warning threshold for 4 ns its condition is present (sources 12 to 14).
Rail 3 is VDD_OTP, one for the package. -/
def execSupplyWarning (rail die mv : Nat) (s : State) : Out :=
  .next (if rail < 3 && die < s.dies && !s.onVbat then s.report (12 + rail) die (decide (mv < s.warnMv rail die)) die mv
    else if rail = 3 && !s.onVbat then s.measureOtp mv
    else s)

end Sys2Proof.Machine
end

