-- ==== Sys2Proof/Machine/Frames.lean ====
section
/-!
DEFINITION. The receive side of the frame path: ports, parser, stream lookup, verdicts, delivery to FRX rings and the
frame buffer (R276 to R307).
-/

namespace Sys2Proof.Machine

/-! ## Ports (R276 to R279) -/

/-- Ports of the package, and the die and pipe of one. -/
def State.ports (s : State) : Nat := 16 * s.dies
def portDie (p : Nat) : Nat := p / 16
def portPipe (p : Nat) : Nat := p / 4

/-- A port's role: 0 protection, 1 non-protection, 2 mirror. -/
def State.portRole (s : State) (p : Nat) : Nat := s.fget .PORT_CFG_ROLE p

/-- The other port of a pair. -/
def State.partner (s : State) (p : Nat) : Nat := portDie p * 16 + s.fget .PORT_CFG_PARTNER p % 16

/-- LAN A of a pair. -/
def State.lanA (s : State) (p : Nat) : Bool := s.flag .PORT_CFG_PAIRED p && !s.flag .PORT_CFG_PRP_LAN_B p

/-- A port can send and receive. -/
def State.portUp (s : State) (p : Nat) : Bool :=
  decide (p < s.ports) && s.fget .PORT_CFG_MODE p != 0 && s.flag .PORT_STATUS_LINK p

/-- The SPEED code of a link: fixed by the mode, but for SGMII. -/
def speedOf (mode want : Nat) : Nat :=
  match mode with
  | 1 => 3 | 2 => clampNat 1 3 want | 3 => 4 | 4 => 5 | 5 => 6 | _ => 0

/-- A link change is recorded. -/
def State.setLink (s : State) (p : Nat) (up : Bool) (speed : Nat) : State :=
  if s.flag .PORT_STATUS_LINK p == up then s
  else
    let s := ((s.fset .PORT_STATUS_LINK p (bit up)).fset .PORT_STATUS_SPEED p speed).fset .PORT_STATUS_LINK_CHANGED p 1
    let s := s.fset .PORT_STATUS_FEC_LOCK p (bit (up && s.fget .PORT_CFG_FEC p != 0))
    let s := { s with frames := { s.frames with paused := sparseDel s.frames.paused p } }
    s.event 0x7001 2 (portDie p) 8 p (bit up) speed

/-- LINK_CHANGE (R276): a port in mode 0 has no link. -/
def execLinkChange (port : Nat) (up : Bool) (speed : Nat) (s : State) : Out :=
  let m := s.fget .PORT_CFG_MODE port
  if s.ports ≤ port || m = 0 then .next s
  else .next (s.setLink port up (if up then speedOf m speed else 0))

/-- A signed 16-bit correction. -/
def State.tsAdj (s : State) (f : Fld) (p : Nat) : Int := signedOf 16 (s.fget f p)

/-! ## Parsing (R281 to R285, Tables 10.3, 10.4) -/

/-- What the header of a frame says: EtherType after the VLAN tags, offset of what follows it, VID for matching, and
whether a tag is there. -/
structure EthHead where
  typ : Nat
  off : Nat
  vid : Nat
  vlan : Bool
deriving DecidableEq, Repr

/-- The outer tag is 0x88A8 or 0x8100, the inner one 0x8100; an untagged frame has VID 0xFFF (R283). -/
def ethHead (b : Bytes) : EthHead :=
  let at' := fun o => beNat (sliceZ b o 2)
  if at' 12 = 0x88A8 || at' 12 = 0x8100 then
    if at' 16 = 0x8100 then ⟨at' 20, 22, at' 18 % 4096, true⟩ else ⟨at' 16, 18, at' 14 % 4096, true⟩
  else ⟨at' 12, 14, 0xFFF, false⟩

/-- The class of an EtherType: 0 GOOSE, 1 SV, 2 PTP, 3 other (Table 10.3). -/
def ethClass (t : Nat) : Nat := if t = 0x88B8 then 0 else if t = 0x88BA then 1 else if t = 0x88F7 then 2 else 3

/-- The LAN identifier of a frame's PRP trailer, when it is recognised (R281). -/
def rctLan (b : Bytes) (off : Nat) : Option Nat :=
  let n := b.length
  let w := beNat (sliceZ b (n - 4) 2)
  if off + 6 ≤ n && beNat (sliceZ b (n - 2) 2) == 0x88FB && (w / 4096 == 0xA || w / 4096 == 0xB) && w % 4096 == n - off then
    some (w / 4096)
  else none

/-! ### The APDU (R284) -/

/-- A BER length, and what follows it. -/
def berLen : Bytes → Option (Nat × Bytes)
  | [] => none
  | b :: t =>
    if b.toNat < 128 then some (b.toNat, t)
    else
      let n := b.toNat - 128
      if n = 0 || 4 < n || t.length < n then none else some (beNat (t.take n), t.drop n)

/-- A BER element of a one-byte tag, and what follows it. -/
def berHead : Bytes → Option ((Nat × Bytes) × Bytes)
  | [] => none
  | tag :: t => match berLen t with
    | none => none
    | some (n, r) => if r.length < n then none else some ((tag.toNat, r.take n), r.drop n)

/-- The BER elements of a string, which they fill. -/
def berList : Nat → Bytes → Option (List (Nat × Bytes))
  | _, [] => some []
  | 0, _ => none
  | n + 1, b => match berHead b with
    | none => none
    | some (e, r) => (berList n r).map (e :: ·)

/-- The elements of a constructed one. -/
def berParts (b : Bytes) : Option (List (Nat × Bytes)) := berList b.length b

/-- An unsigned 32-bit integer. -/
def berNat (b : Bytes) : Option Nat := if b.isEmpty || 5 < b.length || 2 ^ 32 ≤ beNat b then none else some (beNat b)

/-- stNum and sqNum: context tags 5 and 6 of the goosePdu. -/
def gooseCounter (pdu : Bytes) : Option (Nat × Nat) :=
  match berParts pdu with
  | none => none
  | some l => match (l.lookup 0x85).bind berNat, (l.lookup 0x86).bind berNat with
    | some st, some sq => some (st, sq)
    | _, _ => none

/-- The smpCnt of an ASDU: context tag 2, two bytes. -/
def smpCnt (asdu : Bytes) : Option Nat :=
  match (berParts asdu).bind (·.lookup 0x82) with
  | some b => if b.length = 2 then some (beNat b) else none
  | none => none

/-- smpCnt of the first and of the last ASDU of a savPdu: noASDU (context tag 0) of 1 to 8 that counts the ASDUs (context
tag 2). -/
def svCounter (pdu : Bytes) : Option (Nat × Nat) :=
  match berParts pdu with
  | none => none
  | some l => match (l.lookup 0x80).bind berNat, (l.lookup 0xA2).bind berParts with
    | some n, some a =>
      if 1 ≤ n && n ≤ 8 && a.length = n && a.all (fun e => e.1 == 0x30) then
        match a.head?.bind (fun e => smpCnt e.2), a.getLast?.bind (fun e => smpCnt e.2) with
        | some x, some y => some (x, y)
        | _, _ => none
      else none
    | _, _ => none

/-- The counter of an APDU, which follows APPID, length and two reserved fields: a goosePdu has tag 0x61, a savPdu 0x60. -/
def apduCounter (cls : Nat) (b : Bytes) : Option (Nat × Nat) :=
  match berHead (b.drop 8) with
  | some ((t, pdu), _) => if cls = 0 && t = 0x61 then gooseCounter pdu else if cls = 1 && t = 0x60 then svCounter pdu else none
  | none => none

/-- What the parser extracts from a frame without its RCT, whose APPID begins at `off` (Table 10.4): the tag covers the
bytes from there to its own first byte (R289), and an extension that does not lie within the frame is not located (R285).
-/
def parseSec (cls off : Nat) (b : Bytes) (e : Extension) : SecFields :=
  { located := e.located && decide (off ≤ e.tagAt ∧ e.tagAt + e.tagLen ≤ b.length), alg := e.alg, tagLen := e.tagLen,
    keyId := e.keyId % 2 ^ 32, secs := e.secs % 2 ^ 32, frac := e.frac % 2 ^ 24, quality := e.quality % 256,
    tag := sliceZ b e.tagAt e.tagLen, cover := (b.take e.tagAt).drop off, iv := Config.secIv (b.take e.tagAt),
    lengthOk := e.lengthOk, counter := apduCounter cls (b.drop off) }

/-- A received pause frame: its quanta (IEEE 802.3 annex 31B). -/
def pauseQuanta (b : Bytes) : Option Nat :=
  if beNat (sliceZ b 0 6) == 0x0180C2000001 && beNat (sliceZ b 12 2) == 0x8808 && beNat (sliceZ b 14 2) == 1 then
    some (beNat (sliceZ b 16 2))
  else none

/-! ## Lookup (R287) -/

/-- Whether a context watches a port. -/
def State.watches (s : State) (x : Stream) (p : Nat) : Bool :=
  if x.pair then p == x.port || p == s.partner x.port else p == x.port

/-- Whether a receive context matches a frame, its VID apart. -/
def State.matchesFrame (s : State) (x : Stream) (p cls : Nat) (mac : Bytes) (appid : Nat) : Bool :=
  x.live && x.dir == 0 && s.watches x p && x.cls == cls && x.mac == mac && x.appid == appid

/-- VID_ANY of a context. -/
def Stream.anyVid (x : Stream) : Bool := x.vid.testBit 15

/-- The context of a frame: one with the frame's VID goes before one with VID_ANY. -/
def State.lookup (s : State) (p cls : Nat) (mac : Bytes) (appid vid : Nat) : Option Nat :=
  let l := s.streams.filter (fun e => e.1 / 4096 == portDie p && s.matchesFrame e.2 p cls mac appid)
  match l.find? (fun e => !e.2.anyVid && e.2.vid % 4096 == vid) with
  | some e => some e.1
  | none => (l.find? (fun e => e.2.anyVid)).map (·.1)

/-! ## The frame buffer (R304) and pause (R277) -/

/-- Bytes of a port's own part in use, and of a die's shared part. -/
def State.ownUsed (s : State) (p : Nat) : Nat := ((s.frames.rx.filter (fun f => f.port == p)).map (·.own)).sum
def State.sharedUsed (s : State) (d : Nat) : Nat := ((s.frames.rx.filter (fun f => portDie f.port == d)).map (·.shared)).sum

/-- A frame to transmit from the MAC itself: pause with its quanta. The address of the port is not stated. -/
def State.sendPause (s : State) (p quanta : Nat) : State :=
  let (src, s) := s.drawBytes 6
  let b := beBytes 6 0x0180C2000001 ++ src ++ beBytes 2 0x8808 ++ beBytes 2 1 ++ beBytes 2 quanta ++ List.replicate 42 0
  let s := (s.emitLocal (.frame p (s.replicaNow (portDie p)) b)).fadd .PORT_PAUSE_TX_COUNT p 1
  s

/-- Pause is generated above 96 KiB of buffer use and released below 64 KiB (R277). -/
def State.pauseGen (s : State) (p : Nat) : State :=
  if s.portRole p = 1 && s.flag .PORT_CFG_PAUSE_GEN p then
    let used := ((s.frames.rx.filter (fun f => f.port == p)).map (fun f => f.own + f.shared)).sum
    let on := s.frames.pausing.contains p
    if 98304 < used && !on then
      let (q, s) := s.draw
      let s := { s with frames := { s.frames with pausing := p :: s.frames.pausing } }
      s.sendPause p (1 + q % 65535)
    else if used < 65536 && on then
      let s := { s with frames := { s.frames with pausing := s.frames.pausing.filter (· != p) } }
      s.sendPause p 0
    else s
  else s

/-- A frame leaves the buffer. -/
def State.dropFrame (s : State) (f : RxFrame) : State :=
  let d := portDie f.port
  let fr := { s.frames with rx := s.frames.rx.filter (fun x => x.id != f.id)
                            full := if f.shared = 0 then s.frames.full else s.frames.full.filter (· != d) }
  ({ s with frames := fr }).pauseGen f.port

/-- FB_STAT.HIGH_KIB follows the highest use. -/
def State.bufferHigh (s : State) (d : Nat) : State :=
  let k := ceilDiv (((s.frames.rx.filter (fun f => portDie f.port == d)).map (fun f => f.own + f.shared)).sum) 1024
  if s.fget .FB_STAT_HIGH_KIB d < k then s.fset .FB_STAT_HIGH_KIB d k else s

/-- A frame takes its place in the buffer, its port's part first; without room only its bytes are lost. -/
def State.storeFrame (s : State) (f : RxFrame) : State :=
  let d := portDie f.port
  let n := f.data.length
  let own := min n (131072 - s.ownUsed f.port)
  let room := n - own ≤ 2097152 - s.sharedUsed d
  let f := if room then { f with own := own, shared := n - own, kept := true } else { f with kept := false }
  let put := fun s : State => { s with frames := { s.frames with rx := s.frames.rx ++ [f], nextId := f.id + 1 } }
  if room then ((put s).bufferHigh d).pauseGen f.port
  else
    let s := s.fadd .PORT_RX_BUF_DROPS_COUNT f.port 1
    let s := if s.frames.full.contains d then s
      else ({ s with frames := { s.frames with full := d :: s.frames.full } }).event 0x700B 4 d 8
        (f.ctx.getD 0xFFFFFFFF) d (f.port % 16)
    if f.ctx.isSome then put s else s

/-! ## Reception (R279, R282, R305) -/

/-- Frame service runs (R305). -/
def State.frameService (s : State) : Bool := s.mode == modeService || s.mode == modeMaintenance

/-- A received pause frame is counted; a non-protection port stops sending for its quanta (R277). -/
def State.takePause (s : State) (p q : Nat) : State :=
  let s := s.fadd .PORT_PAUSE_RX_COUNT p 1
  if s.portRole p = 1 then
    let mbps := [0, 10, 100, 1000, 2500, 10000, 25000].getD (s.fget .PORT_STATUS_SPEED p) 0
    let ticks := if mbps = 0 then 0 else q * 512 * 2000 / mbps
    { s with frames := { s.frames with paused := sparseSet 0 s.frames.paused p (if ticks = 0 then 0 else s.time.ticks + ticks) } }
  else s

/-- The ring of an unjudged frame: the PTP ring for PTP where one is set, the default ring for the rest. -/
def State.unjudgedRing (s : State) (p cls : Nat) : Option (Nat × Bool) :=
  let ptp := s.fget .PORT_RINGS_PTP_RING p
  let dfl := s.fget .PORT_RINGS_DEFAULT_RING p
  if cls = 2 && ptp ≠ 0xFFFF then some (ptp, false) else if dfl ≠ 0xFFFF then some (dfl, true) else none

/-- The bits of an FRX entry's FLAGS that the parser sets (Table 10.9). -/
def rxFlags (lanB rct vlan : Bool) (cls : Nat) : Nat := bit lanB + 2 * bit rct + 4 * bit vlan + 8 * cls

/-- An unjudged frame goes to its ring, or is discarded and counted. -/
def State.unjudged (s : State) (f : RxFrame) (cls : Nat) (above : Bool) : State :=
  match s.unjudgedRing f.port cls with
  | some (r, dfl) =>
    if s.ringLive r then
      s.storeFrame { f with ctx := none, verdict := some 0, postedAt := s.time.ticks, rings := [r],
                            flags := f.flags + 32 * bit above + 64 * bit dfl }
    else s.fadd .PORT_RX_DISCARDED_COUNT f.port 1
  | none => s.fadd .PORT_RX_DISCARDED_COUNT f.port 1

/-- The stream table as it stood `lineNs` ago, when a frame's first byte entered its pipe (R33): the later updates are undone,
newest first. -/
def State.atEntry (s : State) (lineNs : Nat) : State :=
  let later := s.frames.past.filter (fun e => decide (s.since e.1 < lineNs))
  { s with streams := later.foldl (fun t e => sparseSet Stream.blank t e.2.1 e.2.2) s.streams }

/-- A good frame of a frame port, whose first byte entered `lineNs` ago, is parsed and looked up. -/
def State.parseFrame (s : State) (p : Nat) (data : Bytes) (ingress lineNs : Nat) (e : Extension) : State :=
  let h := ethHead data
  let cls := ethClass h.typ
  let lanB := s.flag .PORT_CFG_PAIRED p && s.flag .PORT_CFG_PRP_LAN_B p
  let rct := if s.flag .PORT_CFG_PAIRED p then rctLan data h.off else none
  let s := if rct == some (if lanB then 0xA else 0xB) then s.fadd .PORT_PRP_WRONG_LAN_COUNT p 1 else s
  let body := if rct.isSome then data.take (data.length - 6) else data
  let f : RxFrame :=
    { id := s.frames.nextId, port := p, data := body, ingress := ingress, lastByte := s.time.ticks, ctx := none,
      seen := Stream.blank, sec := parseSec cls h.off body e, flags := rxFlags lanB rct.isSome h.vlan cls, own := 0, shared := 0, kept := true,
      verdict := none, postedAt := 0, rings := [] }
  if 2 ≤ cls then s.unjudged f cls false
  else if 2048 < data.length + 4 then s.unjudged f cls true
  else match (s.atEntry lineNs).lookup p cls (sliceZ data 0 6) (beNat (sliceZ data h.off 2)) h.vid with
    | none => s.unjudged f cls false
    | some n => s.storeFrame { f with ctx := some n, seen := (s.atEntry lineNs).stream n }

/-- FRAME_RECEIVED (R282): `data` is the frame without its FCS, `lineNs` the time from its start-of-frame delimiter to its
last byte, `parsed` the security extension as IEC 62351-6 decodes it. -/
def execFrameReceived (port : Nat) (data : Bytes) (fcsOk : Bool) (lineNs : Nat) (parsed : Extension) (s : State) : Out :=
  let n := data.length + 4
  if !s.portUp port then .next s
  else if !fcsOk then .next (s.fadd .PORT_RX_FCS_COUNT port 1)
  else if n < 64 || (if s.flag .PORT_CFG_JUMBO port then 9216 else 1522) < n then .next (s.fadd .PORT_RX_OVERSIZE_COUNT port 1)
  else
    let s := (s.fwrap .PORT_RX_FRAMES_COUNT port 1).fwrap .PORT_RX_BYTES_COUNT port n
    if s.portRole port = 2 then .next s
    else match pauseQuanta data with
      | some q => .next (s.takePause port q)
      | none =>
        if !s.frameService then .next (s.fadd .PORT_RX_DISCARDED_COUNT port 1)
        else
          let t := unsignedOf 64 ((s.replicaNow (portDie port) : Int) - (lineNs : Int) + s.tsAdj .PORT_TS_RX_ADJ_ADJ_NS port)
          .next (s.parseFrame port data t lineNs parsed)

/-! ## Verdicts (R290, R294 to R299) -/

abbrev vPass : Nat := 0x96
abbrev vFailTag : Nat := 0x35
abbrev vFailReplay : Nat := 0x53
abbrev vUnauth : Nat := 0x2B
abbrev vNoKey : Nat := 0x4D
abbrev vLate : Nat := 0x71
/-- The model's own code of a duplicate, which has no verdict. -/
abbrev vDup : Nat := 0x100

/-- The key that an identifier selects: the current one, then the next one (R290). -/
def Stream.keyOf (x : Stream) (id : Nat) : Option Bytes :=
  match x.cur, x.next with
  | some (i, k), some (j, m, _) => if i = id then some k else if j = id then some m else none
  | some (i, k), none => if i = id then some k else none
  | none, some (j, m, _) => if j = id then some m else none
  | none, none => none

/-- The tag of a frame under a stored stream key (R289). -/
def streamTag (alg len : Nat) (k iv m : Bytes) : Bytes :=
  if alg = 1 then
    let inner := sha2Finish .sha256 (midstate .sha256 k 0) 64 m
    (sha2Finish .sha256 (midstate .sha256 k 32) 64 inner).take len
  else (gcmTag (aesKeys k) iv m []).take len

/-- A frame's time in TAI nanoseconds (R294). -/
def State.taiOf (s : State) (f : SecFields) : Nat := (f.secs + s.frames.utc) * 1000000000 + f.frac * 1000000000 / 2 ^ 24

/-- The time window (R294). -/
def State.inWindow (s : State) (x : Stream) (f : RxFrame) : Bool :=
  let a := s.taiOf f.sec
  decide ((max a f.ingress) - (min a f.ingress) ≤ x.window * 1000)

/-- Whether a counter is newer than the last accepted one (R295). -/
def Stream.newer (x : Stream) (c : Nat × Nat) : Bool :=
  match x.last with
  | none => true
  | some l =>
    if x.cls = 0 then
      let dst := idxDiff c.1 l.1
      let dsq := idxDiff c.2 l.2
      decide (1 ≤ dst ∧ dst < 2 ^ 31) || (dst == 0 && decide (1 ≤ dsq ∧ dsq < 2 ^ 31))
    else
      let d := (c.1 + x.cntMod - l.2 % x.cntMod) % x.cntMod
      decide (1 ≤ d ∧ 2 * d < x.cntMod)

/-- A counter as the history holds it: that of a GOOSE frame, or the first smpCnt. -/
def Stream.histKey (x : Stream) (c : Nat × Nat) : Nat × Nat := if x.cls = 0 then c else (0, c.1)

/-- A frame of LAN B. -/
def RxFrame.lanB (f : RxFrame) : Bool := f.flags.testBit 0

/-- A copy from the other LAN is in the history (R298). -/
def Stream.duplicate (x : Stream) (f : RxFrame) : Bool :=
  match f.sec.counter with
  | none => false
  | some c => x.pair && x.hist.any (fun h => h.1 == x.histKey c && h.2 != f.lanB)

/-- Whether the frame reaches the tag comparators. -/
def RxFrame.compared (f : RxFrame) : Bool :=
  f.sec.located && (f.seen.keyOf f.sec.keyId).isSome && f.sec.alg == f.seen.alg && f.sec.tagLen == f.seen.tagLen

/-- The tag of the frame as the pipe computes it differs from the one it carries, or its header is malformed. -/
def RxFrame.tagBad (f : RxFrame) : Bool :=
  !f.sec.lengthOk || f.sec.tag != streamTag f.seen.alg f.seen.tagLen ((f.seen.keyOf f.sec.keyId).getD []) f.sec.iv f.sec.cover

/-- The verdict of a frame before its latency is judged (R298): keys and policies as they stood when the frame entered its
pipe, the replay state as it stands. -/
def State.judge (s : State) (f : RxFrame) (x : Stream) (disagree : Bool) : Nat :=
  if !f.sec.located then vUnauth
  else if (f.seen.keyOf f.sec.keyId).isNone then vNoKey
  else if f.sec.alg ≠ f.seen.alg || f.sec.tagLen ≠ f.seen.tagLen || f.tagBad || (disagree && f.compared) then vFailTag
  else if x.duplicate f then vDup
  else match f.sec.counter with
    | none => vFailReplay
    | some c => if s.inWindow f.seen f && x.newer c then vPass else vFailReplay

/-- The counter of a context that a verdict raises. -/
def verdictCount (v : Nat) : Nat :=
  if v = vPass then cntPass else if v = vFailTag then cntFailTag else if v = vFailReplay then cntFailReplay
  else if v = vUnauth then cntUnauth else if v = vNoKey then cntNoKey else if v = vLate then cntLate else cntDup

/-- The replay state that a PASS commits, and the promotion that it makes (R292, R298). -/
def State.commitPass (s : State) (n : Nat) (f : RxFrame) : State :=
  let x := s.stream n
  match f.sec.counter with
  | none => s
  | some c =>
    if !x.live || !f.seen.live then s
    else
      let last := if x.cls = 0 then c else (0, c.2)
      let s := s.setStream n { x with last := some last, hist := (x.hist ++ [(x.histKey c, f.lanB)]).drop (x.hist.length - 31) }
      match x.next with
      | some (i, _, _) => if i = f.sec.keyId then s.promote n 1 else s
      | none => s

/-- The rings to which a verdict sends a frame (Table 10.8); `none` is a drop by policy. -/
def Stream.target (x : Stream) (v : Nat) : Option (List Nat) :=
  if v = vPass then some x.subs
  else
    let p := if v = vUnauth then x.unauth else x.fail
    if p = 0 then some x.subs
    else if p = 1 && x.secRing ≠ 0xFFFF then some [x.secRing]
    else none

/-- A comparator disagreement (R297): the second in a pipe within one second puts the package in LOCKDOWN. -/
def State.pipeDisagree (s : State) (f : RxFrame) (n : Nat) : State :=
  let p := portPipe f.port
  let last := sparseGet 0 s.frames.lastDis p
  let s := (s.fadd .CAL_DISAGREE_VALUE p 1).event 0x7002 6 (portDie f.port) 7 n p (f.ingress % 2 ^ 32)
  let near := last ≠ 0 && s.since (last - 1) < 1000000000
  let s := { s with frames := { s.frames with lastDis := sparseSet 0 s.frames.lastDis p (s.time.ticks + 1) } }
  if near then s.enterLockdown 4 else s

/-- A frame whose deliveries are settled waits for them, or leaves the buffer. -/
def State.awaitDelivery (s : State) (f : RxFrame) (v : Nat) (rings : List Nat) : State :=
  if rings.isEmpty || !f.kept then s.dropFrame f
  else
    let f := { f with verdict := some v, postedAt := s.time.ticks, rings := rings }
    { s with frames := { s.frames with rx := s.frames.rx.map (fun x => if x.id = f.id then f else x) } }

/-- The verdict of a frame of context `n` is posted with its complement: what it commits, counts and records.
A duplicate is a discard, no verdict. -/
def State.postVerdict (s : State) (f : RxFrame) (n : Nat) (disagree : Bool) : State :=
  let x := s.stream n
  let p := portPipe f.port
  let lat := s.since f.lastByte
  let v := if 500 < s.time.ticks - f.lastByte then vLate else s.judge f x disagree
  let s := if f.compared && disagree then s.pipeDisagree f n else s
  let s := if f.sec.located && (f.seen.keyOf f.sec.keyId).isSome && (f.sec.alg != f.seen.alg || f.sec.tagLen != f.seen.tagLen) then
      s.fadd .PORT_ALG_MISMATCH_COUNT f.port 1 else s
  let s := if v = vPass then s.commitPass n f else s
  let s := s.countStream n (verdictCount v)
  if v = vDup then s.dropFrame f
  else
    let s := (s.fwrap .CAL_FRAMES_COUNT p 1).fset .CAL_MAX_LAT_VALUE p (max (s.fget .CAL_MAX_LAT_VALUE p) (min lat (2 ^ 32 - 1)))
    let s := if v = vLate then (s.fadd .CAL_LATE_VALUE p 1).frameEvent 0x7003 3 n p lat
      else if v = vPass then s else s.frameEvent 0x7004 3 n v f.port
    match f.seen.target v with
    | none => (s.countStream n cntPolicy).dropFrame f
    | some l => s.awaitDelivery f v l

/-- A frame that waits for its verdict and is the first of its port to do so (R282). -/
def State.judging (s : State) (id : Nat) : Option (RxFrame × Nat) :=
  match s.frames.rx.find? (fun f => f.id == id) with
  | none => none
  | some f =>
    match f.ctx with
    | none => none
    | some n =>
      if f.verdict.isNone && !s.frames.rx.any (fun g => g.port == f.port && decide (g.id < id) && g.verdict.isNone) then some (f, n)
      else none

/-- A frame that the mode no longer serves is discarded without a verdict (R305). -/
def State.discardFrame (s : State) (f : RxFrame) : State := (s.fadd .PORT_RX_DISCARDED_COUNT f.port 1).dropFrame f

/-- VERDICT_POST (R298). -/
def execVerdictPost (frame : Nat) (disagree : Bool) (dt : Nat) (s : State) : Out :=
  let s := s.elapse dt
  match s.judging frame with
  | none => .next s
  | some (f, n) => .next (if s.frameService then s.postVerdict f n disagree else s.discardFrame f)

/-- FRAME_BUDGET_EXPIRY (R298): the 250 ns of a frame have passed and its computation is abandoned. -/
def execFrameBudgetExpiry (frame dt : Nat) (s : State) : Out :=
  let s := s.elapse dt
  match s.judging frame with
  | none => .next s
  | some (f, n) =>
    if s.time.ticks - f.lastByte ≤ 500 then .next s
    else .next (if s.frameService then s.postVerdict f n false else s.discardFrame f)

/-! ## Delivery (R300 to R303) -/

/-- The FRX entry of a frame (Table 10.9). -/
def frxEntry (f : RxFrame) (gap : Nat) : Bytes :=
  let v := f.verdict.getD 0
  let cls := natBits f.flags 4 3
  let c := f.sec.counter.getD (0, 0)
  leBytes 2 f.data.length ++ leBytes 1 v ++ leBytes 1 (255 - v) ++ leBytes 4 (f.ctx.getD 0xFFFFFFFF) ++ leBytes 8 f.ingress ++
    leBytes 2 f.port ++ leBytes 2 f.flags ++ leBytes 4 (if cls = 0 then c.1 else 0) ++
    leBytes 4 (if cls = 0 then c.2 else if cls = 1 then c.1 else 0) ++ leBytes 2 gap ++ leBytes 2 0

/-- One delivery of a frame is over; the last one frees the buffer. -/
def State.deliveryOver (s : State) (f : RxFrame) (r : Nat) : State :=
  let l := f.rings.filter (· != r)
  if l.isEmpty then s.dropFrame f
  else { s with frames := { s.frames with rx := s.frames.rx.map (fun x => if x.id = f.id then { x with rings := l } else x) } }

/-- A delivery is dropped for one ring (R303); the cause that event 0x700A shows for a slot outside the windows is a free
value. -/
def State.dropDelivery (s : State) (f : RxFrame) (r cause : Nat) : State :=
  let x := s.ringx r
  let s := s.fadd .RING_DROPS_COUNT r 1
  let s := s.setRingx r { x with devCount := satAdd (2 ^ 32 - 1) x.devCount 1, gap := satAdd 0xFFFF x.gap 1, dropSeen := true }
  let s := match f.ctx with
    | some n => s.countStream n cntDropped
    | none => s
  let (u, s) := if cause = 6 then s.draw else (cause, s)
  let s := if x.gap = 0 then s.event 0x700A 3 (portDie f.port) 7 (f.ctx.getD 0xFFFFFFFF) r u else s
  s.deliveryOver f r

/-- The slot of the data array that a delivery would fill lies in the windows of the ring's TI (R86). -/
def State.slotOk (s : State) (f : RxFrame) (r : Nat) : Bool :=
  let x := s.ringx r
  s.bufferOk (s.ringOwner r) (x.data + s.didx r % s.ringSize r * 2 ^ x.slotLog) f.data.length false true

/-- Why a delivery cannot be made, as event 0x700A numbers it; 6 stands for a slot outside the windows, which it does not
number. -/
def State.dropCause (s : State) (f : RxFrame) (r : Nat) : Option Nat :=
  if !s.dmaOpen then some 5
  else if !s.ringLive r || s.ringState r ≠ ringEnabled then some 4
  else if s.ringFree r = 0 then some 1
  else if 2 ^ (s.ringx r).slotLog < f.data.length then some 2
  else if !s.slotOk f r then some 6
  else none

/-- A frame goes into a ring: data slot, entry, index, interrupt (R301). -/
def State.deliver (s : State) (f : RxFrame) (r : Nat) : State :=
  let x := s.ringx r
  let s := s.tiWrite (s.ringOwner r) (some r) (x.data + s.didx r % s.ringSize r * 2 ^ x.slotLog) f.data
  let s := s.setRingx r { x with gap := 0 }
  let s := s.writeEntry r (frxEntry f x.gap) false
  let s := match f.ctx with
    | some n => s.countStream n cntDelivered
    | none => s
  s.deliveryOver f r

/-- A judged frame whose delivery to a ring is the next of its stream there (R301). -/
def State.delivering (s : State) (id r : Nat) : Option RxFrame :=
  match s.frames.rx.find? (fun f => f.id == id) with
  | none => none
  | some f =>
    if f.verdict.isSome && f.rings.contains r &&
        !s.frames.rx.any (fun g => decide (g.id < id) && g.ctx == f.ctx && (f.ctx.isSome || g.port == f.port) && g.rings.contains r)
    then some f else none

/-- FRX_DELIVERY (R301, R303). -/
def execFrxDelivery (frame ring dt : Nat) (s : State) : Out :=
  let s := s.elapse dt
  match s.delivering frame ring with
  | none => .next s
  | some f => .next (match s.dropCause f ring with
    | some c => s.dropDelivery f ring c
    | none => s.deliver f ring)

/-- FRX_MAX_WAIT_EXPIRY (R303): a delivery has waited FRX_MAX_WAIT since its verdict. -/
def execFrxMaxWaitExpiry (frame ring dt : Nat) (s : State) : Out :=
  let s := s.elapse dt
  match s.delivering frame ring with
  | none => .next s
  | some f => if s.frames.maxWait * 1000 ≤ s.since f.postedAt then .next (s.dropDelivery f ring 3) else .next s

/-- PROMOTION_TIME_REACHED (R292). -/
def execPromotionTimeReached (context dt : Nat) (s : State) : Out := .next ((s.elapse dt).promoteIfDue context)

end Sys2Proof.Machine
end

