-- ==== Sys2Proof/Machine/Duplex.lean ====
section
/-!
DEFINITION. Duplex pairs: configuration, pairing, mirror messages, resynchronisation, roles (R336 to R345, R347).
-/

namespace Sys2Proof.Machine

/-! ## States (Table 11.9) -/

def dupPairing : Nat := 1
def dupLost : Nat := 2
def dupBothStandby : Nat := 3
def dupSyncing : Nat := 4
def dupInSync : Nat := 5
def dupDegraded : Nat := 6
def dupSplit : Nat := 7

/-- The two halves of DUPLEX_ERRORS. -/
abbrev dupAuthFail : Fld := ⟨.DUPLEX_ERRORS, 31, 16⟩
abbrev dupRefused : Fld := ⟨.DUPLEX_ERRORS, 15, 0⟩

def State.dupState (s : State) : Nat := s.fget .DUPLEX_STATUS_STATE 0
def State.dupRole (s : State) : Nat := s.fget .DUPLEX_STATUS_ROLE 0
def State.setDup (s : State) (x : Nat) : State := s.fset .DUPLEX_STATUS_STATE 0 x

/-- An event of the mirror engine. -/
def State.mirrorEvent (s : State) (code sev d0 d1 d2 : Nat) : State := s.event code sev 0 0xA d0 d1 d2

/-- A pair record is held and its role taken. -/
def State.paired (s : State) : Bool := s.bbks.paired && s.dupRole != 0

/-- LINK_A and LINK_B as they read now. -/
def State.links (s : State) : Nat × Nat :=
  let w := s.view .DUPLEX_STATUS 0
  (w / 2 ^ 8 % 2, w / 2 ^ 9 % 2)

/-- TIs marked for mirroring. -/
def State.mirroredTis (s : State) : List Nat :=
  (List.range s.part.tenants).filter (fun n => s.flag .TI_KEY_HOME_MIRRORED n)

/-- TIs under the duplex hold. -/
def State.heldTis (s : State) : List Nat := (List.range s.part.tenants).filter (fun n => s.flag .TI_KEY_HOME_DUPLEX_HELD n)

/-! ## Configuration (R336) -/

/-- A port may carry the mirror. -/
def State.mirrorPort (s : State) (p : Nat) : Bool :=
  decide (p < s.ports) && (s.fget .PORT_CFG_MODE p == 4 || s.fget .PORT_CFG_MODE p == 5) && !s.flag .PORT_CFG_PAIRED p &&
    !s.streams.any (fun e => e.2.live && e.2.port == p)

/-- The ports that a configuration leaves in force. -/
def State.newPorts (s : State) (p : Bytes) : Nat × Nat :=
  (orDefault (leAt p 0 2) s.duplex.portA, orDefault (leAt p 2 2) s.duplex.portB)

/-- The checks of DUPLEX_CONFIG. -/
def State.dupConfigChecks (s : State) (p : Bytes) : List (Bool × Nat × Nat) :=
  let (a, b) := s.newPorts p
  let named := leAt p 0 2 != 0 || leAt p 2 2 != 0
  let out := fun v lo hi => v != 0 && (decide (v < lo) || decide (hi < v))
  [(named && !s.mirrorPort a, mBadParam, 0), (named && (!s.mirrorPort b || a / 16 == b / 16), mBadParam, 2),
   (named && (a != s.duplex.portA || b != s.duplex.portB) && s.dupState != 0, mBusyObject, 0),
   (out (leAt p 4 2) 1 1000, mBadParam, 4), (out (byteAt p 6) 2 255, mBadParam, 6), (decide (2 ≤ byteAt p 7), mBadParam, 7),
   (out (leAt p 8 2) 1 100, mBadParam, 8), zeroAt p 10 2]

/-- A port takes or leaves the mirror role. -/
def State.mirrorRole (s : State) (p : Nat) (on : Bool) : State :=
  if s.ports ≤ p then s
  else if on then (s.fset .PORT_CFG_ROLE p 2).fset .PORT_CFG_JUMBO p 1
  else s.fset .PORT_CFG_ROLE p 0

/-- DUPLEX_CONFIG (R336). -/
def execDuplexConfig (s : State) : Out :=
  .next (s.cmdIf 0x0D01 State.dupConfigChecks (fun s p =>
    let (a, b) := s.newPorts p
    let d := s.duplex
    let s := [d.portA, d.portB].foldl (fun s x => s.mirrorRole x false) s
    let s := [a, b].foldl (fun s x => s.mirrorRole x true) s
    let s := { s with duplex := { s.duplex with
      portA := a, portB := b, hbPeriod := orDefault (leAt p 4 2) d.hbPeriod, hbMiss := orDefault (byteAt p 6) d.hbMiss,
      ackMs := orDefault (leAt p 8 2) d.ackMs } }
    (s.fset .DUPLEX_STATUS_AUTO_PROMOTE 0 (byteAt p 7)).success))

/-- DUPLEX_MIRROR_TI (R339): a TI that is no longer mirrored is no longer held. -/
def execDuplexMirrorTi (s : State) : Out :=
  .next (s.cmdIf 0x0D04 (fun s p => s.tiChecks p ++ [(decide (2 ≤ byteAt p 2), mBadParam, 2), zeroAt p 3 1]) (fun s p =>
    let n := leAt p 0 2
    let s := s.fset .TI_KEY_HOME_MIRRORED n (byteAt p 2)
    (if byteAt p 2 = 1 then s.duplexHold n else s.fset .TI_KEY_HOME_DUPLEX_HELD n 0).success))

/-- DUPLEX_QUERY (R347): a copy of the duplex registers. -/
def execDuplexQuery (s : State) : Out :=
  .next (s.cmd 0x0D07 (fun s _ => s.respond mSuccess 0 (s.peek (dieBlock 0 + 0x90100) 48)))

/-! ## Pairing (R337) -/

/-- Sizes of PAIR_1, and of PAIR_2 without its signature: identity key, ML-KEM-1024 key or ciphertext, X448 key, nonce. -/
def pairIdLen : Nat := 2689
def pairMsgLen : Nat := 2689 + 1568 + 56 + 32

/-- The parts of a message. -/
def pairId (m : Bytes) : Bytes := m.take pairIdLen
def pairKem (m : Bytes) : Bytes := sliceZ m pairIdLen 1568
def pairX (m : Bytes) : Bytes := sliceZ m (pairIdLen + 1568) 56

/-- A message comes from the peer that the administrator named, and its X448 key is acceptable. -/
def pairOk (hash m : Bytes) (kem : Bool) : Bool :=
  sha3 48 (pairId m) == hash && (uCheck .x448 (pairX m)).isNone && (!kem || (pqPubCheck 3 2 (pairKem m)).isNone)

/-- An identity signature of the handshake: ML-DSA-87 with an empty context, then P-384. -/
def idVerify (pk m sig : Bytes) : Bool :=
  mlDsaVerify 2 (pk.take 2592) 0 [] m (sig.take 4627) && p384Check (pk.drop 2592) m (sig.drop 4627)

/-- The pair secret and the direction keys. -/
def pairSecret (ssPq ssEc t2 : Bytes) : Bytes := sha3 32 (ssPq ++ ssEc ++ t2)
def dirKey (secret : Bytes) (x : String) : Bytes := kmac 256 secret (ascii x) 32 (ascii "ZV-DUPLEX")

/-- What PAIR_3 signs. -/
def pair3Text (t2 : Bytes) : Bytes := sha3 48 (t2 ++ ascii "ZV-PAIR-3")

/-- Random bytes of the initiator's keys and nonce. -/
def pairDraw1 : Nat := importPairDraw + 32

/-- Random bytes of the responder: encapsulation, X448 key, derivation, nonce, signature. -/
def pairDraw2 : Nat := 32 + ecKeygenDraw .x448 + ecDeriveDraw .x448 + 32 + idSignDraw

/-- The handshake starts: the initiator's PAIR_1 leaves. -/
def State.startPairing (s : State) (initiator renew : Bool) (hash r : Bytes) : State :=
  let eph := importPairOf r
  let m := s.idPublic ++ KeyType.importPair.publicOf eph ++ sliceZ (r.drop importPairDraw) 0 32
  let p : Pairing := { initiator := initiator, at_ := s.time.ticks, renew := renew, hash := hash, msg1 := if initiator then m else [],
                       t2 := [], eph := if initiator then eph else [] }
  let s := { s with duplex := { s.duplex with pairing := some p } }
  if initiator then s.emitLocal (.mirror 0 (.pair1 m) []) else s

/-- The checks of DUPLEX_PAIR. -/
def State.dupPairChecks (s : State) (p : Bytes) : List (Bool × Nat × Nat) :=
  [(decide (2 ≤ byteAt p 0), mBadParam, 0), zeroAt p 1 3, (s.duplex.portA == 0xFFFF || !s.rootValid, mNotFound, 0),
   (s.dupState != 0, mBusyObject, 0)]

/-- DUPLEX_PAIR (R337): answered IN_PROGRESS. -/
def execDuplexPair (s : State) : Out :=
  .next (s.cmdIf 0x0D02 State.dupPairChecks (fun s p =>
    if s.hold then s
    else if byteAt p 0 = 1 then
      ((s.startPairing false false (sliceZ p 4 48) []).setDup dupPairing).respond mInProgress 0 []
    else match s.mpDraw pairDraw1 with
      | (none, s) => s
      | (some r, s) => ((s.startPairing true false (sliceZ p 4 48) r).setDup dupPairing).respond mInProgress 0 []))

/-- A message has arrived on a link from a port of the peer (R336). -/
def State.learnMac (s : State) (link : Nat) (mac : Bytes) : State :=
  { s with duplex := if link = 0 then { s.duplex with macA := mac } else { s.duplex with macB := mac } }

/-- A pair is established (R337): the record is written and the role taken; a renewal only replaces the keys. -/
def State.establish (s : State) (p : Pairing) (secret : Bytes) : State :=
  let seqs := (s.fget .DUPLEX_TX_SEQ_SEQ 0, s.fget .DUPLEX_RX_SEQ_SEQ 0)
  let s := { s with
    bbks := { s.bbks with paired := true, secret := secret, keyI2R := dirKey secret "I2R", keyR2I := dirKey secret "R2I",
                          peer := p.hash, initiator := p.initiator }
    duplex := { s.duplex with pairing := none, keyTick := s.time.ticks, keySeq := seqs } }
  if p.renew then s
  else
    let role := if p.initiator then 1 else 2
    let s := s.fset .DUPLEX_STATUS_ROLE 0 role
    let s := { s with duplex := { s.duplex with heard := s.time.ticks, beat := s.time.ticks } }
    let s := s.mirrorEvent 0xC020 2 1 role 0
    if role = 2 then s.mirroredTis.foldl State.duplexHold s else s

/-- The responder's side of a handshake: the one that DUPLEX_PAIR started, or a renewal of the pair. -/
def State.responderSide (s : State) : Option Pairing :=
  match s.duplex.pairing with
  | some p => if p.initiator then none else some p
  | none =>
    if s.paired && !s.bbks.initiator then
      some { initiator := false, at_ := s.time.ticks, renew := true, hash := s.bbks.peer, msg1 := [], t2 := [], eph := [] }
    else none

/-- PAIR_1 (R337): the responder receives it, and answers with PAIR_2. -/
def execPair1 (link : Nat) (mac data : Bytes) (s : State) : Out :=
  match s.responderSide with
  | none => .next s
  | some p =>
    if !p.t2.isEmpty || data.length ≠ pairMsgLen || !pairOk p.hash data true then .next s
    else match s.mpDraw pairDraw2 with
      | (none, s) => .next s
      | (some r, s) =>
        let (ct, ssPq) := pqEncaps 3 2 (pairKem data) (r.take 32)
        let r := r.drop 32
        let x := ecKeygenOf .x448 r
        let r := r.drop (ecKeygenDraw .x448 + ecDeriveDraw .x448)
        let m := s.idPublic ++ ct ++ ecPublic .x448 x ++ sliceZ r 0 32
        let t2 := sha3 48 (data ++ m)
        let sec := pairSecret ssPq (ecDeriveOf .x448 x (pairX data)) t2
        let s := (s.learnMac link mac).emitLocal (.mirror 0 (.pair2 (m ++ s.idSign t2 [] (r.drop 32))) [])
        .next { s with duplex := { s.duplex with pairing := some { p with msg1 := data, t2 := t2, eph := sec } } }

/-- PAIR_2 (R337): the initiator checks it, answers with PAIR_3 and is ACTIVE. -/
def execPair2 (link : Nat) (mac data : Bytes) (s : State) : Out :=
  match s.duplex.pairing with
  | none => .next s
  | some p =>
    let m := data.take pairMsgLen
    let t2 := sha3 48 (p.msg1 ++ m)
    if !p.initiator || data.length ≠ pairMsgLen + 4723 || !pairOk p.hash m false ||
        !idVerify (pairId m) t2 (data.drop pairMsgLen) then .next s
    else match s.mpDraw idSignDraw with
      | (none, s) => .next s
      | (some r, s) =>
        let sec := pairSecret (pqDecaps 3 2 (p.eph.take 64) (pairKem m)) (ecDeriveOf .x448 (p.eph.drop 64) (pairX m)) t2
        let s := (s.learnMac link mac).emitLocal (.mirror 0 (.pair3 (s.idSign (pair3Text t2) [] r)) [])
        .next (s.establish p sec)

/-- PAIR_3 (R337): the responder checks it and is STANDBY. -/
def execPair3 (link : Nat) (mac data : Bytes) (s : State) : Out :=
  match s.duplex.pairing with
  | none => .next s
  | some p =>
    if p.initiator || p.t2.isEmpty || !idVerify (pairId p.msg1) (pair3Text p.t2) data then .next s
    else .next ((s.learnMac link mac).establish p p.eph)

/-- PAIRING_TIMEOUT (R337): after 10 s a handshake ends; a renewal leaves the old keys in force. -/
def execPairingTimeout (dt : Nat) (s : State) : Out :=
  let s := s.elapse dt
  match s.duplex.pairing with
  | none => .next s
  | some p =>
    if s.since p.at_ < 10000000000 then .next s
    else if p.renew then .next { s with duplex := { s.duplex with pairing := none } }
    else .next s.dropPair

/-- PAIR_REKEY (R338): after 2³² messages in either direction or 24 hours the initiator renews the pair. -/
def execPairRekey (dt : Nat) (s : State) : Out :=
  let s := s.elapse dt
  let d := s.duplex
  let due := decide (2 ^ 32 ≤ s.fget .DUPLEX_TX_SEQ_SEQ 0 - d.keySeq.1) || decide (2 ^ 32 ≤ s.fget .DUPLEX_RX_SEQ_SEQ 0 - d.keySeq.2) ||
    decide (86400000000000 ≤ s.since d.keyTick)
  if s.paired && s.bbks.initiator && s.rootValid && d.pairing.isNone && due then
    match s.mpDraw pairDraw1 with
    | (none, s) => .next s
    | (some r, s) => .next (s.startPairing true true s.bbks.peer r)
  else .next s

/-- DUPLEX_UNPAIR (R347): the record is zeroised; held TIs stay QUIESCED without the hold. -/
def execDuplexUnpair (s : State) : Out :=
  .next (s.cmdIf 0x0D03 (fun s _ => [(s.dupState == 0, mNotFound, 0)]) (fun s _ =>
    let role := s.dupRole
    let s := s.heldTis.foldl (fun s n => s.fset .TI_KEY_HOME_DUPLEX_HELD n 0) s
    (s.dropPair.mirrorEvent 0xC020 2 0 role 0).success))

/-! ## Resynchronisation (R342) -/

/-- The keys that a resync carries. -/
def State.mirrorKeys (s : State) : List (Nat × KeySlot) :=
  s.slots.filter (fun e => e.2.state == .occupied && e.2.usage.testBit uMirror && s.flag .TI_KEY_HOME_MIRRORED (e.1 / 2 ^ 24))

/-- The contexts that a resync carries. -/
def State.mirrorCtxs (s : State) : List (Nat × Stream) :=
  s.streams.filter (fun e => e.2.live && s.flag .TI_KEY_HOME_MIRRORED e.2.owner)

/-- DUPLEX_LAG follows the messages that wait for an acknowledgement. -/
def State.lagNow (s : State) : State := s.fset .DUPLEX_LAG_VALUE 0 s.duplex.unacked.length

/-- The active sends its whole mirrored set between SYNC_BEGIN and SYNC_END. -/
def State.startResync (s : State) : State :=
  let s := s.lagNow.setDup dupSyncing
  let keys := s.mirrorKeys
  let ctxs := s.mirrorCtxs
  let s := (s.mirrorSend .syncBegin).2
  let s := keys.foldl (fun s e =>
    let (n, sl) := (e.1 / 2 ^ 24, e.1 % 2 ^ 24)
    (s.mirrorWrite (.keyPut n sl e.2.gen e.2.typ e.2.usage e.2.stored) none n).2) s
  let s := ctxs.foldl (fun s e => (s.mirrorWrite (.context e.1 e.2.crossing) none e.2.owner).2) s
  let (q, s) := s.mirrorWrite .syncEnd none 0xFFFF
  { s with duplex := { s.duplex with syncEnd := some q, synced := (keys.length, ctxs.length) } }

/-- States from which the first valid message starts a resync. -/
def resyncFrom (st : Nat) : Bool := [dupPairing, dupLost, dupBothStandby, dupDegraded, dupSplit].contains st

/-- What the two roles make of the state (R342, R343, R345). A resync moves keys, and so starts under no lock of the key store
(R413). -/
def State.settleRoles (s : State) (peer : Nat) : State :=
  let st := s.dupState
  if peer = 1 && s.dupRole = 1 then
    (if st = dupSplit then s else (s.setDup dupSplit).mirrorEvent 0xC024 6 (s.fget .DUPLEX_EPOCH_VALUE 0) s.duplex.peerEpoch 0)
  else if peer = 2 && s.dupRole = 2 then s.setDup dupBothStandby
  else if !resyncFrom st then s
  else if s.dupRole = 1 then (if s.keysLocked then s else s.startResync) else s.setDup dupSyncing

/-! ## Acknowledgements (R340) -/

/-- The pair degrades: `why` 1 time-out, 2 refused. -/
def State.degrade (s : State) (q ti why : Nat) : State :=
  let s := if [dupSyncing, dupInSync].contains s.dupState then s.setDup dupDegraded else s
  s.mirrorEvent 0xC022 4 (q % 2 ^ 32) why ti

/-- A message waits no longer: its CQE or mailbox response follows. -/
def State.settleAck (s : State) (u : Nat × Nat × Option Nat × Nat) : State :=
  let s := { s with duplex := { s.duplex with unacked := s.duplex.unacked.filter (fun x => x.1 != u.1) } }
  match u.2.2.1 with
  | some j => s.releaseCqe j
  | none => s.mbxSettle

/-- The active has an acknowledgement; that of SYNC_END makes the pair IN_SYNC. -/
def State.takeAck (s : State) (q : Nat) (accepted : Bool) : State :=
  match s.duplex.unacked.find? (fun u => u.1 == q) with
  | none => s
  | some u =>
    let s := (s.settleAck u).fset .DUPLEX_LAG_VALUE 0 (s.fget .DUPLEX_LAG_VALUE 0 - 1)
    if !accepted then (s.fadd dupRefused 0 1).degrade q u.2.2.2 2
    else if s.duplex.syncEnd = some q && s.dupState = dupSyncing then
      let s := { s with duplex := { s.duplex with syncEnd := none } }
      (s.setDup dupInSync).mirrorEvent 0xC026 2 s.duplex.synced.1 s.duplex.synced.2 0
    else s

/-- MIRROR_ACK_TIMEOUT (R340): ACK_MS has passed for the oldest message that waits. -/
def execMirrorAckTimeout (dt : Nat) (s : State) : Out :=
  let s := s.elapse dt
  match s.duplex.unacked with
  | [] => .next s
  | u :: _ =>
    if s.since u.2.1 < s.duplex.ackMs * 1000000 then .next s
    else .next ((s.degrade u.1 u.2.2.2 1).settleAck u)

/-! ## The standby's side (R339) -/

/-- A mirrored TI of this package, on the standby. -/
def State.takes (s : State) (ti : Nat) : Bool :=
  s.dupRole == 2 && [dupSyncing, dupInSync, dupDegraded].contains s.dupState && decide (ti < s.part.tenants) && s.tiLive ti &&
    s.flag .TI_KEY_HOME_MIRRORED ti

/-- Granules that a key of `n` stored bytes takes. -/
def keyGranules (typ n : Nat) : Nat := ((keyTypeOf typ).map (fun t => t.granules n)).getD (ceilDiv n 64)

/-- A mirrored key is stored at the same slot and generation; refused when its TI or quota does not allow it,
or when a Classic McEliece public key finds no room in a cluster of the TI's key die (R41). -/
def State.takeKey (s : State) (ti slot gen typ usage : Nat) (b : Bytes) : Bool × State :=
  let old := s.slot ti slot
  let room := decide (s.fget .TI_KEY_USED_VALUE ti - old.counted + keyGranules typ b.length ≤ s.fget .TI_KEY_QUOTA_VALUE ti)
  let free := s.setSlot ti slot KeySlot.blank
  let cl := free.roomiest (s.keyDie ti)
  let fits := !residentType typ || free.residentFits cl b.length
  if s.takes ti && decide (slot < s.fget .TI_KEY_QUOTA_VALUE ti) && room && fits then
    let s := s.storeKey ti slot typ usage b
    let k := s.slot ti slot
    let cs := if residentType typ then [cl] else []
    let s := s.setSlot ti slot { k with gen := gen, copies := cs }
    (true, { s with duplex := { s.duplex with named := s.duplex.named ++ [slotKey ti slot] } })
  else (false, s)

/-- A mirrored deletion. -/
def State.takeDelete (s : State) (ti slot : Nat) : Bool × State :=
  if s.takes ti then (true, s.emptySlot ti slot) else (false, s)

/-- A mirrored context: what crosses is taken over, and the package's own rings, replay state and counters stay. -/
def State.takeContext (s : State) (n : Nat) (x : Stream) : Bool × State :=
  let old := s.stream n
  let fresh := !old.live
  let room := !fresh || decide (s.fget .TI_STREAM_USED x.owner < s.fget .TI_STREAM_QUOTA x.owner)
  if s.takes x.owner && decide (n < s.contexts) && (fresh || old.owner == x.owner) && room then
    let own := if fresh then Stream.blank else old
    let y := { x.crossing with secRing := own.secRing, last := own.last, hist := own.hist, subs := own.subs, counts := own.counts }
    let s := s.reviseStream n y
    let s := if fresh then s.fset .TI_STREAM_USED x.owner (s.fget .TI_STREAM_USED x.owner + 1) else s
    (true, { s with duplex := { s.duplex with namedCtx := s.duplex.namedCtx ++ [n] } })
  else (false, s)

/-- A mirrored removal of a context. -/
def State.takeDrop (s : State) (n : Nat) : Bool × State :=
  let x := s.stream n
  if s.dupRole = 2 && (!x.live || s.takes x.owner) then (true, s.dropStream n) else (false, s)

/-- SYNC_END on the standby: what the resync did not name is deleted. -/
def State.takeSyncEnd (s : State) : Bool × State :=
  if s.dupRole = 2 && s.dupState = dupSyncing then
    let d := s.duplex
    let keys := s.mirrorKeys
    let ctxs := s.mirrorCtxs
    let s := (keys.filter (fun e => !d.named.contains e.1)).foldl (fun s e => s.emptySlot (e.1 / 2 ^ 24) (e.1 % 2 ^ 24)) s
    let s := (ctxs.filter (fun e => !d.namedCtx.contains e.1)).foldl (fun s e => s.dropStream e.1) s
    (true, (s.setDup dupInSync).mirrorEvent 0xC026 2 d.named.length d.namedCtx.length 0)
  else (false, s)

/-- SYNC_BEGIN on the standby. -/
def State.takeSyncBegin (s : State) : State :=
  if s.dupRole = 2 then
    { (s.setDup dupSyncing) with duplex := { s.duplex with named := [], namedCtx := [] } }
  else s

/-! ## Receiving (R338) -/

/-- The sender's role as a message shows it; a heartbeat states it. -/
def bodyRole : MirrorBody → Option Nat
  | .keyPut _ _ _ _ _ _ | .keyDelete _ _ | .context _ _ | .contextDelete _ | .syncBegin | .syncEnd => some 1
  | .heartbeat r _ _ => some r
  | .ack _ _ => none
  | .pair1 _ | .pair2 _ | .pair3 _ => none

/-- A message is answered: a refusal is counted, and the pair is then degraded on this side too. -/
def mirrorAnswer (seq : Nat) (r : Bool × State) : State :=
  let t := (r.2.mirrorSend (.ack seq r.1)).2
  if r.1 then t
  else
    let t := t.fadd dupRefused 0 1
    if t.dupRole = 2 && [dupSyncing, dupInSync].contains t.dupState then t.setDup dupDegraded else t

/-- What a message does. -/
def State.apply (s : State) (seq : Nat) (b : MirrorBody) : State :=
  match b with
  | .keyPut ti slot gen typ usage k => mirrorAnswer seq (s.takeKey ti slot gen typ usage k)
  | .keyDelete ti slot => mirrorAnswer seq (s.takeDelete ti slot)
  | .context n x => mirrorAnswer seq (s.takeContext n x)
  | .contextDelete n => mirrorAnswer seq (s.takeDrop n)
  | .syncBegin => s.takeSyncBegin
  | .syncEnd => mirrorAnswer seq s.takeSyncEnd
  | .heartbeat _ _ _ => s
  | .ack q ok => s.takeAck q ok
  | .pair1 _ | .pair2 _ | .pair3 _ => s

/-- A link has carried a valid message. -/
def State.hear (s : State) (link : Nat) : State :=
  let t := s.time.ticks
  let d := { s.duplex with heard := t }
  { s with duplex := if link = 0 then { d with heardA := some t } else { d with heardB := some t } }

/-- The roles after a message, and the end of a lost link. -/
def State.heardRole (s : State) (b : MirrorBody) : State :=
  let lost := s.dupState = dupLost
  let s := match b with
    | .heartbeat r e st => { s with duplex := { s.duplex with peerRole := r, peerEpoch := e, peerState := st } }
    | _ => s
  let role := match bodyRole b with
    | some r => r
    | none => if s.duplex.peerRole = 0 then 3 - s.dupRole else s.duplex.peerRole
  let s := { s with duplex := { s.duplex with peerRole := role } }
  let s := if lost then s.mirrorEvent 0xC021 4 0 s.links.1 s.links.2 else s
  s.settleRoles role

/-- A mirror message arrives on a link (R338): a failed tag is counted and recorded, a copy is discarded silently. -/
def State.mirrorReceive (s : State) (link seq : Nat) (authentic : Bool) (b : MirrorBody) : State :=
  if !s.paired then s
  else if !authentic then
    (s.fadd dupAuthFail 0 1).mirrorEvent 0xC025 4 (if link = 0 then s.duplex.portA else s.duplex.portB) (seq % 2 ^ 32) 0
  else
    let s := s.hear link
    if seq ≤ s.fget .DUPLEX_RX_SEQ_SEQ 0 then s
    else ((s.fset .DUPLEX_RX_SEQ_SEQ 0 seq).heardRole b).apply seq b

/-- MIRROR_MESSAGE (R338). -/
def execMirrorMessage (link seq : Nat) (authentic : Bool) (body : MirrorBody) (s : State) : Out :=
  .next (s.mirrorReceive link seq authentic body)

/-- KEY_PUT (R339). -/
def execKeyPut (link seq ti slot gen typ usage : Nat) (stored : Bytes) (s : State) : Out :=
  .next (s.mirrorReceive link seq true (.keyPut ti slot gen typ usage stored))

/-- MIRROR_ACK (R340): the acknowledgement of message `of_`. -/
def execMirrorAck (link seq of_ : Nat) (accepted : Bool) (s : State) : Out :=
  .next (s.mirrorReceive link seq true (.ack of_ accepted))

/-- SYNC_BEGIN (R342). -/
def execSyncBegin (link seq : Nat) (s : State) : Out := .next (s.mirrorReceive link seq true .syncBegin)

/-- SYNC_END (R342). -/
def execSyncEnd (link seq : Nat) (s : State) : Out := .next (s.mirrorReceive link seq true .syncEnd)

/-- HEARTBEAT_RECEIVED (R343). -/
def execHeartbeatReceived (link seq role epoch state : Nat) (s : State) : Out :=
  .next (s.mirrorReceive link seq true (.heartbeat role epoch state))

/-- HEARTBEAT (R343): every HB_PERIOD. -/
def execHeartbeat (dt : Nat) (s : State) : Out :=
  let s := s.elapse dt
  if s.paired && s.duplex.hbPeriod * 1000000 ≤ s.since s.duplex.beat then
    let s := { s with duplex := { s.duplex with beat := s.time.ticks } }
    .next (s.mirrorSend (.heartbeat s.dupRole (s.fget .DUPLEX_EPOCH_VALUE 0) s.dupState)).2
  else .next s

/-! ## Promotion and demotion (R344, R345) -/

/-- A held TI becomes BOUND and goes on. -/
def State.unhold (s : State) (n : Nat) : State := (s.fset .TI_KEY_HOME_DUPLEX_HELD n 0).resumeTi n

/-- A standby is promoted: 1 by command, 2 automatic, 3 FORCE. -/
def State.promoteRole (s : State) (why : Nat) : State :=
  let e := s.fget .DUPLEX_EPOCH_VALUE 0 + 1
  let s := ((s.fset .DUPLEX_EPOCH_VALUE 0 e).fset .DUPLEX_STATUS_ROLE 0 1).mirrorEvent 0xC023 5 why (e % 2 ^ 32) 0
  s.heldTis.foldl State.unhold s

/-- MIRROR_LINK_LOST (R343, R344): no valid message for HB_MISS periods. -/
def execMirrorLinkLost (dt : Nat) (s : State) : Out :=
  let s := s.elapse dt
  let d := s.duplex
  let st := s.dupState
  if s.paired && st ≠ dupLost && d.hbMiss * d.hbPeriod * 1000000 ≤ s.since d.heard then
    let s := s.setDup dupLost
    let s := { s with duplex := { d with fromSync := st == dupInSync, peerRole := 0, syncEnd := none } }
    let s := s.mirrorEvent 0xC021 4 1 s.links.1 s.links.2
    .next (if s.dupRole = 2 && st = dupInSync && s.flag .DUPLEX_STATUS_AUTO_PROMOTE 0 then s.promoteRole 2 else s)
  else .next s

/-- Whether a promotion without FORCE may go ahead. -/
def State.mayPromote (s : State) : Bool :=
  s.dupRole == 2 && s.duplex.peerRole != 1 && (s.dupState == dupBothStandby || (s.dupState == dupLost && s.duplex.fromSync))

/-- DUPLEX_PROMOTE (R344). -/
def execDuplexPromote (s : State) : Out :=
  .next (s.cmdIf 0x0D05 (fun s p => [(decide (2 ≤ byteAt p 0), mBadParam, 0), zeroAt p 1 3,
      (byteAt p 0 == 0 && !s.mayPromote, mBusyObject, 0)])
    (fun s p => (if s.dupRole = 2 then s.promoteRole (if byteAt p 0 = 1 then 3 else 1) else s).success))

/-- DUPLEX_DEMOTE (R345): the mirrored TIs are held, and drained or aborted as TI_QUIESCE does. -/
def execDuplexDemote (s : State) : Out :=
  .next (s.cmdIf 0x0D06 (fun s p => [(decide (2 ≤ leAt p 0 2), mBadParam, 0), zeroAt p 2 2, (s.dupRole != 1, mBusyObject, 0)])
    (fun s p =>
      let s := (s.fset .DUPLEX_STATUS_ROLE 0 2).mirrorEvent 0xC023 5 4 (s.fget .DUPLEX_EPOCH_VALUE 0) 0
      let s := s.mirroredTis.foldl State.duplexHold s
      let held := fun (j : Job) => s.flag .TI_KEY_HOME_DUPLEX_HELD j.ti
      let s' := s.mbxWait ((s.sched.jobs.filter held).map (·.id)) none none
      (if leAt p 0 2 = 1 then s'.eachJob held State.abortJob else s').mbxSettle))

end Sys2Proof.Machine
end

