-- ==== Sys2Proof/Machine/Firmware.lean ====
section
/-!
DEFINITION. Firmware update, mode changes by command, device reset, diagnostics, and the entropy commands
(R387 to R397, R369, R370).
-/

namespace Sys2Proof.Machine

/-! ## Firmware update (R393 to R396) -/

/-- The slot that runs, while an image does. -/
def State.runningSlot (s : State) : Option Nat := if s.boot.head.isEmpty then none else some (s.fget .DEV_BOOT_SLOT 0)

/-- The staging commands apply: the A/B policy, or recovery. -/
def State.mayStage (s : State) : Bool := s.boot.sel == 2 || s.mode == modeLockdown

/-- The checks that the slot commands share. -/
def State.slotChecks (s : State) (p : Bytes) : List (Bool × Nat × Nat) :=
  [(decide (2 ≤ byteAt p 0), mBadParam, 0), (!s.mayStage, mWrongMode, 0),
   (s.runningSlot == some (byteAt p 0) || s.boot.install.isSome, mBusyObject, 0), zeroAt p 1 3]

/-- A slot's contents. -/
def State.setFlash (s : State) (k : Nat) (b : Bytes) : State :=
  { s with boot := { s.boot with flash := s.boot.flash.set k b } }

/-- FW_STAGE_OPEN: the slot is erased; channel 0 of die 0 is bound to what arrives (R264). -/
def execFwStageOpen (s : State) : Out :=
  .next (s.cmdIf 0x0B01 (fun s p => s.slotChecks p ++ [(leAt p 4 4 == 0 || decide (2 ^ 24 < leAt p 4 4), mBadParam, 4)])
    (fun s p =>
      let k := byteAt p 0
      let n := leAt p 4 4
      let s := s.setFlash k []
      let s := { s with boot := { s.boot with stage := ⟨some k, n, []⟩, installed := s.boot.installed.set k false,
                                              invalid := s.boot.invalid.set k false } }
      (s.snoopStage 0 2 3 n).success))

/-- FW_STAGE_DATA: ascending offsets without gaps. -/
def execFwStageData (s : State) : Out :=
  .next (s.cmdIf 0x0B02 (fun s p =>
      let g := s.boot.stage
      [(g.target.isNone, mNotFound, 0), (leAt p 0 4 != (s.slotFlash (g.target.getD 0)).length, mBadParam, 0), zeroAt p 4 4,
       (decide (g.size < leAt p 0 4 + (p.length - 8)), mBadParam, 8), (s.boot.install.isSome, mBusyObject, 0)])
    (fun s p =>
      let k := s.boot.stage.target.getD 0
      ((s.setFlash k (s.slotFlash k ++ p.drop 8)).snoopFeed 0 (p.drop 8)).success))

/-- FW_INSTALL: answered IN_PROGRESS. -/
def execFwInstall (s : State) : Out :=
  .next (s.cmdIf 0x0B03 State.slotChecks (fun s p =>
    { s with boot := { s.boot with install := some (byteAt p 0, s.time.ticks), outcome := mInProgress } }.respond mInProgress 0 []))

/-- FW_INSTALL_DONE: the slot read back passes Table 13.4, or is marked invalid. -/
def execFwInstallDone (dt : Nat) (s : State) : Out :=
  let s := s.elapse dt
  match s.boot.install with
  | none => .next s
  | some (k, _) =>
    let f := s.slotFlash k
    let (step, _) := s.imageFail f
    let s := s.measureSlot f step
    let s := { s with boot := { s.boot with install := none, stage := ⟨none, 0, []⟩, outcome := if step = 0 then mSuccess else
                                              if step = 6 then mRollback else mVerifyFailed,
                                            installed := s.boot.installed.set k (step == 0),
                                            invalid := s.boot.invalid.set k (step != 0) } }
    .next (if step = 0 then s.event 0x1007 2 0 1 k 1 (byteAt (imageHead f) 0x10) else s)

/-- FW_ACTIVATE. -/
def execFwActivate (s : State) : Out :=
  .next (s.cmdIf 0x0B04 (fun s p =>
      [(decide (2 ≤ byteAt p 0), mBadParam, 0), (!(s.boot.installed.getD (byteAt p 0) false), mNotFound, 0), zeroAt p 1 3])
    (fun s p =>
      let k := byteAt p 0
      let s := ((s.fset .DEV_FW_SLOT_PREFERRED 0 k).fset .DEV_FW_SLOT_TRIAL 0 1).fset .DEV_FW_SLOT_TRIES 0 0
      (s.event 0x1007 2 0 1 k 2 (byteAt (imageHead (s.slotFlash k)) 0x10)).success))

/-- FW_CONFIRM: TRIAL is cleared. -/
def execFwConfirm (s : State) : Out :=
  .next (s.cmd 0x0B05 (fun s _ =>
    if s.flag .DEV_FW_SLOT_TRIAL 0 then
      ((s.fset .DEV_FW_SLOT_TRIAL 0 0).event 0x1007 2 0 1 (s.fget .DEV_BOOT_SLOT 0) 3 (s.fget .DEV_BOOT_SVN 0)).success
    else s.success))

/-- FW_ADVANCE_SVN (R395). -/
def execFwAdvanceSvn (s : State) : Out :=
  .next (s.cmdIf 0x0B06 (fun s _ =>
      [(s.flag .DEV_FW_SLOT_TRIAL 0, mBusyObject, 0), (decide (s.fwSvn ≤ s.otp.svn), mBadParam, 0),
       (decide (64 < s.fwSvn), mNoResource, 0)])
    (fun s _ => s.program (fun s =>
      (({ s with otp := { s.otp with svn := s.fwSvn } }).event 0x1008 5 0 1 s.otp.svn s.fwSvn 0).success)))

/-- The security version of a slot as FW_QUERY gives it. -/
def State.slotSvn (s : State) (k : Nat) : Nat :=
  let h := imageHead (s.slotFlash k)
  if s.boot.invalid.getD k false || !headOk h then 0xFF else byteAt h 0x10

/-- FW_QUERY. -/
def execFwQuery (s : State) : Out :=
  .next (s.cmd 0x0B07 (fun s _ =>
    s.respond mSuccess 0 (leBytes 4 (s.reg .DEV_BOOT 0).toNat ++ leBytes 4 (s.reg .DEV_FW_SLOT 0).toNat ++
      leBytes 4 s.fwVersion ++ leBytes 1 (s.slotSvn 0) ++ leBytes 1 (s.slotSvn 1) ++ leBytes 1 s.otp.svn ++ leBytes 1 0 ++
      leBytes 2 s.boot.outcome ++ List.replicate 14 0)))

/-! ## Modes by command (R387) -/

/-- Every TI is FREE. -/
def State.allFree (s : State) : Bool := (List.range s.part.tenants).all (fun n => s.tiState n == tiFree)

/-- MAINTENANCE may be left for SERVICE. -/
def State.quiet (s : State) : Bool :=
  s.boot.install.isNone && s.boot.bist.isNone && (List.range (2 * s.dies)).all (fun k => s.fget .LIE_STATE_STATE k != 3) &&
    decide (s.fget .DBG_STATE_LEVEL 0 < 2)

/-- A row of Table 13.8 that a command may take. -/
def modeRow (src dst : Nat) : Bool :=
  (src == 2 && dst == 3) || (src == 3 && dst == 4) || (src == 4 && (dst == 3 || dst == 2)) || (src == 5 && dst == 2)

/-- The checks of MODE_ENTER. -/
def State.modeChecks (s : State) (p : Bytes) : List (Bool × Nat × Nat) :=
  let t := byteAt p 0
  [(!modeRow s.mode t, mWrongMode, 0), zeroAt p 1 3, (t == 2 && !s.cmdAuthed, mNotAuthorised, 0)] ++
  (if s.mode = modeCommissioning then [(s.lcs != lcOwned || !s.rootValid, mLifecycleDenied, 0)]
   else if s.mode = modeMaintenance && t = modeService then [(!s.quiet, mBusyObject, 0)]
   else if s.mode = modeMaintenance then [(!s.allFree, mBusyObject, 6)]
   else if s.mode = modeLockdown then
     [(s.lcs != lcOwned, mLifecycleDenied, 0), (s.fget .DEV_MODE_LOCK_CAUSE 0 != 1, mWrongMode, 0),
      (s.freeEpoch.isNone, mNoResource, 0), (!s.allFree, mBusyObject, 6)]
   else [])

/-- MODE_ENTER. -/
def execModeEnter (s : State) : Out :=
  .next (s.cmdIf 0x0C01 State.modeChecks (fun s p => (s.setMode (byteAt p 0) 1).success))

/-- DEV_RESET: the response, then the reset. -/
def execDevReset (s : State) : Out :=
  .next (s.cmdIf 0x0C02 (fun _ p => [(leAt p 0 4 != 0x52455345, mBadParam, 0)])
    (fun s _ => s.success.deviceReset .DEV_RESET_CAUSE_COMMAND))

/-! ## Diagnostics (R369, R397) -/

/-- A bank tested afresh joins the seeds, or its failure is counted. -/
def State.retest (s : State) (d b fail : Nat) : State :=
  if fail = 1 || fail = 2 then s.countFail d b fail else s.readmitBank d b

/-- A bank leaves the seeds by command; while the entropy is off, or when it is out already, it is only marked. -/
def State.bankOut (s : State) (d b : Nat) : State :=
  if (s.activeBanks d).testBit b then s.excludeBank d b 3
  else
    let r := s.rngOf d
    let s := s.setRng d { r with admin := r.admin ||| 2 ^ b }
    if (s.fget .RNG_BANKS_RETIRED d).testBit b then s
    else s.fset .RNG_BANKS_EXCLUDED d (s.fget .RNG_BANKS_EXCLUDED d ||| 2 ^ b)

/-- DIAG_RNG_CAPTURE: the raw bits as they came; the bank is out for the capture and returns by a start-up test, whose
outcome is `fail` (0 passes, 1 repetition count, 2 adaptive proportion). -/
def execDiagRngCapture (bits : Bytes) (fail : Nat) (s : State) : Out :=
  .next (s.cmdIf 0x0C11 (fun s p =>
      [s.lcDenied [lcTest, lcReturned], (decide (s.dies ≤ byteAt p 0), mBadParam, 0), (decide (7 ≤ byteAt p 1), mBadParam, 1),
       (leAt p 2 2 == 0 || decide (16368 < leAt p 2 2), mBadParam, 2)])
    (fun s p =>
      let d := byteAt p 0
      let b := byteAt p 1
      (((s.bankOut d b).retest d b fail)).respond mSuccess 0 (sliceZ bits 0 (leAt p 2 2))))

/-- A tenant key, an import key among them (Table 11.1), lies on a die. -/
def State.dieHasKey (s : State) (d : Nat) : Bool :=
  s.slots.any (fun e => e.2.state != .empty && s.keyDie (e.1 / 2 ^ 24) == d)

/-- The VCs of a package cluster leave dispatch, or return: those that are neither retired nor being reloaded. -/
def State.clusterReady (s : State) (cl : Nat) (on : Bool) : State :=
  (List.range 8).foldl (fun s c =>
    if on && (decide (4 ≤ s.fget .VC_STATE_STATE (cl * 8 + c)) || !s.flag .CLU_GOLD_STAT_VALID cl) then s
    else s.vcReady (cl * 8 + c) on) s

/-- DIAG_BIST: test 1 operand stores, 2 cluster memory, 3 the die's key store. -/
def execDiagBist (s : State) : Out :=
  .next (s.cmdIf 0x0C12 (fun s p =>
      [(decide (2 * s.dies ≤ byteAt p 0), mBadParam, 0), (byteAt p 1 == 0 || decide (4 ≤ byteAt p 1), mBadParam, 1), zeroAt p 2 2,
       (s.boot.bist.isSome, mBusyObject, 0), (byteAt p 1 == 3 && s.dieHasKey (byteAt p 0 / 2), mBusyObject, 2)])
    (fun s p =>
      let cl := byteAt p 0
      let s := s.clusterReady cl false
      let s := if byteAt p 1 = 3 then (s.fset .KS_STATE_READY (cl / 2) 0).readySet .DEV_READY_MAP_KS (cl / 2) 0 else s
      { s with boot := { s.boot with bist := some (cl, byteAt p 1, s.time.ticks) } }.respond mInProgress 0 []))

/-- A job runs on a core of a package cluster, or lies saved there. -/
def State.clusterBusy (s : State) (cl : Nat) : Bool :=
  (List.range 8).any (fun c => (s.core (cl * 8 + c)).job.isSome) ||
    (List.range 4).any (fun i => (sparseGet VCore.idle s.saves (cl * 4 + i)).job.isSome)

/-- The copies of resident public keys in a cluster's memory are overwritten; a key without a copy is lost. -/
def State.dropCopies (s : State) (cl : Nat) : State :=
  (s.slots.filter (fun e => e.2.copies.contains cl)).foldl (fun s e =>
    let ti := e.1 / 2 ^ 24
    let n := e.1 % 2 ^ 24
    let k := s.slot ti n
    if k.copies == [cl] then (s.deleteKey ti n none).2
    else s.setSlot ti n { k with copies := k.copies.filter (· != cl), granules := k.granules - 1 }) s

/-- The memory that a test overwrites; it reads as zero after it. -/
def State.overwrite (s : State) (cl kind : Nat) : State :=
  if kind = 1 then (List.range 8).foldl (fun s c => s.setCore (cl * 8 + c) VCore.idle) s
  else if kind = 2 then ({ s with shared := sparseSet [] s.shared cl [] }).dropCopies cl
  else s

/-- DIAG_BIST_DONE: `bad` is the failing address, if any. The test begins when the cluster's jobs have ended. -/
def execDiagBistDone (bad : Option Nat) (dt : Nat) (s : State) : Out :=
  let s := s.elapse dt
  match s.boot.bist with
  | none => .next s
  | some (cl, kind, _) =>
    if s.clusterBusy cl then .next s
    else
      let s := s.overwrite cl kind
      let st := if bad.isNone then mSuccess else mVerifyFailed
      let r := leBytes 4 kind ++ leBytes 4 cl ++ leBytes 4 st ++ leBytes 4 (bad.getD 0)
      let s := { s with boot := { s.boot with bist := none, result := r } }
      let s := match bad, kind with
        | some _, 3 => { s with boot := { s.boot with bistBad := (128 + cl / 2) :: s.boot.bistBad } }
        | some _, _ => { s with boot := { s.boot with bistBad := cl :: s.boot.bistBad } }
        | none, 3 => (s.fset .KS_STATE_READY (cl / 2) 1).readySet .DEV_READY_MAP_KS (cl / 2) 1
        | none, _ => s
      .next (if s.boot.bistBad.contains cl then s else s.clusterReady cl true)

/-- DIAG_RESULT. -/
def execDiagResult (s : State) : Out := .next (s.cmd 0x0C13 (fun s _ => s.respond mSuccess 0 s.boot.result))

/-! ## Entropy commands (R370) -/

/-- RNG_QUERY. -/
def execRngQuery (s : State) : Out :=
  .next (s.cmdIf 0x0701 (fun s p => [(decide (s.dies ≤ byteAt p 0), mBadParam, 0), zeroAt p 1 3])
    (fun s p => s.respond mSuccess 0 (s.peek (dieBlock (byteAt p 0) + 0x50000) 64)))

/-- A limit changes unless it is zero. -/
def State.keepOr (s : State) (f : Fld) (i v : Nat) : State := if v = 0 then s else s.fset f i (min v (2 ^ (f.hi + 1 - f.lo) - 1))

/-- RNG_SET on one die. -/
def State.rngSet (s : State) (p : Bytes) (d : Nat) : State :=
  let s := (s.fset .RNG_CTL_BORROW_EN d (byteAt p 1)).fset .RNG_CTL_LEND_EN d (byteAt p 1 / 2)
  let s := s.keepOr .RNG_RETRY_RETRY_MS d (leAt p 2 2)
  (List.range 3).foldl (fun s c => s.keepOr .RNG_WAIT_LIMIT_US (d * 3 + c) (leAt p (4 + 4 * c) 4)) s

/-- R353, R363: the retry interval (ms) and the wait limits (µs) range from 10 to 10,000; zero keeps a value. -/
def rngOutside (n : Nat) : Bool := n != 0 && (decide (n < 10) || decide (10000 < n))

/-- RNG_SET. -/
def execRngSet (s : State) : Out :=
  .next (s.cmdIf 0x0702 (fun s p =>
      [(decide (s.dies ≤ byteAt p 0) && byteAt p 0 != 0xFF, mBadParam, 0), (decide (4 ≤ byteAt p 1), mBadParam, 1)] ++
      [(rngOutside (leAt p 2 2), mBadParam, 2)] ++
      [4, 8, 12].map (fun o => (rngOutside (leAt p o 4), mBadParam, o)))
    (fun s p =>
      let l := if byteAt p 0 = 0xFF then List.range s.dies else [byteAt p 0]
      ((l.foldl (fun s d => s.rngSet p d) s).reborrow).success))

/-- RNG_BANK: `fail` is the outcome of a fresh start-up test. -/
def execRngBank (fail : Nat) (s : State) : Out :=
  .next (s.cmdIf 0x0703 (fun s p =>
      [(decide (s.dies ≤ byteAt p 0), mBadParam, 0), (decide (7 ≤ byteAt p 1), mBadParam, 1), (decide (2 ≤ byteAt p 2), mBadParam, 2),
       zeroAt p 3 1])
    (fun s p =>
      let d := byteAt p 0
      let b := byteAt p 1
      (if byteAt p 2 = 0 then s.bankOut d b
       else if (s.activeBanks d).testBit b then s
       else s.retest d b fail).success))

end Sys2Proof.Machine
end

