-- ==== Sys2Proof/Machine/Ftx.lean ====
section
/-!
DEFINITION. The transmit side of the frame path: fetching FTX entries, tagging, launching and reporting (R308 to R311).
-/

namespace Sys2Proof.Machine

/-! ## Entry fields (Table 10.12) -/

def ftxAddr (e : Bytes) : Nat := leAt e 0 8
def ftxLen (e : Bytes) : Nat := leAt e 8 2
def ftxFlags (e : Bytes) : Nat := leAt e 10 2
def ftxTarget (e : Bytes) : Nat := leAt e 12 4
def ftxAt (e : Bytes) : Nat := leAt e 16 8
def ftxPrp (e : Bytes) : Bool := (ftxFlags e).testBit 0
def ftxReport (e : Bytes) : Bool := (ftxFlags e).testBit 1
def ftxTs (e : Bytes) : Bool := (ftxFlags e).testBit 2
def ftxRaw (e : Bytes) : Bool := (ftxFlags e).testBit 3

/-- The ports on which an entry's frame is to be sent: the port named, or those of the context. -/
def State.ftxPorts (s : State) (e : Bytes) : List Nat :=
  if ftxRaw e then [ftxTarget e % 16384]
  else
    let x := s.stream (ftxTarget e)
    if ftxPrp e && x.pair then [x.port, s.partner x.port] else [x.port]

/-! ## Fetching (R308) -/

/-- Frames in a port's launch queue. -/
def State.launchQueue (s : State) (p : Nat) : Nat := (s.frames.tx.filter (fun f => (s.ftxPorts f.entry).contains p)).length

/-- The launch queues of an entry's ports have a free place. -/
def State.launchRoom (s : State) (e : Bytes) : Bool := (s.ftxPorts e).all (fun p => s.launchQueue p < 256)

/-- An FTX ring that the arbiter may choose. -/
def State.ftxEligible (s : State) (r : Nat) : Bool :=
  s.ringBound r && s.ringType r == typeFtx && s.ringState r == ringEnabled && s.dmaOpen && s.frameService && decide (0 < s.sqPending r)

/-- Entries taken one after another while their ports' launch queues have room. -/
def State.takeFtx (r : Nat) : List Bytes → State → State
  | [], s => s
  | b :: t, s =>
    let e := sliceZ b 0 64
    if s.launchRoom e then
      let f := s.fget .RING_FETCH_INDEX r
      let x : TxFrame := { id := s.frames.nextId, ring := r, idx := f, entry := e, data := [], tagged := false, launch := 0,
                           seq := 0, waits := [], sent := 0, failed := none, time := 0 }
      let s := { s with frames := { s.frames with tx := s.frames.tx ++ [x], nextId := x.id + 1 } }
      let s := (s.fset .RING_FETCH_INDEX r (f + 1)).fset .RING_ARB_CREDIT r (s.fget .RING_ARB_CREDIT r - 1)
      State.takeFtx r t (s.readEntries r f 1)
    else s

/-- FTX_FETCH (R308): one visit of the arbiter; `entries` is what host memory returns from the fetch pointer on, the whole
visit or none of it. -/
def execFtxFetch (entries : List Bytes) (s : State) : Out :=
  let all := (List.range s.part.rings).filter (fun r => s.ringLive r && s.ringType r == typeFtx)
  let el := all.filter s.ftxEligible
  let (s, pick) := match s.wrrPick s.sched.lastFtx el with
    | some r => (s, some r)
    | none => if el.isEmpty then (s, none) else
        let s := s.refill all
        (s, s.wrrPick s.sched.lastFtx el)
  match pick with
  | none => .next s
  | some r =>
    let n := min (min (s.fget .RING_ARB_BURST r) (s.fget .RING_ARB_CREDIT r)) (s.sqPending r)
    if entries.length < n then .next s
    else
    let s := State.takeFtx r (entries.take n) s
    .next { s with sched := { s.sched with lastFtx := r + 1 } }

/-! ## Ends and reports (R311) -/

/-- An entry leaves the device. -/
def State.dropTx (s : State) (f : TxFrame) : State :=
  { s with frames := { s.frames with tx := s.frames.tx.filter (fun x => x.id != f.id) } }

/-- The report CQE of an entry, where one is due, after the published head that covers the entry (R114): none goes to a CQ
that is not ENABLED (Table 04.7). -/
def State.reportTx (s : State) (f : TxFrame) (st detail : Nat) : State :=
  let cq := (s.ringx f.ring).report
  let s := s.publish f.ring
  if (st = jOk && !ftxReport f.entry && !ftxTs f.entry) || cq = 0xFFFF || s.ringState cq ≠ ringEnabled then s
  else
    let now := s.replicaNow 0
    let t := if ftxTs f.entry && f.time != 0 then f.time else now
    s.postCqe cq ⟨cqeBytes st 0 (leAt f.entry 24 4) (if st = jOk then f.data.length + (if ftxPrp f.entry && !ftxRaw f.entry then 6 else 0) else 0)
      f.ring t f.idx detail, f.ring, false⟩

/-- An entry is refused before it was tagged. -/
def State.refuseTx (s : State) (f : TxFrame) (st : Nat) : State := (s.dropTx f).reportTx f st 0

/-- An entry whose ports have all been settled ends. -/
def State.settleTx (s : State) (f : TxFrame) : State :=
  if f.waits.isEmpty then
    let s := if f.sent ≠ 0 && !ftxRaw f.entry then s.countStream (ftxTarget f.entry) cntSent else s
    match f.failed with
    | some p => (s.dropTx f).reportTx f jDeadlineMissed p
    | none => (s.dropTx f).reportTx f jOk 0
  else { s with frames := { s.frames with tx := s.frames.tx.map (fun x => if x.id = f.id then f else x) } }

/-- The frame cannot start in time on a port (R310). -/
def State.lateTx (s : State) (f : TxFrame) (p : Nat) : State × TxFrame :=
  let n := if ftxRaw f.entry then 0xFFFFFFFF else ftxTarget f.entry
  let s := (s.fadd .PORT_TX_LATE_COUNT p 1).event 0x700C 3 (portDie p) 7 n f.ring p
  (s, { f with waits := f.waits.filter (· != p), failed := some (f.failed.getD p) })

/-! ## Reading and tagging (R309) -/

/-- The first reason for which an entry is refused with INVALID_PARAM; a mirror port carries no frame of a ring
(R28). -/
def State.ftxBad (s : State) (f : TxFrame) : Bool :=
  let e := f.entry
  let ti := s.ringOwner f.ring
  let x := s.stream (ftxTarget e)
  decide (16 ≤ ftxFlags e) || !allZero (sliceZ e 28 36) || !(60 ≤ ftxLen e && ftxLen e ≤ 2048) ||
    (s.ftxPorts e).any (fun p => s.portRole p == 2) ||
    (if ftxRaw e then decide (s.ports ≤ ftxTarget e) || s.fget .PORT_RINGS_RAW_TI (ftxTarget e) != ti
     else !x.live || x.dir != 1 || x.owner != ti || (ftxPrp e && !x.pair))

/-- The time that a frame's extension carries: LAUNCH, or the PHC when tagging starts plus 250 ns. -/
def State.txStamp (s : State) (f : TxFrame) (d : Nat) : Nat := if ftxAt f.entry = 0 then s.replicaNow d + 250 else ftxAt f.entry

/-- A frame with its extension and tag (R309). -/
def State.tagFrame (s : State) (x : Stream) (id : Nat) (k : Bytes) (t : Nat) (data : Bytes) : Bytes :=
  let secs := t / 1000000000 - s.frames.utc
  let b := Config.secExtend x.alg x.tagLen id secs (t % 1000000000 * 2 ^ 24 / 1000000000) data
  b ++ streamTag x.alg x.tagLen k (Config.secIv b) (b.drop (ethHead data).off)

/-- The redundancy control trailer of a copy (R309). -/
def rctBytes (seq lan : Nat) (b : Bytes) : Bytes :=
  beBytes 2 seq ++ beBytes 2 (lan * 4096 + (b.length + 6 - (ethHead b).off) % 4096) ++ beBytes 2 0x88FB

/-- A frame is queued for its ports, or is late already when tagging could start (R310). -/
def State.queueTx (s : State) (f : TxFrame) (data : Bytes) (t : Nat) : State :=
  let ps := s.ftxPorts f.entry
  let a := ps.headD 0
  let both := ftxPrp f.entry && !ftxRaw f.entry
  let q := s.fget .PORT_PRP_SEQ_SEQ a
  let s := if both then s.fwrap .PORT_PRP_SEQ_SEQ a 1 else s
  let f := { f with data := data, tagged := true, launch := t, seq := q, waits := ps }
  if ftxAt f.entry ≠ 0 && ftxAt f.entry < s.replicaNow (portDie a) then
    let r := ps.foldl (fun (x : State × TxFrame) p => x.1.lateTx x.2 p) (s, f)
    r.1.settleTx r.2
  else s.settleTx f

/-- An entry's frame is read: the published head may advance; checks, key and tag. -/
def State.readTx (s : State) (f : TxFrame) (data : Bytes) (fault : Nat) : State :=
  let x := s.ringx f.ring
  let s := s.setRingx f.ring { x with head := (x.head + 1) % 2 ^ 32 }
  let ti := s.ringOwner f.ring
  let e := f.entry
  if s.ftxBad f then s.refuseTx f jInvalidParam
  else if !s.bufferOk ti (ftxAddr e) (ftxLen e) true false then
    ((s.countAlert .TI_BUF_FAULTS_COUNT ti).event 0x6011 3 0 0x0E ti (ftxAddr e % 2 ^ 32) 0).refuseTx f jBufferFault
  else
  let s := s.tiRead ti (ftxAddr e) (ftxLen e)
  if fault ≠ 0 then ((s.dmaEvent ti fault (ftxAddr e)).countAlert .TI_BUF_FAULTS_COUNT ti).refuseTx f jBufferFault
  else
    let b := sliceZ data 0 (ftxLen e)
    if ftxRaw e then s.queueTx f b (ftxAt e)
    else
      let c := s.stream (ftxTarget e)
      match c.cur with
      | none => s.refuseTx f jKeyHandle
      | some (id, k) =>
        let t := s.txStamp f (ctxDie (ftxTarget e))
        let g := s.tagFrame c id k t b
        if 2048 < g.length then s.refuseTx f jInvalidParam else s.queueTx f g t

/-- FTX_FRAME_READ (R309): the oldest unread entry of a ring; `data` is what host memory returns, `fault` the kind of a
failed read (R77), 0 for none. -/
def execFtxFrameRead (frame : Nat) (data : Bytes) (fault : Nat) (dt : Nat) (s : State) : Out :=
  let s := s.elapse dt
  match s.frames.tx.find? (fun f => f.id == frame) with
  | none => .next s
  | some f =>
    if f.tagged || !s.dmaOpen || s.frames.tx.any (fun g => g.ring == f.ring && decide (g.id < frame) && !g.tagged) then .next s
    else .next (s.readTx f data fault)

/-! ## Launching (R309, R310) -/

/-- A port may start a frame: its link is up, it is no mirror port (R28) and no pause holds it. -/
def State.mayStart (s : State) (p : Nat) : Bool := s.portUp p && s.portRole p != 2 && decide (sparseGet 0 s.frames.paused p ≤ s.time.ticks)

/-- Whether the LAUNCH time of a frame lies more than TX_SLIP back on a port. -/
def State.slipped (s : State) (f : TxFrame) (p : Nat) : Bool :=
  ftxAt f.entry != 0 && decide (ftxAt f.entry + s.frames.slip * 1000 < s.replicaNow (portDie p))

/-- A copy of a frame starts on a port. -/
def State.startTx (s : State) (f : TxFrame) (p : Nat) : State :=
  let a := (s.ftxPorts f.entry).headD 0
  let b := if ftxPrp f.entry && !ftxRaw f.entry then f.data ++ rctBytes f.seq (if p = a then 0xA else 0xB) f.data else f.data
  let t := unsignedOf 64 ((s.replicaNow (portDie p) : Int) + s.tsAdj .PORT_TS_TX_ADJ_ADJ_NS p)
  let s := { s with frames := { s.frames with paused := sparseDel s.frames.paused p } }
  let s := ((s.emitLocal (.frame p t b)).fwrap .PORT_TX_FRAMES_COUNT p 1).fwrap .PORT_TX_BYTES_COUNT p (b.length + 4)
  s.settleTx { f with waits := f.waits.filter (· != p), sent := f.sent + 1, time := if p = a then t else f.time }

/-- FTX_LAUNCH (R309): a copy starts on the wire, not before its timestamp. -/
def execFtxLaunch (frame port dt : Nat) (s : State) : Out :=
  let s := s.elapse dt
  match s.frames.tx.find? (fun f => f.id == frame) with
  | none => .next s
  | some f =>
    if f.waits.contains port && s.mayStart port && s.frameService && decide (f.launch ≤ s.replicaNow (portDie port)) &&
        !s.slipped f port then .next (s.startTx f port)
    else .next s

/-- TX_SLIP_EXPIRY (R310): a frame has not started on a port within TX_SLIP of its LAUNCH. -/
def execTxSlipExpiry (frame port dt : Nat) (s : State) : Out :=
  let s := s.elapse dt
  match s.frames.tx.find? (fun f => f.id == frame) with
  | none => .next s
  | some f =>
    if f.waits.contains port && s.slipped f port then
      let (s, f) := s.lateTx f port
      .next (s.settleTx f)
    else .next s

end Sys2Proof.Machine
end

