-- ==== Sys2Proof/Machine/FrameCmds.lean ====
section
/-!
DEFINITION. The frame-path commands (R276, R277, R280, R286 to R288, R312, R313, Tables 10.14, 10.15, 10.18).
-/

namespace Sys2Proof.Machine

/-! ## Ports -/

/-- A ring named by a port or a context: none, or an FRX ring. -/
def State.frxOf (s : State) (r : Nat) : Bool := r == 0xFFFF || (decide (r < s.part.rings) && s.ringLive r && s.ringType r == typeFrx)

/-- The checks of PORT_CONFIG. -/
def State.portConfigChecks (s : State) (b : Bytes) : List (Bool × Nat × Nat) :=
  let p := leAt b 0 2
  let mode := byteAt b 2
  let raw := leAt b 12 2
  [(decide (s.ports ≤ p), mBadParam, 0), (s.portRole p == 2, mBusyObject, 0), (decide (6 ≤ mode), mBadParam, 2),
   (decide (3 ≤ byteAt b 3) || (byteAt b 3 != 0 && mode != 5), mBadParam, 3), (decide (2 ≤ byteAt b 4), mBadParam, 4),
   (byteAt b 4 == 1 && s.flag .PORT_CFG_PAIRED p, mBusyObject, 0),
   (decide (8 ≤ byteAt b 5) || ((byteAt b 5).testBit 2 && decide (3 ≤ mode)), mBadParam, 5), zeroAt b 6 2,
   (!s.frxOf (leAt b 8 2), mBadParam, 8), (!s.frxOf (leAt b 10 2), mBadParam, 10),
   (raw != 0xFFFF && decide (s.part.tenants ≤ raw), mBadParam, 12), (raw != 0xFFFF && !s.tiLive raw, mNotFound, 0), zeroAt b 14 2]

/-- PORT_CONFIG (R276, R277): a change of mode, FEC or auto-negotiation takes the link down. -/
def execPortConfig (s : State) : Out :=
  .next (s.cmdIf 0x0601 State.portConfigChecks (fun s b =>
    let p := leAt b 0 2
    let o := byteAt b 5
    let same := s.fget .PORT_CFG_MODE p == byteAt b 2 && s.fget .PORT_CFG_FEC p == byteAt b 3 && s.fget .PORT_CFG_AN p == o / 4
    let s := if same then s else s.setLink p false 0
    let s := ((s.fset .PORT_CFG_MODE p (byteAt b 2)).fset .PORT_CFG_FEC p (byteAt b 3)).fset .PORT_CFG_ROLE p (byteAt b 4)
    let s := ((s.fset .PORT_CFG_PAUSE_GEN p o).fset .PORT_CFG_JUMBO p (o / 2)).fset .PORT_CFG_AN p (o / 4)
    let s := (s.fset .PORT_RINGS_DEFAULT_RING p (leAt b 8 2)).fset .PORT_RINGS_PTP_RING p (leAt b 10 2)
    (s.fset .PORT_RINGS_RAW_TI p (leAt b 12 2)).success))

/-- A stream context bound to the pair of a LAN A port. -/
def State.pairBound (s : State) (a : Nat) : Bool := s.streams.any (fun e => e.2.live && e.2.pair && e.2.port == a)

/-- A port that may enter a pair. -/
def State.pairable (s : State) (p : Nat) : Bool := s.portRole p == 0 && !s.flag .PORT_CFG_PAIRED p

/-- The checks of PRP_PAIR. -/
def State.prpChecks (s : State) (b : Bytes) : List (Bool × Nat × Nat) :=
  let a := leAt b 0 2
  let c := leAt b 2 2
  let on := byteAt b 4 == 1
  [(decide (s.ports ≤ a) || (on && !s.pairable a), mBadParam, 0),
   (decide (s.ports ≤ c) || (on && (!s.pairable c || portDie a != portDie c || a == c)), mBadParam, 2),
   (decide (2 ≤ byteAt b 4), mBadParam, 4), zeroAt b 5 3,
   (!on && !(s.lanA a && s.partner a == c), mNotFound, 0), (!on && s.pairBound a, mBusyObject, 3)]

/-- PRP_PAIR (R280). -/
def execPrpPair (s : State) : Out :=
  .next (s.cmdIf 0x0602 State.prpChecks (fun s b =>
    let a := leAt b 0 2
    let c := leAt b 2 2
    let on := byteAt b 4
    let s := (s.fset .PORT_CFG_PAIRED a on).fset .PORT_CFG_PAIRED c on
    let s := (s.fset .PORT_CFG_PARTNER a (if on = 1 then c % 16 else 0)).fset .PORT_CFG_PARTNER c (if on = 1 then a % 16 else 0)
    ((s.fset .PORT_CFG_PRP_LAN_B c on).fset .PORT_PRP_SEQ_SEQ a 0).success))

/-- PORT_QUERY (R312): a copy of the port's block. -/
def execPortQuery (s : State) : Out :=
  .next (s.cmdIf 0x060B (fun s b => [(decide (s.ports ≤ leAt b 0 2), mBadParam, 0), zeroAt b 2 2])
    (fun s b =>
      let p := leAt b 0 2
      s.respond mSuccess 0 (s.peek (dieBlock (portDie p) + 0x30000 + 0x1000 * (p % 16)) 128)))

/-! ## Stream contexts -/

/-- The duplex hold of a TI (R341). -/
def State.heldTi (s : State) (n : Nat) : Bool := s.flag .TI_KEY_HOME_DUPLEX_HELD n

/-- Tag lengths by algorithm. -/
def tagLenOk (alg n : Nat) : Bool := if alg = 1 then n == 10 || n == 16 || n == 32 else n == 8 || n == 16

/-- The port field of STREAM_CREATE: a frame port, or LAN A of a pair with PAIR. -/
def State.streamPortOk (s : State) (w : Nat) : Bool :=
  let p := w % 16384
  !w.testBit 14 && decide (p < s.ports) && s.portRole p != 2 && (!w.testBit 15 || s.lanA p)

/-- A context as STREAM_CREATE describes it; a transmit context keeps the fields of a receive one at their defaults. -/
def streamOf (b : Bytes) : Stream :=
  let rx := byteAt b 2 == 0
  { Stream.blank with
    live := true, owner := leAt b 0 2, dir := byteAt b 2, cls := byteAt b 3, mac := if rx then sliceZ b 4 6 else List.replicate 6 0,
    appid := if rx then leAt b 10 2 else 0, vid := if rx then leAt b 12 2 else 0, port := leAt b 14 2 % 16384,
    pair := (leAt b 14 2).testBit 15, alg := byteAt b 16, tagLen := byteAt b 17, unauth := if rx then byteAt b 18 else 0,
    fail := if rx then byteAt b 19 else 0, secRing := if rx then leAt b 20 2 else 0xFFFF,
    window := if rx then orDefault (leAt b 24 4) 2000 else 2000, cntMod := if rx then orDefault (leAt b 28 4) 65536 else 65536 }

/-- Identical match fields of two receive contexts. -/
def Stream.sameMatch (x y : Stream) : Bool :=
  x.live && x.dir == 0 && y.dir == 0 && x.port == y.port && x.pair == y.pair && x.cls == y.cls && x.mac == y.mac &&
    x.appid == y.appid && x.vid == y.vid

/-- The lowest free context of a die. -/
def State.freeContext (s : State) (d : Nat) : Option Nat := ((List.range 4096).map (d * 4096 + ·)).find? (fun n => !(s.stream n).live)

/-- The range checks of the fields that only a receive context uses. -/
def State.rxFieldChecks (s : State) (b : Bytes) : List (Bool × Nat × Nat) :=
  if byteAt b 2 != 0 then []
  else
    let w := leAt b 24 4
    let m := leAt b 28 4
    [(decide (3 ≤ byteAt b 18), mBadParam, 18), (decide (3 ≤ byteAt b 19), mBadParam, 19), (!s.frxOf (leAt b 20 2), mBadParam, 20),
     zeroAt b 22 2, (w != 0 && !(10 ≤ w && w ≤ 1000000), mBadParam, 24), (m != 0 && !(2 ≤ m && m ≤ 65536), mBadParam, 28)]

/-- The checks of STREAM_CREATE. -/
def State.streamCreateChecks (s : State) (b : Bytes) : List (Bool × Nat × Nat) :=
  let ti := leAt b 0 2
  let want := leAt b 32 4
  let d := portDie (leAt b 14 2 % 16384)
  [(decide (s.part.tenants ≤ ti), mBadParam, 0), (!s.tiLive ti, mNotFound, 0), (decide (2 ≤ byteAt b 2), mBadParam, 2),
   (decide (2 ≤ byteAt b 3), mBadParam, 3), (byteAt b 2 == 0 && natBits (leAt b 12 2) 14 12 != 0, mBadParam, 12),
   (!s.streamPortOk (leAt b 14 2), mBadParam, 14), (byteAt b 16 != 1 && byteAt b 16 != 2, mBadParam, 16),
   (!tagLenOk (byteAt b 16) (byteAt b 17), mBadParam, 17)] ++ s.rxFieldChecks b ++
  [(want != 0xFFFFFFFF && want / 4096 != d, mBadParam, 32), (want != 0xFFFFFFFF && (s.stream want).live, mExists, 0),
   zeroAt b 36 4, (s.streams.any (fun e => e.2.sameMatch (streamOf b)), mExists, 0), (s.heldTi ti, mBusyObject, 3),
   (decide (s.fget .TI_STREAM_QUOTA ti ≤ s.fget .TI_STREAM_USED ti) || (want == 0xFFFFFFFF && (s.freeContext d).isNone), mNoResource, 3)]

/-- STREAM_CREATE (R286, R287). -/
def execStreamCreate (s : State) : Out :=
  .next (s.cmdIf 0x0603 State.streamCreateChecks (fun s b =>
    let ti := leAt b 0 2
    let want := leAt b 32 4
    let n := if want = 0xFFFFFFFF then (s.freeContext (portDie (leAt b 14 2 % 16384))).getD 0 else want
    let s := (s.reviseStream n (streamOf b)).fset .TI_STREAM_USED ti (s.fget .TI_STREAM_USED ti + 1)
    (((s.frameEvent 0x7009 1 n ti 1).mirrorStream n none).2).respond mSuccess 0 (leBytes 4 n)))

/-- The checks of a context number at payload byte 0. -/
def State.ctxChecks (s : State) (b : Bytes) : List (Bool × Nat × Nat) :=
  [(decide (s.contexts ≤ leAt b 0 4), mBadParam, 0), (!(s.stream (leAt b 0 4)).live, mNotFound, 0)]

/-- A context whose owner is under the duplex hold. -/
def State.ctxHeld (s : State) (b : Bytes) : Bool × Nat × Nat := (s.heldTi (s.stream (leAt b 0 4)).owner, mBusyObject, 3)

/-- STREAM_MODIFY (R286, R288): a zero window keeps the one in force. -/
def execStreamModify (s : State) : Out :=
  .next (s.cmdIf 0x0604 (fun s b =>
      let w := leAt b 8 4
      s.ctxChecks b ++ [((s.stream (leAt b 0 4)).dir == 1, mBadParam, 0), (decide (3 ≤ byteAt b 4), mBadParam, 4),
        (decide (3 ≤ byteAt b 5), mBadParam, 5), (!s.frxOf (leAt b 6 2), mBadParam, 6),
        (w != 0 && !(10 ≤ w && w ≤ 1000000), mBadParam, 8), zeroAt b 12 4, s.ctxHeld b])
    (fun s b =>
      let n := leAt b 0 4
      let x := s.stream n
      let s := s.reviseStream n { x with unauth := byteAt b 4, fail := byteAt b 5, secRing := leAt b 6 2, window := orDefault (leAt b 8 4) x.window }
      (s.mirrorStream n none).2.success))

/-- STREAM_SUBSCRIBE (R286, R312). -/
def execStreamSubscribe (s : State) : Out :=
  .next (s.cmdIf 0x0605 (fun s b =>
      let x := s.stream (leAt b 0 4)
      let r := leAt b 4 2
      let on := byteAt b 6 == 1
      s.ctxChecks b ++ [(x.dir == 1, mBadParam, 0), (r == 0xFFFF || !s.frxOf r, mBadParam, 4), (decide (2 ≤ byteAt b 6), mBadParam, 6),
        zeroAt b 7 1, (on && x.subs.contains r, mExists, 0), (!on && !x.subs.contains r, mNotFound, 0),
        (on && decide (8 ≤ x.subs.length), mBadParam, 4)])
    (fun s b =>
      let n := leAt b 0 4
      let x := s.stream n
      let r := leAt b 4 2
      (s.reviseStream n { x with subs := if byteAt b 6 = 1 then x.subs ++ [r] else x.subs.filter (· != r) }).success))

/-- STREAM_DESTROY (R288). -/
def execStreamDestroy (s : State) : Out :=
  .next (s.cmdIf 0x0606 (fun s b => s.ctxChecks b ++ [s.ctxHeld b]) (fun s b => (s.dropStream (leAt b 0 4)).success))

/-- STREAM_RESET_STATE (R295): the replay state goes; it is not mirrored. -/
def execStreamResetState (s : State) : Out :=
  .next (s.cmdIf 0x0607 State.ctxChecks (fun s b =>
    let n := leAt b 0 4
    (s.setStream n { s.stream n with last := none, hist := [] }).success))

/-- STREAM_CLEAR_KEYS (R292). -/
def execStreamClearKeys (s : State) : Out :=
  .next (s.cmdIf 0x0608 (fun s b => s.ctxChecks b ++ [s.ctxHeld b]) (fun s b =>
    ((s.clearStreamKeys (leAt b 0 4)).mirrorStream (leAt b 0 4) none).2.success))

/-- FP_SET_GLOBAL (R40, R294, R303, R310): a zero keeps its field. -/
def execFpSetGlobal (s : State) : Out :=
  .next (s.cmdIf 0x0609 (fun _ b =>
      let w := leAt b 4 4
      let t := leAt b 8 4
      [(decide (8 ≤ byteAt b 0), mBadParam, 0), zeroAt b 2 2, (w != 0 && !(10 ≤ w && w ≤ 10000), mBadParam, 4),
       (t != 0 && !(1 ≤ t && t ≤ 1000), mBadParam, 8)])
    (fun s b =>
      let f := s.frames
      ({ s with frames := { f with share := orDefault (byteAt b 0) f.share, utc := orDefault (byteAt b 1) f.utc,
                                   maxWait := orDefault (leAt b 4 4) f.maxWait, slip := orDefault (leAt b 8 4) f.slip } }).success))

/-- The 112 bytes of STREAM_QUERY (Table 10.18). -/
def streamQueryBytes (n : Nat) (x : Stream) : Bytes :=
  let cid := match x.cur with
    | some (i, _) => i
    | none => 0
  let nx := match x.next with
    | some (i, _, t) => (i, t)
    | none => (0, 0)
  let last := x.last.getD (0, 0)
  leBytes 2 x.owner ++ leBytes 1 x.dir ++ leBytes 1 x.cls ++ sliceZ x.mac 0 6 ++ leBytes 2 x.appid ++ leBytes 2 x.vid ++
    leBytes 2 (x.port + bit x.pair * 2 ^ 15) ++ leBytes 1 x.alg ++ leBytes 1 x.tagLen ++ leBytes 1 x.unauth ++ leBytes 1 x.fail ++
    leBytes 2 x.secRing ++ leBytes 1 (bit x.cur.isSome + 2 * bit x.next.isSome) ++ leBytes 1 0 ++ leBytes 4 x.window ++
    leBytes 4 x.cntMod ++ leBytes 4 n ++ leBytes 4 0 ++ leBytes 4 cid ++ leBytes 4 nx.1 ++ leBytes 8 nx.2 ++ leBytes 4 last.1 ++
    leBytes 4 last.2 ++ x.counts.flatMap (leBytes 4)

/-- STREAM_QUERY (R313): the counters are read and cleared. -/
def execStreamQuery (s : State) : Out :=
  .next (s.cmdIf 0x060A State.ctxChecks (fun s b =>
    let n := leAt b 0 4
    let x := s.stream n
    (s.setStream n { x with counts := List.replicate 12 0 }).respond mSuccess 0 (streamQueryBytes n x)))

end Sys2Proof.Machine
end

