-- ==== Sys2Proof/Machine/OpsPq.lean ====
section
/-!
DEFINITION. The lattice, hash-based and code-based operations (R57 to R62).
-/

namespace Sys2Proof.Machine

/-- Key generation of a post-quantum set: Out is the handle, then the public key. A Classic McEliece generation none of whose
candidates succeeds starts again (R62). -/
def pqKeygenOp (fam set : Nat) : Option (Nat × (Bytes → OpRes)) :=
  some (pqSeedLen fam set, fun r =>
    if fam = 8 && Config.codeFails set r then .restart
    else
    let k := pqPrivOf fam set r
    .made k (if fam = 7 || fam = 8 then sliceZ (Config.codeKeygen fam set r).1 0 (pqPub fam set) else pqPubOf fam set k))

/-- Encapsulation. -/
def pqEncapsOp (j : Job) (fam set : Nat) : Option (Nat × (Bytes → OpRes)) :=
  let pk := (j.pubAnd j.in0 (pqPub fam set)).1
  match pqPubCheck fam set pk with
  | some st => pureOp (.fail st)
  | none => some (pqEncDraw fam, fun r => let x := pqEncaps fam set pk r; .made x.2 x.1)

/-- Decapsulation, implicit rejection included (R58). -/
def pqDecapsOp (j : Job) (fam set : Nat) : Option (Nat × (Bytes → OpRes)) := pureOp (.made (pqDecaps fam set j.keyBytes j.in0) [])

/-- Signing. -/
def pqSignOp (j : Job) (fam set ph : Nat) : Option (Nat × (Bytes → OpRes)) :=
  some (pqSignDraw fam set, fun r => .ok (pqSignOf fam set ph j.keyBytes j.in1 j.in0 r))

/-- Verification: In1 is the public key if passed, the signature, the context. -/
def pqVerifyOp (j : Job) (fam set ph : Nat) : Option (Nat × (Bytes → OpRes)) :=
  let (pk, rest) := j.pubAnd j.in1 (pqPub fam set)
  pureOp (.after (pqPubCheck fam set pk)
    (.verdict (pqVerifyOf fam set ph pk (rest.drop (pqSig fam set)) j.in0 (rest.take (pqSig fam set)))))

/-- Hash-based verification (R60, R495). -/
def hbsOp (j : Job) (w : Nat) : Option (Nat × (Bytes → OpRes)) :=
  let lead := if sqeKey j.sqe = 0 then j.in1 else j.keyBytes
  match hbsPubLen w lead with
  | none => pureOp (.fail jEncoding)
  | some n =>
    let (pk, sig) := j.pubAnd j.in1 n
    if pk.length ≠ n || (hbsSets w pk sig).fault = 1 then pureOp (.fail jEncoding)
    else pureOp (.verdict ((hbsSets w pk sig).fault = 0 && hbsTypesMatch w pk sig && hbsVerify w pk j.in0 sig))

/-- ML-KEM key generation. -/
def execMlKemKeygen (job : Nat) (s : State) : Out :=
  .next (s.runOp job false (fun _ o => match o with
    | .kemKeygen 3 m => pqKeygenOp 3 m
    | _ => none))

/-- ML-KEM encapsulation. -/
def execMlKemEncaps (job : Nat) (s : State) : Out :=
  .next (s.runOp job false (fun j o => match o with
    | .kemEncaps 3 m => pqEncapsOp j 3 m
    | _ => none))

/-- ML-KEM decapsulation. -/
def execMlKemDecaps (job : Nat) (s : State) : Out :=
  .next (s.runOp job false (fun j o => match o with
    | .kemDecaps 3 m => pqDecapsOp j 3 m
    | _ => none))

/-- ML-DSA key generation. -/
def execMlDsaKeygen (job : Nat) (s : State) : Out :=
  .next (s.runOp job false (fun _ o => match o with
    | .sigKeygen 4 m => pqKeygenOp 4 m
    | _ => none))

/-- ML-DSA signing, pure. -/
def execMlDsaSign (job : Nat) (s : State) : Out :=
  .next (s.runOp job false (fun j o => match o with
    | .sigSign 4 m 0 => pqSignOp j 4 m 0
    | _ => none))

/-- ML-DSA verification, pure. -/
def execMlDsaVerify (job : Nat) (s : State) : Out :=
  .next (s.runOp job false (fun j o => match o with
    | .sigVerify 4 m 0 => pqVerifyOp j 4 m 0
    | _ => none))

/-- ML-DSA signing of a digest. -/
def execMlDsaPrehashSign (job : Nat) (s : State) : Out :=
  .next (s.runOp job false (fun j o => match o with
    | .sigSign 4 m (p + 1) => pqSignOp j 4 m (p + 1)
    | _ => none))

/-- ML-DSA verification of a digest. -/
def execMlDsaPrehashVerify (job : Nat) (s : State) : Out :=
  .next (s.runOp job false (fun j o => match o with
    | .sigVerify 4 m (p + 1) => pqVerifyOp j 4 m (p + 1)
    | _ => none))

/-- SLH-DSA key generation. -/
def execSlhDsaKeygen (job : Nat) (s : State) : Out :=
  .next (s.runOp job false (fun _ o => match o with
    | .sigKeygen 5 m => pqKeygenOp 5 m
    | _ => none))

/-- SLH-DSA signing, pure. -/
def execSlhDsaSign (job : Nat) (s : State) : Out :=
  .next (s.runOp job false (fun j o => match o with
    | .sigSign 5 m 0 => pqSignOp j 5 m 0
    | _ => none))

/-- SLH-DSA verification, pure. -/
def execSlhDsaVerify (job : Nat) (s : State) : Out :=
  .next (s.runOp job false (fun j o => match o with
    | .sigVerify 5 m 0 => pqVerifyOp j 5 m 0
    | _ => none))

/-- SLH-DSA signing of a digest. -/
def execSlhDsaPrehashSign (job : Nat) (s : State) : Out :=
  .next (s.runOp job false (fun j o => match o with
    | .sigSign 5 m (p + 1) => pqSignOp j 5 m (p + 1)
    | _ => none))

/-- SLH-DSA verification of a digest. -/
def execSlhDsaPrehashVerify (job : Nat) (s : State) : Out :=
  .next (s.runOp job false (fun j o => match o with
    | .sigVerify 5 m (p + 1) => pqVerifyOp j 5 m (p + 1)
    | _ => none))

/-- 0x0601. -/
def execLmsVerify (job : Nat) (s : State) : Out :=
  .next (s.runOp job false (fun j o => match o with
    | .hbs 0 => hbsOp j 0
    | _ => none))

/-- 0x0602. -/
def execHssVerify (job : Nat) (s : State) : Out :=
  .next (s.runOp job false (fun j o => match o with
    | .hbs 1 => hbsOp j 1
    | _ => none))

/-- 0x0611. -/
def execXmssVerify (job : Nat) (s : State) : Out :=
  .next (s.runOp job false (fun j o => match o with
    | .hbs 2 => hbsOp j 2
    | _ => none))

/-- 0x0612. -/
def execXmssMtVerify (job : Nat) (s : State) : Out :=
  .next (s.runOp job false (fun j o => match o with
    | .hbs 3 => hbsOp j 3
    | _ => none))

/-- HQC key generation. -/
def execHqcKeygen (job : Nat) (s : State) : Out :=
  .next (s.runOp job false (fun _ o => match o with
    | .kemKeygen 7 m => pqKeygenOp 7 m
    | _ => none))

/-- HQC encapsulation. -/
def execHqcEncaps (job : Nat) (s : State) : Out :=
  .next (s.runOp job false (fun j o => match o with
    | .kemEncaps 7 m => pqEncapsOp j 7 m
    | _ => none))

/-- HQC decapsulation. -/
def execHqcDecaps (job : Nat) (s : State) : Out :=
  .next (s.runOp job false (fun j o => match o with
    | .kemDecaps 7 m => pqDecapsOp j 7 m
    | _ => none))

/-- Classic McEliece key generation on the eight cores of a cluster (R62). -/
def execMcelieceKeygen (job : Nat) (s : State) : Out :=
  .next (s.runOp job false (fun _ o => match o with
    | .kemKeygen 8 m => pqKeygenOp 8 m
    | _ => none))

/-- Classic McEliece encapsulation. -/
def execMcelieceEncaps (job : Nat) (s : State) : Out :=
  .next (s.runOp job false (fun j o => match o with
    | .kemEncaps 8 m => pqEncapsOp j 8 m
    | _ => none))

/-- Classic McEliece decapsulation. -/
def execMcelieceDecaps (job : Nat) (s : State) : Out :=
  .next (s.runOp job false (fun j o => match o with
    | .kemDecaps 8 m => pqDecapsOp j 8 m
    | _ => none))

end Sys2Proof.Machine
end

