-- ==== Sys2Proof/Machine/Power.lean ====
section
/-!
DEFINITION. DVFS points, the power cap and temperature (R471, R472, R475 to R479), and the SMBus target (R480).
-/

namespace Sys2Proof.Machine

/-! ## Changes of a point (R472) -/

/-- A die runs at a point: clock and point follow, recorded with the reason 1 cap, 2 thermal, 3 recovery. -/
def State.runAt (s : State) (d old new why : Nat) : State :=
  let s := (s.fset .PWR_DIE_POINT d new).fset .DIE_SCHED_STATE_DVFS d new
  (s.fset .DIE_SCHED_STATE_SET_MHZ d (pointMhz new)).event 0xD001 1 0 1 d (old + 256 * new) why

/-- The regulator of a die is set to a point. -/
def State.setVcore (s : State) (d p : Nat) : State := s.fset .PWR_DIE_VCORE_MV d (pointMv p)

/-- A step down: the frequency first, then the voltage. -/
def State.stepDown (s : State) (d why : Nat) : State :=
  let p := s.fget .PWR_DIE_POINT d
  if 3 ≤ p || (s.dvfsOf d).isSome then s
  else
    let s := (s.runAt d p (p + 1) why).setVcore d (p + 1)
    { s with power := { s.power with changes := s.power.changes ++ [⟨d, p, p + 1, s.time.ticks, why⟩] } }

/-- A step up begins with the voltage; under HOLD it waits. -/
def State.stepUp (s : State) (d why : Nat) : State :=
  let p := s.fget .PWR_DIE_POINT d
  if p = 0 || (s.dvfsOf d).isSome || s.hold then s
  else
    let s := s.setVcore d (p - 1)
    { s with power := { s.power with changes := s.power.changes ++ [⟨d, p, p - 1, s.time.ticks, why⟩] } }

/-- A change is over. -/
def State.endChange (s : State) (d : Nat) : State :=
  { s with power := { s.power with changes := s.power.changes.filter (fun c => c.die != d) } }

/-- PWR_STAT.CAPPING follows the dies; a die back at P0 is not held. -/
def State.capping (s : State) : State :=
  let s := (List.range s.dies).foldl (fun s d => if s.fget .PWR_DIE_POINT d = 0 then s.fset .PWR_DIE_CAP d 0 else s) s
  s.fset .PWR_STAT_CAPPING 0 (bit ((List.range s.dies).any (fun d => s.flag .PWR_DIE_CAP d)))

/-- REGULATOR_SETTLED: READ_VOUT lies within 1% of its target; the frequency of a step up follows, outside HOLD. -/
def execRegulatorSettled (die dt : Nat) (s : State) : Out :=
  let s := s.elapse dt
  match s.dvfsOf die with
  | none => .next s
  | some c =>
    if c.old < c.new then .next (s.endChange die)
    else if s.hold then .next s
    else .next (((s.endChange die).runAt die c.old c.new c.why).capping)

/-- REGULATOR_TIMEOUT: kind 1 no acknowledgement after three attempts, 2 not settled within 1 ms. -/
def execRegulatorTimeout (die kind dt : Nat) (s : State) : Out :=
  let s := s.elapse dt
  match s.dvfsOf die with
  | none => .next s
  | some c =>
    if kind = 1 || (kind = 2 && 1000000 ≤ s.since c.at_) then
      let s := ((s.endChange die).fadd .PWR_PMB_FAULTS 0 1).event 0xD005 5 0 1 die kind (pointMv c.new)
      .next (if c.new < c.old then s.setVcore die c.old else s)
    else .next s

/-! ## The cap (R476) -/

/-- The die of a list that a measure makes first: the lowest measure, then the first of the list. -/
def pickDie (m : Nat → Nat) : List Nat → Option Nat
  | [] => none
  | a :: r => match pickDie m r with
    | some b => if m b < m a then some b else some a
    | none => some a

/-- The die that the cap lowers: at the highest point, ties to the highest number. -/
def State.capDown (s : State) : Option Nat :=
  pickDie (s.fget .PWR_DIE_POINT) (((List.range s.dies).reverse).filter (fun d =>
    decide (s.fget .PWR_DIE_POINT d < 3) && (s.dvfsOf d).isNone))

/-- The die that is raised: at the lowest point, ties to the lowest number, none that temperature holds. -/
def State.capUp (s : State) : Option Nat :=
  pickDie (fun d => 3 - s.fget .PWR_DIE_POINT d) ((List.range s.dies).filter (fun d =>
    decide (0 < s.fget .PWR_DIE_POINT d) && (s.dvfsOf d).isNone && !s.flag .PWR_DIE_THERMAL d))

/-- The cap and the average in sixteenths of a watt, and the margin of R476. -/
def State.cap16 (s : State) : Nat := 16 * s.fget .PWR_CAP_CAP_W 0
def capMargin (cap : Nat) : Nat := max 80 (cap / 20)

/-- The die sensor is at or above the grade limit. -/
def State.tooHot (s : State) (d : Nat) : Bool :=
  decide (((16 * s.grade.limit : Nat) : Int) ≤ signedOf 16 (s.fget .THM_TEMP_TEMP d))

/-- CAP_UNMET: every die at P3 and the average above the cap for 10 ms. -/
def State.capUnmet (s : State) (above : Bool) : State :=
  if above && (List.range s.dies).all (fun d => s.fget .PWR_DIE_POINT d == 3) then
    let t := s.power.overSince.getD s.time.ticks
    let s := { s with power := { s.power with overSince := some t } }
    if 10000000 ≤ s.since t && !s.flag .PWR_STAT_CAP_UNMET 0 then
      (s.fset .PWR_STAT_CAP_UNMET 0 1).event 0xD003 4 0 1 (s.fget .PWR_CAP_CAP_W 0) (s.fget .PWR_STAT_POWER 0 / 16) 0
    else s
  else { s.fset .PWR_STAT_CAP_UNMET 0 0 with power := { s.power with overSince := none } }

/-- One evaluation over the averages that PWR_STAT and PWR_DIE hold. A rise that is due waits for the end of HOLD (R472). -/
def State.capEvaluate (s : State) : State :=
  let pkg := s.fget .PWR_STAT_POWER 0
  let cap := s.cap16
  let above := decide (cap < pkg)
  let hot := (List.range s.dies).filter s.tooHot
  let s := match (if above then s.capDown else none) with
    | some d => if hot.contains d then s.fset .PWR_DIE_CAP d 1 else (s.fset .PWR_DIE_CAP d 1).stepDown d 1
    | none => s
  let s := hot.foldl (fun s d => s.stepDown d 2) s
  let n : Nat := if pkg + capMargin cap < cap then s.power.below + 1 else 0
  let s := if n < 10 || s.hold then { s with power := { s.power with below := n } } else
    let s := { s with power := { s.power with below := 0 } }
    match s.capUp with
    | some d => s.stepUp d 3
    | none => s
  (s.capUnmet above).capping

/-- POWER_CAP_EVALUATION: the 1 ms averages of the package and of its dies, in sixteenths of a watt. -/
def execPowerCapEvaluation (pkg : Nat) (dies : List Nat) (dt : Nat) (s : State) : Out :=
  let s := (s.elapse dt).fset .PWR_STAT_POWER 0 (min 0xFFFF pkg)
  let s := (List.range s.dies).foldl (fun s d => s.fset .PWR_DIE_POWER d (min 0xFFF (dies.getD d 0))) s
  .next (if s.onVbat then s else s.capEvaluate)

/-! ## Temperature (R477 to R479) -/

/-- The sensors of the part: its dies and the package. -/
def State.sensors (s : State) : List Nat := List.range s.dies ++ [8]

/-- A sensor's last sample in sixteenths of a degree. -/
def State.temp16 (s : State) (k : Nat) : Int := signedOf 16 (s.fget .THM_TEMP_TEMP k)

/-- Whole degrees. -/
def wholeC (t : Int) : Int := t.fdiv 16

/-- The hottest sensor. -/
def State.hottest (s : State) : Nat :=
  s.sensors.foldl (fun a k => if s.temp16 a < s.temp16 k then k else a) 8

/-- Throttling of a die starts, recovers or ends. -/
def State.throttle (s : State) (d : Nat) : State :=
  let t := s.temp16 d
  let lim : Int := ((16 * s.grade.limit : Nat) : Int)
  let c := unsignedOf 32 (wholeC t)
  let p := s.power
  let since : Nat := if lim - 80 < t then 0 else if sparseGet 0 p.cool d = 0 then s.time.ticks + 1 else sparseGet 0 p.cool d
  let s := { s with power := { p with cool := sparseSet 0 p.cool d since } }
  if lim ≤ t then
    if s.flag .PWR_DIE_THERMAL d then s
    else
      let s := { s with power := { s.power with found := sparseSet 0 s.power.found d (s.fget .PWR_DIE_POINT d + 1) } }
      (s.fset .PWR_DIE_THERMAL d 1).event 0xD002 4 0 1 d 1 c
  else
    let long := fun k => k != 0 && decide (100000000 ≤ s.since (k - 1))
    if !s.flag .PWR_DIE_THERMAL d || !long (sparseGet 0 s.power.cool d) then s
    else if s.fget .PWR_DIE_POINT d + 1 ≤ sparseGet 0 s.power.found d then
      (s.fset .PWR_DIE_THERMAL d 0).event 0xD002 4 0 1 d 0 c
    else if (sparseGet 0 s.power.rose d = 0 || long (sparseGet 0 s.power.rose d)) && s.fget .PWR_STAT_POWER 0 ≤ s.cap16 &&
        (s.dvfsOf d).isNone && !s.hold then
      { s.stepUp d 3 with power := { (s.stepUp d 3).power with rose := sparseSet 0 s.power.rose d (s.time.ticks + 1) } }
    else s

/-- THERM_N (R478). -/
def State.thermPin (s : State) : State :=
  let warn : Int := ((16 * s.fget .THM_CTL_WARN_C 0 : Nat) : Int)
  let h := s.hottest
  let t := s.temp16 h
  let before := s.alarmSummary
  let ev := fun (s : State) (on : Nat) =>
    ((s.fset .THM_STAT_THERM 0 on).event 0xD006 3 0 1 h on (unsignedOf 32 (wholeC t))).alertFrom before
  if s.flag .THM_STAT_THERM 0 then (if t ≤ warn - 32 then ev s 0 else s)
  else if warn ≤ t then ev s 1 else s

/-- One sample of every sensor. -/
def State.sample (s : State) (temps : List Int) : State :=
  let s := s.sensors.foldl (fun s k => s.fset .THM_TEMP_TEMP k (unsignedOf 16 (temps.getD k 0))) s
  let m := max (signedOf 16 (s.fget .THM_STAT_MAX_C 0)) (wholeC (s.temp16 s.hottest))
  let s := s.fset .THM_STAT_MAX_C 0 (unsignedOf 16 m)
  let s := (List.range s.dies).foldl State.throttle s
  let s := s.fset .THM_STAT_THROTTLED 0 (((List.range s.dies).map (fun d => s.fget .PWR_DIE_THERMAL d * 2 ^ d)).sum)
  s.thermPin

/-- The sensors that read 120 °C or more, one bit each. -/
def State.hotSensors (s : State) : Nat := (s.sensors.map (fun k => if (120 * 16 : Int) ≤ s.temp16 k then 2 ^ k else 0)).sum

/-- THERMAL_SAMPLE: every sensor in sixteenths of a degree, the dies first, the package at place 8. The second sample in a
row at 120 °C or more of one sensor shuts the device down (R479). -/
def execThermalSample (temps : List Int) (dt : Nat) (s : State) : Out :=
  let s := s.elapse dt
  if s.onVbat then .next s
  else
    let s := s.sample temps
    let n := s.hotSensors
    let twice := (s.power.hot &&& n) != 0
    let s := { s with power := { s.power with hot := n } }
    .next (if twice then s.thermalShutdown else s)

/-! ## SMBus (R480, Table 18.9) -/

/-- CRC-8 of the SMBus, x⁸ + x² + x + 1. -/
def pecByte (c : Nat) : Nat := (List.range 8).foldl (fun c _ => if c.testBit 7 then (c * 2 ^^^ 0x107) % 256 else c * 2) (c % 256)
def pec (b : List Nat) : Nat := b.foldl (fun c x => pecByte (c ^^^ x)) 0

/-- The target's address, and its bytes on the wire for writing and reading. -/
def smbAddress : Nat := 0x5A

/-- The target answers from step 6 of Table 13.5 (R480). -/
def State.smbUp (s : State) : Bool := !s.onVbat && decide (2 ≤ s.boot.phase)

/-- A Read Byte or Read Word: the bytes with the check byte where the host asks for it, or no acknowledgement. -/
def State.smbRead (s : State) (cmd n v : Nat) (withPec : Bool) : State :=
  if !s.smbUp then s
  else
    let b := (leBytes n v).map (·.toNat)
    let c := pec ([2 * smbAddress, cmd, 2 * smbAddress + 1] ++ b)
    s.emitLocal (.smbus (leBytes n v ++ (if withPec then [BitVec.ofNat 8 c] else [])))

/-- SMBUS_MODE. -/
def execSmbusMode (withPec : Bool) (s : State) : Out := .next (s.smbRead 1 1 (s.mode + 8 * bit s.hold) withPec)

/-- SMBUS_READY. -/
def execSmbusReady (withPec : Bool) (s : State) : Out :=
  .next (s.smbRead 2 1 (s.fget .DEV_READY_MBX 0 + 2 * s.fget .DEV_READY_ALL 0 + 4 * s.fget .DEV_READY_ROOT 0) withPec)

/-- SMBUS_TEMPERATURE. -/
def execSmbusTemperature (withPec : Bool) (s : State) : Out :=
  .next (s.smbRead 3 1 (unsignedOf 8 (wholeC (s.temp16 s.hottest))) withPec)

/-- SMBUS_POWER. -/
def execSmbusPower (withPec : Bool) (s : State) : Out := .next (s.smbRead 4 2 (s.fget .PWR_STAT_POWER 0) withPec)

/-- SMBUS_ALARM_SUMMARY. -/
def execSmbusAlarmSummary (withPec : Bool) (s : State) : Out := .next (s.smbRead 5 1 s.alarmSummary withPec)

/-- SMBUS_LIFECYCLE. -/
def execSmbusLifecycle (withPec : Bool) (s : State) : Out := .next (s.smbRead 6 1 s.lcs withPec)

/-- SMBUS_FIRMWARE: major in [15:8], minor in [7:0]. -/
def execSmbusFirmware (withPec : Bool) (s : State) : Out :=
  .next (s.smbRead 7 2 (byteAt s.boot.head 0x0C * 256 + byteAt s.boot.head 0x0D) withPec)

/-- SMBUS_ALERT_RESPONSE: the target answers with its address while it drives SMB_ALERT_N, and releases it. -/
def execSmbusAlertResponse (s : State) : Out :=
  .next (if s.smbUp && s.boot.alert then
    { s with boot := { s.boot with alert := false } }.emitLocal (.smbus [BitVec.ofNat 8 (2 * smbAddress)]) else s)

end Sys2Proof.Machine
end

