-- ==== Sys2Proof/Machine/RecorderCmds.lean ====
section
/-!
DEFINITION. The mailbox commands of the event recorder (R447, R456, R458, R459).
-/

namespace Sys2Proof.Machine

/-- The channel at payload byte 0. -/
def evrChannel (p : Bytes) : Bool × Nat × Nat := (decide (31 < byteAt p 0), mBadParam, 0)

/-- EVR_QUERY: nothing is cleared. -/
def execEvrQuery (s : State) : Out :=
  .next (s.cmd 0x0A01 (fun s _ =>
    s.respond mSuccess 0 (s.peek 0x20100 128 ++ s.peek 0x20200 128 ++ s.peek 0x20280 128 ++ s.peek 0x20300 128)))

/-- EVR_READ (R454). -/
def execEvrRead (s : State) : Out :=
  .next (s.cmdIf 0x0A02 (fun _ p => [evrChannel p, zeroAt p 1 3, (leAt p 8 4 == 0 || decide (511 < leAt p 8 4), mBadParam, 8)])
    (fun s p =>
      let l := s.chan (byteAt p 0)
      let r := (l.drop (leAt p 4 4)).take (leAt p 8 4)
      s.respond mSuccess 0 (leBytes 4 r.length ++ leBytes 4 l.length ++ List.replicate 8 0 ++ r.flatMap EvRec.bytes)))

/-- EVR_CLEAR (R456): channels 30 and 31 need the owner. -/
def execEvrClear (s : State) : Out :=
  .next (s.cmdIf 0x0A03 (fun s p => [evrChannel p, zeroAt p 1 3, (decide (30 ≤ byteAt p 0) && !s.cmdAuthed, mNotAuthorised, 0)])
    (fun s p => (s.clearChan (byteAt p 0) (if s.cmdAuthed then 2 else 1)).success))

/-- Quotas of channels 0 to 30 together, channel `c` having `q`. -/
def State.evrQuotas (s : State) (c q : Nat) : Nat := ((List.range 31).map (fun x => if x = c then q else s.quota x)).sum

/-- EVR_SET (R447). -/
def execEvrSet (s : State) : Out :=
  .next (s.cmdIf 0x0A04 (fun s p =>
      let c := byteAt p 0
      let f := byteAt p 1
      let q := leAt p 2 2
      [evrChannel p, (f.testBit 0 && c == 31, mBadParam, 0), (decide (4 ≤ f), mBadParam, 1),
       (f.testBit 0 && (q % 64 != 0 || decide (8192 < q)), mBadParam, 2),
       (f.testBit 1 && decide (2 ^ 14 ≤ leAt p 4 2), mBadParam, 4), zeroAt p 6 2,
       (f.testBit 0 && !(s.chan c).isEmpty, mBusyObject, 0), (f.testBit 0 && decide (8192 < s.evrQuotas c q), mNoResource, 0)])
    (fun s p =>
      let c := byteAt p 0
      let s := if (byteAt p 1).testBit 0 then s.fset .EVR_COUNT_QUOTA c (leAt p 2 2) else s
      let s := if (byteAt p 1).testBit 1 then s.fset .EVR_THRESH_THRESH c (leAt p 4 2) else s
      (s.event 0x0002 1 0 1 c (s.quota c) (s.fget .EVR_THRESH_THRESH c)).success))

end Sys2Proof.Machine
end

