-- ==== Sys2Proof/Machine/Save.lean ====
section
/-! DEFINITION. Pre-emption at work: the save of a job at its yield point and its restore, with the refresh of its share
groups, and the save slot as shared memory holds it (R156, R187, R188, R219, Table 05.5). -/

namespace Sys2Proof.Machine

/-! ## The save slot (Table 05.5) -/

/-- Bytes of a save slot from offset `o`. -/
def slotWrite (base o : Nat) (b : Bytes) (m : Memory) : Memory := memWrite 0 m (base + o) b

/-- The operand region of a core, its segments in order, as far as 32 KiB: offset in the region, and byte. -/
def VCore.region (c : VCore) : List (Nat × Byte) :=
  (c.segs.foldl (fun (x : Nat × List (Nat × Byte)) g =>
    (x.1 + g.size, x.2 ++ (c.mem.filter (fun e => decide (g.base ≤ e.1 ∧ e.1 < g.base + g.size))).map (fun e => (x.1 + (e.1 - g.base), e.2))))
    (0, [])).2.filter (fun e => decide (e.1 < 0x8000))

/-- A save slot at `base` as a save writes it over zeros. How the sequencer's state lies in its 256 bytes, `seq`, is not
stated. A share record is the group and, from bit 16, the index. -/
def VCore.slot (c : VCore) (base : Nat) (seq : Bytes) (m : Memory) : Memory :=
  let m := c.v.foldl (fun m e => slotWrite base (512 * e.1) (leBytes 512 e.2.toNat) m) m
  let m := c.p.foldl (fun m e => slotWrite base (0x4000 + 64 * e.1) (leBytes 64 e.2) m) m
  let m := c.sc.foldl (fun m e => slotWrite base (0x4200 + 8 * e.1) (leBytes 8 e.2.toNat) m) m
  let m := c.q.foldl (fun m e => slotWrite base (0x4300 + 32 * e.1) (leBytes 32 e.2) m) m
  let m := c.vt.foldl (fun m e => slotWrite base (0x4380 + 2 * e.1) (leBytes 2 e.2.word) m) m
  let m := c.st.foldl (fun m e => slotWrite base (0x43C0 + 2 * e.1) (leBytes 2 e.2.word) m) m
  let m := slotWrite base 0x4400 seq m
  let m := (c.recs.filter (fun e => decide (e.1 < 64))).foldl
    (fun m e => slotWrite base (0x4500 + 4 * e.1) (leBytes 4 (e.2.1 + e.2.2 * 2 ^ 16)) m) m
  c.region.foldl (fun m e => memSet 0 m (base + 0x4800 + e.1) e.2) m

/-- A core saved in slot `k`, keyed by cluster × 4 + slot: the core to be restored, and the slot's bytes. -/
def State.storeSlot (s : State) (k : Nat) (c : VCore) : State :=
  let (seq, s) := { s with saves := sparseSet VCore.idle s.saves k c }.drawBytes 256
  let s := s.zeroSlot k
  { s with shared := sparseSet [] s.shared (k / 4) (c.slot (saveBase k) seq (sparseGet [] s.shared (k / 4))) }

/-! ## The refresh (R187, R192) -/

/-- A save or a restore draws its masks from the whole buffer and from what the MGEN makes meanwhile, unless it is not
seeded or has stalled; none while they are short. -/
def State.refreshDraw (s : State) (v bits : Nat) : Option State :=
  let fill := s.fget .VC_MGEN_STAT_FILL v
  let more := if s.flag .VC_MGEN_STAT_SEEDED v && !s.flag .VC_MGEN_STAT_STALLED v then 68000 else 0
  if bits ≤ fill + more then some (s.fset .VC_MGEN_STAT_FILL v (fill - bits)) else none

/-- The tagged share groups of a core refreshed with the masks of core `v`. -/
def State.refreshed (s : State) (v : Nat) (c : VCore) : Option (VCore × State) :=
  (s.refreshDraw v c.refreshBits).map (fun s => ((c.refresh s.free).1, { s with free := (c.refresh s.free).2 }))

/-! ## Save and restore -/

/-- The next word and the return stack of vendor microcode are its sequencer's; those of an owner kernel are the core's
own. -/
def State.withSeq (s : State) (v : Nat) (c : VCore) : VCore :=
  if c.kernel = 0xFF then { c with pc := (s.seqOf v).addr, stack := (s.seqOf v).stack } else c

/-- A job leaves its core for save slot `k`: what it has left to be charged is kept, with 2.0 µs (Table 05.1). -/
def State.saveJob (s : State) (j : Job) (v k : Nat) (c : VCore) : State :=
  let left := (j.endTime - s.time.ticks) * 500 * s.coreMhz v / 3000 + 2000000
  let s := s.storeSlot k { c with preempt := false, forJob := none, s2 := [], kk := [], aes := AesUnit.empty }
  let s := (s.joinList j.die j.cls j.ti).setJob { j with phase := .saved, core := none, order := s.headOrder j, left := some left }
  ((s.freeVc v).saveFull j.die).mbxSettle

/-- The job that may be saved from core `v`, and the lowest free slot of its cluster. -/
def State.savable (s : State) (j : Job) (v : Nat) : Option Nat :=
  let c := s.core v
  let st := s.fget .VC_STATE_STATE v
  if j.phase = .bound && c.preempt && (c.kernel == 0xFF || st == 2) && (st == 1 || st == 2) && s.preemptible j then
    ((List.range 4).find? (fun i => (sparseGet VCore.idle s.saves (v / 8 * 4 + i)).job.isNone)).map (v / 8 * 4 + ·)
  else none

/-- JOB_PREEMPT_SAVE (R156): the victim's share groups are refreshed and its state goes to a save slot; the core is free.
It waits for masks (R188); a machine check ends the job (R219). -/
def execJobPreemptSave (job dt : Nat) (s : State) : Out :=
  let s := s.elapse dt
  match s.job? job with
  | none => .next s
  | some j =>
    match j.core with
    | none => .next s
    | some v =>
      match s.savable j v with
      | none => .next s
      | some k =>
        let s := s.fset .VC_STATE_STATE v 2
        match s.ctlFault v (s.seqOf v).addr with
        | some (cause, groups) => .next (s.machineCheck v cause groups (s.seqOf v).addr)
        | none => match s.refreshed v { s.core v with wait := none } with
          | none => .next (s.waitOn v true)
          | some (c, s) => .next (s.saveJob j v k (s.withSeq v c))

/-- A saved core runs on, on core `v`; its slot is zeroised. -/
def State.resume (s : State) (j : Job) (v : Nat) (c : VCore) : State :=
  let s := s.setCore v { c with sinceYield := 0, preempt := false }
  let s := if c.kernel = 0xFF then s.setSeq v { s.seqOf v with addr := c.pc, stack := c.stack } else s
  let s := (s.fset .VC_STATE_STATE v 1).fset .VC_STATE_KERNEL v c.kernel
  let s := s.showSegs v (if c.kernel = 0xFF then vendorPages j.op else (s.kernelAt c.kernel).segPages)
  ((s.dropSaves j.id).saveFull j.die).setJob { j with core := some v }

/-- JOB_RESTORE (R156): the save slot is read back, its share groups are refreshed with the new core's masks, and the slot is
zeroised. -/
def execJobRestore (job vc dt : Nat) (s : State) : Out :=
  let s := s.elapse dt
  match s.job? job, s.saves.find? (fun e => e.2.job == some job) with
  | some j, some e =>
    if s.fget .VC_STATE_STATE vc = 3 && (s.core vc).job = some job && e.1 / 4 = vc / 8 then
      match s.ctlFault vc (s.seqOf vc).addr with
      | some (cause, groups) => .next (s.machineCheck vc cause groups (s.seqOf vc).addr)
      | none => match s.refreshed vc e.2 with
        | none => .next (s.waitOn vc true)
        | some (c, s) => .next (s.resume j vc c)
    else .next s
  | _, _ => .next s

end Sys2Proof.Machine
end

