-- ==== Sys2Proof/Machine/VecRows.lean ====
section
/-!
DEFINITION. The instructions of the vector cores, each on one core of the package: the tables of R179 to R211. A core that
runs no job, or whose job is not bound, issues nothing.
-/

namespace Sys2Proof.Machine

/-- VADD (R179): VD = VA + VB. -/
def execVadd (vc : Nat) (f : VFields) (s : State) : Out :=
  .next (s.issue vc (0x00, 0x00) f (vBin 1 allW (fun n a b => (a + b) % 2 ^ n)))

/-- VSUB (R179): VD = VA − VB. -/
def execVsub (vc : Nat) (f : VFields) (s : State) : Out := .next (s.issue vc (0x00, 0x01) f (vBin 1 allW subW))

/-- VAND (R179): VA & VB. -/
def execVand (vc : Nat) (f : VFields) (s : State) : Out := .next (s.issue vc (0x00, 0x04) f (vBin 1 allW (fun _ a b => a &&& b)))

/-- VOR (R179): VA | VB. -/
def execVor (vc : Nat) (f : VFields) (s : State) : Out := .next (s.issue vc (0x00, 0x05) f (vBin 1 allW (fun _ a b => a ||| b)))

/-- VXOR (R179): VA ⊕ VB. -/
def execVxor (vc : Nat) (f : VFields) (s : State) : Out := .next (s.issue vc (0x00, 0x06) f (vBin 1 allW (fun _ a b => a ^^^ b)))

/-- VANDN (R179): VA & ~VB. -/
def execVandn (vc : Nat) (f : VFields) (s : State) : Out :=
  .next (s.issue vc (0x00, 0x07) f (vBin 1 allW (fun n a b => a &&& (2 ^ n - 1 - b))))

/-- VMINU (R179): unsigned minimum. -/
def execVminu (vc : Nat) (f : VFields) (s : State) : Out :=
  .next (s.issue vc (0x00, 0x09) f (vBin 1 allW (fun _ a b => pick (decide (a ≤ b)) a b)))

/-- VMAXU (R179): unsigned maximum. -/
def execVmaxu (vc : Nat) (f : VFields) (s : State) : Out :=
  .next (s.issue vc (0x00, 0x0A) f (vBin 1 allW (fun _ a b => pick (decide (b ≤ a)) a b)))

/-- VMIN (R179): signed minimum. -/
def execVmin (vc : Nat) (f : VFields) (s : State) : Out :=
  .next (s.issue vc (0x00, 0x0B) f (vBin 1 allW (fun n a b => pick (decide (signedOf n a ≤ signedOf n b)) a b)))

/-- VMAX (R179): signed maximum. -/
def execVmax (vc : Nat) (f : VFields) (s : State) : Out :=
  .next (s.issue vc (0x00, 0x0C) f (vBin 1 allW (fun n a b => pick (decide (signedOf n b ≤ signedOf n a)) a b)))

/-- VNEG (R179): VD = −VA. -/
def execVneg (vc : Nat) (f : VFields) (s : State) : Out := .next (s.issue vc (0x00, 0x0D) f (vUn 1 allW (fun n a => subW n 0 a)))

/-- VSEL (R179): VD = P[PRED] ? VA : VB. -/
def execVsel (vc : Nat) (f : VFields) (s : State) : Out := .next (s.issue vc (0x00, 0x0E) f vSel)

/-- VADDI (R179): VD = VA + sign-extended IMM. -/
def execVaddi (vc : Nat) (f : VFields) (s : State) : Out :=
  .next (s.issue vc (0x00, 0x0F) f (vImm 1 allW (fun n a k => (a + unsignedOf n (signedOf 16 k)) % 2 ^ n)))

/-- VSLL (R179): shift left by IMM[5:0]. -/
def execVsll (vc : Nat) (f : VFields) (s : State) : Out := .next (s.issue vc (0x01, 0x00) f (vShift sllW))

/-- VSRL (R179): shift right by IMM[5:0]. -/
def execVsrl (vc : Nat) (f : VFields) (s : State) : Out := .next (s.issue vc (0x01, 0x01) f (vShift srlW))

/-- VSRA (R179): arithmetic shift right by IMM[5:0]. -/
def execVsra (vc : Nat) (f : VFields) (s : State) : Out := .next (s.issue vc (0x01, 0x02) f (vShift sraW))

/-- VROL (R179): rotate left by IMM[5:0]. -/
def execVrol (vc : Nat) (f : VFields) (s : State) : Out := .next (s.issue vc (0x01, 0x03) f (vShift rolW))

/-- VSLLV (R179): shift left by VB. -/
def execVsllv (vc : Nat) (f : VFields) (s : State) : Out := .next (s.issue vc (0x01, 0x04) f (vBin 1 allW sllW))

/-- VSRLV (R179): shift right by VB. -/
def execVsrlv (vc : Nat) (f : VFields) (s : State) : Out := .next (s.issue vc (0x01, 0x05) f (vBin 1 allW srlW))

/-- VSRAV (R179): arithmetic shift right by VB. -/
def execVsrav (vc : Nat) (f : VFields) (s : State) : Out := .next (s.issue vc (0x01, 0x06) f (vBin 1 allW sraW))

/-- VROLV (R179): rotate left by VB. -/
def execVrolv (vc : Nat) (f : VFields) (s : State) : Out := .next (s.issue vc (0x01, 0x07) f (vBin 1 allW rolW))

/-- VCEQ (R179): equal. -/
def execVceq (vc : Nat) (f : VFields) (s : State) : Out := .next (s.issue vc (0x02, 0x00) f (vCmp (fun _ a b => a == b)))

/-- VCNE (R179): not equal. -/
def execVcne (vc : Nat) (f : VFields) (s : State) : Out := .next (s.issue vc (0x02, 0x01) f (vCmp (fun _ a b => a != b)))

/-- VCLTU (R179): below, unsigned. -/
def execVcltu (vc : Nat) (f : VFields) (s : State) : Out := .next (s.issue vc (0x02, 0x02) f (vCmp (fun _ a b => decide (a < b))))

/-- VCGEU (R179): not below, unsigned. -/
def execVcgeu (vc : Nat) (f : VFields) (s : State) : Out := .next (s.issue vc (0x02, 0x03) f (vCmp (fun _ a b => decide (b ≤ a))))

/-- VCLT (R179): below, signed. -/
def execVclt (vc : Nat) (f : VFields) (s : State) : Out :=
  .next (s.issue vc (0x02, 0x04) f (vCmp (fun n a b => decide (signedOf n a < signedOf n b))))

/-- VCGE (R179): not below, signed. -/
def execVcge (vc : Nat) (f : VFields) (s : State) : Out :=
  .next (s.issue vc (0x02, 0x05) f (vCmp (fun n a b => decide (signedOf n b ≤ signedOf n a))))

/-- VMULL (R179): low half of the product. -/
def execVmull (vc : Nat) (f : VFields) (s : State) : Out := .next (s.issue vc (0x03, 0x00) f vMull)

/-- VMULHU (R179): high half, unsigned. -/
def execVmulhu (vc : Nat) (f : VFields) (s : State) : Out :=
  .next (s.issue vc (0x03, 0x01) f (vBin 2 [1, 2] (fun n a b => (a * b) >>> n)))

/-- VMULHS (R179): high half, signed. -/
def execVmulhs (vc : Nat) (f : VFields) (s : State) : Out :=
  .next (s.issue vc (0x03, 0x02) f (vBin 2 [1, 2] (fun n a b => mulS n (2 * n) a b >>> n)))

/-- VMULWEU (R179): even elements, widening, unsigned. -/
def execVmulweu (vc : Nat) (f : VFields) (s : State) : Out := .next (s.issue vc (0x03, 0x04) f (vWiden 0 false))

/-- VMULWOU (R179): odd elements, widening, unsigned. -/
def execVmulwou (vc : Nat) (f : VFields) (s : State) : Out := .next (s.issue vc (0x03, 0x05) f (vWiden 1 false))

/-- VMULWES (R179): even elements, widening, signed. -/
def execVmulwes (vc : Nat) (f : VFields) (s : State) : Out := .next (s.issue vc (0x03, 0x06) f (vWiden 0 true))

/-- VMULWOS (R179): odd elements, widening, signed. -/
def execVmulwos (vc : Nat) (f : VFields) (s : State) : Out := .next (s.issue vc (0x03, 0x07) f (vWiden 1 true))

/-- VMACL (R179): VD + low bits of VA × VB. -/
def execVmacl (vc : Nat) (f : VFields) (s : State) : Out := .next (s.issue vc (0x03, 0x08) f vMacl)

/-- VDOT4B (R180): four byte products, unsigned. -/
def execVdot4b (vc : Nat) (f : VFields) (s : State) : Out := .next (s.issue vc (0x04, 0x00) f (vDot 2 0 4 false))

/-- VDOT4BS (R180): four byte products, signed. -/
def execVdot4bs (vc : Nat) (f : VFields) (s : State) : Out := .next (s.issue vc (0x04, 0x01) f (vDot 2 0 4 true))

/-- VDOT2H (R180): two 16-bit products, unsigned. -/
def execVdot2h (vc : Nat) (f : VFields) (s : State) : Out := .next (s.issue vc (0x04, 0x02) f (vDot 2 1 2 false))

/-- VDOT2HS (R180): two 16-bit products, signed. -/
def execVdot2hs (vc : Nat) (f : VFields) (s : State) : Out := .next (s.issue vc (0x04, 0x03) f (vDot 2 1 2 true))

/-- VDOT4H (R180): four 16-bit products, unsigned. -/
def execVdot4h (vc : Nat) (f : VFields) (s : State) : Out := .next (s.issue vc (0x04, 0x04) f (vDot 3 1 4 false))

/-- VDOT4HS (R180): four 16-bit products, signed. -/
def execVdot4hs (vc : Nat) (f : VFields) (s : State) : Out := .next (s.issue vc (0x04, 0x05) f (vDot 3 1 4 true))

/-- VCLMUL (R180): carry-less product. -/
def execVclmul (vc : Nat) (f : VFields) (s : State) : Out := .next (s.issue vc (0x05, 0x00) f (vClmul false))

/-- VCLMULX (R180): carry-less product, accumulated. -/
def execVclmulx (vc : Nat) (f : VFields) (s : State) : Out := .next (s.issue vc (0x05, 0x01) f (vClmul true))

/-- VPERMV (R181): VD[i] = VA[VB[i] mod n]. -/
def execVpermv (vc : Nat) (f : VFields) (s : State) : Out :=
  .next (s.issue vc (0x06, 0x00) f (vPlace 2 (fun w i a b => elem w a (elem w b i % eCount w))))

/-- VSLIDEUP (R181): up by IMM. -/
def execVslideup (vc : Nat) (f : VFields) (s : State) : Out := .next (s.issue vc (0x06, 0x01) f (vSlideI true))

/-- VSLIDEUPS (R181): up by SS. -/
def execVslideups (vc : Nat) (f : VFields) (s : State) : Out := .next (s.issue vc (0x06, 0x02) f (vSlideS true))

/-- VSLIDEDN (R181): down by IMM. -/
def execVslidedn (vc : Nat) (f : VFields) (s : State) : Out := .next (s.issue vc (0x06, 0x03) f (vSlideI false))

/-- VSLIDEDNS (R181): down by SS. -/
def execVslidedns (vc : Nat) (f : VFields) (s : State) : Out := .next (s.issue vc (0x06, 0x04) f (vSlideS false))

/-- VBCAST (R181): every element = VA[IMM]. -/
def execVbcast (vc : Nat) (f : VFields) (s : State) : Out := .next (s.issue vc (0x06, 0x05) f vBcast)

/-- VZIPLO (R181): the low halves interleaved. -/
def execVziplo (vc : Nat) (f : VFields) (s : State) : Out :=
  .next (s.issue vc (0x06, 0x06) f (vPlace 1 (fun w i a b => elem w (if i % 2 = 0 then a else b) (i / 2))))

/-- VZIPHI (R181): the high halves interleaved. -/
def execVziphi (vc : Nat) (f : VFields) (s : State) : Out :=
  .next (s.issue vc (0x06, 0x07) f (vPlace 1 (fun w i a b => elem w (if i % 2 = 0 then a else b) (eCount w / 2 + i / 2))))

/-- VUNZIPE (R181): even elements of VA then of VB. -/
def execVunzipe (vc : Nat) (f : VFields) (s : State) : Out :=
  .next (s.issue vc (0x06, 0x08) f (vPlace 1 (fun w i a b => elem w (if i < eCount w / 2 then a else b) (2 * (i % (eCount w / 2))))))

/-- VUNZIPO (R181): odd elements of VA then of VB. -/
def execVunzipo (vc : Nat) (f : VFields) (s : State) : Out :=
  .next (s.issue vc (0x06, 0x09) f (vPlace 1 (fun w i a b => elem w (if i < eCount w / 2 then a else b) (2 * (i % (eCount w / 2)) + 1))))

/-- VTR32 (R181): 32 × 32 bit transposition. -/
def execVtr32 (vc : Nat) (f : VFields) (s : State) : Out := .next (s.issue vc (0x07, 0x00) f vTr32)

/-- VTR8 (R181): 8 × 8 bit transposition. -/
def execVtr8 (vc : Nat) (f : VFields) (s : State) : Out := .next (s.issue vc (0x07, 0x01) f (vUn 1 [3] (fun _ a => transpose8 a)))

/-- VPOPC (R181): population count. -/
def execVpopc (vc : Nat) (f : VFields) (s : State) : Out := .next (s.issue vc (0x07, 0x02) f (vUn 1 allW popCount))

/-- VBREV (R181): bit reversal. -/
def execVbrev (vc : Nat) (f : VFields) (s : State) : Out := .next (s.issue vc (0x07, 0x03) f (vUn 1 allW bitRev))

/-- VBITSEL (R181): (VC & VA) | (~VC & VB). -/
def execVbitsel (vc : Nat) (f : VFields) (s : State) : Out := .next (s.issue vc (0x07, 0x06) f vBitsel)

/-- VMOV (R181): VD = VA. -/
def execVmov (vc : Nat) (f : VFields) (s : State) : Out :=
  .next (s.issue vc (0x0A, 0x00) f (fun f e c => vcheck f [.w, .pred, .vd, .va] [0] (vecOut f e c 1 0 [c.vtag f.va] (c.vreg f.va))))

/-- VMOVI (R181): broadcast IMM. -/
def execVmovi (vc : Nat) (f : VFields) (s : State) : Out := .next (s.issue vc (0x0A, 0x01) f vMovi)

/-- VMOVS (R181): broadcast SS. -/
def execVmovs (vc : Nat) (f : VFields) (s : State) : Out := .next (s.issue vc (0x0A, 0x02) f vMovs)

/-- VEXT (R181): S[VD] = VA[IMM]. -/
def execVext (vc : Nat) (f : VFields) (s : State) : Out := .next (s.issue vc (0x0A, 0x03) f vExt)

/-- VINS (R181): VD[IMM] = SS. -/
def execVins (vc : Nat) (f : VFields) (s : State) : Out := .next (s.issue vc (0x0A, 0x04) f vIns)

/-- VZERO (R181): VD = 0, its tag cleared. -/
def execVzero (vc : Nat) (f : VFields) (s : State) : Out := .next (s.issue vc (0x0A, 0x05) f vZero)

/-- PAND (R181): P[VA] and P[VB]. -/
def execPand (vc : Nat) (f : VFields) (s : State) : Out := .next (s.issue vc (0x0B, 0x00) f (pBin false (fun a b => a && b)))

/-- POR (R181): P[VA] or P[VB]. -/
def execPor (vc : Nat) (f : VFields) (s : State) : Out := .next (s.issue vc (0x0B, 0x01) f (pBin false (fun a b => a || b)))

/-- PXOR (R181): P[VA] xor P[VB]. -/
def execPxor (vc : Nat) (f : VFields) (s : State) : Out := .next (s.issue vc (0x0B, 0x02) f (pBin false xor))

/-- PNOT (R181): not P[VA]. -/
def execPnot (vc : Nat) (f : VFields) (s : State) : Out := .next (s.issue vc (0x0B, 0x03) f (pBin true (fun a _ => !a)))

/-- PSET (R181): the first IMM elements. -/
def execPset (vc : Nat) (f : VFields) (s : State) : Out := .next (s.issue vc (0x0B, 0x04) f pSet)

/-- PCNT (R181): count of active elements. -/
def execPcnt (vc : Nat) (f : VFields) (s : State) : Out := .next (s.issue vc (0x0B, 0x05) f pCnt)

/-- QSET (R182): modulus from SS. -/
def execQset (vc : Nat) (f : VFields) (s : State) : Out := .next (s.issue vc (0x0C, 0x00) f qSet)

/-- QRD (R182): a field of a modulus register. -/
def execQrd (vc : Nat) (f : VFields) (s : State) : Out := .next (s.issue vc (0x0C, 0x01) f qRd)

/-- MADD (R183): (VA + VB) mod q. -/
def execMadd (vc : Nat) (f : VFields) (s : State) : Out := .next (s.issue vc (0x08, 0x00) f (mBin 1 (fun _ q a b => (a + b) % q)))

/-- MSUB (R183): (VA − VB) mod q. -/
def execMsub (vc : Nat) (f : VFields) (s : State) : Out := .next (s.issue vc (0x08, 0x01) f (mBin 1 (fun _ q a b => modSub q a b)))

/-- MNEG (R183): (−VA) mod q. -/
def execMneg (vc : Nat) (f : VFields) (s : State) : Out := .next (s.issue vc (0x08, 0x02) f (mUn 1 (fun _ q a => modSub q 0 a)))

/-- MRED (R183): VA mod q. -/
def execMred (vc : Nat) (f : VFields) (s : State) : Out := .next (s.issue vc (0x08, 0x03) f (mUn 2 (fun _ q a => a % q)))

/-- MMULM (R183): VA · VB · R⁻¹ mod q. -/
def execMmulm (vc : Nat) (f : VFields) (s : State) : Out := .next (s.issue vc (0x08, 0x04) f (mBin 2 montMul))

/-- MMULB (R183): VA · VB mod q. -/
def execMmulb (vc : Nat) (f : VFields) (s : State) : Out := .next (s.issue vc (0x08, 0x05) f (mBin 3 (fun _ q a b => a * b % q)))

/-- MTOM (R183): VA · R mod q. -/
def execMtom (vc : Nat) (f : VFields) (s : State) : Out := .next (s.issue vc (0x08, 0x06) f (mUn 2 (fun n q a => a * 2 ^ n % q)))

/-- MFROMM (R183): VA · R⁻¹ mod q. -/
def execMfromm (vc : Nat) (f : VFields) (s : State) : Out := .next (s.issue vc (0x08, 0x07) f (mUn 2 (fun n q a => montMul n q a 1)))

/-- MCSUB (R183): VA − q if VA ≥ q. -/
def execMcsub (vc : Nat) (f : VFields) (s : State) : Out :=
  .next (s.issue vc (0x08, 0x08) f (mUn 1 (fun _ q a => if q ≤ a then a - q else a)))

/-- MCENTER (R183): VA mod q, centred. -/
def execMcenter (vc : Nat) (f : VFields) (s : State) : Out := .next (s.issue vc (0x08, 0x09) f (mUn 1 centre))

/-- BFCT (R184): decimation-in-time butterfly. -/
def execBfct (vc : Nat) (f : VFields) (s : State) : Out := .next (s.issue vc (0x09, 0x00) f (vButterfly false))

/-- BFGS (R184): decimation-in-frequency butterfly. -/
def execBfgs (vc : Nat) (f : VFields) (s : State) : Out := .next (s.issue vc (0x09, 0x01) f (vButterfly true))

/-- BFCTI (R184): BFCT within a register. -/
def execBfcti (vc : Nat) (f : VFields) (s : State) : Out := .next (s.issue vc (0x09, 0x02) f (vButterflyIn false))

/-- BFGSI (R184): BFGS within a register. -/
def execBfgsi (vc : Nat) (f : VFields) (s : State) : Out := .next (s.issue vc (0x09, 0x03) f (vButterflyIn true))

/-- S2INIT (R185): SHA-2 function chosen. -/
def execS2init (vc : Nat) (f : VFields) (s : State) : Out := .next (s.issue vc (0x20, 0x00) f s2Init)

/-- S2ABS (R185): absorb. -/
def execS2abs (vc : Nat) (f : VFields) (s : State) : Out := .next (s.issue vc (0x20, 0x01) f s2Abs)

/-- S2FIN (R185): finish. -/
def execS2fin (vc : Nat) (f : VFields) (s : State) : Out := .next (s.issue vc (0x20, 0x02) f s2Fin)

/-- S2LDS (R185): load midstate. -/
def execS2lds (vc : Nat) (f : VFields) (s : State) : Out := .next (s.issue vc (0x20, 0x03) f s2Lds)

/-- S2STS (R185): store midstate. -/
def execS2sts (vc : Nat) (f : VFields) (s : State) : Out := .next (s.issue vc (0x20, 0x04) f s2Sts)

/-- KINIT (R185): Keccak mode chosen. -/
def execKinit (vc : Nat) (f : VFields) (s : State) : Out := .next (s.issue vc (0x21, 0x00) f kInit)

/-- KABS (R185): absorb. -/
def execKabs (vc : Nat) (f : VFields) (s : State) : Out := .next (s.issue vc (0x21, 0x01) f kAbs)

/-- KFIN (R185): pad and permute. -/
def execKfin (vc : Nat) (f : VFields) (s : State) : Out := .next (s.issue vc (0x21, 0x02) f kFin)

/-- KSQZ (R185): squeeze. -/
def execKsqz (vc : Nat) (f : VFields) (s : State) : Out := .next (s.issue vc (0x21, 0x03) f kSqz)

/-- KPERM (R185): Keccak-f[1600]. -/
def execKperm (vc : Nat) (f : VFields) (s : State) : Out := .next (s.issue vc (0x21, 0x04) f kPerm)

/-- KLDS (R185): load state. -/
def execKlds (vc : Nat) (f : VFields) (s : State) : Out := .next (s.issue vc (0x21, 0x05) f kLds)

/-- KSTS (R185): store state. -/
def execKsts (vc : Nat) (f : VFields) (s : State) : Out := .next (s.issue vc (0x21, 0x06) f kSts)

/-- AKEY (R185): AES key. -/
def execAkey (vc : Nat) (f : VFields) (s : State) : Out := .next (s.issue vc (0x22, 0x00) f aKey)

/-- AENC (R185): AES encryption. -/
def execAenc (vc : Nat) (f : VFields) (s : State) : Out := .next (s.issue vc (0x22, 0x01) f (aPass (fun k x => ecb (aesEnc k) x)))

/-- ADEC (R185): AES decryption. -/
def execAdec (vc : Nat) (f : VFields) (s : State) : Out := .next (s.issue vc (0x22, 0x02) f (aPass (fun k x => ecb (aesDec k) x)))

/-- ACTR (R185): AES counter keystream. -/
def execActr (vc : Nat) (f : VFields) (s : State) : Out := .next (s.issue vc (0x22, 0x03) f (aPass ctrStream))

/-- MRD (R185): mask bits. -/
def execMrd (vc : Nat) (f : VFields) (s : State) : Out := .next (s.issue vc (0x23, 0x00) f mRd)

/-- MSTAT (R185): MGEN status. -/
def execMstat (vc : Nat) (f : VFields) (s : State) : Out := .next (s.issue vc (0x23, 0x01) f mStat)

/-- TAGV (R191): T on VD. -/
def execTagv (vc : Nat) (f : VFields) (s : State) : Out := .next (s.issue vc (0x38, 0x00) f tagV)

/-- TAGS (R191): T on S[VD]. -/
def execTags (vc : Nat) (f : VFields) (s : State) : Out := .next (s.issue vc (0x38, 0x01) f tagS)

/-- TAGRD (R191): a tag read. -/
def execTagrd (vc : Nat) (f : VFields) (s : State) : Out := .next (s.issue vc (0x38, 0x02) f tagRd)

/-- SPLIT (R191): a value shared. -/
def execSplit (vc : Nat) (f : VFields) (s : State) : Out := .next (s.issue vc (0x39, 0x00) f vSplit)

/-- REFRESH (R191): fresh masks. -/
def execRefresh (vc : Nat) (f : VFields) (s : State) : Out := .next (s.issue vc (0x39, 0x01) f vRefresh)

/-- GMULQ (R191): masked product mod q. -/
def execGmulq (vc : Nat) (f : VFields) (s : State) : Out := .next (s.issue vc (0x3A, 0x00) f gMulq)

/-- GAND (R191): masked AND. -/
def execGand (vc : Nat) (f : VFields) (s : State) : Out := .next (s.issue vc (0x3A, 0x01) f gAnd)

/-- GA2B (R191): arithmetic to Boolean. -/
def execGa2b (vc : Nat) (f : VFields) (s : State) : Out := .next (s.issue vc (0x3A, 0x02) f gA2b)

/-- GB2A (R191): Boolean to arithmetic. -/
def execGb2a (vc : Nat) (f : VFields) (s : State) : Out := .next (s.issue vc (0x3A, 0x03) f gB2a)

/-- DECLV (R193): declassify a vector. -/
def execDeclv (vc : Nat) (f : VFields) (s : State) : Out := .next (s.issue vc (0x3B, 0x00) f decV)

/-- DECLS (R193): declassify a scalar. -/
def execDecls (vc : Nat) (f : VFields) (s : State) : Out := .next (s.issue vc (0x3B, 0x01) f decS)

/-- VLD (R201): load. -/
def execVld (vc : Nat) (f : VFields) (s : State) : Out := .next (s.issue vc (0x28, 0x00) f vLd)

/-- VLDS (R201): strided load. -/
def execVlds (vc : Nat) (f : VFields) (s : State) : Out := .next (s.issue vc (0x28, 0x01) f vLds)

/-- VLDFF (R202): first-fault load. -/
def execVldff (vc : Nat) (f : VFields) (s : State) : Out := .next (s.issue vc (0x28, 0x02) f vLdff)

/-- VLDSH (R205): share load. -/
def execVldsh (vc : Nat) (f : VFields) (s : State) : Out := .next (s.issue vc (0x28, 0x03) f vLdsh)

/-- VST (R201): store. -/
def execVst (vc : Nat) (f : VFields) (s : State) : Out := .next (s.issue vc (0x29, 0x00) f vSt)

/-- VSTS (R201): strided store. -/
def execVsts (vc : Nat) (f : VFields) (s : State) : Out := .next (s.issue vc (0x29, 0x01) f vSts)

/-- VSTSH (R205): share store. -/
def execVstsh (vc : Nat) (f : VFields) (s : State) : Out := .next (s.issue vc (0x29, 0x03) f vStsh)

/-- VGATHER (R203): gather. -/
def execVgather (vc : Nat) (f : VFields) (s : State) : Out := .next (s.issue vc (0x2A, 0x00) f vGather)

/-- VSCATTER (R203): scatter. -/
def execVscatter (vc : Nat) (f : VFields) (s : State) : Out := .next (s.issue vc (0x2B, 0x00) f vScatter)

/-- SLD (R201): scalar load. -/
def execSld (vc : Nat) (f : VFields) (s : State) : Out := .next (s.issue vc (0x31, 0x00) f sLd)

/-- SST (R201): scalar store. -/
def execSst (vc : Nat) (f : VFields) (s : State) : Out := .next (s.issue vc (0x31, 0x01) f sSt)

/-- KEYLOAD (R206): a chunk of a key. -/
def execKeyload (vc : Nat) (f : VFields) (s : State) : Out := .next (s.issueKey vc (0x2C, 0x00) f)

/-- SADD (R207): sum. -/
def execSadd (vc : Nat) (f : VFields) (s : State) : Out := .next (s.issue vc (0x30, 0x00) f (sBin 1 (fun a b => a + b)))

/-- SSUB (R207): difference. -/
def execSsub (vc : Nat) (f : VFields) (s : State) : Out := .next (s.issue vc (0x30, 0x01) f (sBin 1 (subW 64)))

/-- SAND (R207): and. -/
def execSand (vc : Nat) (f : VFields) (s : State) : Out := .next (s.issue vc (0x30, 0x02) f (sBin 1 (fun a b => a &&& b)))

/-- SOR (R207): or. -/
def execSor (vc : Nat) (f : VFields) (s : State) : Out := .next (s.issue vc (0x30, 0x03) f (sBin 1 (fun a b => a ||| b)))

/-- SXOR (R207): exclusive or. -/
def execSxor (vc : Nat) (f : VFields) (s : State) : Out := .next (s.issue vc (0x30, 0x04) f (sBin 1 (fun a b => a ^^^ b)))

/-- SSLL (R207): shift left by S[VB] mod 64. -/
def execSsll (vc : Nat) (f : VFields) (s : State) : Out := .next (s.issue vc (0x30, 0x05) f (sBin 1 (fun a b => sllW 64 a (b % 64))))

/-- SSRL (R207): shift right. -/
def execSsrl (vc : Nat) (f : VFields) (s : State) : Out := .next (s.issue vc (0x30, 0x06) f (sBin 1 (fun a b => srlW 64 a (b % 64))))

/-- SSRA (R207): arithmetic shift right. -/
def execSsra (vc : Nat) (f : VFields) (s : State) : Out := .next (s.issue vc (0x30, 0x07) f (sBin 1 (fun a b => sraW 64 a (b % 64))))

/-- SMUL (R207): low 64 bits of the product. -/
def execSmul (vc : Nat) (f : VFields) (s : State) : Out := .next (s.issue vc (0x30, 0x08) f (sBin 4 (fun a b => a * b)))

/-- SADDI (R207): sum with IMM. -/
def execSaddi (vc : Nat) (f : VFields) (s : State) : Out := .next (s.issue vc (0x30, 0x09) f sAddi)

/-- SLUI (R207): IMM placed. -/
def execSlui (vc : Nat) (f : VFields) (s : State) : Out := .next (s.issue vc (0x30, 0x0A) f sLui)

/-- SLTU (R207): 1 if below, unsigned. -/
def execSltu (vc : Nat) (f : VFields) (s : State) : Out :=
  .next (s.issue vc (0x30, 0x0B) f (sBin 1 (fun a b => if a < b then 1 else 0)))

/-- SLT (R207): 1 if below, signed. -/
def execSlt (vc : Nat) (f : VFields) (s : State) : Out :=
  .next (s.issue vc (0x30, 0x0C) f (sBin 1 (fun a b => if signedOf 64 a < signedOf 64 b then 1 else 0)))

/-- B (R208): go to IMM. -/
def execBranch (vc : Nat) (f : VFields) (s : State) : Out := .next (s.issueControl vc (0x32, 0x00) f cB)

/-- BEQZ (R208): if zero. -/
def execBeqz (vc : Nat) (f : VFields) (s : State) : Out := .next (s.issueControl vc (0x32, 0x01) f (cBranchIf (fun x => x == 0)))

/-- BNEZ (R208): if not zero. -/
def execBnez (vc : Nat) (f : VFields) (s : State) : Out := .next (s.issueControl vc (0x32, 0x02) f (cBranchIf (fun x => x != 0)))

/-- BLTZ (R208): if negative. -/
def execBltz (vc : Nat) (f : VFields) (s : State) : Out := .next (s.issueControl vc (0x32, 0x03) f (cBranchIf (fun x => x.msb)))

/-- BGEZ (R208): if not negative. -/
def execBgez (vc : Nat) (f : VFields) (s : State) : Out := .next (s.issueControl vc (0x32, 0x04) f (cBranchIf (fun x => !x.msb)))

/-- LOOP (R208): count down and go. -/
def execLoopOp (vc : Nat) (f : VFields) (s : State) : Out := .next (s.issueControl vc (0x33, 0x00) f cLoop)

/-- CALL (R208): push and go. -/
def execCallOp (vc : Nat) (f : VFields) (s : State) : Out := .next (s.issueControl vc (0x34, 0x00) f cCall)

/-- RET (R208): pop and go. -/
def execRetOp (vc : Nat) (f : VFields) (s : State) : Out := .next (s.issueControl vc (0x34, 0x01) f cRet)

/-- YIELD (R209): yield point. -/
def execYieldOp (vc : Nat) (f : VFields) (s : State) : Out := .next (s.issueYield vc (0x35, 0x00) f)

/-- END (R211): end of the entry. -/
def execEndOp (vc : Nat) (f : VFields) (s : State) : Out := .next (s.issueEnd vc (0x35, 0x01) f)

/-- FENCE (R207): wait for the units. -/
def execFence (vc : Nat) (f : VFields) (s : State) : Out := .next (s.issue vc (0x35, 0x02) f cFence)

/-- NOP (R207): no effect but its cycle. -/
def execNop (vc : Nat) (f : VFields) (s : State) : Out := .next (s.issue vc (0x35, 0x03) f cNop)

/-- SPARAM (R207): a job parameter. -/
def execSparam (vc : Nat) (f : VFields) (s : State) : Out := .next (s.issue vc (0x35, 0x05) f cSparam)

end Sys2Proof.Machine
end

