-- ==== Sys2Proof/Machine/Dispatch.lean ====
section
/-!
DEFINITION. The one arm of each command (Sys2Proof.Instr): a direct call of its meaning.
-/

namespace Sys2Proof.Machine

def exec (i : Instr) (s : State) : Host.Outcome State Fault Refusal :=
  match i with
  | .powerOnReset => Sys2Proof.Machine.execPowerOnReset s
  | .resetPin low dt => Sys2Proof.Machine.execResetPin low dt s
  | .supplyReset rail die mv => Sys2Proof.Machine.execSupplyReset rail die mv s
  | .thermalShutdown sensor first second => Sys2Proof.Machine.execThermalShutdown sensor first second s
  | .thermalShutdownRelease dt => Sys2Proof.Machine.execThermalShutdownRelease dt s
  | .resetRelease sel => Sys2Proof.Machine.execResetRelease sel s
  | .bootVerdict dt => Sys2Proof.Machine.execBootVerdict dt s
  | .leaveBoot dt => Sys2Proof.Machine.execLeaveBoot dt s
  | .unitReady unit => Sys2Proof.Machine.execUnitReady unit s
  | .mainPowerLoss => Sys2Proof.Machine.execMainPowerLoss s
  | .vbatExhausted => Sys2Proof.Machine.execVbatExhausted s
  | .perstAssert => Sys2Proof.Machine.execPerstAssert s
  | .perstDeassert => Sys2Proof.Machine.execPerstDeassert s
  | .functionLevelReset => Sys2Proof.Machine.execFunctionLevelReset s
  | .busMasterDisable d3 => Sys2Proof.Machine.execBusMasterDisable d3 s
  | .busMasterEnable d3 => Sys2Proof.Machine.execBusMasterEnable d3 s
  | .msixRelease vector => Sys2Proof.Machine.execMsixRelease vector s
  | .registerWrite master space addr data full code => Sys2Proof.Machine.execRegisterWrite master space addr data full code s
  | .rcRegisterRead master space addr size code => Sys2Proof.Machine.execRcRegisterRead master space addr size code s
  | .mailboxGo => Sys2Proof.Machine.execMailboxGo s
  | .mailboxAbort => Sys2Proof.Machine.execMailboxAbort s
  | .mailboxTimeout dt => Sys2Proof.Machine.execMailboxTimeout dt s
  | .devInfo => Sys2Proof.Machine.execDevInfo s
  | .devCaps => Sys2Proof.Machine.execDevCaps s
  | .devPools => Sys2Proof.Machine.execDevPools s
  | .echo => Sys2Proof.Machine.execEcho s
  | .tiCreate => Sys2Proof.Machine.execTiCreate s
  | .tiBind => Sys2Proof.Machine.execTiBind s
  | .tiSetQuota => Sys2Proof.Machine.execTiSetQuota s
  | .tiAddWindow => Sys2Proof.Machine.execTiAddWindow s
  | .tiRemoveWindow => Sys2Proof.Machine.execTiRemoveWindow s
  | .tiAssignImt => Sys2Proof.Machine.execTiAssignImt s
  | .tiReleaseImt => Sys2Proof.Machine.execTiReleaseImt s
  | .tiQuiesce => Sys2Proof.Machine.execTiQuiesce s
  | .tiResume => Sys2Proof.Machine.execTiResume s
  | .tiDestroy => Sys2Proof.Machine.execTiDestroy s
  | .tiQuery => Sys2Proof.Machine.execTiQuery s
  | .doorbell offset data => Sys2Proof.Machine.execDoorbell offset data s
  | .headerReadComplete ring tidx ctl => Sys2Proof.Machine.execHeaderReadComplete ring tidx ctl s
  | .tenantEnableRequest ring ctl => Sys2Proof.Machine.execTenantEnableRequest ring ctl s
  | .tenantDisableRequest ring ctl => Sys2Proof.Machine.execTenantDisableRequest ring ctl s
  | .tenantCtlRefused ring ctl => Sys2Proof.Machine.execTenantCtlRefused ring ctl s
  | .consumerIndexPoll ring tidx dt => Sys2Proof.Machine.execConsumerIndexPoll ring tidx dt s
  | .sqFetch entries => Sys2Proof.Machine.execSqFetch entries s
  | .sqeAccept ring lead readFault => Sys2Proof.Machine.execSqeAccept ring lead readFault s
  | .publishedHeadWrite ring dt => Sys2Proof.Machine.execPublishedHeadWrite ring dt s
  | .dispatchPass die reads => Sys2Proof.Machine.execDispatchPass die reads s
  | .keyArrival job dt => Sys2Proof.Machine.execKeyArrival job dt s
  | .jobCompletion job pass dt => Sys2Proof.Machine.execJobCompletion job pass dt s
  | .heldCqeWrite ring => Sys2Proof.Machine.execHeldCqeWrite ring s
  | .cqFullTimeout ring dt => Sys2Proof.Machine.execCqFullTimeout ring dt s
  | .coalesceTimer ring dt => Sys2Proof.Machine.execCoalesceTimer ring dt s
  | .imtUnmask entry => Sys2Proof.Machine.execImtUnmask entry s
  | .ringDisableComplete ring => Sys2Proof.Machine.execRingDisableComplete ring s
  | .dmaReadError target kind addr => Sys2Proof.Machine.execDmaReadError target kind addr s
  | .dmaCompletionTimeout target addr dt => Sys2Proof.Machine.execDmaCompletionTimeout target addr dt s
  | .ringCreate => Sys2Proof.Machine.execRingCreate s
  | .ringDestroy => Sys2Proof.Machine.execRingDestroy s
  | .ringEnable => Sys2Proof.Machine.execRingEnable s
  | .ringDisable => Sys2Proof.Machine.execRingDisable s
  | .ringSetArb => Sys2Proof.Machine.execRingSetArb s
  | .ringSetInt => Sys2Proof.Machine.execRingSetInt s
  | .ringQuery => Sys2Proof.Machine.execRingQuery s
  | .schedSetShare => Sys2Proof.Machine.execSchedSetShare s
  | .schedSetReserve => Sys2Proof.Machine.execSchedSetReserve s
  | .schedSetBalance => Sys2Proof.Machine.execSchedSetBalance s
  | .schedSetWait => Sys2Proof.Machine.execSchedSetWait s
  | .schedQuery => Sys2Proof.Machine.execSchedQuery s
  | .balancerPeriod dt => Sys2Proof.Machine.execBalancerPeriod dt s
  | .clockMeasurementWindow vc mhz dt => Sys2Proof.Machine.execClockMeasurementWindow vc mhz dt s
  | .jobPreemptSave job dt => Sys2Proof.Machine.execJobPreemptSave job dt s
  | .jobRestore job vc dt => Sys2Proof.Machine.execJobRestore job vc dt s
  | .waitTimeout job dt => Sys2Proof.Machine.execWaitTimeout job dt s
  | .holdEnd dt => Sys2Proof.Machine.execHoldEnd dt s
  | .timeSet value => Sys2Proof.Machine.execTimeSet value s
  | .timeStep value => Sys2Proof.Machine.execTimeStep value s
  | .stepTakesEffect dt => Sys2Proof.Machine.execStepTakesEffect dt s
  | .timeSlew value => Sys2Proof.Machine.execTimeSlew value s
  | .timeNowCaptureRead master wide => Sys2Proof.Machine.execTimeNowCaptureRead master wide s
  | .timeTarget value => Sys2Proof.Machine.execTimeTarget value s
  | .targetReached dt => Sys2Proof.Machine.execTargetReached dt s
  | .ppsOutEdge dt => Sys2Proof.Machine.execPpsOutEdge dt s
  | .ppsInEdge falling dt => Sys2Proof.Machine.execPpsInEdge falling dt s
  | .ppsInLost dt => Sys2Proof.Machine.execPpsInLost dt s
  | .replicaCorrection dt => Sys2Proof.Machine.execReplicaCorrection dt s
  | .idlClockLoss a b => Sys2Proof.Machine.execIdlClockLoss a b s
  | .sha2Digest job => Sys2Proof.Machine.execSha2Digest job s
  | .sha3Digest job => Sys2Proof.Machine.execSha3Digest job s
  | .shakeOutput job => Sys2Proof.Machine.execShakeOutput job s
  | .cshakeOutput job => Sys2Proof.Machine.execCshakeOutput job s
  | .hmacTag job => Sys2Proof.Machine.execHmacTag job s
  | .hmacVerify job => Sys2Proof.Machine.execHmacVerify job s
  | .kmacTag job => Sys2Proof.Machine.execKmacTag job s
  | .kmacVerify job => Sys2Proof.Machine.execKmacVerify job s
  | .gcmEncrypt job => Sys2Proof.Machine.execGcmEncrypt job s
  | .gcmDecrypt job => Sys2Proof.Machine.execGcmDecrypt job s
  | .gmacGenerate job => Sys2Proof.Machine.execGmacGenerate job s
  | .gmacVerify job => Sys2Proof.Machine.execGmacVerify job s
  | .keyWrap job => Sys2Proof.Machine.execKeyWrap job s
  | .keyUnwrap job => Sys2Proof.Machine.execKeyUnwrap job s
  | .keyWrapPad job => Sys2Proof.Machine.execKeyWrapPad job s
  | .keyUnwrapPad job => Sys2Proof.Machine.execKeyUnwrapPad job s
  | .mlKemKeygen job => Sys2Proof.Machine.execMlKemKeygen job s
  | .mlKemEncaps job => Sys2Proof.Machine.execMlKemEncaps job s
  | .mlKemDecaps job => Sys2Proof.Machine.execMlKemDecaps job s
  | .mlDsaKeygen job => Sys2Proof.Machine.execMlDsaKeygen job s
  | .mlDsaSign job => Sys2Proof.Machine.execMlDsaSign job s
  | .mlDsaVerify job => Sys2Proof.Machine.execMlDsaVerify job s
  | .mlDsaPrehashSign job => Sys2Proof.Machine.execMlDsaPrehashSign job s
  | .mlDsaPrehashVerify job => Sys2Proof.Machine.execMlDsaPrehashVerify job s
  | .slhDsaKeygen job => Sys2Proof.Machine.execSlhDsaKeygen job s
  | .slhDsaSign job => Sys2Proof.Machine.execSlhDsaSign job s
  | .slhDsaVerify job => Sys2Proof.Machine.execSlhDsaVerify job s
  | .slhDsaPrehashSign job => Sys2Proof.Machine.execSlhDsaPrehashSign job s
  | .slhDsaPrehashVerify job => Sys2Proof.Machine.execSlhDsaPrehashVerify job s
  | .lmsVerify job => Sys2Proof.Machine.execLmsVerify job s
  | .hssVerify job => Sys2Proof.Machine.execHssVerify job s
  | .xmssVerify job => Sys2Proof.Machine.execXmssVerify job s
  | .xmssMtVerify job => Sys2Proof.Machine.execXmssMtVerify job s
  | .hqcKeygen job => Sys2Proof.Machine.execHqcKeygen job s
  | .hqcEncaps job => Sys2Proof.Machine.execHqcEncaps job s
  | .hqcDecaps job => Sys2Proof.Machine.execHqcDecaps job s
  | .mcelieceKeygen job => Sys2Proof.Machine.execMcelieceKeygen job s
  | .mcelieceEncaps job => Sys2Proof.Machine.execMcelieceEncaps job s
  | .mcelieceDecaps job => Sys2Proof.Machine.execMcelieceDecaps job s
  | .rsaPssSign job => Sys2Proof.Machine.execRsaPssSign job s
  | .rsaPssVerify job => Sys2Proof.Machine.execRsaPssVerify job s
  | .rsaPkcs1Sign job => Sys2Proof.Machine.execRsaPkcs1Sign job s
  | .rsaPkcs1Verify job => Sys2Proof.Machine.execRsaPkcs1Verify job s
  | .rsaOaepDecrypt job => Sys2Proof.Machine.execRsaOaepDecrypt job s
  | .rsaOaepEncrypt job => Sys2Proof.Machine.execRsaOaepEncrypt job s
  | .ecKeygen job => Sys2Proof.Machine.execEcKeygen job s
  | .ecSign job => Sys2Proof.Machine.execEcSign job s
  | .ecVerify job => Sys2Proof.Machine.execEcVerify job s
  | .ecDerive job => Sys2Proof.Machine.execEcDerive job s
  | .hybridKeygen job => Sys2Proof.Machine.execHybridKeygen job s
  | .hybridEncapsOrSign job => Sys2Proof.Machine.execHybridEncapsOrSign job s
  | .hybridDecapsOrVerify job => Sys2Proof.Machine.execHybridDecapsOrVerify job s
  | .generateSecretKey job => Sys2Proof.Machine.execGenerateSecretKey job s
  | .keyImport job => Sys2Proof.Machine.execKeyImport job s
  | .exportWrapped job => Sys2Proof.Machine.execExportWrapped job s
  | .kmacDerive job => Sys2Proof.Machine.execKmacDerive job s
  | .deleteAndZeroise job => Sys2Proof.Machine.execDeleteAndZeroise job s
  | .readPublicKey job => Sys2Proof.Machine.execReadPublicKey job s
  | .makePublicKeyResident job => Sys2Proof.Machine.execMakePublicKeyResident job s
  | .keyInformation job => Sys2Proof.Machine.execKeyInformation job s
  | .randomBytes job => Sys2Proof.Machine.execRandomBytes job s
  | .randomBytesPr job => Sys2Proof.Machine.execRandomBytesPr job s
  | .attestationQuote job => Sys2Proof.Machine.execAttestationQuote job s
  | .installNextStreamKey job => Sys2Proof.Machine.execInstallNextStreamKey job s
  | .replaceCurrentStreamKey job => Sys2Proof.Machine.execReplaceCurrentStreamKey job s
  | .ownerKernelCall job => Sys2Proof.Machine.execOwnerKernelCall job s
  | .vadd vc f => Sys2Proof.Machine.execVadd vc f s
  | .vsub vc f => Sys2Proof.Machine.execVsub vc f s
  | .vand vc f => Sys2Proof.Machine.execVand vc f s
  | .vor vc f => Sys2Proof.Machine.execVor vc f s
  | .vxor vc f => Sys2Proof.Machine.execVxor vc f s
  | .vandn vc f => Sys2Proof.Machine.execVandn vc f s
  | .vminu vc f => Sys2Proof.Machine.execVminu vc f s
  | .vmaxu vc f => Sys2Proof.Machine.execVmaxu vc f s
  | .vmin vc f => Sys2Proof.Machine.execVmin vc f s
  | .vmax vc f => Sys2Proof.Machine.execVmax vc f s
  | .vneg vc f => Sys2Proof.Machine.execVneg vc f s
  | .vsel vc f => Sys2Proof.Machine.execVsel vc f s
  | .vaddi vc f => Sys2Proof.Machine.execVaddi vc f s
  | .vsll vc f => Sys2Proof.Machine.execVsll vc f s
  | .vsrl vc f => Sys2Proof.Machine.execVsrl vc f s
  | .vsra vc f => Sys2Proof.Machine.execVsra vc f s
  | .vrol vc f => Sys2Proof.Machine.execVrol vc f s
  | .vsllv vc f => Sys2Proof.Machine.execVsllv vc f s
  | .vsrlv vc f => Sys2Proof.Machine.execVsrlv vc f s
  | .vsrav vc f => Sys2Proof.Machine.execVsrav vc f s
  | .vrolv vc f => Sys2Proof.Machine.execVrolv vc f s
  | .vceq vc f => Sys2Proof.Machine.execVceq vc f s
  | .vcne vc f => Sys2Proof.Machine.execVcne vc f s
  | .vcltu vc f => Sys2Proof.Machine.execVcltu vc f s
  | .vcgeu vc f => Sys2Proof.Machine.execVcgeu vc f s
  | .vclt vc f => Sys2Proof.Machine.execVclt vc f s
  | .vcge vc f => Sys2Proof.Machine.execVcge vc f s
  | .vmull vc f => Sys2Proof.Machine.execVmull vc f s
  | .vmulhu vc f => Sys2Proof.Machine.execVmulhu vc f s
  | .vmulhs vc f => Sys2Proof.Machine.execVmulhs vc f s
  | .vmulweu vc f => Sys2Proof.Machine.execVmulweu vc f s
  | .vmulwou vc f => Sys2Proof.Machine.execVmulwou vc f s
  | .vmulwes vc f => Sys2Proof.Machine.execVmulwes vc f s
  | .vmulwos vc f => Sys2Proof.Machine.execVmulwos vc f s
  | .vmacl vc f => Sys2Proof.Machine.execVmacl vc f s
  | .vdot4b vc f => Sys2Proof.Machine.execVdot4b vc f s
  | .vdot4bs vc f => Sys2Proof.Machine.execVdot4bs vc f s
  | .vdot2h vc f => Sys2Proof.Machine.execVdot2h vc f s
  | .vdot2hs vc f => Sys2Proof.Machine.execVdot2hs vc f s
  | .vdot4h vc f => Sys2Proof.Machine.execVdot4h vc f s
  | .vdot4hs vc f => Sys2Proof.Machine.execVdot4hs vc f s
  | .vclmul vc f => Sys2Proof.Machine.execVclmul vc f s
  | .vclmulx vc f => Sys2Proof.Machine.execVclmulx vc f s
  | .vpermv vc f => Sys2Proof.Machine.execVpermv vc f s
  | .vslideup vc f => Sys2Proof.Machine.execVslideup vc f s
  | .vslideups vc f => Sys2Proof.Machine.execVslideups vc f s
  | .vslidedn vc f => Sys2Proof.Machine.execVslidedn vc f s
  | .vslidedns vc f => Sys2Proof.Machine.execVslidedns vc f s
  | .vbcast vc f => Sys2Proof.Machine.execVbcast vc f s
  | .vziplo vc f => Sys2Proof.Machine.execVziplo vc f s
  | .vziphi vc f => Sys2Proof.Machine.execVziphi vc f s
  | .vunzipe vc f => Sys2Proof.Machine.execVunzipe vc f s
  | .vunzipo vc f => Sys2Proof.Machine.execVunzipo vc f s
  | .vtr32 vc f => Sys2Proof.Machine.execVtr32 vc f s
  | .vtr8 vc f => Sys2Proof.Machine.execVtr8 vc f s
  | .vpopc vc f => Sys2Proof.Machine.execVpopc vc f s
  | .vbrev vc f => Sys2Proof.Machine.execVbrev vc f s
  | .vbitsel vc f => Sys2Proof.Machine.execVbitsel vc f s
  | .vmov vc f => Sys2Proof.Machine.execVmov vc f s
  | .vmovi vc f => Sys2Proof.Machine.execVmovi vc f s
  | .vmovs vc f => Sys2Proof.Machine.execVmovs vc f s
  | .vext vc f => Sys2Proof.Machine.execVext vc f s
  | .vins vc f => Sys2Proof.Machine.execVins vc f s
  | .vzero vc f => Sys2Proof.Machine.execVzero vc f s
  | .pand vc f => Sys2Proof.Machine.execPand vc f s
  | .por vc f => Sys2Proof.Machine.execPor vc f s
  | .pxor vc f => Sys2Proof.Machine.execPxor vc f s
  | .pnot vc f => Sys2Proof.Machine.execPnot vc f s
  | .pset vc f => Sys2Proof.Machine.execPset vc f s
  | .pcnt vc f => Sys2Proof.Machine.execPcnt vc f s
  | .qset vc f => Sys2Proof.Machine.execQset vc f s
  | .qrd vc f => Sys2Proof.Machine.execQrd vc f s
  | .madd vc f => Sys2Proof.Machine.execMadd vc f s
  | .msub vc f => Sys2Proof.Machine.execMsub vc f s
  | .mneg vc f => Sys2Proof.Machine.execMneg vc f s
  | .mred vc f => Sys2Proof.Machine.execMred vc f s
  | .mmulm vc f => Sys2Proof.Machine.execMmulm vc f s
  | .mmulb vc f => Sys2Proof.Machine.execMmulb vc f s
  | .mtom vc f => Sys2Proof.Machine.execMtom vc f s
  | .mfromm vc f => Sys2Proof.Machine.execMfromm vc f s
  | .mcsub vc f => Sys2Proof.Machine.execMcsub vc f s
  | .mcenter vc f => Sys2Proof.Machine.execMcenter vc f s
  | .bfct vc f => Sys2Proof.Machine.execBfct vc f s
  | .bfgs vc f => Sys2Proof.Machine.execBfgs vc f s
  | .bfcti vc f => Sys2Proof.Machine.execBfcti vc f s
  | .bfgsi vc f => Sys2Proof.Machine.execBfgsi vc f s
  | .s2init vc f => Sys2Proof.Machine.execS2init vc f s
  | .s2abs vc f => Sys2Proof.Machine.execS2abs vc f s
  | .s2fin vc f => Sys2Proof.Machine.execS2fin vc f s
  | .s2lds vc f => Sys2Proof.Machine.execS2lds vc f s
  | .s2sts vc f => Sys2Proof.Machine.execS2sts vc f s
  | .kinit vc f => Sys2Proof.Machine.execKinit vc f s
  | .kabs vc f => Sys2Proof.Machine.execKabs vc f s
  | .kfin vc f => Sys2Proof.Machine.execKfin vc f s
  | .ksqz vc f => Sys2Proof.Machine.execKsqz vc f s
  | .kperm vc f => Sys2Proof.Machine.execKperm vc f s
  | .klds vc f => Sys2Proof.Machine.execKlds vc f s
  | .ksts vc f => Sys2Proof.Machine.execKsts vc f s
  | .akey vc f => Sys2Proof.Machine.execAkey vc f s
  | .aenc vc f => Sys2Proof.Machine.execAenc vc f s
  | .adec vc f => Sys2Proof.Machine.execAdec vc f s
  | .actr vc f => Sys2Proof.Machine.execActr vc f s
  | .mrd vc f => Sys2Proof.Machine.execMrd vc f s
  | .mstat vc f => Sys2Proof.Machine.execMstat vc f s
  | .hashUnitComplete vc unit => Sys2Proof.Machine.execHashUnitComplete vc unit s
  | .tagv vc f => Sys2Proof.Machine.execTagv vc f s
  | .tags vc f => Sys2Proof.Machine.execTags vc f s
  | .tagrd vc f => Sys2Proof.Machine.execTagrd vc f s
  | .split vc f => Sys2Proof.Machine.execSplit vc f s
  | .refresh vc f => Sys2Proof.Machine.execRefresh vc f s
  | .gmulq vc f => Sys2Proof.Machine.execGmulq vc f s
  | .gand vc f => Sys2Proof.Machine.execGand vc f s
  | .ga2b vc f => Sys2Proof.Machine.execGa2b vc f s
  | .gb2a vc f => Sys2Proof.Machine.execGb2a vc f s
  | .declv vc f => Sys2Proof.Machine.execDeclv vc f s
  | .decls vc f => Sys2Proof.Machine.execDecls vc f s
  | .vld vc f => Sys2Proof.Machine.execVld vc f s
  | .vlds vc f => Sys2Proof.Machine.execVlds vc f s
  | .vldff vc f => Sys2Proof.Machine.execVldff vc f s
  | .vldsh vc f => Sys2Proof.Machine.execVldsh vc f s
  | .vst vc f => Sys2Proof.Machine.execVst vc f s
  | .vsts vc f => Sys2Proof.Machine.execVsts vc f s
  | .vstsh vc f => Sys2Proof.Machine.execVstsh vc f s
  | .vgather vc f => Sys2Proof.Machine.execVgather vc f s
  | .vscatter vc f => Sys2Proof.Machine.execVscatter vc f s
  | .keyload vc f => Sys2Proof.Machine.execKeyload vc f s
  | .sld vc f => Sys2Proof.Machine.execSld vc f s
  | .sst vc f => Sys2Proof.Machine.execSst vc f s
  | .sadd vc f => Sys2Proof.Machine.execSadd vc f s
  | .ssub vc f => Sys2Proof.Machine.execSsub vc f s
  | .sand vc f => Sys2Proof.Machine.execSand vc f s
  | .sor vc f => Sys2Proof.Machine.execSor vc f s
  | .sxor vc f => Sys2Proof.Machine.execSxor vc f s
  | .ssll vc f => Sys2Proof.Machine.execSsll vc f s
  | .ssrl vc f => Sys2Proof.Machine.execSsrl vc f s
  | .ssra vc f => Sys2Proof.Machine.execSsra vc f s
  | .smul vc f => Sys2Proof.Machine.execSmul vc f s
  | .saddi vc f => Sys2Proof.Machine.execSaddi vc f s
  | .slui vc f => Sys2Proof.Machine.execSlui vc f s
  | .sltu vc f => Sys2Proof.Machine.execSltu vc f s
  | .slt vc f => Sys2Proof.Machine.execSlt vc f s
  | .branch vc f => Sys2Proof.Machine.execBranch vc f s
  | .beqz vc f => Sys2Proof.Machine.execBeqz vc f s
  | .bnez vc f => Sys2Proof.Machine.execBnez vc f s
  | .bltz vc f => Sys2Proof.Machine.execBltz vc f s
  | .bgez vc f => Sys2Proof.Machine.execBgez vc f s
  | .loopOp vc f => Sys2Proof.Machine.execLoopOp vc f s
  | .callOp vc f => Sys2Proof.Machine.execCallOp vc f s
  | .retOp vc f => Sys2Proof.Machine.execRetOp vc f s
  | .yieldOp vc f => Sys2Proof.Machine.execYieldOp vc f s
  | .endOp vc f => Sys2Proof.Machine.execEndOp vc f s
  | .fence vc f => Sys2Proof.Machine.execFence vc f s
  | .nop vc f => Sys2Proof.Machine.execNop vc f s
  | .sparam vc f => Sys2Proof.Machine.execSparam vc f s
  | .yieldIntervalExceeded vc => Sys2Proof.Machine.execYieldIntervalExceeded vc s
  | .declaredCountPassed vc => Sys2Proof.Machine.execDeclaredCountPassed vc s
  | .runLimitReached vc => Sys2Proof.Machine.execRunLimitReached vc s
  | .mgenBlock vc dt => Sys2Proof.Machine.execMgenBlock vc dt s
  | .mgenReseedRequest vc => Sys2Proof.Machine.execMgenReseedRequest vc s
  | .mgenSeedApply vc => Sys2Proof.Machine.execMgenSeedApply vc s
  | .mgenSeedArrival vc => Sys2Proof.Machine.execMgenSeedArrival vc s
  | .controlStoreScrub vc cause groups addr => Sys2Proof.Machine.execControlStoreScrub vc cause groups addr s
  | .controlStoreReloadDone vc good corrected bad dt => Sys2Proof.Machine.execControlStoreReloadDone vc good corrected bad dt s
  | .kernelStoreRewriteDone vc dt => Sys2Proof.Machine.execKernelStoreRewriteDone vc dt s
  | .goldenCopyRewriteDone cluster dt => Sys2Proof.Machine.execGoldenCopyRewriteDone cluster dt s
  | .kernelStageOpen => Sys2Proof.Machine.execKernelStageOpen s
  | .kernelStageData => Sys2Proof.Machine.execKernelStageData s
  | .kernelCommit => Sys2Proof.Machine.execKernelCommit s
  | .kernelRemove => Sys2Proof.Machine.execKernelRemove s
  | .kernelQuery => Sys2Proof.Machine.execKernelQuery s
  | .lieCompletion engine pass dt => Sys2Proof.Machine.execLieCompletion engine pass dt s
  | .lieClearDone engine dt => Sys2Proof.Machine.execLieClearDone engine dt s
  | .lieEccUncorrectable engine slot word single => Sys2Proof.Machine.execLieEccUncorrectable engine slot word single s
  | .lieTablesRewritten engine good dt => Sys2Proof.Machine.execLieTablesRewritten engine good dt s
  | .lieSlotWordsWrite master engine value => Sys2Proof.Machine.execLieSlotWordsWrite master engine value s
  | .directRsaPrivate master engine size base => Sys2Proof.Machine.execDirectRsaPrivate master engine size base s
  | .directRsaPublic master engine size base => Sys2Proof.Machine.execDirectRsaPublic master engine size base s
  | .directEcdsaKeygen master engine size base => Sys2Proof.Machine.execDirectEcdsaKeygen master engine size base s
  | .directEcdsaSign master engine size base => Sys2Proof.Machine.execDirectEcdsaSign master engine size base s
  | .directEcdsaVerify master engine size base => Sys2Proof.Machine.execDirectEcdsaVerify master engine size base s
  | .directEcdh master engine size base => Sys2Proof.Machine.execDirectEcdh master engine size base s
  | .directEddsaKeygen master engine size base => Sys2Proof.Machine.execDirectEddsaKeygen master engine size base s
  | .directEddsaSign master engine size base => Sys2Proof.Machine.execDirectEddsaSign master engine size base s
  | .directEddsaVerify master engine size base => Sys2Proof.Machine.execDirectEddsaVerify master engine size base s
  | .directXKeygen master engine size base => Sys2Proof.Machine.execDirectXKeygen master engine size base s
  | .directXDerive master engine size base => Sys2Proof.Machine.execDirectXDerive master engine size base s
  | .directCommandDone engine dt => Sys2Proof.Machine.execDirectCommandDone engine dt s
  | .dgeInit chan func => Sys2Proof.Machine.execDgeInit chan func s
  | .dgeData chan word => Sys2Proof.Machine.execDgeData chan word s
  | .dgeFin chan => Sys2Proof.Machine.execDgeFin chan s
  | .dgeCompare chan len => Sys2Proof.Machine.execDgeCompare chan len s
  | .dgeCompareDone chan faultA faultB dt => Sys2Proof.Machine.execDgeCompareDone chan faultA faultB dt s
  | .snoopSelfFinish chan => Sys2Proof.Machine.execSnoopSelfFinish chan s
  | .portConfig => Sys2Proof.Machine.execPortConfig s
  | .prpPair => Sys2Proof.Machine.execPrpPair s
  | .streamCreate => Sys2Proof.Machine.execStreamCreate s
  | .streamModify => Sys2Proof.Machine.execStreamModify s
  | .streamSubscribe => Sys2Proof.Machine.execStreamSubscribe s
  | .streamDestroy => Sys2Proof.Machine.execStreamDestroy s
  | .streamResetState => Sys2Proof.Machine.execStreamResetState s
  | .streamClearKeys => Sys2Proof.Machine.execStreamClearKeys s
  | .fpSetGlobal => Sys2Proof.Machine.execFpSetGlobal s
  | .streamQuery => Sys2Proof.Machine.execStreamQuery s
  | .portQuery => Sys2Proof.Machine.execPortQuery s
  | .linkChange port up speed => Sys2Proof.Machine.execLinkChange port up speed s
  | .frameReceived port data fcsOk lineNs parsed => Sys2Proof.Machine.execFrameReceived port data fcsOk lineNs parsed s
  | .verdictPost frame disagree dt => Sys2Proof.Machine.execVerdictPost frame disagree dt s
  | .frameBudgetExpiry frame dt => Sys2Proof.Machine.execFrameBudgetExpiry frame dt s
  | .frxDelivery frame ring dt => Sys2Proof.Machine.execFrxDelivery frame ring dt s
  | .frxMaxWaitExpiry frame ring dt => Sys2Proof.Machine.execFrxMaxWaitExpiry frame ring dt s
  | .promotionTimeReached context dt => Sys2Proof.Machine.execPromotionTimeReached context dt s
  | .ftxFetch entries => Sys2Proof.Machine.execFtxFetch entries s
  | .ftxFrameRead frame data fault dt => Sys2Proof.Machine.execFtxFrameRead frame data fault dt s
  | .ftxLaunch frame port dt => Sys2Proof.Machine.execFtxLaunch frame port dt s
  | .txSlipExpiry frame port dt => Sys2Proof.Machine.execTxSlipExpiry frame port dt s
  | .keyInfo => Sys2Proof.Machine.execKeyInfo s
  | .keyDelete => Sys2Proof.Machine.execKeyDelete s
  | .keyMoveHome => Sys2Proof.Machine.execKeyMoveHome s
  | .keyPlaceCopy => Sys2Proof.Machine.execKeyPlaceCopy s
  | .keySeal => Sys2Proof.Machine.execKeySeal s
  | .keyUnseal => Sys2Proof.Machine.execKeyUnseal s
  | .importKeyRotate => Sys2Proof.Machine.execImportKeyRotate s
  | .rootProvision => Sys2Proof.Machine.execRootProvision s
  | .identityRead => Sys2Proof.Machine.execIdentityRead s
  | .ksQuery => Sys2Proof.Machine.execKsQuery s
  | .keyRemaskPass die dt => Sys2Proof.Machine.execKeyRemaskPass die dt s
  | .keyStoreEccLoss ti slot single => Sys2Proof.Machine.execKeyStoreEccLoss ti slot single s
  | .duplexConfig => Sys2Proof.Machine.execDuplexConfig s
  | .duplexPair => Sys2Proof.Machine.execDuplexPair s
  | .duplexUnpair => Sys2Proof.Machine.execDuplexUnpair s
  | .duplexMirrorTi => Sys2Proof.Machine.execDuplexMirrorTi s
  | .duplexPromote => Sys2Proof.Machine.execDuplexPromote s
  | .duplexDemote => Sys2Proof.Machine.execDuplexDemote s
  | .duplexQuery => Sys2Proof.Machine.execDuplexQuery s
  | .pair1 link mac data => Sys2Proof.Machine.execPair1 link mac data s
  | .pair2 link mac data => Sys2Proof.Machine.execPair2 link mac data s
  | .pair3 link mac data => Sys2Proof.Machine.execPair3 link mac data s
  | .pairingTimeout dt => Sys2Proof.Machine.execPairingTimeout dt s
  | .mirrorMessage link seq authentic body => Sys2Proof.Machine.execMirrorMessage link seq authentic body s
  | .keyPut link seq ti slot gen typ usage stored => Sys2Proof.Machine.execKeyPut link seq ti slot gen typ usage stored s
  | .mirrorAck link seq of_ accepted => Sys2Proof.Machine.execMirrorAck link seq of_ accepted s
  | .mirrorAckTimeout dt => Sys2Proof.Machine.execMirrorAckTimeout dt s
  | .syncBegin link seq => Sys2Proof.Machine.execSyncBegin link seq s
  | .syncEnd link seq => Sys2Proof.Machine.execSyncEnd link seq s
  | .heartbeat dt => Sys2Proof.Machine.execHeartbeat dt s
  | .heartbeatReceived link seq role epoch state => Sys2Proof.Machine.execHeartbeatReceived link seq role epoch state s
  | .mirrorLinkLost dt => Sys2Proof.Machine.execMirrorLinkLost dt s
  | .pairRekey dt => Sys2Proof.Machine.execPairRekey dt s
  | .rngQuery => Sys2Proof.Machine.execRngQuery s
  | .rngSet => Sys2Proof.Machine.execRngSet s
  | .rngBank fail => Sys2Proof.Machine.execRngBank fail s
  | .entropyEnable die => Sys2Proof.Machine.execEntropyEnable die s
  | .startupTestEnd die failRct failApt => Sys2Proof.Machine.execStartupTestEnd die failRct failApt s
  | .bankHealthFailure die bank test => Sys2Proof.Machine.execBankHealthFailure die bank test s
  | .bankRetry die bank fail dt => Sys2Proof.Machine.execBankRetry die bank fail dt s
  | .intakeRound die arrived dt => Sys2Proof.Machine.execIntakeRound die arrived dt s
  | .drbgGenerate die => Sys2Proof.Machine.execDrbgGenerate die s
  | .drbgReseed die => Sys2Proof.Machine.execDrbgReseed die s
  | .borrowedSeedArrival die => Sys2Proof.Machine.execBorrowedSeedArrival die s
  | .randomWaitTimeout die cls job dt => Sys2Proof.Machine.execRandomWaitTimeout die cls job dt s
  | .fwStageOpen => Sys2Proof.Machine.execFwStageOpen s
  | .fwStageData => Sys2Proof.Machine.execFwStageData s
  | .fwInstall => Sys2Proof.Machine.execFwInstall s
  | .fwInstallDone dt => Sys2Proof.Machine.execFwInstallDone dt s
  | .fwActivate => Sys2Proof.Machine.execFwActivate s
  | .fwConfirm => Sys2Proof.Machine.execFwConfirm s
  | .fwAdvanceSvn => Sys2Proof.Machine.execFwAdvanceSvn s
  | .fwQuery => Sys2Proof.Machine.execFwQuery s
  | .modeEnter => Sys2Proof.Machine.execModeEnter s
  | .devReset => Sys2Proof.Machine.execDevReset s
  | .diagLie => Sys2Proof.Machine.execDiagLie s
  | .diagRngCapture bits fail => Sys2Proof.Machine.execDiagRngCapture bits fail s
  | .diagBist => Sys2Proof.Machine.execDiagBist s
  | .diagBistDone bad dt => Sys2Proof.Machine.execDiagBistDone bad dt s
  | .diagResult => Sys2Proof.Machine.execDiagResult s
  | .lcsQuery => Sys2Proof.Machine.execLcsQuery s
  | .authNonce => Sys2Proof.Machine.execAuthNonce s
  | .ownerClaim => Sys2Proof.Machine.execOwnerClaim s
  | .ownerSetKeys => Sys2Proof.Machine.execOwnerSetKeys s
  | .ownerTransfer => Sys2Proof.Machine.execOwnerTransfer s
  | .returnAuthorise => Sys2Proof.Machine.execReturnAuthorise s
  | .dbgChallenge => Sys2Proof.Machine.execDbgChallenge s
  | .dbgUnlock => Sys2Proof.Machine.execDbgUnlock s
  | .dbgRelock => Sys2Proof.Machine.execDbgRelock s
  | .lcsToTest master => Sys2Proof.Machine.execLcsToTest master s
  | .lcsToSealed master => Sys2Proof.Machine.execLcsToSealed master s
  | .lcsToOwned master => Sys2Proof.Machine.execLcsToOwned master s
  | .lcsToReturned master => Sys2Proof.Machine.execLcsToReturned master s
  | .lcsToScrap master => Sys2Proof.Machine.execLcsToScrap master s
  | .tapReset => Sys2Proof.Machine.execTapReset s
  | .idcode => Sys2Proof.Machine.execIdcode s
  | .samplePreload bits pins preload => Sys2Proof.Machine.execSamplePreload bits pins preload s
  | .bypass bits value => Sys2Proof.Machine.execBypass bits value s
  | .extest bits pins preload => Sys2Proof.Machine.execExtest bits pins preload s
  | .tapDbgChal => Sys2Proof.Machine.execTapDbgChal s
  | .tapDbgToken token => Sys2Proof.Machine.execTapDbgToken token s
  | .tapDbgStatus => Sys2Proof.Machine.execTapDbgStatus s
  | .dbgAccess address target write data => Sys2Proof.Machine.execDbgAccess address target write data s
  | .tapDbgRelock => Sys2Proof.Machine.execTapDbgRelock s
  | .debugGrantExpiry dt => Sys2Proof.Machine.execDebugGrantExpiry dt s
  | .caseSwitchOpen sw isOpen => Sys2Proof.Machine.execCaseSwitchOpen sw isOpen s
  | .loopOpen loop isOpen => Sys2Proof.Machine.execLoopOpen loop isOpen s
  | .watermarkMismatch loop dt => Sys2Proof.Machine.execWatermarkMismatch loop dt s
  | .supplyWarning rail die mv => Sys2Proof.Machine.execSupplyWarning rail die mv s
  | .overvoltage rail die mv => Sys2Proof.Machine.execOvervoltage rail die mv s
  | .vbatLow mv => Sys2Proof.Machine.execVbatLow mv s
  | .temperatureLimit sensor c => Sys2Proof.Machine.execTemperatureLimit sensor c s
  | .refclockFault clock die kind => Sys2Proof.Machine.execRefclockFault clock die kind s
  | .aoXtalStop stopped => Sys2Proof.Machine.execAoXtalStop stopped s
  | .alarmEvaluation dt => Sys2Proof.Machine.execAlarmEvaluation dt s
  | .eraseComplete dt => Sys2Proof.Machine.execEraseComplete dt s
  | .protAlarmClear mask => Sys2Proof.Machine.execProtAlarmClear mask s
  | .bistChannelTest pass dt => Sys2Proof.Machine.execBistChannelTest pass dt s
  | .f2SecondEvaluation decision delay agree dt => Sys2Proof.Machine.execF2SecondEvaluation decision delay agree dt s
  | .protQuery => Sys2Proof.Machine.execProtQuery s
  | .protSetMap => Sys2Proof.Machine.execProtSetMap s
  | .protArm => Sys2Proof.Machine.execProtArm s
  | .protBist => Sys2Proof.Machine.execProtBist s
  | .protF2Set => Sys2Proof.Machine.execProtF2Set s
  | .dklDisable deckle writer => Sys2Proof.Machine.execDklDisable deckle writer s
  | .dklEnable deckle writer => Sys2Proof.Machine.execDklEnable deckle writer s
  | .dklRegionWrite deckle region word value writer => Sys2Proof.Machine.execDklRegionWrite deckle region word value writer s
  | .heldAccessTimeout deckle dt => Sys2Proof.Machine.execHeldAccessTimeout deckle dt s
  | .aclQuery => Sys2Proof.Machine.execAclQuery s
  | .aclTest => Sys2Proof.Machine.execAclTest s
  | .aclRecord => Sys2Proof.Machine.execAclRecord s
  | .eventCommit => Sys2Proof.Machine.execEventCommit s
  | .evrWindow0Read master => Sys2Proof.Machine.execEvrWindow0Read master s
  | .evrWindow7Read master => Sys2Proof.Machine.execEvrWindow7Read master s
  | .evrQuery => Sys2Proof.Machine.execEvrQuery s
  | .evrRead => Sys2Proof.Machine.execEvrRead s
  | .evrClear => Sys2Proof.Machine.execEvrClear s
  | .evrSet => Sys2Proof.Machine.execEvrSet s
  | .powerCapEvaluation pkg dies dt => Sys2Proof.Machine.execPowerCapEvaluation pkg dies dt s
  | .thermalSample temps dt => Sys2Proof.Machine.execThermalSample temps dt s
  | .regulatorSettled die dt => Sys2Proof.Machine.execRegulatorSettled die dt s
  | .regulatorTimeout die kind dt => Sys2Proof.Machine.execRegulatorTimeout die kind dt s
  | .smbusMode withPec => Sys2Proof.Machine.execSmbusMode withPec s
  | .smbusReady withPec => Sys2Proof.Machine.execSmbusReady withPec s
  | .smbusTemperature withPec => Sys2Proof.Machine.execSmbusTemperature withPec s
  | .smbusPower withPec => Sys2Proof.Machine.execSmbusPower withPec s
  | .smbusAlarmSummary withPec => Sys2Proof.Machine.execSmbusAlarmSummary withPec s
  | .smbusLifecycle withPec => Sys2Proof.Machine.execSmbusLifecycle withPec s
  | .smbusFirmware withPec => Sys2Proof.Machine.execSmbusFirmware withPec s
  | .smbusAlertResponse => Sys2Proof.Machine.execSmbusAlertResponse s
  | .vbatApplied => Sys2Proof.Machine.execVbatApplied s
  | .pwrgoodFall => Sys2Proof.Machine.execPwrgoodFall s
  | .ppsOutPulseEnd dt => Sys2Proof.Machine.execPpsOutPulseEnd dt s

end Sys2Proof.Machine
end

