-- ==== Sys2Proof/Safety.lean ====
section
/-!
DEFINITION. What statements about runs are told in: an invariant that every step keeps, and the invariants of the block.
-/

namespace Sys2Proof.Machine

/-- A property that no step breaks. -/
def Kept (Inv : State → Prop) : Prop := ∀ s t : State, Inv s → step s = .next t → Inv t

/-- The F2 compatibility bit is programmed (R5). -/
def F2Set (s : State) : Prop := s.otp.f2 = true

end Sys2Proof.Machine
end

