-- ==== Sys2Proof/Safety/Cmd.lean ====
section
/-!
DEFINITION. What statements about commands are told in: what stays as it is, the events that a command records, and the
answer of a mailbox command (R95 to R99, R446 to R453).
-/

namespace Sys2Proof.Claims

open Sys2Proof.Machine

/-- Every register outside `ks` holds what it held. -/
def RegsKept (s t : State) (ks : List RegKind) : Prop := ∀ k i, k ∉ ks → t.reg k i = s.reg k i

/-- Register `k` holds what it held at every index but those of `is`. -/
def KeptBut (s t : State) (k : RegKind) (is : List Nat) : Prop := ∀ i, i ∉ is → t.reg k i = s.reg k i

/-- An event of this code and these details enters the intake FIFO, or is lost when 64 wait (R449, R453). -/
def Raised (s t : State) (code d0 d1 d2 : Nat) : Prop :=
  if s.evr.fifo.length < 64 then
    ∃ e, t.evr.fifo = s.evr.fifo ++ [e] ∧ e.code = code ∧ e.chan = eventChannel code ∧ e.d0 = d0 % 2 ^ 32 ∧
      e.d1 = d1 % 2 ^ 32 ∧ e.d2 = d2 % 2 ^ 32
  else t.evr.fifo = s.evr.fifo ∧ t.fget .EVR_LOST_COUNT (eventChannel code) =
    satAdd (2 ^ 32 - 1) (s.fget .EVR_LOST_COUNT (eventChannel code)) 1

/-- An event of this code is among those that wait, after those that waited before; without room nothing is said. -/
def Records (s t : State) (code : Nat) : Prop :=
  s.evr.fifo.length < 32 → ∃ l e r, t.evr.fifo = s.evr.fifo ++ l ++ e :: r ∧ e.code = code

/-- Mailbox command `op` runs on payload `p` (R96, R99). -/
def Runs (s : State) (op : Nat) (p : Bytes) : Prop := s.mbx.phase = .running ∧ s.cmdOpcode = op ∧ s.cmdPayload = p

/-- No check of a list fails. -/
def Passes (l : List (Bool × Nat × Nat)) : Prop := ∀ c ∈ l, c.1 = false

/-- The registers of the mailbox that an answer writes. -/
def mailboxRegs : List RegKind := [.MBX_STATUS, .MBX_CTL, .MBX_COUNT]

/-- The running command of `s` stands answered in `t`: the response holds status, detail and payload, BUSY and ABORT are
clear, DONE is set, and the command is counted (R95 to R97). -/
def Answered (s t : State) (st detail : Nat) (p : Bytes) : Prop :=
  t.mbx.phase = .idle ∧
    t.mbx.rsp = leBytes 2 st ++ leBytes 2 detail ++ sliceZ s.mbx.snap 4 4 ++ leBytes 4 p.length ++ leBytes 4 0 ++ p ∧
    t.fget .MBX_STATUS_BUSY 0 = 0 ∧ t.fget .MBX_STATUS_DONE 0 = 1 ∧ t.fget .MBX_CTL_ABORT 0 = 0 ∧
    t.fget .MBX_COUNT_COMPLETED 0 = satAdd (2 ^ 16 - 1) (s.fget .MBX_COUNT_COMPLETED 0) 1

/-- Answered SUCCESS without payload. -/
def Done (s t : State) : Prop := Answered s t mSuccess 0 []

/-- Nothing but the answer and the interrupt that reports it has changed. -/
def OnlyAnswer (s t : State) : Prop :=
  t = { s with mbx := t.mbx, regs := t.regs, host := t.host, out := t.out } ∧ RegsKept s t mailboxRegs

/-- Nothing but the answer, an event and registers of `ks` has changed. -/
def OnlyRegs (s t : State) (ks : List RegKind) : Prop :=
  t = { s with mbx := t.mbx, regs := t.regs, host := t.host, out := t.out, evr := t.evr } ∧
    RegsKept s t (mailboxRegs ++ [.EVR_LOST] ++ ks)

/-- A command that returns data and changes nothing. -/
structure Query where
  op : Nat
  cmd : Instr
  ok : State → Bytes → Prop
  ans : State → Bytes → Bytes

/-- A query completes: SUCCESS with the data, and nothing else has changed. -/
def Query.Completes (x : Query) : Prop :=
  ∀ (s : State) (p : Bytes), Runs s x.op p → x.ok s p →
    ∃ t, exec x.cmd s = .next t ∧ Answered s t mSuccess 0 (x.ans s p) ∧ OnlyAnswer s t

/-- A command that changes the package: when it goes ahead, and what stands afterwards. -/
structure Change where
  op : Nat
  cmd : Instr
  ok : State → Bytes → Prop
  post : State → Bytes → State → Prop

/-- A change completes with its effect. -/
def Change.Completes (x : Change) : Prop :=
  ∀ (s : State) (p : Bytes), Runs s x.op p → x.ok s p → ∃ t, exec x.cmd s = .next t ∧ x.post s p t

/-- `n` bytes of a payload from `o` are zero. -/
def ZeroAt (p : Bytes) (o n : Nat) : Prop := ∀ i, i < n → byteAt p (o + i) = 0

/-- `n` random bytes for firmware, at once: those that an earlier draw has brought, or what the DRBG of die 0 generates now
(R361). -/
def Draws (s : State) (n : Nat) (r : Bytes) : Prop :=
  (n ≤ (s.rngOf 0).mpRand.length ∧ r = (s.rngOf 0).mpRand.take n) ∨
  ((s.rngOf 0).mpRand.length < n ∧ n ≤ 65536 ∧ (s.rngOf 0).mgenQ = [] ∧ (s.rngOf 0).jobQ = [] ∧
    (∀ o ∈ (s.rngOf 0).owed, o.isJob = false) ∧ s.fget .RNG_REQS_COUNT 0 < 4096 ∧ s.flag .RNG_STATUS_DRBG_STALLED 0 = false ∧
    ∃ g, (s.rngOf 0).drbg = some g ∧ r = (g.generate n).1)

/-- A TI that is CREATED, BOUND or QUIESCED. -/
def LiveTi (s : State) (n : Nat) : Prop := n < s.part.tenants ∧ s.fget .TI_STATUS_STATE n ∈ [1, 2, 3]

/-- An allocated ring of such a TI. -/
def LiveRing (s : State) (r : Nat) : Prop :=
  r < s.part.rings ∧ s.flag .RING_CFG_ALLOCATED r = true ∧ LiveTi s (s.fget .RING_CFG_OWNER r)

/-- A field summed over every TI. -/
def tiSum (s : State) (f : Fld) : Nat := ((List.range s.part.tenants).map (s.fget f)).sum

/-- The command waits, past its commit point, for jobs or a ring. -/
def Waits (t : State) (jobs : List Nat) (ring : Option Nat) : Prop :=
  t.mbx.phase = .waiting ∧ t.mbx.waitJobs = jobs ∧ t.mbx.waitRing = ring

/-- The state right after a GO that is taken: the buffer is the running command, and BUSY is set (R96). -/
def submitted (s : State) : State :=
  ({ s with mbx := { s.mbx with
       phase := .running
       snap := s.cmdBuffer (16 + min (leAt (s.cmdBuffer 16) 8 4) 16368)
       started := s.time.ticks
       rsp := [] } }).fset .MBX_STATUS_BUSY 0 1

/-- The status with which the header of the running command is refused: the first check that fails, in the order of R99. -/
def HeaderFails (u : State) (st : Nat) : Prop :=
  (mbxRow u.cmdOpcode = none ∧ st = 0x10) ∨
  ∃ r, mbxRow u.cmdOpcode = some r ∧
    let extra := if u.cmdAuthed then 5486 else 0
    let flags := 4 ≤ u.cmdFlags ∨ leAt u.mbx.snap 12 4 ≠ 0 ∨ (u.cmdAuthed = true ∧ r.auth = 0)
    let length := u.cmdLength < r.lo + extra ∨ min 16368 (r.hi + extra) < u.cmdLength
    let auth := (r.auth = 2 ∧ u.cmdAuthed = false) ∨ (u.cmdAuthed = true ∧ u.trailerPasses = false)
    (flags ∧ st = 0x12) ∨ (¬ flags ∧ length ∧ st = 0x11) ∨
    (¬ flags ∧ ¬ length ∧ u.mode ∉ r.modes ∧ st = (if u.mode = 5 then 0x60 else 0x20)) ∨
    (¬ flags ∧ ¬ length ∧ u.mode ∈ r.modes ∧ auth ∧ st = 0x21)

/-- The nonce is consumed by the first command that carries it, be it refused or not (R406). -/
def NonceSpent (u t : State) : Prop :=
  t.auth = if u.cmdAuthed = true ∧ u.cmdTrailer.take 32 = u.auth.nonce then { u.auth with nonceLive := false } else u.auth

/-- Commands that a payload check may refuse. -/
def refusable : List Instr :=
  [.tiQuery, .portQuery, .kernelQuery, .evrRead, .keyInfo, .rngQuery, .schedQuery, .aclQuery, .aclTest,
   .tiCreate, .tiSetQuota, .tiAddWindow, .tiAssignImt, .tiReleaseImt] ++
  [.schedSetShare, .schedSetReserve, .portConfig, .prpPair, .streamModify, .streamSubscribe, .streamDestroy,
   .streamResetState, .streamClearKeys, .fpSetGlobal, .evrSet, .evrClear, .aclRecord, .protSetMap, .ownerClaim, .ownerSetKeys,
   .returnAuthorise, .fwStageOpen, .fwStageData, .fwInstall, .fwActivate, .fwAdvanceSvn, .modeEnter, .duplexMirrorTi]

end Sys2Proof.Claims
end

