-- ==== Sys2Proof/Safety/Host.lean ====
section
/-!
DEFINITION. Events as rows of a table: when one goes ahead and what stands afterwards; and the rows of the host link and of
the rings (R77 to R79, R83, R84, R91, R94, R109 to R120, R130 to R132, R373).
-/

namespace Sys2Proof.Claims

open Sys2Proof.Machine

/-- A row of the command table with its operands: when it goes ahead, and what stands afterwards. -/
structure Row where
  Arg : Type
  cmd : Arg → Instr
  ok : State → Arg → Prop
  post : State → Arg → State → Prop

/-- A row completes with its effect. -/
def Row.Completes (x : Row) : Prop :=
  ∀ (s : State) (a : x.Arg), x.ok s a → ∃ t, exec (x.cmd a) s = .next t ∧ x.post s a t

/-- These messages leave the device, or wait while DMA is closed (R78). -/
def Sent (s t : State) (l : List OutMsg) : Prop :=
  if s.dmaOpen then t.out = s.out ++ l ∧ t.host.waiting = s.host.waiting
  else t.out = s.out ∧ t.host.waiting = s.host.waiting ++ l

/-- A saturating counter has counted once. -/
def Counted (s t : State) (f : Fld) (i : Nat) : Prop :=
  t.fget f i = satAdd (2 ^ (f.hi + 1 - f.lo) - 1) (s.fget f i) 1

/-- An interrupt source fires on IMT entry `n` of `s` (R91). -/
def ImtFired (s t : State) (n : Nat) : Prop :=
  (s.flag .IMT_CTL_ASSIGNED n = false → Sent s t [] ∧ t.regs = s.regs) ∧
  (s.flag .IMT_CTL_ASSIGNED n = true → s.flag .IMT_CTL_MASK n = true →
    Sent s t [] ∧ t.fget .IMT_CTL_PEND n = 1 ∧ RegsKept s t [.IMT_CTL]) ∧
  (s.flag .IMT_CTL_ASSIGNED n = true → s.flag .IMT_CTL_MASK n = false → n ∉ s.imtTaint → t.regs = s.regs ∧
    Sent s t [.memWrite none (some (s.fget .IMT_CTL_OWNER n)) none (s.reg .IMT_ADDR n).toNat
      (leBytes 4 (s.reg .IMT_DATA n).toNat)])

/-- What a reset of the function leaves: every TI FREE, the mailbox idle, every IMT entry masked, the MSI-X table clear, and
DMA closed (R79). -/
def FunctionReset (t : State) : Prop :=
  (∀ n, n < t.part.tenants → t.fget .TI_STATUS_STATE n = 0) ∧ t.mbx.phase = .idle ∧ t.fget .MBX_STATUS_BUSY 0 = 0 ∧
    (∀ e, e < 4096 → t.flag .IMT_CTL_MASK e = true) ∧ t.host.busMaster = false ∧ t.host.msixEnable = false ∧
    t.host.pasidEnable = false ∧ t.host.vecAddr = [] ∧ t.host.vecMask = 0xFF

/-- The host link: resets of the function, DMA opening and closing, interrupt messages. -/
noncomputable def linkRows : List Row :=
  [{ Arg := Unit
     cmd := fun _ => .functionLevelReset
     ok := fun _ _ => True
     post := fun s _ t => FunctionReset t ∧ t.host.pba = 0 ∧ t.otp = s.otp ∧ t.bbks = s.bbks ∧ t.boot = s.boot },
   { Arg := Unit
     cmd := fun _ => .perstAssert
     ok := fun _ _ => True
     post := fun s _ t => FunctionReset t ∧ t.host.perst = true ∧ t.fget .MBX_STATUS_READY 0 = 0 ∧ t.fget .DEV_READY_PCIE 0 = 0 ∧
       t.fget .DEV_READY_MBX 0 = 0 ∧ t.otp = s.otp ∧ t.bbks = s.bbks ∧ t.boot = s.boot },
   { Arg := Unit
     cmd := fun _ => .perstDeassert
     ok := fun s _ => s.onVbat = false ∧ s.boot.phase ≠ 0
     post := fun s _ t => t.host.perst = false ∧ t.fget .DEV_READY_PCIE 0 = 1 ∧
       (s.boot.phase = 3 → t.fget .MBX_STATUS_READY 0 = 1 ∧ t.fget .DEV_READY_MBX 0 = 1) ∧ t.rings = s.rings ∧ t.sched = s.sched },
   { Arg := Bool
     cmd := .busMasterDisable
     ok := fun _ _ => True
     post := fun s _ t => t.dmaOpen = false ∧ t = { s with host := t.host } ∧ t.host.waiting = s.host.waiting ∧
       (s.dmaOpen = true → t.host.stoppedAt = some s.time.ticks) },
   { Arg := Bool
     cmd := .busMasterEnable
     ok := fun s d3 => s.dmaOpen = false ∧ s.host.perst = false ∧ (if d3 then s.host.busMaster = true else s.host.d3hot = false)
     post := fun s _ t => t.dmaOpen = true ∧ (∃ more, t.out = s.out ++ s.host.waiting.map s.issued ++ more) ∧ t.host.waiting = [] ∧
       (s.mbx.phase ≠ .waiting → (∃ reads, t.out = s.out ++ s.host.waiting.map s.issued ++ reads) ∧ t.regs = s.regs) ∧
       (∀ r, (t.ringx r).hdrHeld = false) ∧
       ∀ r, (t.ringx r).held = (s.ringx r).held ∧ ((t.ringx r).fullFrom.isSome = (s.ringx r).fullFrom.isSome) },
   { Arg := Nat
     cmd := .imtUnmask
     ok := fun _ n => n < 4096
     post := fun s n t => t.fget .IMT_CTL_MASK n = 0 ∧ t.fget .IMT_CTL_PEND n = 0 ∧ RegsKept s t [.IMT_CTL] ∧
       KeptBut s t .IMT_CTL [n] ∧ (s.flag .IMT_CTL_PEND n = false → t = { s with regs := t.regs }) ∧
       (s.flag .IMT_CTL_PEND n = true → ImtFired (s.fset .IMT_CTL_MASK n 0 |>.fset .IMT_CTL_PEND n 0) t n) },
   { Arg := Nat
     cmd := .msixRelease
     ok := fun s v => v < 8 ∧ s.host.pba.testBit v = true ∧ s.host.msixEnable = true ∧ s.host.msixMask = false ∧
       s.host.vecMask.testBit v = false
     post := fun s v t => (∀ w, t.host.pba.testBit w = (s.host.pba.testBit w && w != v)) ∧ t.regs = s.regs ∧
       Sent s t [.memWrite none none none (sparseGet 0 s.host.vecAddr v) (leBytes 4 (sparseGet 0 s.host.vecData v))] }]

/-- The ring and the CTL bit that a doorbell names, and its TI's page. -/
def dbRing (data : Bytes) : Nat := leNat data % 2 ^ 14
def dbCtl (data : Bytes) : Bool := (leNat data).testBit 16

/-- A doorbell write of its TI's own ring (R83). -/
def DoorbellValid (s : State) (off : Nat) (data : Bytes) : Prop :=
  off / 0x1000 < s.part.tenants ∧ off % 0x1000 = 0 ∧ data.length = 4 ∧ s.ringLive (dbRing data) = true ∧
    s.ringOwner (dbRing data) = off / 0x1000

/-- The tenant index `i` leaves the ring within its size (R113). -/
def IndexFits (s : State) (r i : Nat) : Prop := s.fillAt r i ≤ s.ringSize r

/-- Ring `r` has gone from ENABLED to ERROR with a code, with its record (R133, Table 04.8). -/
def RingFailed (s t : State) (r code : Nat) : Prop :=
  t.ringState r = 3 ∧ t.fget .RING_STATE_ERR_CODE r = code ∧ Records s t 0x6032 ∧ ∀ p ∈ t.sched.prefetch, p.ring ≠ r

/-- Doorbells, header reads and tenant control. -/
noncomputable def doorbellRows : List Row :=
  [{ Arg := Nat × Bytes
     cmd := fun a => .doorbell a.1 a.2
     ok := fun s a => DoorbellValid s a.1 a.2 ∧ s.tiState (a.1 / 0x1000) = 2 ∧ (s.ringState (dbRing a.2) = 1 ∨ dbCtl a.2 = true)
     post := fun s a t =>
       let r := dbRing a.2
       let x := s.ringx r
       t = { s with rings := t.rings, out := t.out } ∧ (∀ q, q ≠ r → t.ringx q = s.ringx q) ∧
         (x.hdrBusy = true ∨ x.hdrHeld = true → t.out = s.out) ∧
         (x.hdrBusy = false → x.hdrHeld = false → s.dmaOpen = true → ∀ p, s.pasidOf (s.ringOwner r) = some p →
           t.out = s.out ++ [.memRead p (s.ringOwner r) (s.reg .RING_HDR_ADDR r).toNat (if dbCtl a.2 then 8 else 4)]) ∧
         (x.hdrHeld = true → t.ringx r = { x with hdrCtl := dbCtl a.2 || x.hdrCtl }) ∧
         (x.hdrHeld = false → x.hdrBusy = false → t.ringx r = { x with hdrBusy := true, hdrCtl := dbCtl a.2, hdrHeld := !s.dmaOpen }) ∧
         (x.hdrHeld = false → x.hdrBusy = true → t.ringx r = { x with hdrNext := some (dbCtl a.2 || x.hdrNext.getD false) }) },
   { Arg := Nat × Bytes
     cmd := fun a => .doorbell a.1 a.2
     ok := fun s a => DoorbellValid s a.1 a.2 ∧ s.tiState (a.1 / 0x1000) = 3
     post := fun s a t =>
       let r := dbRing a.2
       t = { s with rings := t.rings } ∧ (∀ q, q ≠ r → t.ringx q = s.ringx q) ∧
         t.ringx r = { s.ringx r with recorded := some (dbCtl a.2 || (s.ringx r).recorded.getD false) } },
   { Arg := Nat × Bytes
     cmd := fun a => .doorbell a.1 a.2
     ok := fun s a => a.1 / 0x1000 < s.part.tenants ∧ ((¬ DoorbellValid s a.1 a.2 ∧ s.tiState (a.1 / 0x1000) ∈ [2, 3]) ∨ s.tiState (a.1 / 0x1000) = 1)
     post := fun s a t =>
       let n := a.1 / 0x1000
       Counted s t .TI_DB_REJECT_COUNT n ∧ Raised s t 0x6010 n (dbRing a.2) a.1 ∧ t.rings = s.rings ∧
         RegsKept s t [.TI_DB_REJECT, .EVR_LOST] },
   { Arg := Nat × Nat × Nat
     cmd := fun a => .headerReadComplete a.1 a.2.1 a.2.2
     ok := fun s a => s.ringLive a.1 = true ∧ (s.ringx a.1).hdrBusy = true ∧ (s.ringx a.1).hdrHeld = false ∧ (s.ringx a.1).hdrCtl = false ∧
       s.ringState a.1 = 1 ∧ IndexFits s a.1 a.2.1
     post := fun s a t =>
       let x := s.ringx a.1
       t.fget .RING_TIDX_INDEX a.1 = a.2.1 % 2 ^ 32 ∧ RegsKept s t [.RING_TIDX] ∧ KeptBut s t .RING_TIDX [a.1] ∧
         (t.ringx a.1).hdrBusy = x.hdrNext.isSome ∧ (t.ringx a.1).hdrCtl = x.hdrNext.getD false ∧ (t.ringx a.1).hdrNext = none ∧
         ∀ q, q ≠ a.1 → t.ringx q = s.ringx q },
   { Arg := Nat × Nat × Nat
     cmd := fun a => .headerReadComplete a.1 a.2.1 a.2.2
     ok := fun s a => s.ringLive a.1 = true ∧ (s.ringx a.1).hdrBusy = true ∧ (s.ringx a.1).hdrHeld = false ∧ (s.ringx a.1).hdrCtl = false ∧
       s.ringState a.1 = 1 ∧ ¬ IndexFits s a.1 a.2.1
     post := fun s a t => t.fget .RING_TIDX_INDEX a.1 = a.2.1 % 2 ^ 32 ∧ RingFailed s t a.1 1 },
   { Arg := Nat × Nat × Nat
     cmd := fun a => .consumerIndexPoll a.1 a.2.1 a.2.2
     ok := fun s a => s.ringLive a.1 = true ∧ s.ringFetched a.1 = false ∧ s.ringState a.1 = 1 ∧ s.ringFree a.1 = 0 ∧ s.dmaOpen = true ∧
       (if s.ringType a.1 = typeCq then (s.ringx a.1).held ≠ [] else (s.ringx a.1).dropSeen = true) ∧ IndexFits s a.1 a.2.1
     post := fun s a t => t.fget .RING_TIDX_INDEX a.1 = a.2.1 % 2 ^ 32 ∧ RegsKept s t [.RING_TIDX] ∧
       KeptBut s t .RING_TIDX [a.1] ∧ (t.ringx a.1).dropSeen = false ∧ ∀ q, q ≠ a.1 → t.ringx q = s.ringx q }] ++
  [{ Arg := Nat × Nat
     cmd := fun a => .tenantEnableRequest a.1 a.2
     ok := fun s a => s.ringBound a.1 = true ∧ a.2.testBit 2 = true ∧ a.2.testBit 0 = false
     post := fun s a t =>
       let r := a.1
       (t.ringx r).ackSeq = a.2 / 2 ^ 8 % 2 ^ 8 ∧ (t.ringx r).refused = (s.enableRefusal r true).isSome ∧
         (s.enableRefusal r true = none → t.ringState r = 1 ∧ t.fget .RING_STATE_ABORTING r = 0 ∧ Raised s t 0x6031 r 1 1 ∧
           (s.ringFetched r = true → t.fget .RING_FETCH_INDEX r = (s.ringx r).head % 2 ^ 32 ∧
             t.fget .RING_ARB_CREDIT r = s.fget .RING_ARB_WEIGHT r)) ∧
         (s.enableRefusal r true ≠ none → t.ringState r = s.ringState r ∧ Raised s t 0x6034 r (a.2 / 2 ^ 8 % 2 ^ 8) (a.2 % 256)) },
   { Arg := Nat × Nat
     cmd := fun a => .tenantDisableRequest a.1 a.2
     ok := fun s a => s.ringBound a.1 = true ∧ a.2.testBit 0 = true ∧ a.2.testBit 2 = false
     post := fun s a t =>
       let r := a.1
       (s.disableRefused r = true → (t.ringx r).refused = true ∧ (t.ringx r).ackSeq = a.2 / 2 ^ 8 % 2 ^ 8 ∧ t.ringState r = s.ringState r) ∧
         (s.disableRefused r = false → s.ringState r = 0 →
           (t.ringx r).refused = false ∧ (t.ringx r).ackSeq = a.2 / 2 ^ 8 % 2 ^ 8 ∧ t.ringState r = 0) ∧
         (s.disableRefused r = false → s.ringState r = 1 → a.2.testBit 1 = false →
           t.ringState r = 2 ∧ (t.ringx r).reqSeq = some (a.2 / 2 ^ 8 % 2 ^ 8) ∧ (t.ringx r).disabling ≠ 0 ∧ t.sched.jobs = s.sched.jobs ∧
             ∀ p ∈ t.sched.prefetch, p.ring ≠ r) ∧
         (s.disableRefused r = false → s.ringState r = 1 → a.2.testBit 1 = true →
           t.ringState r = 2 ∧ t.fget .RING_STATE_ABORTING r = 1 ∧ ∀ p ∈ t.sched.prefetch, p.ring ≠ r) },
   { Arg := Nat × Nat
     cmd := fun a => .tenantCtlRefused a.1 a.2
     ok := fun s a => s.ringBound a.1 = true ∧ a.2.testBit 0 = a.2.testBit 2
     post := fun s a t => (t.ringx a.1).refused = true ∧ (t.ringx a.1).ackSeq = a.2 / 2 ^ 8 % 2 ^ 8 ∧
       t.ringState a.1 = s.ringState a.1 ∧ Raised s t 0x6034 a.1 (a.2 / 2 ^ 8 % 2 ^ 8) (a.2 % 256) ∧ t.sched = s.sched },
   { Arg := Nat
     cmd := .ringDisableComplete
     ok := fun s r => (s.ringx r).disabling ≠ 0 ∧ s.ringBusy r = false
     post := fun s r t => t.ringState r = 0 ∧ t.fget .RING_STATE_ERR_CODE r = 0 ∧ (t.ringx r).disabling = 0 ∧ Records s t 0x6031 ∧
       ∀ q, (s.ringx r).reqSeq = some q → (t.ringx r).ackSeq = q ∧ (t.ringx r).refused = false }]

/-- A read of the host's memory has failed (R77): the job ends, or the ring enters ERROR. -/
def ReadFailed (s t : State) (x : DmaTarget) : Prop :=
  Records s t 0x6012 ∧ match x with
  | .jobBuffer id _ => t.job? id = none
  | .header r => t.ringState r = 3 ∧ t.fget .RING_STATE_ERR_CODE r = 2
  | .entry r i => t.ringState r = 3 ∧ t.fget .RING_STATE_ERR_CODE r = 3 ∧ t.fget .RING_ERR_INFO_INDEX r = i % 2 ^ 32

/-- The target of a read exists: a running job, or an enabled ring. -/
def ReadLive (s : State) (x : DmaTarget) : Prop :=
  match x with
  | .jobBuffer id _ => (s.job? id).any (fun j => j.running && !j.past) = true
  | .header r | .entry r _ => s.ringLive r = true ∧ s.ringState r = 1

/-- `r` is the ring that the weighted round robin serves: eligible, of tier `one`, with credit, and first from `start` on. -/
def Served (s : State) (one : Bool) (start r : Nat) : Prop :=
  let fit := fun q => q < s.part.rings ∧ s.tierOne q = one ∧ s.sqEligible q = true ∧ s.fget .RING_ARB_CREDIT q ≠ 0
  fit r ∧ ∀ q, fit q → q ≠ r → (start ≤ r ∧ (q < start ∨ r < q)) ∨ (r < start ∧ q < start ∧ r < q)

/-- Held CQEs, interrupt moderation, fetching and DMA errors. -/
noncomputable def ringRows : List Row :=
  [{ Arg := Nat
     cmd := .heldCqeWrite
     ok := fun s r => (s.ringx r).held ≠ [] ∧ s.ringLive r = true ∧ s.ringFetched r = false ∧ s.ringState r = 1 ∧ 0 < s.ringFree r
     post := fun s r t =>
       (t.ringx r).held = (s.ringx r).held.tail ∧ t.didx r = (s.didx r + 1) % 2 ^ 32 ∧
         ∀ h p, (s.ringx r).held.head? = some h → s.pasidOf (s.ringOwner r) = some p →
           ∃ more, Sent s t (.memWrite (some p) (some (s.ringOwner r)) (some r)
             ((s.reg .RING_BASE r).toNat + s.didx r % s.ringSize r * 32) h.cqe :: more) },
   { Arg := Nat × Nat
     cmd := fun a => .cqFullTimeout a.1 a.2
     ok := fun s a => s.dmaOpen = true ∧ s.ringFree a.1 = 0 ∧ s.ringState a.1 = 1 ∧ s.ringType a.1 = typeCq ∧
       (s.ringx a.1).fullFrom.any (fun f => decide (s.fget .RING_TIME_FULL_MS a.1 * 1000000 ≤ (s.elapse a.2).since f)) = true
     post := fun s a t => RingFailed (s.elapse a.2) t a.1 4 ∧
       ∀ q ∈ s.boundSqs a.1, s.ringState q = 1 → t.ringState q = 3 ∧ t.fget .RING_STATE_ERR_CODE q = 5 },
   { Arg := Nat × Nat
     cmd := fun a => .coalesceTimer a.1 a.2
     ok := fun s a => s.fget .RING_TIME_COAL_US a.1 ≠ 0 ∧
       (s.ringx a.1).unsignalled.any (fun f => decide (s.fget .RING_TIME_COAL_US a.1 * 1000 ≤ (s.elapse a.2).since f)) = true
     post := fun s a t => (t.ringx a.1).unsignalled = none ∧ (t.ringx a.1).sinceMsg = 0 ∧
       (s.flag .RING_INT_IMT_VALID a.1 = true → ImtFired (s.elapse a.2) t (s.fget .RING_INT_IMT a.1)) ∧
       (s.flag .RING_INT_IMT_VALID a.1 = false → Sent s t [] ∧ t.regs = s.regs) },
   { Arg := Nat × Nat
     cmd := fun a => .publishedHeadWrite a.1 a.2
     ok := fun s a => s.ringLive a.1 = true ∧ s.ringFetched a.1 = true ∧ s.didx a.1 ≠ (s.ringx a.1).head
     post := fun s a t => t.didx a.1 = (s.ringx a.1).head % 2 ^ 32 ∧ RegsKept s t [.RING_DIDX] ∧ KeptBut s t .RING_DIDX [a.1] ∧
       ∀ p, s.pasidOf (s.ringOwner a.1) = some p → Sent s t [.memWrite (some p) (some (s.ringOwner a.1)) (some a.1)
         ((s.reg .RING_HDR_ADDR a.1).toNat + 32)
         (leBytes 4 (s.ringx a.1).head ++ leBytes 4 (s.deviceFlags a.1) ++ leBytes 4 (s.ringx a.1).devCount ++ leBytes 4 0)] },
   { Arg := DmaTarget × Nat × Nat
     cmd := fun a => .dmaReadError a.1 a.2.1 a.2.2
     ok := fun s a => 1 ≤ a.2.1 ∧ a.2.1 ≤ 3 ∧ ReadLive s a.1
     post := fun s a t => ReadFailed s t a.1 },
   { Arg := DmaTarget × Nat × Nat
     cmd := fun a => .dmaCompletionTimeout a.1 a.2.1 a.2.2
     ok := fun s a => ctoNs s.host.ctoValue ≤ a.2.2 ∧ ReadLive s a.1
     post := fun s a t => ReadFailed (s.elapse a.2.2) t a.1 },
   { Arg := List Bytes × Nat
     cmd := fun a => .sqFetch a.1
     ok := fun s a => ∃ one, Served s one (if one then s.sched.lastTier1 else s.sched.lastTier2) a.2 ∧
       (one = false → ∀ q, q < s.part.rings → s.tierOne q = true → s.sqEligible q = false) ∧
       min (min (s.fget .RING_ARB_BURST a.2) (s.fget .RING_ARB_CREDIT a.2)) (min (s.sqPending a.2) (s.sqRoom a.2)) ≤ a.1.length
     post := fun s a t =>
       let r := a.2
       let n := min (min (s.fget .RING_ARB_BURST r) (s.fget .RING_ARB_CREDIT r)) (min (s.sqPending r) (s.sqRoom r))
       let f := s.fget .RING_FETCH_INDEX r
       t.fget .RING_FETCH_INDEX r = (f + n) % 2 ^ 32 ∧ t.fget .RING_ARB_CREDIT r = s.fget .RING_ARB_CREDIT r - n ∧
         t.sched.prefetch.length = s.sched.prefetch.length + n ∧
         (∀ i, i < n → t.sched.prefetch[s.sched.prefetch.length + i]? =
           some ⟨r, (f + i) % 2 ^ 32, sliceZ (a.1.getD i []) 0 64⟩) ∧
         RegsKept s t [.RING_FETCH, .RING_ARB] ∧ KeptBut s t .RING_FETCH [r] ∧ KeptBut s t .RING_ARB [r] }]

end Sys2Proof.Claims
end

