-- ==== Sys2Proof/Safety/Jobs.lean ====
section
/-!
DEFINITION. The operations of the catalogue as rows of a table: what each computes from a bound job, its key and its random
bytes (R54 to R68, R241, R244, R268, R291, R322 to R333).
-/

namespace Sys2Proof.Claims

open Sys2Proof.Machine

/-- An operation of the catalogue: its row, the operations of Table 02.4 onwards that it covers, the random bytes that it
draws, and its result. -/
structure JobRow where
  Arg : Type
  cmd : Nat → Instr
  op : Arg → Oper
  draw : Arg → State → Job → Nat
  res : Arg → State → Job → Bytes → OpRes

/-- A command of the job ends in phase V (R244): its result is a refusal, or its engine refuses what stands in the
positions. -/
def refusedInV (s : State) (j : Job) (rand : Bytes) (r : OpRes) : Bool :=
  r.refused || (j.lie.isSome && (s.lieIns j (j.oper.getD .keyInfo) rand r.out).any (fun i => i.result.refused))

/-- The registers that an engine's command may change: its own, and those of its digest channel (R234). -/
def engineRegs : List RegKind :=
  [.LIE_STATE, .LIE_REFUSED, .DGE_CTL, .DGE_STAT, .DGE_COUNT, .DGE_DIGEST, .DGE_FIN_SEQ, .DGE_LAST_LEN, .DGE_BLOCKS]

/-- The job's result stands: status, Out after any handle, the key to create, before its release check (R72); a refusal in
phase V is counted by the engine (R244). A job without an engine changes nothing else; one with an engine its positions,
its digest channel, and, for a hybrid's classical secret, the operand store of the job's core (R236, R249). -/
def Computed (s t : State) (j : Job) (rand : Bytes) (r : OpRes) : Prop :=
  t.job? j.id = some { j with
    phase := .computed
    status := r.st
    detail := 0
    result := r.out
    newKey := r.key
    refused := refusedInV s j rand r } ∧
  (∀ i, i ≠ j.id → t.job? i = s.job? i) ∧
  (j.lie = none → t = { s with sched := t.sched }) ∧
  ∀ k, j.lie = some k →
    t = { s with
      regs := t.regs
      sched := t.sched
      lies := t.lies
      dge := t.dge
      cores := t.cores
      free := t.free } ∧
    RegsKept s t engineRegs ∧ KeptBut s t .LIE_STATE [k] ∧ KeptBut s t .LIE_REFUSED [k] ∧ KeptBut s t .DGE_COUNT [lieChan k] ∧
    t.fget .LIE_STATE_STATE k = 1 ∧ t.fget .LIE_STATE_TI k = s.fget .LIE_STATE_TI k ∧
    (refusedInV s j rand r = true → Counted s t .LIE_REFUSED_COUNT k) ∧
    (refusedInV s j rand r = false → t.reg .LIE_REFUSED k = s.reg .LIE_REFUSED k) ∧
    (∀ e, e ≠ k → t.lieAt e = s.lieAt e) ∧ (∀ c, c ≠ lieChan k → t.dgeAt c = s.dgeAt c) ∧
    ∀ v, t.core v = { s.core v with
      mem := (t.core v).mem
      recs := (t.core v).recs
      nextGroup := (t.core v).nextGroup } ∧ (j.core ≠ some v → t.core v = s.core v)

/-- The operation starts again: the job stays bound with no random bytes, and a second catalogue time runs from now; every
other job, every register and the output are as they were (R62). -/
def StartsAgain (s t : State) (j : Job) : Prop :=
  t.job? j.id = some { j with
    rand := []
    endTime := s.time.ticks + scaled j.cost (s.unitsMhz j.die (s.coresOf j.id, j.lie)) / 500 } ∧
  (∀ i, i ≠ j.id → t.job? i = s.job? i) ∧ t = { s with sched := t.sched }

/-- A bound job that may run, whose operation is the row's and whose random bytes have been served, gets its result. -/
def JobRow.Completes (x : JobRow) : Prop :=
  ∀ (a : x.Arg) (s : State) (id : Nat) (j : Job), s.job? id = some j → s.mayRun j = true → j.oper = some (x.op a) →
    x.draw a s j ≤ j.rand.length →
    ∃ t, exec (x.cmd id) s = .next t ∧
      (if (x.res a s j (j.rand.take (x.draw a s j))).again then StartsAgain s t j
       else Computed s t j (j.rand.take (x.draw a s j)) (x.res a s j (j.rand.take (x.draw a s j))))

/-- A row that draws nothing. -/
def plainRow (A : Type) (cmd : Nat → Instr) (op : A → Oper) (res : A → State → Job → OpRes) : JobRow :=
  ⟨A, cmd, op, fun _ _ _ => 0, fun a s j _ => res a s j⟩

/-- What passes an integrity check, or VERIFY_FAIL. -/
def openedOr (x : Option Bytes) : OpRes :=
  match x with
  | some b => .ok b
  | none => .fail jVerifyFail

/-- Digests, extendable outputs and message authentication (Tables 02.5, 02.6). -/
noncomputable def digestJobs : List JobRow :=
  [plainRow Sha2 .sha2Digest .digest (fun h _ j => .ok (sha2 h j.in0)),
   plainRow Nat .sha3Digest .digest3 (fun n _ j => .ok (sha3 n j.in0)),
   plainRow Nat .shakeOutput .shake (fun c _ j => .ok (shake c j.in0 j.outLen)),
   plainRow Nat .cshakeOutput .cshake (fun c _ j =>
     .ok (if plainShake j.in1 then shake c j.in0 j.outLen else cshakeEnc c j.in0 j.in1 j.outLen)),
   plainRow Sha2 .hmacTag (fun h => .hmac h false) (fun h _ j => .ok ((hmacStored h j.keyBytes j.in0).take j.outLen)),
   plainRow Sha2 .hmacVerify (fun h => .hmac h true) (fun h _ j =>
     .verdict ((hmacStored h j.keyBytes j.in0).take j.in1.length == j.in1)),
   plainRow Nat .kmacTag (fun c => .kmac c false) (fun c _ j => .ok (kmac c j.keyBytes j.in0 j.outLen j.in1)),
   plainRow Nat .kmacVerify (fun c => .kmac c true) (fun c _ j =>
     let n := beNat (j.in1.take 2)
     let tag := j.in1.drop (2 + n)
     .verdict (kmac c j.keyBytes j.in0 tag.length ((j.in1.drop 2).take n) == tag))]

/-- AES-GCM, GMAC and key wrap (Table 02.7). -/
noncomputable def aesJobs : List JobRow :=
  [plainRow Unit .gcmEncrypt (fun _ => .gcm false) (fun _ _ j =>
     .ok (gcmEncrypt j.keyBytes (j.in0.take 12) (j.in0.drop 12) j.in1)),
   plainRow Unit .gcmDecrypt (fun _ => .gcm true) (fun _ _ j =>
     openedOr (gcmDecrypt j.keyBytes (j.in0.take 12) (j.in0.drop 12) j.in1)),
   plainRow Unit .gmacGenerate (fun _ => .gmac false) (fun _ _ j =>
     .ok ((gcmTag (aesKeys j.keyBytes) (j.in0.take 12) (j.in0.drop 12) []).take j.outLen)),
   plainRow Unit .gmacVerify (fun _ => .gmac true) (fun _ _ j =>
     .verdict ((gcmTag (aesKeys j.keyBytes) (j.in0.take 12) (j.in0.drop 12) []).take j.in1.length == j.in1)),
   plainRow Unit .keyWrap (fun _ => .wrap false false) (fun _ _ j => .ok (keyWrap j.keyBytes j.in0)),
   plainRow Unit .keyUnwrap (fun _ => .wrap false true) (fun _ _ j => openedOr (keyUnwrap j.keyBytes j.in0)),
   plainRow Unit .keyWrapPad (fun _ => .wrap true false) (fun _ _ j => .ok (keyWrapPad j.keyBytes j.in0)),
   plainRow Unit .keyUnwrapPad (fun _ => .wrap true true) (fun _ _ j => openedOr (unwrapPadded j.keyBytes j.in0))]

/-- A stream key: masks for the form that the stream table will hold, where the block is in order (R38, R291). -/
noncomputable def streamRow (cmd : Nat → Instr) (op : Oper) (next : Bool) : JobRow :=
  ⟨Unit, cmd, fun _ => op, fun _ s j => if s.blockOk j next = true then streamMaskLen j else 0,
    fun _ s j _ => if s.blockOk j next then .ok [] else .fail jInvalidParam⟩

/-- Random bytes, generation, derivation, import, export and what reads or writes the directory (Tables 02.15, 02.16). -/
noncomputable def keyJobs : List JobRow :=
  [⟨Unit, .randomBytes, fun _ => .random, fun _ _ j => j.outLen, fun _ _ _ r => .ok r⟩,
   ⟨Unit, .randomBytesPr, fun _ => .randomPr, fun _ _ j => j.outLen, fun _ _ _ r => .ok r⟩,
   ⟨Unit, .generateSecretKey, fun _ => .generate,
     fun _ _ j => ((keyTypeOf (handleType j.targetHandle)).bind KeyType.genLen).getD 0,
     fun _ _ j r => .made (symForm (handleType j.targetHandle) r) []⟩,
   ⟨Unit, .keyImport, fun _ => .importKey,
     fun _ _ j => ecDeriveDraw .x448 + ((keyTypeOf (handleType j.targetHandle)).map KeyType.importDraw).getD 0,
     fun _ _ j r => importOf j.keyBytes j.in0 j.ti (handleType j.targetHandle) (r.drop (ecDeriveDraw .x448))⟩,
   plainRow Unit .exportWrapped (fun _ => .exportKey) (fun _ _ j => .ok (keyWrapPad (j.krefs.getD 1 (0, [])).2 j.keyBytes)),
   plainRow Unit .kmacDerive (fun _ => .kdf) (fun _ _ j =>
     let l := byteAt j.in0 0
     let t := handleType j.targetHandle
     .made (symForm t (kmac 256 j.keyBytes ((j.in0.drop 1).drop l) (((keyTypeOf t).bind KeyType.genLen).getD 0)
       ((j.in0.drop 1).take l))) []),
   plainRow Unit .deleteAndZeroise (fun _ => .delete) (fun _ _ _ => .ok []),
   plainRow Unit .keyInformation (fun _ => .keyInfo) (fun _ _ _ => .ok []),
   ⟨Unit, .readPublicKey, fun _ => .readPublic,
     fun _ _ j => match keyTypeOf j.keyType with
       | some (.ec c _) => ecPublicDraw (curveAt c)
       | some (.hybrid h _) => ecPublicDraw (curveAt (hybHalves h).2.2)
       | some .importPair => ecPublicDraw .x448
       | _ => 0,
     fun _ _ j _ => .ok (((keyTypeOf j.keyType).map (fun t => t.publicOf j.keyBytes)).getD [])⟩,
   plainRow Unit .makePublicKeyResident (fun _ => .resident) (fun _ _ j =>
     match residentCheck (handleType j.targetHandle) j.in0 with
     | some st => .fail st
     | none => .made j.in0 []),
   ⟨Unit, .attestationQuote, fun _ => .quote, fun _ _ _ => idSignDraw, fun _ s j r =>
     let q := s.quoteOf j.ti j.in0 (s.replicaNow j.die)
     .ok (q ++ s.idSign q (ascii "ZV-ATTEST-QUOTE") r)⟩,
   streamRow .installNextStreamKey .streamNext true, streamRow .replaceCurrentStreamKey .streamNow false]

/-- Key generation of a lattice, hash-based or code-based set. -/
noncomputable def keygenRow (cmd : Nat → Instr) (op : Nat → Nat → Oper) (fam : Nat) : JobRow :=
  ⟨Nat, cmd, op fam, fun m _ _ => pqSeedLen fam m, fun m _ _ r =>
    if fam = 8 ∧ Config.codeFails m r = true then .restart else .made (pqPrivOf fam m r)
      (if fam = 7 || fam = 8 then sliceZ (Config.codeKeygen fam m r).1 0 (pqPub fam m) else pqPubOf fam m (pqPrivOf fam m r))⟩

/-- Encapsulation to a public key that passes its check. -/
noncomputable def encapsRow (cmd : Nat → Instr) (fam : Nat) : JobRow :=
  ⟨Nat, cmd, .kemEncaps fam, fun m _ j => if (pqPubCheck fam m (j.pubAnd j.in0 (pqPub fam m)).1).isSome then 0 else pqEncDraw fam,
   fun m _ j r =>
    let pk := (j.pubAnd j.in0 (pqPub fam m)).1
    .after (pqPubCheck fam m pk) (.made (pqEncaps fam m pk r).2 (pqEncaps fam m pk r).1)⟩

/-- Decapsulation, implicit rejection included (R58). -/
noncomputable def decapsRow (cmd : Nat → Instr) (fam : Nat) : JobRow :=
  plainRow Nat cmd (.kemDecaps fam) (fun m _ j => .made (pqDecaps fam m j.keyBytes j.in0) [])

/-- Signing, pure (0) or of a digest. -/
noncomputable def signRow (cmd : Nat → Instr) (fam : Nat) (A : Type) (ph : A → Nat) : JobRow :=
  ⟨Nat × A, cmd, fun a => .sigSign fam a.1 (ph a.2), fun a _ _ => pqSignDraw fam a.1, fun a _ j r =>
    .ok (pqSignOf fam a.1 (ph a.2) j.keyBytes j.in1 j.in0 r)⟩

/-- Verification, pure (0) or of a digest: In1 is the public key where it is passed, the signature, the context. -/
noncomputable def verifyRow (cmd : Nat → Instr) (fam : Nat) (A : Type) (ph : A → Nat) : JobRow :=
  plainRow (Nat × A) cmd (fun a => .sigVerify fam a.1 (ph a.2)) (fun a _ j =>
    let pk := (j.pubAnd j.in1 (pqPub fam a.1)).1
    let rest := (j.pubAnd j.in1 (pqPub fam a.1)).2
    .after (pqPubCheck fam a.1 pk)
      (.verdict (pqVerifyOf fam a.1 (ph a.2) pk (rest.drop (pqSig fam a.1)) j.in0 (rest.take (pqSig fam a.1)))))

/-- Verification of a stateful hash-based signature (R60, R495). -/
noncomputable def hbsRow (cmd : Nat → Instr) (w : Nat) : JobRow :=
  plainRow Unit cmd (fun _ => .hbs w) (fun _ _ j =>
    match hbsPubLen w (if sqeKey j.sqe = 0 then j.in1 else j.keyBytes) with
    | none => .fail jEncoding
    | some n =>
      let pk := (j.pubAnd j.in1 n).1
      let sig := (j.pubAnd j.in1 n).2
      if pk.length ≠ n ∨ (hbsSets w pk sig).fault = 1 then .fail jEncoding
      else .verdict ((hbsSets w pk sig).fault = 0 && hbsTypesMatch w pk sig && hbsVerify w pk j.in0 sig))

/-- The lattice, hash-based and code-based operations (Tables 02.8 to 02.11). -/
noncomputable def latticeJobs : List JobRow :=
  [keygenRow .mlKemKeygen .kemKeygen 3, encapsRow .mlKemEncaps 3, decapsRow .mlKemDecaps 3,
   keygenRow .mlDsaKeygen .sigKeygen 4, signRow .mlDsaSign 4 Unit (fun _ => 0), verifyRow .mlDsaVerify 4 Unit (fun _ => 0),
   signRow .mlDsaPrehashSign 4 Nat (· + 1), verifyRow .mlDsaPrehashVerify 4 Nat (· + 1),
   keygenRow .slhDsaKeygen .sigKeygen 5, signRow .slhDsaSign 5 Unit (fun _ => 0), verifyRow .slhDsaVerify 5 Unit (fun _ => 0),
   signRow .slhDsaPrehashSign 5 Nat (· + 1), verifyRow .slhDsaPrehashVerify 5 Nat (· + 1),
   hbsRow .lmsVerify 0, hbsRow .hssVerify 1, hbsRow .xmssVerify 2, hbsRow .xmssMtVerify 3,
   keygenRow .hqcKeygen .kemKeygen 7, encapsRow .hqcEncaps 7, decapsRow .hqcDecaps 7,
   keygenRow .mcelieceKeygen .kemKeygen 8, encapsRow .mcelieceEncaps 8, decapsRow .mcelieceDecaps 8]

/-- The RSA private operation on a message representative, which is refused in phase V when it is out of range. -/
def rsaPrivateOr (z : Nat) (key : Bytes) (v : Nat) (f : Nat → OpRes) : OpRes :=
  match repCheck (rsaParts (rsaK z) key).n v with
  | some st => .refuse st
  | none => f (rsaPrivateOp (rsaParts (rsaK z) key) v)

/-- The RSA public operation on a value, after the checks of the key and of the value. -/
def rsaPublicOr (z : Nat) (pk : Bytes) (v : Nat) (f : Nat → OpRes) : OpRes :=
  let n := beNat (pk.take (rsaK z))
  match rsaPubCheck (rsaK z) pk with
  | some st => .refuse st
  | none => match repCheck n v with
    | some st => .refuse st
    | none => f (powMod v (beNat (pk.drop (rsaK z))) n)

/-- The classical operations (Tables 02.12, 02.13). -/
noncomputable def classicalJobs : List JobRow :=
  [⟨Nat × Nat, .rsaPssSign, fun a => .rsaSign a.1 a.2 true, fun a _ _ => (rsaHashOf a.2).len + rsaPrivDraw a.1, fun a _ j r =>
     rsaPrivateOr a.1 j.keyBytes (beNat (pssEncode (rsaHashOf a.2) (rsaK a.1) j.in0 (r.take (rsaHashOf a.2).len)))
       (fun x => .ok (beBytes (rsaK a.1) x))⟩,
   plainRow (Nat × Nat) .rsaPssVerify (fun a => .rsaVerify a.1 a.2 true) (fun a _ j =>
     let p := j.pubAnd j.in1 (rsaK a.1 + 4)
     rsaPublicOr a.1 p.1 (beNat p.2) (fun x => .verdict (pssCheck (rsaHashOf a.2) (rsaK a.1) j.in0 (beBytes (rsaK a.1) x)))),
   ⟨Nat × Nat, .rsaPkcs1Sign, fun a => .rsaSign a.1 a.2 false, fun a _ _ => rsaPrivDraw a.1, fun a _ j _ =>
     rsaPrivateOr a.1 j.keyBytes (beNat (pkcs1Encode (rsaHashOf a.2) (rsaK a.1) j.in0)) (fun x => .ok (beBytes (rsaK a.1) x))⟩,
   plainRow (Nat × Nat) .rsaPkcs1Verify (fun a => .rsaVerify a.1 a.2 false) (fun a _ j =>
     let p := j.pubAnd j.in1 (rsaK a.1 + 4)
     rsaPublicOr a.1 p.1 (beNat p.2) (fun x =>
       .verdict (beBytes (rsaK a.1) x == pkcs1Encode (rsaHashOf a.2) (rsaK a.1) j.in0))),
   ⟨Nat × Nat, .rsaOaepDecrypt, fun a => .rsaDecrypt a.1 a.2, fun a _ _ => rsaPrivDraw a.1 + oaepMask (rsaHashOf a.2) (rsaK a.1),
     fun a _ j _ =>
     rsaPrivateOr a.1 j.keyBytes (beNat j.in0) (fun x =>
       match oaepDecode (rsaHashOf a.2) (rsaK a.1) (beBytes (rsaK a.1) x) with
       | some m => .ok m
       | none => .fail jEncoding)⟩,
   ⟨Nat × Nat, .rsaOaepEncrypt, fun a => .rsaEncrypt a.1 a.2, fun a _ _ => (rsaHashOf a.2).len, fun a _ j r =>
     let pk := (j.pubAnd j.in1 (rsaK a.1 + 4)).1
     rsaPublicOr a.1 pk (beNat (oaepEncode (rsaHashOf a.2) (rsaK a.1) j.in0 (r.take (rsaHashOf a.2).len)))
       (fun x => .ok (beBytes (rsaK a.1) x))⟩,
   ⟨Nat, .ecKeygen, .ecKeygen, fun c _ _ => ecKeygenDraw (curveAt c), fun c _ _ r =>
     .made (ecKeygenOf (curveAt c) r) (ecPublic (curveAt c) (ecKeygenOf (curveAt c) r))⟩,
   ⟨Nat, .ecSign, .ecSign, fun c _ j => ecSignDraw (curveAt c) j.in0.length, fun c _ j r =>
     .ok (ecSignOf (curveAt c) j.keyBytes j.in0 r)⟩,
   plainRow Nat .ecVerify .ecVerify (fun c _ j =>
     let p := j.pubAnd j.in1 (passedLen (curveAt c) j.in1.length (ecSig c))
     match ecPubCheck (curveAt c) p.1 with
     | some st => .refuse st
     | none => match ecSigCheck (curveAt c) p.2 with
       | some st => .refuse st
       | none => .verdict (ecVerifyOf (curveAt c) p.1 j.in0 p.2)),
   ⟨Nat, .ecDerive, .ecDerive, fun c _ _ => ecDeriveDraw (curveAt c), fun c _ j _ =>
     match ecPubCheck (curveAt c) j.in0 with
     | some st => .refuse st
     | none => .made (ecDeriveOf (curveAt c) j.keyBytes j.in0) []⟩]

/-- Hybrid encapsulation: an ephemeral key of the curve, a derivation, and the combined secret (R65). -/
noncomputable def hybEncapsRes (h : Nat) (j : Job) (r : Bytes) : OpRes :=
  let x := hybHalves h
  let cu := curveAt x.2.2
  let pk := (j.pubAnd j.in0 (hybPub h)).1
  match hybPubCheck h pk with
  | some st => if hybLatticeBad h pk then .fail st else .refuse st
  | none =>
    let q := pqEncaps x.1 x.2.1 (pk.take (pqPub x.1 x.2.1)) (r.take (pqEncDraw x.1))
    let e := ecKeygenOf cu (r.drop (pqEncDraw x.1))
    let d := pk.drop (pqPub x.1 x.2.1)
    .made (hybSecret h q.2 (ecDeriveOf cu e d) (ecPublic cu e) d) (q.1 ++ ecPublic cu e)

/-- Hybrid signing: both halves cover the same message (R66). -/
noncomputable def hybSignRes (h : Nat) (j : Job) (r : Bytes) : OpRes :=
  let x := hybHalves h
  .ok (pqSignOf x.1 x.2.1 0 (j.keyBytes.take (pqPriv x.1 x.2.1)) [] j.in0 (r.take (pqSignDraw x.1 x.2.1)) ++
    ecSignOf (curveAt x.2.2) (j.keyBytes.drop (pqPriv x.1 x.2.1)) (hybDigest (curveAt x.2.2) j.in0)
      (r.drop (pqSignDraw x.1 x.2.1)))

/-- Hybrid decapsulation (R65). -/
noncomputable def hybDecapsRes (h : Nat) (j : Job) : OpRes :=
  let x := hybHalves h
  let cu := curveAt x.2.2
  let ct := j.in0.drop (pqCipher x.1 x.2.1)
  let d := j.keyBytes.drop (pqPriv x.1 x.2.1)
  match ecPubCheck cu ct with
  | some st => .refuse st
  | none => .made (hybSecret h (pqDecaps x.1 x.2.1 (j.keyBytes.take (pqPriv x.1 x.2.1)) (j.in0.take (pqCipher x.1 x.2.1)))
      (ecDeriveOf cu d ct) ct (ecPublic cu d)) []

/-- Hybrid verification: OK only if both halves pass (R66). -/
noncomputable def hybVerifyRes (h : Nat) (j : Job) : OpRes :=
  let x := hybHalves h
  let cu := curveAt x.2.2
  let p := j.pubAnd j.in1 (hybPub h)
  let se := p.2.drop (pqSig x.1 x.2.1)
  match firstOf [hybPubCheck h p.1, ecSigCheck cu se] with
  | some st => if hybLatticeBad h p.1 then .fail st else .refuse st
  | none => .verdict (pqVerifyOf x.1 x.2.1 0 (p.1.take (pqPub x.1 x.2.1)) [] j.in0 (p.2.take (pqSig x.1 x.2.1)) &&
      ecVerifyOf cu (p.1.drop (pqPub x.1 x.2.1)) (hybDigest cu j.in0) se)

/-- The hybrid combinations (Table 02.14): their first, second and third opcodes. -/
noncomputable def hybridJobs : List JobRow :=
  [⟨Nat, .hybridKeygen, .hybKeygen,
     fun h _ _ => pqSeedLen (hybHalves h).1 (hybHalves h).2.1 + ecKeygenDraw (curveAt (hybHalves h).2.2),
     fun h _ _ r => .made (hybKey h r) ((KeyType.hybrid h false).publicOf (hybKey h r))⟩,
   ⟨Nat, .hybridEncapsOrSign, .hybFirst,
     fun h _ j => let cu := curveAt (hybHalves h).2.2
       if hybKem h then pqEncDraw (hybHalves h).1 + ecKeygenDraw cu + ecDeriveDraw cu
       else pqSignDraw (hybHalves h).1 (hybHalves h).2.1 + ecSignDraw cu (hybDigest cu j.in0).length,
     fun h _ j r => if hybKem h then hybEncapsRes h j r else hybSignRes h j r⟩,
   ⟨Nat, .hybridDecapsOrVerify, .hybSecond,
     fun h _ _ => if hybKem h then ecDeriveDraw (curveAt (hybHalves h).2.2) else 0,
     fun h _ j _ => if hybKem h then hybDecapsRes h j else hybVerifyRes h j⟩]

end Sys2Proof.Claims
end

