-- ==== Sys2Proof/Safety/Sched.lean ====
section
/-!
DEFINITION. Rows of acceptance, dispatch, pre-emption, completion, waits, balancing and HOLD (R72, R114 to R117, R123,
R134 to R138, R142 to R161, R245, R246, R391, R495).
-/

namespace Sys2Proof.Claims

open Sys2Proof.Machine

/-- A CQE of this status, DETAIL and length for a job (Table 04.5): its tag, ring and entry index. -/
def CqeOf (c : Bytes) (j : Job) (st detail len : Nat) : Prop :=
  c.length = 32 ∧ leAt c 0 2 = st % 2 ^ 16 ∧ leAt c 4 4 = sqeTag j.sqe ∧ leAt c 8 4 = len % 2 ^ 32 ∧ leAt c 12 2 = j.ring % 2 ^ 16 ∧
    leAt c 24 4 = j.sqIndex % 2 ^ 32 ∧ leAt c 28 4 = detail % 2 ^ 32

/-- The job is gone, and its CQE stands in its CQ or is held there (R116, R117). -/
def Ended (s t : State) (j : Job) (st detail len : Nat) : Prop :=
  let cq := s.jobCq j
  t.sched.jobs = s.sched.jobs.filter (fun x => x.id != j.id) ∧
    ∃ c, CqeOf c j st detail len ∧
      ((s.ringx cq).held = [] → 0 < s.ringFree cq → (t.ringx cq).held = [] ∧ t.didx cq = (s.didx cq + 1) % 2 ^ 32 ∧
        ∀ p, s.pasidOf (s.ringOwner cq) = some p → ∃ l r, Sent s t (l ++ .memWrite (some p) (some (s.ringOwner cq)) (some cq)
          ((s.reg .RING_BASE cq).toNat + s.didx cq % s.ringSize cq * 32) c :: r)) ∧
      (((s.ringx cq).held ≠ [] ∨ s.ringFree cq = 0) → t.didx cq = s.didx cq ∧
        ∃ d, (t.ringx cq).held = (s.ringx cq).held ++ [⟨c, j.ring, d⟩])

/-- The CQ of a job is a consumer ring. -/
def CqFits (s : State) (j : Job) : Prop := s.ringFetched (s.jobCq j) = false

/-- The record that acceptance makes of the first prefetched entry of a ring. -/
def accepted (s : State) (r : Nat) (p : Prefetched) : Job := newJob s.sched.nextJob (s.ringOwner r) r p.idx p.sqe

/-- The accepted head of ring `r` has passed one entry, which has left the prefetch (R114). -/
def Passed (s t : State) (r : Nat) (p : Prefetched) : Prop :=
  (t.ringx r).head = ((s.ringx r).head + 1) % 2 ^ 32 ∧ t.sched.prefetch = s.sched.prefetch.erase p ∧
    t.sched.nextJob = s.sched.nextJob + 1

/-- A job after the reads of R495: its In1 list, and its catalogue time as acceptance knows it. -/
def readJob (s : State) (j : Job) (lead : Bytes) (list : Option (List (Nat × Nat))) : Job :=
  { j with
    list1 := list
    cost := s.acceptCost j lead }

/-- Acceptance: a check fails, no die meets the deadline, or the job enters a ready list. -/
noncomputable def acceptRows : List Row :=
  [{ Arg := Nat × LeadBytes × Nat × Prefetched
     cmd := fun a => .sqeAccept a.1 a.2.1 a.2.2.1
     ok := fun s a => s.prefetched a.1 = some a.2.2.2 ∧ s.mayAccept a.1 = true ∧ (s.acceptChecks a.1 a.2.2.2.sqe).isSome = true ∧
       CqFits s (accepted s a.1 a.2.2.2)
     post := fun s a t => Passed s t a.1 a.2.2.2 ∧
       ∀ c, s.acceptChecks a.1 a.2.2.2.sqe = some c → Ended s t (accepted s a.1 a.2.2.2) c.1 c.2 0 },
   { Arg := Nat × LeadBytes × Nat × Prefetched × Option (List (Nat × Nat))
     cmd := fun a => .sqeAccept a.1 a.2.1 a.2.2.1
     ok := fun s a =>
       let j := accepted s a.1 a.2.2.2.1
       s.prefetched a.1 = some a.2.2.2.1 ∧ s.mayAccept a.1 = true ∧ s.acceptChecks a.1 a.2.2.2.1.sqe = none ∧ CqFits s j ∧
         s.leadRead j a.2.1.list a.2.1.front a.2.2.1 = .ok a.2.2.2.2 ∧ s.drops j = true ∧
         s.canMeet (readJob s j a.2.1.front a.2.2.2.2) = false
     post := fun s a t => Passed s t a.1 a.2.2.2.1 ∧ Ended s t (accepted s a.1 a.2.2.2.1) jDeadlineMissed 0 0 },
   { Arg := (Nat × LeadBytes × Nat × Prefetched × Option (List (Nat × Nat))) × Nat
     cmd := fun a => .sqeAccept a.1.1 a.1.2.1 a.1.2.2.1
     ok := fun s x =>
       let a := x.1
       let j := accepted s a.1 a.2.2.2.1
       let k := readJob s j a.2.1.front a.2.2.2.2
       s.prefetched a.1 = some a.2.2.2.1 ∧ s.mayAccept a.1 = true ∧ s.acceptChecks a.1 a.2.2.2.1.sqe = none ∧
         s.leadRead j a.2.1.list a.2.1.front a.2.2.1 = .ok a.2.2.2.2 ∧ (s.drops j = false ∨ s.canMeet k = true) ∧
         (s.placeOrder k).find? s.entryFree = some x.2
     post := fun s x t =>
       let a := x.1
       let j := accepted s a.1 a.2.2.2.1
       Passed s t a.1 a.2.2.2.1 ∧ t.regs = s.regs ∧ (j.hbs? = none → t.out = s.out) ∧
         t.sched.jobs = s.sched.jobs ++ [{ readJob s j a.2.1.front a.2.2.2.2 with die := x.2 }] },
   { Arg := (Nat × LeadBytes × Nat × Prefetched) × LeadRead
     cmd := fun a => .sqeAccept a.1.1 a.1.2.1 a.1.2.2.1
     ok := fun s x =>
       let a := x.1
       let j := accepted s a.1 a.2.2.2
       s.prefetched a.1 = some a.2.2.2 ∧ s.mayAccept a.1 = true ∧ s.acceptChecks a.1 a.2.2.2.sqe = none ∧ CqFits s j ∧
         s.leadRead j a.2.1.list a.2.1.front a.2.2.1 = x.2 ∧ ∀ l, x.2 ≠ .ok l
     post := fun s x t =>
       let a := x.1
       let j := accepted s a.1 a.2.2.2
       (x.2 = .wait → t = s) ∧ (∀ st d, x.2 = .refuse st d → Passed s t a.1 a.2.2.2 ∧ Ended s t j st d 0) ∧
         (∀ d y, x.2 = .window d y → Passed s t a.1 a.2.2.2 ∧ Ended s t j jBufferFault d 0 ∧ Records s t 0x6011 ∧
           Counted s t .TI_BUF_FAULTS_COUNT j.ti) ∧
         (∀ d y, x.2 = .failed d y → Passed s t a.1 a.2.2.2 ∧ Ended s t j jBufferFault d 0 ∧ Records s t 0x6012 ∧
           Counted s t .TI_BUF_FAULTS_COUNT j.ti) }]

/-- The die's state as a pass of its dispatcher begins: reservations have grown and a cluster may drain (R148, R163). -/
def passStart (s : State) (d : Nat) : State := (s.growAll d).setDrain d

/-- The only ready job of a die, and the units that best_core gives it. -/
def OneReady (s : State) (d : Nat) (j : Job) (p : List Nat × Option Nat) : Prop :=
  d < s.dies ∧ s.flag .DEV_READY_MAP_DIE d = true ∧ s.mode ≠ modeLockdown ∧ s.readyJobs d = [j] ∧ j.cls < 4 ∧ j.phase = .ready ∧
    (passStart s d).blocked j = false ∧ (passStart s d).bestCore j d = some p

/-- A job of operation `o` with plain buffers passes the checks of R70 with this data. -/
def ChecksPass (s : State) (j : Job) (o : Oper) (in0 in1 : Bytes) : Prop :=
  let n := fun i => sqeLen j.sqe i
  let b : Bufs := ⟨plainSegs (sqeAddr j.sqe 0) (n 0), plainSegs (sqeAddr j.sqe 1) (n 1), plainSegs (sqeAddr j.sqe 2) (n 2)⟩
  j.oper = some o ∧ (∀ i e, o = .kernel i e → (s.kernelEntry i e).isSome = true) ∧
    (∀ i, i < 3 → sqeList j.sqe i = false) ∧ (s.keysLocked = true → s.jobSecret j = true → o = .quote) ∧
    s.check2 j o (n 0) (n 1) (n 2) = none ∧ s.badBuffer j.ti b = none ∧ in0.length = segsLen b.segs0 ∧ in1.length = segsLen b.segs1 ∧
    s.checks { j with
      in0 := in0
      in1 := in1
      outSegs := b.segsO
      outLen := segsLen b.segsO } o (segsLen b.segsO) = none ∧ segsLen b.segs0 = n 0 ∧ segsLen b.segs1 = n 1 ∧ segsLen b.segsO = n 2

/-- The dispatcher, on a die with one ready job. -/
noncomputable def dispatchRows : List Row :=
  [{ Arg := Nat × Job × Oper × (List Nat × Option Nat) × Bytes × Bytes
     cmd := fun a => .dispatchPass a.1 [⟨a.2.1.id, [], [], [], a.2.2.2.2.1, a.2.2.2.2.2⟩]
     ok := fun s a =>
       let u := passStart s a.1
       OneReady s a.1 a.2.1 a.2.2.2.1 ∧ (s.dmaOpen = true ∨ (a.2.2.2.2.1 = [] ∧ a.2.2.2.2.2 = [])) ∧
         u.inTime { a.2.1 with cost := u.readCost a.2.1 [⟨a.2.1.id, [], [], [], a.2.2.2.2.1, a.2.2.2.2.2⟩] }
           (u.unitsMhz a.1 a.2.2.2.1) = true ∧
         ChecksPass u a.2.1 a.2.2.1 a.2.2.2.2.1 a.2.2.2.2.2
     post := fun s a t =>
       let j := a.2.1
       let key := sqeKey j.sqe
       ∃ k, t.job? j.id = some k ∧ k.phase = .bound ∧ k.core = a.2.2.2.1.1.head? ∧ k.lie = a.2.2.2.1.2 ∧ k.attempts = j.attempts + 1 ∧
         k.in0 = a.2.2.2.2.1 ∧ k.in1 = a.2.2.2.2.2 ∧ k.boundAt = s.time.ticks ∧
         k.due = (if s.otp.f2 then ((passStart s a.1).keysDoubled j).map held else []) ++ (passStart s a.1).keysDue j ∧
         (key ≠ 0 → k.keyBytes = (s.slot (handleTi key) (handleSlot key)).stored) ∧
         (∀ v ∈ a.2.2.2.1.1, (t.core v).job = some j.id ∧ t.fget .VC_STATE_STATE v = 1) ∧
         (∀ e, a.2.2.2.1.2 = some e → t.fget .LIE_STATE_TI_VALID e = 1 ∧ (a.2.2.1.lieUndrawn = true → t.fget .LIE_STATE_STATE e = 1)) ∧
         (a.2.2.1.makesKey = true → (t.slot j.ti (handleSlot j.targetHandle)).state = .pending ∧
           (t.slot j.ti (handleSlot j.targetHandle)).holder = j.id) },
   { Arg := Nat × Job × (List Nat × Option Nat)
     cmd := fun a => .dispatchPass a.1 []
     ok := fun s a =>
       let u := passStart s a.1
       OneReady s a.1 a.2.1 a.2.2 ∧ u.inTime { a.2.1 with cost := u.readCost a.2.1 [] } (u.unitsMhz a.1 a.2.2) = false ∧
         u.drops a.2.1 = true ∧ a.2.1.attempts = 0 ∧
         u.offerDie a.2.1 = none ∧ CqFits s a.2.1
     post := fun s a t => Ended s t a.2.1 jDeadlineMissed 0 0 }]

/-- A job returns to its ready list for another attempt (R138). -/
def Replayed (t : State) (j : Job) : Prop :=
  ∃ k, t.job? j.id = some k ∧ k.phase = .ready ∧ k.attempts = j.attempts ∧ k.core = none ∧ k.lie = none ∧ k.result = [] ∧
    k.due = [] ∧ k.left = none ∧ k.rand = []

/-- What a result without an effect on keys or stream tables does when it is released (R72, R134, R136). -/
def Released (s t : State) (j : Job) (o : Oper) (pass : Bool) : Prop :=
  (j.status ≠ jOk → Ended s t j j.status j.detail 0) ∧
  (j.status = jOk → (o.checked j.keyType = false ∨ pass = true) → Ended s t j jOk 0 j.result.length) ∧
  (j.status = jOk → o.checked j.keyType = true → pass = false → j.mayReplay = true → Replayed t j) ∧
  (j.status = jOk → o.checked j.keyType = true → pass = false → j.mayReplay = false →
    ∃ seq, Ended s t j jMachineCheck seq 0)

/-- An operation whose completion changes no slot and no context. -/
def NoEffect (j : Job) (o : Oper) : Prop :=
  j.newKey = none ∧ o ≠ .delete ∧ o ≠ .keyInfo ∧ o ≠ .streamNext ∧ o ≠ .streamNow

/-- The key that a job creates stands in its slot (R45, R318). -/
def KeyMade (s t : State) (j : Job) (k : Bytes) : Prop :=
  let h := j.targetHandle
  let x := t.slot j.ti (handleSlot h)
  x.state = .occupied ∧ x.stored = k ∧ x.typ = handleType h ∧ x.usage = sqeUsage j.sqe ∧
    x.gen = nextGen (s.slot j.ti (handleSlot h)).gen

/-- Out holds these bytes, where it is one segment (R126): a write to it is among what the package sends. -/
def OutWritten (s t : State) (j : Job) (b : Bytes) : Prop :=
  ∀ p a n, s.pasidOf j.ti = some p → j.outSegs = [(a, n)] →
    ∃ l r, Sent s t (l ++ .memWrite (some p) (some j.ti) (some j.ring) a (b.take n) :: r)

/-- The information of the named slot is the job's result (R50, R67): the 16 bytes of KEY_INFO. -/
def KeyTold (s t : State) (j : Job) : Prop :=
  let b := s.keyInfoBytes j.ti (handleSlot (sqeKey j.sqe))
  b.length = 16 ∧ Ended s t j jOk 0 16 ∧ OutWritten s t j b ∧ t.slots = s.slots

/-- A next key is promoted as it is installed: its time is past, or a transmit context's is zero (R292). -/
def promotesNow (s : State) (j : Job) : Bool :=
  let n := blockCtx j.in0
  let due := blockTime j.in0
  (due != 0 && decide (due ≤ s.replicaNow (ctxDie n))) || (due == 0 && (s.stream n).dir == 1)

/-- The job's key stands in the named context (R291, R292): as next key with its promotion time, promoted at once where
that is due, or as current key. Every other context is as it was; event 0x7008 and the CQE follow. -/
def KeyInstalled (s t : State) (j : Job) (next : Bool) : Prop :=
  let n := blockCtx j.in0
  let x := s.stream n
  let k := (blockId j.in0, streamForm x.alg j.keyBytes)
  Ended s t j jOk 0 0 ∧ Records s t 0x7008 ∧ (∀ m, m ≠ n → t.stream m = s.stream m) ∧
    (next = false → t.stream n = { x with cur := some k }) ∧
    (next = true → promotesNow s j = false → t.stream n = { x with next := some (k.1, k.2, blockTime j.in0) }) ∧
    (next = true → promotesNow s j = true → t.stream n = { x.count cntPromoted with
      cur := some k
      next := none } ∧ Records s t 0x7007)

/-- A job whose result stands and that waits for no engine. -/
def Ready (s : State) (id : Nat) (j : Job) : Prop :=
  s.job? id = some j ∧ j.phase = .computed ∧ j.lie = none ∧ CqFits s j

/-- Completion of a job, and of an engine's half. -/
noncomputable def completionRows : List Row :=
  [{ Arg := (Nat × Bool × Nat) × Job × Oper
     cmd := fun a => .jobCompletion a.1.1 a.1.2.1 a.1.2.2
     ok := fun s a => Ready s a.1.1 a.2.1 ∧ a.2.1.oper = some a.2.2 ∧ (a.2.1.status = jOk → NoEffect a.2.1 a.2.2)
     post := fun s a t => Released (s.elapse a.1.2.2) t a.2.1 a.2.2 a.1.2.1 },
   { Arg := (Nat × Nat) × Job × Oper × Bytes
     cmd := fun a => .jobCompletion a.1.1 true a.1.2
     ok := fun s a => Ready s a.1.1 a.2.1 ∧ a.2.1.oper = some a.2.2.1 ∧ a.2.1.status = jOk ∧ a.2.1.newKey = some a.2.2.2 ∧
       a.2.2.1.makesKey = true ∧ s.mirrors = false ∧ handleSlot a.2.1.targetHandle ≠ importSlot
     post := fun s a t =>
       let j := a.2.1
       let th := j.targetHandle
       KeyMade s t j a.2.2.2 ∧ Ended (s.elapse a.1.2) t j jOk 0 (8 + j.result.length) ∧
         t.fget .TI_KEY_USED_VALUE j.ti = (((t.tiSlots j.ti).map (·.2.counted)).sum) % 2 ^ 32 ∧
         (∀ q, q ≠ handleSlot th → t.slot j.ti q = s.slot j.ti q) },
   { Arg := (Nat × Bool × Nat) × Job
     cmd := fun a => .jobCompletion a.1.1 a.1.2.1 a.1.2.2
     ok := fun s a => Ready s a.1.1 a.2 ∧ a.2.oper = some .delete ∧ a.2.status = jOk ∧ s.mirrors = false
     post := fun s a t =>
       let j := a.2
       let key := sqeKey j.sqe
       let u := s.elapse a.1.2.2
       if s.handleOk j.ti key then t.slot j.ti (handleSlot key) = { KeySlot.blank with
           gen := (s.slot j.ti (handleSlot key)).gen } ∧ Ended u t j jOk 0 0
       else Ended u t j jKeyHandle 0 0 },
   { Arg := (Nat × Bool × Nat) × Job
     cmd := fun a => .jobCompletion a.1.1 a.1.2.1 a.1.2.2
     ok := fun s a => Ready s a.1.1 a.2 ∧ a.2.oper = some .keyInfo ∧ a.2.status = jOk
     post := fun s a t =>
       let u := s.elapse a.1.2.2
       if s.handleOk a.2.ti (sqeKey a.2.sqe) then KeyTold u t a.2 else Ended u t a.2 jKeyHandle 0 0 },
   { Arg := (Nat × Bool × Nat) × Job × Bool
     cmd := fun a => .jobCompletion a.1.1 a.1.2.1 a.1.2.2
     ok := fun s a => Ready s a.1.1 a.2.1 ∧ a.2.1.oper = some (if a.2.2 then .streamNext else .streamNow) ∧ a.2.1.status = jOk ∧
       s.mirrors = false
     post := fun s a t =>
       let u := s.elapse a.1.2.2
       if s.blockOk a.2.1 a.2.2 then KeyInstalled u t a.2.1 a.2.2 else Ended u t a.2.1 jInvalidParam 0 0 ∧ t.streams = s.streams },
   { Arg := (Nat × Bool × Nat) × Job × Oper
     cmd := fun a => .lieCompletion a.1.1 a.1.2.1 a.1.2.2
     ok := fun s a =>
       let j := a.2.1
       s.sched.jobs.find? (fun x => x.lie == some a.1.1 && x.phase == .computed) = some j ∧ s.job? j.id = some j ∧
         256 + a.1.1 ∉ s.tap.halted ∧ j.core = none ∧ j.oper = some a.2.2 ∧ CqFits s j ∧ (j.status = jOk → NoEffect j a.2.2) ∧
         ((j.status = jOk ∨ j.refused = false) → a.2.2.checked j.keyType = true →
           a.1.2.1 = true ∧ (s.lieAt a.1.1).good = true)
     post := fun s a t =>
       let u := s.elapse a.1.2.2
       Released u t a.2.1 a.2.2 true ∧
         (a.2.1.refused = false → Counted u t .LIE_JOBS_COUNT a.1.1) ∧ (a.2.1.refused = true → t.reg .LIE_JOBS a.1.1 = s.reg .LIE_JOBS a.1.1) ∧
         (s.fget .LIE_STATE_STATE a.1.1 = 1 → t.fget .LIE_STATE_STATE a.1.1 = 2 ∧ t.fget .LIE_STATE_TI_VALID a.1.1 = 0) }]

/-- A core whose share groups were refreshed (R192): the other registers and every tag that belongs to no set stand, the
sets of the scalar registers keep their tags, and a Boolean set keeps its value. -/
def Refreshed (c d : VCore) : Prop :=
  d = { c with
    v := d.v
    vt := d.vt
    sc := d.sc
    st := d.st } ∧
    (∀ r, (∀ e ∈ c.vSets, r < e.1 ∨ e.1 + e.2 ≤ r) → d.vreg r = c.vreg r ∧ d.vtag r = c.vtag r) ∧
    (∀ r, (∀ e ∈ c.sSets, r < e.1 ∨ e.1 + e.2 ≤ r) → d.sreg r = c.sreg r) ∧ (∀ r, d.stag r = c.stag r) ∧
    ∀ e ∈ c.vSets, ∀ w q, w ≤ 3 → sparseGet (0, 0, 0) c.doms (c.vtag e.1).gid = (0, w, q) →
      ((regRange e.1 e.2).map d.vreg).foldl (· ^^^ ·) 0 = ((regRange e.1 e.2).map c.vreg).foldl (· ^^^ ·) 0

/-- Core `v` reads a good control-store word and has the masks of a refresh of core `c` (R187, R214). -/
def MayRefresh (s : State) (v : Nat) (c : VCore) : Prop :=
  s.ctlBits v (s.seqOf v).addr = 0 ∧ c.refreshBits ≤ s.fget .VC_MGEN_STAT_FILL v

/-- R50, R67: a bound job of opcode 0x0C08 whose handle names a key runs, and its completion tells what the slot holds. -/
def KeyInfoTakesEffect : Prop :=
  ∀ (s : State) (id : Nat) (j : Job) (pass : Bool) (dt : Nat), s.job? id = some j → s.mayRun j = true → j.oper = some .keyInfo →
    j.lie = none → CqFits s j → s.handleOk j.ti (sqeKey j.sqe) = true →
    ∃ t u, exec (.keyInformation id) s = .next t ∧ Computed s t j [] (.ok []) ∧
      exec (.jobCompletion id pass dt) t = .next u ∧ KeyTold (s.elapse dt) u j

/-- R38, R291: a bound job of opcode 0x1001 or 0x1002 whose block is in order and whose masks are drawn runs, and its
completion installs the key. -/
def StreamKeyTakesEffect (next : Bool) : Prop :=
  ∀ (s : State) (id : Nat) (j : Job) (pass : Bool) (dt : Nat), s.job? id = some j → s.mayRun j = true →
    j.oper = some (if next then .streamNext else .streamNow) → j.lie = none → CqFits s j → s.mirrors = false →
    s.blockOk j next = true → streamMaskLen j ≤ j.rand.length →
    ∃ t u, exec (if next then .installNextStreamKey id else .replaceCurrentStreamKey id) s = .next t ∧
      Computed s t j (j.rand.take (streamMaskLen j)) (.ok []) ∧
      exec (.jobCompletion id pass dt) t = .next u ∧ KeyInstalled (s.elapse dt) u j next

/-- Key arrival, pre-emption and restoring, time-outs, the balancer, clocks and HOLD. -/
noncomputable def schedRows : List Row :=
  [{ Arg := (Nat × Nat) × Job
     cmd := fun a => .keyArrival a.1.1 a.1.2
     ok := fun s a => s.job? a.1.1 = some a.2 ∧ a.2.phase = .bound ∧ a.2.keyArrived = false ∧ a.2.keyHeld = false ∧
       s.firstSent a.2 = true
     post := fun s a t =>
       let u := s.elapse a.1.2
       (s.keysLocked = true → t = u) ∧
         (s.keysLocked = false → t.job? a.1.1 = some { a.2 with due := a.2.due.drop 1 } ∧ t = { u with sched := t.sched } ∧
           ∀ i, i ≠ a.1.1 → t.job? i = s.job? i) },
   { Arg := (Nat × Nat) × Job × Nat × Nat
     cmd := fun a => .jobPreemptSave a.1.1 a.1.2
     ok := fun s a =>
       let j := a.2.1
       let v := a.2.2.1
       let c := s.core v
       s.job? a.1.1 = some j ∧ j.phase = .bound ∧ j.core = some v ∧ c.preempt = true ∧ s.preemptible j = true ∧
         (s.fget .VC_STATE_STATE v = 2 ∨ (s.fget .VC_STATE_STATE v = 1 ∧ c.kernel = 0xFF)) ∧ a.2.2.2 < 4 ∧
         (sparseGet VCore.idle s.saves (v / 8 * 4 + a.2.2.2)).job = none ∧
         (∀ i, i < a.2.2.2 → (sparseGet VCore.idle s.saves (v / 8 * 4 + i)).job ≠ none) ∧ MayRefresh s v c
     post := fun s a t =>
       let v := a.2.2.1
       (∃ d, Refreshed { s.core v with wait := none } d ∧
         sparseGet VCore.idle t.saves (v / 8 * 4 + a.2.2.2) = { s.withSeq v d with
           preempt := false
           forJob := none
           s2 := []
           kk := []
           aes := AesUnit.empty }) ∧
         t.fget .VC_MGEN_STAT_FILL v = s.fget .VC_MGEN_STAT_FILL v - (s.core v).refreshBits ∧
         t.core v = VCore.idle ∧ t.fget .VC_STATE_STATE v = 0 ∧
         ∃ k, t.job? a.1.1 = some k ∧ k.phase = .saved ∧ k.core = none ∧ k.attempts = a.2.1.attempts },
   { Arg := (Nat × Nat × Nat) × Job × (Nat × VCore)
     cmd := fun a => .jobRestore a.1.1 a.1.2.1 a.1.2.2
     ok := fun s a =>
       s.job? a.1.1 = some a.2.1 ∧ s.saves.find? (fun e => e.2.job == some a.1.1) = some a.2.2 ∧
         s.fget .VC_STATE_STATE a.1.2.1 = 3 ∧ (s.core a.1.2.1).job = some a.1.1 ∧ a.2.2.1 / 4 = a.1.2.1 / 8 ∧ MayRefresh s a.1.2.1 a.2.2.2
     post := fun s a t =>
       (∃ d, Refreshed a.2.2.2 d ∧
         t.core a.1.2.1 = { d with
           sinceYield := 0
           preempt := false } ∧
         (d.kernel = 0xFF → (t.seqOf a.1.2.1).addr = d.pc ∧ (t.seqOf a.1.2.1).stack = d.stack)) ∧
         t.fget .VC_MGEN_STAT_FILL a.1.2.1 = s.fget .VC_MGEN_STAT_FILL a.1.2.1 - a.2.2.2.refreshBits ∧ t.fget .VC_STATE_STATE a.1.2.1 = 1 ∧
         t.job? a.1.1 = some { a.2.1 with core := some a.1.2.1 } ∧ (∀ e ∈ t.saves, e.2.job ≠ some a.1.1) ∧
         t.mode = s.mode },
   { Arg := (Nat × Nat) × Job × (Nat × Nat)
     cmd := fun a => .waitTimeout a.1.1 a.1.2
     ok := fun s a => s.job? a.1.1 = some a.2.1 ∧ s.waitOf a.2.1 = some a.2.2 ∧ a.2.2.2 < (s.elapse a.1.2).since (s.waitFrom a.2.1) ∧
       CqFits s a.2.1
     post := fun s a t =>
       let u := s.elapse a.1.2
       (a.2.1.past = false → Ended u t a.2.1 jWaitTimeout 0 0) ∧
         (a.2.1.past = true → Ended u t a.2.1 a.2.1.status a.2.1.detail 0) ∧ Records u t 0x5002 ∧
         ∀ k, a.2.2.1 = 3 → a.2.1.lie = some k → Records u t 0x9003 ∧
           t.fget .LIE_STATE_STATE k =
             if (sparseGet LieX.idle s.lies k).timeouts.any (fun x => decide (u.since x < 1000000000)) then 4 else 0 },
   { Arg := Nat × Nat × Nat × Job
     cmd := fun a => .balancerPeriod a.1
     ok := fun s a =>
       let lo := a.2.1
       let hi := a.2.2.1
       let fit := fun d => d < s.dies ∧ s.flag .DEV_READY_MAP_DIE d = true
       s.sched.balOn = true ∧ s.sched.balPeriod * 1000 ≤ a.1 ∧ s.sched.balMax = 1 ∧ fit lo ∧ fit hi ∧
         (∀ d, d < s.dies → fit d → (s.loadPs lo < s.loadPs d ∨ (s.loadPs d = s.loadPs lo ∧ lo ≤ d)) ∧
           (s.loadPs d < s.loadPs hi ∨ (s.loadPs d = s.loadPs hi ∧ hi ≤ d))) ∧
         s.loadPs lo + s.sched.balThresh * 1000000 < s.loadPs hi ∧ s.entryFree lo = true ∧ s.tailJob hi lo = some a.2.2.2
     post := fun s a t =>
       t.sched.jobs = s.sched.jobs.map (fun x => if x.id = a.2.2.2.id then { a.2.2.2 with die := a.2.1 } else x) ∧
         ∀ d, d < s.dies → t.fget .DIE_SCHED_LOAD_LOAD_NS d = min (2 ^ 32 - 1) (s.loadPs d / 1000) },
   { Arg := Nat
     cmd := .balancerPeriod
     ok := fun s dt => s.sched.balOn = true ∧ s.sched.balPeriod * 1000 ≤ dt ∧
       ∀ a b, a < s.dies → b < s.dies → s.loadPs a ≤ s.loadPs b + s.sched.balThresh * 1000000
     post := fun s _ t => t.sched = s.sched ∧ RegsKept s t [.DIE_SCHED_LOAD] ∧
       ∀ d, d < s.dies → t.fget .DIE_SCHED_LOAD_LOAD_NS d = min (2 ^ 32 - 1) (s.loadPs d / 1000) },
   { Arg := Nat × Nat × Nat
     cmd := fun a => .clockMeasurementWindow a.1 a.2.1 a.2.2
     ok := fun s a => a.1 < 16 * s.dies ∧ 10000 ≤ a.2.2
     post := fun s a t =>
       let slow := decide (a.2.1 * 100 < s.setMhz (a.1 / 16) * 95)
       t.fget .DIE_VC_CLOCK_MHZ a.1 = min 0xFFF a.2.1 ∧ t.flag .DIE_VC_CLOCK_SLOW a.1 = slow ∧ KeptBut s t .DIE_VC_CLOCK [a.1] ∧
         RegsKept s t [.DIE_VC_CLOCK, .EVR_LOST] ∧ t.sched = s.sched ∧
         (slow = s.flag .DIE_VC_CLOCK_SLOW a.1 → t.evr = s.evr) ∧
         (slow ≠ s.flag .DIE_VC_CLOCK_SLOW a.1 → Raised (s.elapse a.2.2) t 0x5006 a.1 a.2.1 (s.setMhz (a.1 / 16))) },
   { Arg := Nat × Nat × Nat
     cmd := fun a => .clockMeasurementWindow (128 + a.1) a.2.1 a.2.2
     ok := fun s a => a.1 < 2 * s.dies ∧ 10000 ≤ a.2.2
     post := fun s a t => t.regs = s.regs ∧ (t.lieAt a.1).mhz = some (2 * a.2.1) ∧ t.sched = s.sched ∧ t.evr = s.evr ∧
       ∀ k, k ≠ a.1 → t.lieAt k = s.lieAt k },
   { Arg := Nat × Nat
     cmd := fun a => .holdEnd a.1
     ok := fun s a => s.hold = true ∧ s.prot.clearAt = some a.2 ∧ 100000 ≤ (s.elapse a.1).since a.2
     post := fun s a t =>
       let u := s.elapse a.1
       t.hold = false ∧ (∀ d, d < s.dies → t.fget .DIE_SCHED_HOLD_HOLD d = 0) ∧
         t.fget .DEV_HOLD_LAST_US 0 = min 0xFFFF (u.since s.prot.holdAt / 1000) ∧
         Raised u t 0x1005 0 (u.since s.prot.holdAt / 1000) 0 ∧ t.sched = s.sched ∧ t.mode = s.mode }]

end Sys2Proof.Claims
end

