-- ==== Sys2Proof/Safety/Frames.lean ====
section
/-!
DEFINITION. Rows of the frame path: links, reception, verdicts, delivery, promotion, and the way of a frame out
(R276 to R311).
-/

namespace Sys2Proof.Claims

open Sys2Proof.Machine

/-- A wrapping counter has counted `n` more. -/
def Wrapped (s t : State) (f : Fld) (i n : Nat) : Prop := t.fget f i = (s.fget f i + n) % 2 ^ (f.hi + 1 - f.lo)

/-- Only registers have changed, and only these. -/
def RegsOnly (s t : State) (ks : List RegKind) : Prop := t = { s with regs := t.regs } ∧ RegsKept s t ks

/-- The length that R279 admits, FCS included. -/
def LengthOk (s : State) (p : Nat) (data : Bytes) : Prop :=
  64 ≤ data.length + 4 ∧ data.length + 4 ≤ (if s.flag .PORT_CFG_JUMBO p then 9216 else 1522)

/-- A good frame of a frame port while frame service runs, which is no pause frame (R279, R305). -/
def FrameArrives (s : State) (p : Nat) (data : Bytes) : Prop :=
  s.portUp p = true ∧ LengthOk s p data ∧ s.portRole p ≠ 2 ∧ pauseQuanta data = none ∧ s.mode ∈ [3, 4]

/-- The header of a frame and its class (R283, Table 10.3). -/
def frameClass (data : Bytes) : Nat := ethClass (ethHead data).typ

/-- The context that receives a frame, where one does (R287). -/
def frameContext (s : State) (p : Nat) (data : Bytes) : Option Nat :=
  s.lookup p (frameClass data) (sliceZ data 0 6) (beNat (sliceZ data (ethHead data).off 2)) (ethHead data).vid

/-- The frame without a recognised redundancy trailer (R281). -/
def frameBody (s : State) (p : Nat) (data : Bytes) : Bytes :=
  if s.flag .PORT_CFG_PAIRED p = true ∧ (rctLan data (ethHead data).off).isSome = true then data.take (data.length - 6) else data

/-- Room in the frame buffer, the port's own part first (R304). -/
def BufferRoom (s : State) (p : Nat) (b : Bytes) : Prop :=
  b.length - min b.length (131072 - s.ownUsed p) ≤ 2097152 - s.sharedUsed (portDie p)

/-- The ingress time of a frame (R282). -/
def ingressTime (s : State) (p lineNs : Nat) : Nat :=
  unsignedOf 64 ((s.replicaNow (portDie p) : Int) - (lineNs : Int) + s.tsAdj .PORT_TS_RX_ADJ_ADJ_NS p)

/-- Reception of a frame. -/
noncomputable def receiveRows : List Row :=
  [{ Arg := Nat × Bool × Nat
     cmd := fun a => .linkChange a.1 a.2.1 a.2.2
     ok := fun s a => a.1 < 16 * s.dies ∧ s.fget .PORT_CFG_MODE a.1 ≠ 0 ∧ s.flag .PORT_STATUS_LINK a.1 ≠ a.2.1
     post := fun s a t =>
       let v := if a.2.1 then speedOf (s.fget .PORT_CFG_MODE a.1) a.2.2 else 0
       t.flag .PORT_STATUS_LINK a.1 = a.2.1 ∧ t.fget .PORT_STATUS_SPEED a.1 = v ∧ t.fget .PORT_STATUS_LINK_CHANGED a.1 = 1 ∧
         t.flag .PORT_STATUS_FEC_LOCK a.1 = (a.2.1 && s.fget .PORT_CFG_FEC a.1 != 0) ∧ Raised s t 0x7001 a.1 (bit a.2.1) v ∧
         RegsKept s t [.PORT_STATUS, .EVR_LOST] ∧ KeptBut s t .PORT_STATUS [a.1] },
   { Arg := Nat × Bytes × Nat × Extension
     cmd := fun a => .frameReceived a.1 a.2.1 false a.2.2.1 a.2.2.2
     ok := fun s a => s.portUp a.1 = true
     post := fun s a t => Counted s t .PORT_RX_FCS_COUNT a.1 ∧ RegsOnly s t [.PORT_RX_FCS] },
   { Arg := Nat × Bytes × Nat × Extension
     cmd := fun a => .frameReceived a.1 a.2.1 true a.2.2.1 a.2.2.2
     ok := fun s a => s.portUp a.1 = true ∧ ¬ LengthOk s a.1 a.2.1
     post := fun s a t => Counted s t .PORT_RX_OVERSIZE_COUNT a.1 ∧ RegsOnly s t [.PORT_RX_OVERSIZE] },
   { Arg := Nat × Bytes × Nat × Extension
     cmd := fun a => .frameReceived a.1 a.2.1 true a.2.2.1 a.2.2.2
     ok := fun s a => s.portUp a.1 = true ∧ LengthOk s a.1 a.2.1
     post := fun s a t => Wrapped s t .PORT_RX_FRAMES_COUNT a.1 1 ∧ Wrapped s t .PORT_RX_BYTES_COUNT a.1 (a.2.1.length + 4) ∧
       (s.portRole a.1 = 2 → RegsOnly s t [.PORT_RX_FRAMES, .PORT_RX_BYTES]) ∧
       (s.portRole a.1 ≠ 2 → pauseQuanta a.2.1 = none → s.mode ∉ [3, 4] →
         Counted s t .PORT_RX_DISCARDED_COUNT a.1 ∧ RegsOnly s t [.PORT_RX_FRAMES, .PORT_RX_BYTES, .PORT_RX_DISCARDED]) },
   { Arg := (Nat × Bytes × Nat × Extension) × Nat
     cmd := fun a => .frameReceived a.1.1 a.1.2.1 true a.1.2.2.1 a.1.2.2.2
     ok := fun s a => s.portUp a.1.1 = true ∧ LengthOk s a.1.1 a.1.2.1 ∧ s.portRole a.1.1 ≠ 2 ∧ pauseQuanta a.1.2.1 = some a.2
     post := fun s a t => Counted s t .PORT_PAUSE_RX_COUNT a.1.1 ∧ t.frames.rx = s.frames.rx ∧ t.frames.tx = s.frames.tx ∧
       (s.portRole a.1.1 ≠ 1 → t.frames = s.frames) ∧
       (s.portRole a.1.1 = 1 → a.2 = 0 → sparseGet 0 t.frames.paused a.1.1 = 0) ∧
       (s.portRole a.1.1 = 1 → 0 < a.2 → s.fget .PORT_STATUS_SPEED a.1.1 = 3 →
         sparseGet 0 t.frames.paused a.1.1 = s.time.ticks + a.2 * 1024) },
   { Arg := (Nat × Bytes × Nat × Extension) × Nat
     cmd := fun a => .frameReceived a.1.1 a.1.2.1 true a.1.2.2.1 a.1.2.2.2
     ok := fun s a =>
       let p := a.1.1
       let data := a.1.2.1
       FrameArrives s p data ∧ frameClass data < 2 ∧ data.length + 4 ≤ 2048 ∧ frameContext (s.atEntry a.1.2.2.1) p data = some a.2
     post := fun s a t =>
       let p := a.1.1
       let b := frameBody s p a.1.2.1
       (BufferRoom s p b → ∃ f, t.frames.rx = s.frames.rx ++ [f] ∧ f.id = s.frames.nextId ∧ t.frames.nextId = s.frames.nextId + 1 ∧
         f.port = p ∧ f.data = b ∧ f.ctx = some a.2 ∧ f.seen = (s.atEntry a.1.2.2.1).stream a.2 ∧
         f.sec = parseSec (frameClass a.1.2.1) (ethHead a.1.2.1).off b a.1.2.2.2 ∧
         f.ingress = ingressTime s p a.1.2.2.1 ∧ f.lastByte = s.time.ticks ∧ f.verdict = none ∧ f.kept = true ∧
         f.own = min b.length (131072 - s.ownUsed p) ∧ f.shared = b.length - f.own) ∧
       (¬ BufferRoom s p b → Counted s t .PORT_RX_BUF_DROPS_COUNT p ∧ portDie p ∈ t.frames.full ∧
         (portDie p ∉ s.frames.full → Raised s t 0x700B a.2 (portDie p) (p % 16)) ∧
         ∃ f, t.frames.rx = s.frames.rx ++ [f] ∧ f.ctx = some a.2 ∧ f.kept = false) },
   { Arg := Nat × Bytes × Nat × Extension
     cmd := fun a => .frameReceived a.1 a.2.1 true a.2.2.1 a.2.2.2
     ok := fun s a =>
       let c := frameClass a.2.1
       FrameArrives s a.1 a.2.1 ∧ (2 ≤ c ∨ 2048 < a.2.1.length + 4 ∨ frameContext (s.atEntry a.2.2.1) a.1 a.2.1 = none)
     post := fun s a t =>
       let p := a.1
       let c := frameClass a.2.1
       let ptp := s.fget .PORT_RINGS_PTP_RING p
       let dfl := s.fget .PORT_RINGS_DEFAULT_RING p
       let r := if c = 2 ∧ ptp ≠ 0xFFFF then ptp else dfl
       ((r = 0xFFFF ∨ s.ringLive r = false) → Counted s t .PORT_RX_DISCARDED_COUNT p ∧ t.frames = s.frames) ∧
       (r ≠ 0xFFFF → s.ringLive r = true → BufferRoom s p (frameBody s p a.2.1) → ∃ f, t.frames.rx = s.frames.rx ++ [f] ∧
         f.port = p ∧ f.data = frameBody s p a.2.1 ∧ f.ctx = none ∧ f.verdict = some 0 ∧ f.rings = [r] ∧ f.kept = true) }]

/-- The verdict of R298 on frame `f` of context `x`, judged within its budget: the first check that fails names it, and a
duplicate has none. -/
def Judged (u : State) (f : RxFrame) (x : Stream) (disagree : Bool) (v : Option Nat) : Prop :=
  let key := f.seen.keyOf f.sec.keyId
  let tagFails := f.sec.alg ≠ f.seen.alg ∨ f.sec.tagLen ≠ f.seen.tagLen ∨ f.sec.lengthOk = false ∨
    f.sec.tag ≠ streamTag f.seen.alg f.seen.tagLen (key.getD []) f.sec.iv f.sec.cover ∨ disagree = true
  (f.sec.located = false → v = some 0x2B) ∧
  (f.sec.located = true → key = none → v = some 0x4D) ∧
  (f.sec.located = true → key ≠ none → tagFails → v = some 0x35) ∧
  (f.sec.located = true → key ≠ none → ¬ tagFails → x.duplicate f = true → v = none) ∧
  (f.sec.located = true → key ≠ none → ¬ tagFails → x.duplicate f = false →
    ((∃ c, f.sec.counter = some c ∧ u.inWindow f.seen f = true ∧ x.newer c = true) → v = some 0x96) ∧
    ((∀ c, f.sec.counter = some c → u.inWindow f.seen f = true → x.newer c = false) → v = some 0x53))

/-- Counter `i` of context `n` has counted once. -/
def CtxCounted (s t : State) (n i : Nat) : Prop :=
  (t.stream n).counts.getD i 0 = satAdd (2 ^ 32 - 1) ((s.stream n).counts.getD i 0) 1

/-- A live context with its twelve counters. -/
def LiveContext (s : State) (n : Nat) : Prop := (s.stream n).live = true ∧ (s.stream n).counts.length = 12

/-- Where a frame goes with its verdict (Table 10.8): to its rings, or out of the buffer, by policy or because only its
verdict was kept. -/
def Routed (s t : State) (u : State) (f : RxFrame) (n v : Nat) : Prop :=
  let x := f.seen
  let policy := if v = 0x2B then x.unauth else x.fail
  let gone := ∀ g ∈ t.frames.rx, g.id ≠ f.id
  let waits := fun (l : List Nat) => ∃ g ∈ t.frames.rx, g.id = f.id ∧ g.verdict = some v ∧ g.rings = l ∧ g.postedAt = u.time.ticks ∧
    g.data = f.data
  let open' := v = 0x96 ∨ policy = 0
  let second := v ≠ 0x96 ∧ policy = 1 ∧ x.secRing ≠ 0xFFFF
  (open' → x.subs ≠ [] → f.kept = true → waits x.subs) ∧
  (second → f.kept = true → waits [x.secRing]) ∧
  ((f.kept = false ∨ (open' ∧ x.subs = []) ∨ (¬ open' ∧ ¬ second)) → gone) ∧
  (¬ open' → ¬ second → CtxCounted s t n 9) ∧
  ∀ g ∈ s.frames.rx, g.id ≠ f.id → g ∈ t.frames.rx

/-- Verdicts. -/
noncomputable def verdictRows : List Row :=
  [{ Arg := (Nat × Nat) × RxFrame × Nat × Nat
     cmd := fun a => .verdictPost a.1.1 false a.1.2
     ok := fun s a =>
       let f := a.2.1
       let n := a.2.2.1
       let u := s.elapse a.1.2
       s.judging a.1.1 = some (f, n) ∧ s.mode ∈ [3, 4] ∧ LiveContext s n ∧ u.time.ticks - f.lastByte ≤ 500 ∧
         Judged u f (s.stream n) false (some a.2.2.2)
     post := fun s a t =>
       let f := a.2.1
       let n := a.2.2.1
       let v := a.2.2.2
       let u := s.elapse a.1.2
       let i := if v = 0x96 then 0 else if v = 0x35 then 1 else if v = 0x53 then 2 else if v = 0x2B then 3 else 4
       CtxCounted s t n i ∧ Routed s t u f n v ∧ Wrapped s t .CAL_FRAMES_COUNT (portPipe f.port) 1 ∧
         (v ≠ 0x96 → Records u t 0x7004 ∧ (t.stream n).last = (s.stream n).last ∧ (t.stream n).hist = (s.stream n).hist) ∧
         (v = 0x96 → f.seen.live = true → ∀ c, f.sec.counter = some c →
           (t.stream n).last = some (if (s.stream n).cls = 0 then c else (0, c.2)) ∧
           ((s.stream n).histKey c, f.lanB) ∈ (t.stream n).hist ∧ (t.stream n).hist.length ≤ max 32 (s.stream n).hist.length) },
   { Arg := (Nat × Nat) × RxFrame × Nat
     cmd := fun a => .verdictPost a.1.1 false a.1.2
     ok := fun s a =>
       let f := a.2.1
       let u := s.elapse a.1.2
       s.judging a.1.1 = some (f, a.2.2) ∧ s.mode ∈ [3, 4] ∧ LiveContext s a.2.2 ∧ u.time.ticks - f.lastByte ≤ 500 ∧
         Judged u f (s.stream a.2.2) false none
     post := fun s a t => CtxCounted s t a.2.2 6 ∧ (∀ g ∈ t.frames.rx, g.id ≠ a.2.1.id) ∧ t.evr = s.evr ∧
       (t.stream a.2.2).last = (s.stream a.2.2).last ∧ (t.stream a.2.2).hist = (s.stream a.2.2).hist },
   { Arg := (Nat × Nat) × RxFrame × Nat
     cmd := fun a => .verdictPost a.1.1 true a.1.2
     ok := fun s a =>
       let f := a.2.1
       let key := f.seen.keyOf f.sec.keyId
       s.judging a.1.1 = some (f, a.2.2) ∧ s.mode ∈ [3, 4] ∧ f.sec.located = true ∧ key ≠ none ∧ f.sec.alg = f.seen.alg ∧
         f.sec.tagLen = f.seen.tagLen
     post := fun s a t =>
       let p := portPipe a.2.1.port
       let u := s.elapse a.1.2
       let last := sparseGet 0 s.frames.lastDis p
       Counted s t .CAL_DISAGREE_VALUE p ∧ Records u t 0x7002 ∧ sparseGet 0 t.frames.lastDis p = u.time.ticks + 1 ∧
         (last ≠ 0 → u.since (last - 1) < 1000000000 → t.mode = 5 ∧ t.fget .DEV_MODE_LOCK_CAUSE 0 = 4) ∧
         ((last = 0 ∨ 1000000000 ≤ u.since (last - 1)) → t.mode = s.mode) },
   { Arg := (Nat × Nat) × RxFrame × Nat
     cmd := fun a => .frameBudgetExpiry a.1.1 a.1.2
     ok := fun s a => s.judging a.1.1 = some a.2 ∧ s.mode ∈ [3, 4] ∧ LiveContext s a.2.2 ∧
       500 < (s.elapse a.1.2).time.ticks - a.2.1.lastByte
     post := fun s a t =>
       let f := a.2.1
       let u := s.elapse a.1.2
       CtxCounted s t a.2.2 5 ∧ Counted s t .CAL_LATE_VALUE (portPipe f.port) ∧ Records u t 0x7003 ∧ Routed s t u f a.2.2 0x71 ∧
         (t.stream a.2.2).last = (s.stream a.2.2).last },
   { Arg := (Nat × Nat) × RxFrame × Nat
     cmd := fun a => .frameBudgetExpiry a.1.1 a.1.2
     ok := fun s a => s.judging a.1.1 = some a.2 ∧ s.mode ∉ [3, 4] ∧ 500 < (s.elapse a.1.2).time.ticks - a.2.1.lastByte
     post := fun s a t => Counted s t .PORT_RX_DISCARDED_COUNT a.2.1.port ∧ (∀ g ∈ t.frames.rx, g.id ≠ a.2.1.id) ∧
       t.streams = s.streams }]

/-- The delivery of a frame to a ring is over: it leaves the buffer with its last ring. -/
def DeliveryOver (s t : State) (f : RxFrame) (r : Nat) : Prop :=
  let l := f.rings.filter (· != r)
  (l = [] → ∀ g ∈ t.frames.rx, g.id ≠ f.id) ∧ (l ≠ [] → ∃ g ∈ t.frames.rx, g.id = f.id ∧ g.rings = l) ∧
    ∀ g ∈ s.frames.rx, g.id ≠ f.id → g ∈ t.frames.rx

/-- A delivery is dropped for one ring, counted and recorded (R303). -/
def DeliveryDropped (s t u : State) (f : RxFrame) (r cause : Nat) : Prop :=
  Counted s t .RING_DROPS_COUNT r ∧ (t.ringx r).gap = satAdd 0xFFFF (s.ringx r).gap 1 ∧ (t.ringx r).dropSeen = true ∧
    (∀ n, f.ctx = some n → LiveContext s n → CtxCounted s t n 8) ∧
    ((s.ringx r).gap = 0 → u.evr.fifo.length < 64 → ∃ e, t.evr.fifo = u.evr.fifo ++ [e] ∧ e.code = 0x700A ∧
      e.d1 = r % 2 ^ 32 ∧ e.d2 = cause) ∧ DeliveryOver s t f r

/-- A frame fits into a ring at once. -/
def RingTakes (s : State) (f : RxFrame) (r : Nat) : Prop :=
  s.dmaOpen = true ∧ s.ringLive r = true ∧ s.ringState r = 1 ∧ 0 < s.ringFree r ∧ f.data.length ≤ 2 ^ (s.ringx r).slotLog

/-- Delivery to FRX rings, and promotion. -/
noncomputable def deliveryRows : List Row :=
  [{ Arg := (Nat × Nat × Nat) × RxFrame × Nat
     cmd := fun a => .frxDelivery a.1.1 a.1.2.1 a.1.2.2
     ok := fun s a => s.delivering a.1.1 a.1.2.1 = some a.2.1 ∧ RingTakes s a.2.1 a.1.2.1 ∧ s.slotOk a.2.1 a.1.2.1 = true ∧ s.ringFetched a.1.2.1 = false ∧
       s.pasidOf (s.ringOwner a.1.2.1) = some a.2.2
     post := fun s a t =>
       let r := a.1.2.1
       let f := a.2.1
       let o := s.ringOwner r
       let i := s.didx r % s.ringSize r
       (∃ more, t.out = s.out ++ .memWrite (some a.2.2) (some o) (some r) ((s.ringx r).data + i * 2 ^ (s.ringx r).slotLog) f.data ::
         .memWrite (some a.2.2) (some o) (some r) ((s.reg .RING_BASE r).toNat + i * 32) (frxEntry f (s.ringx r).gap) :: more) ∧
         t.didx r = (s.didx r + 1) % 2 ^ 32 ∧ (t.ringx r).gap = 0 ∧ (∀ n, f.ctx = some n → LiveContext s n → CtxCounted s t n 7) ∧
         DeliveryOver s t f r },
   { Arg := (Nat × Nat × Nat) × RxFrame
     cmd := fun a => .frxDelivery a.1.1 a.1.2.1 a.1.2.2
     ok := fun s a => s.delivering a.1.1 a.1.2.1 = some a.2 ∧ ¬ RingTakes s a.2 a.1.2.1
     post := fun s a t =>
       let r := a.1.2.1
       let c := if s.dmaOpen = false then 5 else if s.ringLive r = false ∨ s.ringState r ≠ 1 then 4 else if s.ringFree r = 0 then 1 else 2
       DeliveryDropped s t (s.elapse a.1.2.2) a.2 r c },
   { Arg := (Nat × Nat × Nat) × RxFrame
     cmd := fun a => .frxMaxWaitExpiry a.1.1 a.1.2.1 a.1.2.2
     ok := fun s a => s.delivering a.1.1 a.1.2.1 = some a.2 ∧ s.frames.maxWait * 1000 ≤ (s.elapse a.1.2.2).since a.2.postedAt
     post := fun s a t => DeliveryDropped s t (s.elapse a.1.2.2) a.2 a.1.2.1 3 },
   { Arg := (Nat × Nat) × (Nat × Bytes × Nat)
     cmd := fun a => .promotionTimeReached a.1.1 a.1.2
     ok := fun s a => (s.stream a.1.1).next = some a.2 ∧
       ((a.2.2.2 ≠ 0 ∧ a.2.2.2 ≤ (s.elapse a.1.2).replicaNow (ctxDie a.1.1)) ∨ (a.2.2.2 = 0 ∧ (s.stream a.1.1).dir = 1)) ∧
       (s.stream a.1.1).counts.length = 12
     post := fun s a t =>
       let n := a.1.1
       let u := s.elapse a.1.2
       (t.stream n).cur = some (a.2.1, a.2.2.1) ∧ (t.stream n).next = none ∧ CtxCounted s t n 10 ∧ Raised u t 0x7007 n a.2.1 2 ∧
         RegsKept s t [.EVR_LOST] ∧ ∀ m, m ≠ n → t.stream m = s.stream m },
   { Arg := (Nat × Nat × Nat) × RxFrame
     cmd := fun a => .frxDelivery a.1.1 a.1.2.1 a.1.2.2
     ok := fun s a => s.delivering a.1.1 a.1.2.1 = some a.2 ∧ RingTakes s a.2 a.1.2.1 ∧ s.slotOk a.2 a.1.2.1 = false
     post := fun s a t => (∀ p o r x b, OutMsg.memWrite p o r x b ∈ t.out → OutMsg.memWrite p o r x b ∈ s.out) ∧
       ∃ c, DeliveryDropped s t (s.elapse a.1.2.2) a.2 a.1.2.1 c }]

/-- The oldest unread entry of its ring, which may be read. -/
def TxReads (s : State) (id : Nat) (f : TxFrame) : Prop :=
  s.frames.tx.find? (fun x => x.id == id) = some f ∧ f.tagged = false ∧ s.dmaOpen = true ∧
    ∀ g ∈ s.frames.tx, g.ring = f.ring → g.id < id → g.tagged = true

/-- The entry is one that R308 and R309 admit, its buffer lies in its TI's windows, and the read has not failed. -/
def TxAdmitted (s : State) (f : TxFrame) : Prop :=
  s.ftxBad f = false ∧ s.bufferOk (s.ringOwner f.ring) (ftxAddr f.entry) (ftxLen f.entry) true false = true

/-- The read of an entry's frame is all that leaves (R75). -/
def FrameRead (s t : State) (ti : Nat) (e : Bytes) : Prop :=
  t.out = match s.pasidOf ti with
    | some p => if ftxLen e = 0 then s.out else s.out ++ [.memRead p ti (ftxAddr e) (ftxLen e)]
    | none => s.out

/-- A copy of a frame may start on a port now (R309, R310). -/
def TxStarts (s u : State) (id p : Nat) (f : TxFrame) : Prop :=
  s.frames.tx.find? (fun x => x.id == id) = some f ∧ p ∈ f.waits ∧ s.portUp p = true ∧ s.portRole p ≠ 2 ∧ sparseGet 0 s.frames.paused p ≤ u.time.ticks ∧
    s.mode ∈ [3, 4] ∧ f.launch ≤ u.replicaNow (portDie p) ∧
    (ftxAt f.entry = 0 ∨ u.replicaNow (portDie p) ≤ ftxAt f.entry + s.frames.slip * 1000)

/-- The published head of an FTX ring will cover one entry more. -/
def HeadMoved (s t : State) (r : Nat) : Prop := (t.ringx r).head = ((s.ringx r).head + 1) % 2 ^ 32

/-- A frame is queued for its ports. -/
def Queued (t : State) (f : TxFrame) (data : Bytes) (ports : List Nat) (launch : Nat) : Prop :=
  ∃ g ∈ t.frames.tx, g.id = f.id ∧ g.tagged = true ∧ g.data = data ∧ g.waits = ports ∧ g.launch = launch ∧ g.sent = f.sent ∧
    g.entry = f.entry

/-- Transmission. -/
noncomputable def transmitRows : List Row :=
  [{ Arg := List Bytes × Nat
     cmd := fun a => .ftxFetch a.1
     ok := fun s a =>
       let fit := fun q => q < s.part.rings ∧ s.ringLive q = true ∧ s.ringType q = typeFtx ∧ s.ftxEligible q = true ∧
         s.fget .RING_ARB_CREDIT q ≠ 0
       let c := s.sched.lastFtx
       fit a.2 ∧ (∀ q, fit q → q ≠ a.2 → (c ≤ a.2 ∧ (q < c ∨ a.2 < q)) ∨ (a.2 < c ∧ q < c ∧ a.2 < q)) ∧
         min (min (s.fget .RING_ARB_BURST a.2) (s.fget .RING_ARB_CREDIT a.2)) (s.sqPending a.2) ≤ a.1.length
     post := fun s a t =>
       let r := a.2
       let f := s.fget .RING_FETCH_INDEX r
       let n := min (min (s.fget .RING_ARB_BURST r) (s.fget .RING_ARB_CREDIT r)) (s.sqPending r)
       t.sched.lastFtx = r + 1 ∧ ∃ k, k ≤ n ∧ (k < n → t.launchRoom (sliceZ (a.1.getD k []) 0 64) = false) ∧
         t.fget .RING_FETCH_INDEX r = (f + k) % 2 ^ 32 ∧ t.fget .RING_ARB_CREDIT r = s.fget .RING_ARB_CREDIT r - k ∧
         t.frames.tx.length = s.frames.tx.length + k ∧ t.frames.rx = s.frames.rx ∧
         (∃ reads, t.out = s.out ++ reads ∧ ∀ m ∈ reads, ∃ p a n, m = .memRead p (s.ringOwner r) a n) ∧
         ∀ i, i < k → ∃ x, t.frames.tx[s.frames.tx.length + i]? = some x ∧ x.id = s.frames.nextId + i ∧ x.ring = r ∧
           x.idx = (f + i) % 2 ^ 32 ∧ x.entry = sliceZ (a.1.getD i []) 0 64 ∧ x.tagged = false },
   { Arg := (Nat × Bytes × Nat) × TxFrame
     cmd := fun a => .ftxFrameRead a.1.1 a.1.2.1 0 a.1.2.2
     ok := fun s a =>
       let e := a.2.entry
       TxReads s a.1.1 a.2 ∧ TxAdmitted s a.2 ∧ ftxRaw e = true ∧
         (ftxAt e = 0 ∨ (s.elapse a.1.2.2).replicaNow (portDie (ftxTarget e % 16384)) ≤ ftxAt e)
     post := fun s a t =>
       let e := a.2.entry
       HeadMoved s t a.2.ring ∧ Queued t a.2 (sliceZ a.1.2.1 0 (ftxLen e)) [ftxTarget e % 16384] (ftxAt e) ∧ t.regs = s.regs ∧
         FrameRead s t (s.ringOwner a.2.ring) e },
   { Arg := (Nat × Bytes × Nat) × TxFrame × Nat × Bytes
     cmd := fun a => .ftxFrameRead a.1.1 a.1.2.1 0 a.1.2.2
     ok := fun s a =>
       let f := a.2.1
       let e := f.entry
       let x := s.stream (ftxTarget e)
       let u := s.elapse a.1.2.2
       TxReads s a.1.1 f ∧ TxAdmitted s f ∧ ftxRaw e = false ∧ x.cur = some a.2.2 ∧
         (ftxAt e = 0 ∨ u.replicaNow (portDie x.port) ≤ ftxAt e)
     post := fun s a t =>
       let f := a.2.1
       let e := f.entry
       let x := s.stream (ftxTarget e)
       let u := s.elapse a.1.2.2
       let g := s.tagFrame x a.2.2.1 a.2.2.2 (u.txStamp f (ctxDie (ftxTarget e))) (sliceZ a.1.2.1 0 (ftxLen e))
       HeadMoved s t f.ring ∧
         (g.length ≤ 2048 → FrameRead s t (s.ringOwner f.ring) e ∧
           Queued t f g (if ftxPrp e = true ∧ x.pair = true then [x.port, s.partner x.port] else [x.port])
             (u.txStamp f (ctxDie (ftxTarget e))) ∧
           (ftxPrp e = true → Wrapped s t .PORT_PRP_SEQ_SEQ x.port 1 ∧ RegsKept s t [.PORT_PRP_SEQ]) ∧
           (ftxPrp e = false → t.regs = s.regs)) ∧
         (2048 < g.length → ∀ h ∈ t.frames.tx, h.id ≠ f.id) },
   { Arg := (Nat × Bytes × Nat × Nat) × TxFrame
     cmd := fun a => .ftxFrameRead a.1.1 a.1.2.1 a.1.2.2.1 a.1.2.2.2
     ok := fun s a => TxReads s a.1.1 a.2 ∧ (s.ftxBad a.2 = true ∨ ¬ TxAdmitted s a.2 ∨ a.1.2.2.1 ≠ 0)
     post := fun s a t => HeadMoved s t a.2.ring ∧ (∀ g ∈ t.frames.tx, g.id ≠ a.2.id) ∧ t.streams = s.streams ∧
       (s.ftxBad a.2 = false → Counted s t .TI_BUF_FAULTS_COUNT (s.ringOwner a.2.ring)) ∧
       (s.ftxBad a.2 = false → ¬ TxAdmitted s a.2 → Records (s.elapse a.1.2.2.2) t 0x6011) ∧
       (TxAdmitted s a.2 → Records (s.elapse a.1.2.2.2) t 0x6012) },
   { Arg := (Nat × Nat × Nat) × TxFrame
     cmd := fun a => .ftxLaunch a.1.1 a.1.2.1 a.1.2.2
     ok := fun s a => TxStarts s (s.elapse a.1.2.2) a.1.1 a.1.2.1 a.2
     post := fun s a t =>
       let p := a.1.2.1
       let f := a.2
       let u := s.elapse a.1.2.2
       let first := (s.ftxPorts f.entry).headD 0
       let b := if ftxPrp f.entry = true ∧ ftxRaw f.entry = false then f.data ++ rctBytes f.seq (if p = first then 0xA else 0xB) f.data
         else f.data
       let time := unsignedOf 64 ((u.replicaNow (portDie p) : Int) + s.tsAdj .PORT_TS_TX_ADJ_ADJ_NS p)
       (∃ more, t.out = s.out ++ .frame p time b :: more) ∧ Wrapped s t .PORT_TX_FRAMES_COUNT p 1 ∧
         Wrapped s t .PORT_TX_BYTES_COUNT p (b.length + 4) ∧
         ((∀ q ∈ f.waits, q = p) → ∀ g ∈ t.frames.tx, g.id ≠ f.id) ∧
         ((∃ q ∈ f.waits, q ≠ p) → t.out = s.out ++ [.frame p time b] ∧
           ∃ g ∈ t.frames.tx, g.id = f.id ∧ g.waits = f.waits.filter (· != p) ∧ g.sent = f.sent + 1) },
   { Arg := (Nat × Nat × Nat) × TxFrame
     cmd := fun a => .txSlipExpiry a.1.1 a.1.2.1 a.1.2.2
     ok := fun s a => s.frames.tx.find? (fun x => x.id == a.1.1) = some a.2 ∧ a.1.2.1 ∈ a.2.waits ∧ ftxAt a.2.entry ≠ 0 ∧
       ftxAt a.2.entry + s.frames.slip * 1000 < (s.elapse a.1.2.2).replicaNow (portDie a.1.2.1)
     post := fun s a t =>
       let p := a.1.2.1
       let f := a.2
       Counted s t .PORT_TX_LATE_COUNT p ∧ Records (s.elapse a.1.2.2) t 0x700C ∧
         ((∀ q ∈ f.waits, q = p) → ∀ g ∈ t.frames.tx, g.id ≠ f.id) ∧
         ((∃ q ∈ f.waits, q ≠ p) → ∃ g ∈ t.frames.tx, g.id = f.id ∧ g.waits = f.waits.filter (· != p) ∧ g.failed = some (f.failed.getD p)) }]

end Sys2Proof.Claims
end

