-- ==== Sys2Proof/Safety/Tenant.lean ====
section
/-!
DEFINITION. The mailbox commands on tenant interfaces, rings and scheduling: when each goes ahead, and what stands afterwards
(R80 to R93, R102 to R104, R121, R130, R131, R139, R140, R158, R161 to R163, R316, R322).
-/

namespace Sys2Proof.Claims

open Sys2Proof.Machine

/-- The TI and the range of entries that an IMT command names. -/
def ImtField (s : State) (p : Bytes) : Prop :=
  LiveTi s (leAt p 0 2) ∧ ZeroAt p 2 2 ∧ 1 ≤ leAt p 6 2 ∧ leAt p 4 2 + leAt p 6 2 ≤ 4096

/-- An entry within the range that an IMT command names. -/
def InImt (p : Bytes) (e : Nat) : Prop := leAt p 4 2 ≤ e ∧ e < leAt p 4 2 + leAt p 6 2

/-- Window `w` of TI `n` is in use. -/
def WindowUsed (s : State) (n w : Nat) : Prop :=
  s.fget .TI_WIN_CTL_READ (n * 16 + w) = 1 ∨ s.fget .TI_WIN_CTL_WRITE (n * 16 + w) = 1

/-- A window of a TI: its base, its length in pages, read and write permission. -/
def windowOf (s : State) (n w : Nat) : Nat × Nat × Nat × Nat :=
  let i := n * 16 + w
  (s.fget .TI_WIN_BASE_BASE i * 4096, s.fget .TI_WIN_CTL_PAGES i, s.fget .TI_WIN_CTL_READ i, s.fget .TI_WIN_CTL_WRITE i)

/-- A range of bytes lies apart from a window. -/
def Apart (s : State) (n w a len : Nat) : Prop :=
  a + len ≤ (windowOf s n w).1 ∨ (windowOf s n w).1 + (windowOf s n w).2.1 * 4096 ≤ a

/-- A quota of TI_SET_QUOTA: bit of the change mask, payload offset, field, room, use. -/
structure QuotaField where
  bit : Nat
  off : Nat
  fld : Fld
  room : Nat
  use : Nat

/-- The four quotas of a TI. -/
def quotaFields (s : State) (n : Nat) : List QuotaField :=
  [⟨0, 4, .TI_RING_QUOTA, s.part.rings - (tiSum s .TI_RING_QUOTA - s.fget .TI_RING_QUOTA n), s.fget .TI_RING_USED n⟩,
   ⟨1, 8, .TI_KEY_QUOTA_VALUE, s.freeGranules (s.fget .TI_KEY_HOME_DIE n) + s.fget .TI_KEY_QUOTA_VALUE n,
     max (s.fget .TI_KEY_USED_VALUE n) (s.fget .TI_KEY_TOP_VALUE n)⟩,
   ⟨2, 12, .TI_STREAM_QUOTA, 4096 * s.dies - (tiSum s .TI_STREAM_QUOTA - s.fget .TI_STREAM_QUOTA n), s.fget .TI_STREAM_USED n⟩,
   ⟨3, 16, .TI_IMT_QUOTA, 4096 - (tiSum s .TI_IMT_QUOTA - s.fget .TI_IMT_QUOTA n), s.fget .TI_IMT_USED n⟩]

/-- TI_CREATE, TI_BIND, TI_SET_QUOTA and the windows. -/
noncomputable def tenantChanges : List Change :=
  [{ op := 0x0201, cmd := .tiCreate
     ok := fun s p => (leAt p 0 2 ≠ 0xFFFF → leAt p 0 2 < s.part.tenants ∧ s.fget .TI_STATUS_STATE (leAt p 0 2) = 0) ∧
       (leAt p 0 2 = 0xFFFF → ∃ m, m < s.part.tenants ∧ s.fget .TI_STATUS_STATE m = 0) ∧ ZeroAt p 2 2 ∧ ZeroAt p 20 4 ∧
       tiSum s .TI_RING_QUOTA + leAt p 4 4 ≤ s.part.rings ∧ (∃ d, d < s.dies ∧ leAt p 8 4 ≤ s.freeGranules d) ∧
       tiSum s .TI_STREAM_QUOTA + leAt p 12 4 ≤ 4096 * s.dies ∧ tiSum s .TI_IMT_QUOTA + leAt p 16 4 ≤ 4096 ∧
       ∃ r, Draws s importPairDraw r
     post := fun s p t => ∃ n d r, Draws s importPairDraw r ∧ s.fget .TI_STATUS_STATE n = 0 ∧
       n < s.part.tenants ∧ (leAt p 0 2 = n ∨ (leAt p 0 2 = 0xFFFF ∧ ∀ m, m < n → s.fget .TI_STATUS_STATE m ≠ 0)) ∧
       d < s.dies ∧ (∀ x, x < s.dies → s.freeGranules x ≤ s.freeGranules d) ∧ (∀ x, x < d → s.freeGranules x < s.freeGranules d) ∧
       Answered s t mSuccess 0 (leBytes 2 n ++ leBytes 2 0 ++ leBytes 4 (n * 0x1000)) ∧
       t.fget .TI_STATUS_STATE n = 1 ∧ t.fget .TI_RING_QUOTA n = leAt p 4 4 ∧ t.fget .TI_KEY_QUOTA_VALUE n = leAt p 8 4 ∧
       t.fget .TI_STREAM_QUOTA n = leAt p 12 4 ∧ t.fget .TI_IMT_QUOTA n = leAt p 16 4 ∧ t.fget .TI_KEY_HOME_DIE n = d ∧
       t.fget .TI_SCHED_SHARE n = 100 ∧ t.fget .TI_SCHED_READY_LIMIT n = 256 ∧
       t.fget .KS_GRANULES_RESERVED_Q d = s.fget .KS_GRANULES_RESERVED_Q d + leAt p 8 4 ∧
       t.slot n importSlot = { KeySlot.blank with
         state := .occupied
         typ := 0xC0
         gen := 1
         stored := importPairOf r
         share := (t.slot n importSlot).share
         granules := 2 } ∧
       (t.slot n importSlot).share.length = (importPairOf r).length ∧
       Raised s t 0x6001 n (leAt p 4 4) (leAt p 8 4) },
   { op := 0x0202, cmd := .tiBind
     ok := fun s p => let n := leAt p 0 2
       n < s.part.tenants ∧ leAt p 2 2 ≤ 1 ∧
       (s.fget .TI_STATUS_STATE n = 1 ∨ (s.fget .TI_STATUS_STATE n = 3 ∧ leAt p 2 2 = 1)) ∧ leAt p 4 4 < 2 ^ 20 ∧
       s.host.pasidEnable = true ∧ ∀ m, m < s.part.tenants → m ≠ n → s.pasidOf m ≠ some (leAt p 4 4)
     post := fun s p t => let n := leAt p 0 2
       Done s t ∧ t.pasidOf n = some (leAt p 4 4) ∧ KeptBut s t .TI_STATUS [n] ∧
       t.fget .TI_STATUS_STATE n = (if s.fget .TI_STATUS_STATE n = 3 ∨
         (s.fget .DUPLEX_STATUS_ROLE 0 = 2 ∧ s.flag .TI_KEY_HOME_MIRRORED n = true) then 3 else 2) ∧
       Raised s t 0x6002 n (leAt p 4 4) (if s.fget .TI_STATUS_STATE n = 3 then 1 else 0) ∧
       (s.fget .DUPLEX_STATUS_ROLE 0 ≠ 2 → OnlyRegs s t [.TI_STATUS]) },
   { op := 0x0203, cmd := .tiSetQuota
     ok := fun s p => LiveTi s (leAt p 0 2) ∧ leAt p 2 2 < 16 ∧ ZeroAt p 20 4 ∧
       ∀ q ∈ quotaFields s (leAt p 0 2), (leAt p 2 2).testBit q.bit = true → q.use ≤ leAt p q.off 4 ∧ leAt p q.off 4 ≤ q.room
     post := fun s p t => let n := leAt p 0 2
       Done s t ∧ Raised s t 0x6004 n (leAt p 2 2) 0 ∧
       OnlyRegs s t [.TI_RING, .TI_KEY_QUOTA, .TI_STREAM, .TI_IMT, .KS_GRANULES] ∧
       (∀ q ∈ quotaFields s n,
         t.fget q.fld n = (if (leAt p 2 2).testBit q.bit then leAt p q.off 4 % 2 ^ (q.fld.hi + 1) else s.fget q.fld n) ∧
         (∀ m, m ≠ n → t.fget q.fld m = s.fget q.fld m)) ∧
       t.fget .TI_RING_USED n = s.fget .TI_RING_USED n ∧ t.fget .TI_STREAM_USED n = s.fget .TI_STREAM_USED n ∧
       t.fget .TI_IMT_USED n = s.fget .TI_IMT_USED n },
   { op := 0x0204, cmd := .tiAddWindow
     ok := fun s p => let n := leAt p 0 2
       LiveTi s n ∧ byteAt p 2 < 16 ∧ ¬ WindowUsed s n (byteAt p 2) ∧ 1 ≤ byteAt p 3 ∧ byteAt p 3 ≤ 3 ∧ ZeroAt p 4 4 ∧
       leAt p 8 8 % 4096 = 0 ∧ 1 ≤ leAt p 16 4 ∧ leAt p 16 4 < 2 ^ 28 ∧ ZeroAt p 20 4 ∧
       ∀ w, w < 16 → WindowUsed s n w → Apart s n w (leAt p 8 8) (leAt p 16 4 * 4096)
     post := fun s p t => let n := leAt p 0 2
       Done s t ∧ OnlyRegs s t [.TI_WIN_BASE, .TI_WIN_CTL] ∧ t.evr = s.evr ∧
       windowOf t n (byteAt p 2) = (leAt p 8 8, leAt p 16 4, byteAt p 3 % 2, byteAt p 3 / 2) ∧
       KeptBut s t .TI_WIN_BASE [n * 16 + byteAt p 2] ∧ KeptBut s t .TI_WIN_CTL [n * 16 + byteAt p 2] }] ++
  [{ op := 0x0205, cmd := .tiRemoveWindow
     ok := fun s p => let n := leAt p 0 2
       LiveTi s n ∧ byteAt p 2 < 16 ∧ WindowUsed s n (byteAt p 2) ∧ byteAt p 3 = 0 ∧ s.windowHeld n (byteAt p 2) = false
     post := fun s p t => let n := leAt p 0 2
       let jobs := (s.sched.jobs.filter (fun j => j.ti == n && j.phase != .ready)).map (·.id)
       windowOf t n (byteAt p 2) = (0, 0, 0, 0) ∧ OnlyRegs s t [.TI_WIN_BASE, .TI_WIN_CTL] ∧
       KeptBut s t .TI_WIN_BASE [n * 16 + byteAt p 2] ∧ KeptBut s t .TI_WIN_CTL [n * 16 + byteAt p 2] ∧
       (if jobs = [] ∧ s.writesWait n = false then Done s t else Waits t jobs none) },
   { op := 0x0206, cmd := .tiAssignImt
     ok := fun s p => ImtField s p ∧ (∀ e, e < 4096 → InImt p e → s.flag .IMT_CTL_ASSIGNED e = false) ∧
       s.fget .TI_IMT_USED (leAt p 0 2) + leAt p 6 2 ≤ s.fget .TI_IMT_QUOTA (leAt p 0 2)
     post := fun s p t => let n := leAt p 0 2
       Done s t ∧ OnlyRegs s t [.IMT_CTL, .TI_IMT] ∧ t.evr = s.evr ∧
       (∀ e, InImt p e → t.fget .IMT_CTL_ASSIGNED e = 1 ∧ t.fget .IMT_CTL_OWNER e = n % 1024 ∧
         t.fget .IMT_CTL_PEND e = s.fget .IMT_CTL_PEND e ∧ t.fget .IMT_CTL_MASK e = s.fget .IMT_CTL_MASK e) ∧
       (∀ e, ¬ InImt p e → t.reg .IMT_CTL e = s.reg .IMT_CTL e) ∧
       t.fget .TI_IMT_USED n = s.fget .TI_IMT_USED n + leAt p 6 2 ∧ t.fget .TI_IMT_QUOTA n = s.fget .TI_IMT_QUOTA n },
   { op := 0x0207, cmd := .tiReleaseImt
     ok := fun s p => ImtField s p ∧
       (∀ e, e < 4096 → InImt p e → s.flag .IMT_CTL_ASSIGNED e = true ∧ s.fget .IMT_CTL_OWNER e = leAt p 0 2 ∧
         s.imtNamed (leAt p 0 2) e = false)
     post := fun s p t => let n := leAt p 0 2
       Done s t ∧ RegsKept s t (mailboxRegs ++ [.IMT_CTL, .TI_IMT]) ∧ t.evr = s.evr ∧
       (∀ e, InImt p e → t.fget .IMT_CTL_ASSIGNED e = 0 ∧ t.fget .IMT_CTL_PEND e = 0 ∧ t.fget .IMT_CTL_MASK e = 1) ∧
       (∀ e, ¬ InImt p e → t.reg .IMT_CTL e = s.reg .IMT_CTL e) ∧
       t.fget .TI_IMT_USED n = s.fget .TI_IMT_USED n - leAt p 6 2 }] ++
  [{ op := 0x0208, cmd := .tiQuiesce
     ok := fun s p => leAt p 0 2 < s.part.tenants ∧ s.fget .TI_STATUS_STATE (leAt p 0 2) = 2 ∧ leAt p 2 2 ≤ 1 ∧
       (leAt p 2 2 = 1 → ∀ j ∈ s.sched.jobs, j.ti ≠ leAt p 0 2)
     post := fun s p t => let n := leAt p 0 2
       let jobs := (s.sched.jobs.filter (fun j => j.ti == n)).map (·.id)
       t.fget .TI_STATUS_STATE n = 3 ∧ KeptBut s t .TI_STATUS [n] ∧ t.sched.jobs = s.sched.jobs ∧
       (∀ x ∈ t.sched.prefetch, x ∈ s.sched.prefetch ∧ x.ring ∉ s.ringsOf n) ∧
       (if jobs = [] ∧ s.writesWait n = false ∧ ∀ e ∈ s.rings, e.2.held = [] ∨ s.ringOwner e.1 ≠ n then Done s t else Waits t jobs none) },
   { op := 0x0209, cmd := .tiResume
     ok := fun s p => leAt p 0 2 < s.part.tenants ∧ s.fget .TI_STATUS_STATE (leAt p 0 2) = 3 ∧ ZeroAt p 2 2 ∧
       s.flag .TI_KEY_HOME_DUPLEX_HELD (leAt p 0 2) = false
     post := fun s p t => let n := leAt p 0 2
       Done s t ∧ t.fget .TI_STATUS_STATE n = 2 ∧ KeptBut s t .TI_STATUS [n] ∧
       (∀ r ∈ s.ringsOf n, (t.ringx r).recorded = none ∧
         (s.ringState r = 1 → s.ringFetched r = true → t.fget .RING_FETCH_INDEX r = (s.ringx r).head % 2 ^ 32)) },
   { op := 0x020A, cmd := .tiDestroy
     ok := fun s p => LiveTi s (leAt p 0 2) ∧ ZeroAt p 2 2
     post := fun s p t => let n := leAt p 0 2
       Done s t ∧ t.fget .TI_STATUS_STATE n = 0 ∧ t.pasidOf n = none ∧ (∀ w, w < 16 → windowOf t n w = (0, 0, 0, 0)) ∧
       t.fget .TI_RING_QUOTA n = 0 ∧ t.fget .TI_KEY_QUOTA_VALUE n = 0 ∧ t.fget .TI_STREAM_QUOTA n = 0 ∧ t.fget .TI_IMT_QUOTA n = 0 ∧
       (∀ d, d < 8 → t.reg .TI_RESV (n * 8 + d) = 0) }]

/-- The ring number of a payload. -/
def ringAt (p : Bytes) : Nat := leAt p 0 4

/-- Commands on rings. -/
noncomputable def ringChanges : List Change :=
  [{ op := 0x0301, cmd := .ringCreate
     ok := fun s p => LiveTi s (leAt p 0 2) ∧ byteAt p 2 < 4 ∧ 6 ≤ byteAt p 3 ∧ byteAt p 3 ≤ 16 ∧
       (leAt p 4 4 ≠ 0xFFFFFFFF → leAt p 4 4 < s.part.rings ∧ s.flag .RING_CFG_ALLOCATED (leAt p 4 4) = false) ∧
       (leAt p 4 4 = 0xFFFFFFFF → ∃ r, r < s.part.rings ∧ s.flag .RING_CFG_ALLOCATED r = false) ∧ Passes (s.createChecks p) ∧
       s.fget .TI_RING_USED (leAt p 0 2) < s.fget .TI_RING_QUOTA (leAt p 0 2)
     post := fun s p t => ∃ r, r < s.part.rings ∧ s.flag .RING_CFG_ALLOCATED r = false ∧
       (leAt p 4 4 = r ∨ (leAt p 4 4 = 0xFFFFFFFF ∧ ∀ m, m < r → s.flag .RING_CFG_ALLOCATED m = true)) ∧
       Answered s t mSuccess 0 (leBytes 4 r) ∧ Raised s t 0x6030 r (leAt p 0 2) 1 ∧
       t.flag .RING_CFG_ALLOCATED r = true ∧ t.fget .RING_CFG_TYPE r = byteAt p 2 ∧ t.fget .RING_CFG_LOG2_SIZE r = byteAt p 3 ∧
       t.fget .RING_CFG_OWNER r = leAt p 0 2 % 1024 ∧ t.fget .RING_STATE_STATE r = 0 ∧
       (t.reg .RING_HDR_ADDR r).toNat = leAt p 8 8 ∧ (t.reg .RING_BASE r).toNat = leAt p 16 8 ∧
       t.fget .RING_DIDX_INDEX r = 0 ∧ t.fget .RING_TIDX_INDEX r = 0 ∧
       t.fget .TI_RING_USED (leAt p 0 2) = s.fget .TI_RING_USED (leAt p 0 2) + 1 ∧ KeptBut s t .RING_CFG [r] ∧
       KeptBut s t .RING_STATE [r] ∧ KeptBut s t .RING_BASE [r] },
   { op := 0x0302, cmd := .ringDestroy
     ok := fun s p => LiveRing s (ringAt p) ∧ s.fget .RING_STATE_STATE (ringAt p) = 0 ∧
       (s.fget .RING_CFG_TYPE (ringAt p) = 1 → s.boundSqs (ringAt p) = [])
     post := fun s p t => let r := ringAt p
       Done s t ∧ Raised s t 0x6030 r (s.fget .RING_CFG_OWNER r) 0 ∧ t.flag .RING_CFG_ALLOCATED r = false ∧
       t.reg .RING_BASE r = 0 ∧ t.reg .RING_HDR_ADDR r = 0 ∧ t.ringx r = RingX.blank ∧
       t.fget .TI_RING_USED (s.fget .RING_CFG_OWNER r) = s.fget .TI_RING_USED (s.fget .RING_CFG_OWNER r) - 1 ∧
       KeptBut s t .RING_CFG [r] ∧ KeptBut s t .RING_BASE [r] },
   { op := 0x0303, cmd := .ringEnable
     ok := fun s p => LiveRing s (ringAt p) ∧ s.fget .RING_STATE_STATE (ringAt p) = 0 ∧ s.ringWindows (ringAt p) = true ∧
       (s.fget .RING_CFG_TYPE (ringAt p) = 0 → ∀ c ∈ s.boundCqs (ringAt p), s.fget .RING_STATE_STATE c = 1)
     post := fun s p t => let r := ringAt p
       Done s t ∧ Raised s t 0x6031 r 1 0 ∧ t.fget .RING_STATE_STATE r = 1 ∧ t.fget .RING_STATE_ADMIN_HELD r = 0 ∧
       t.fget .RING_STATE_ABORTING r = 0 ∧ KeptBut s t .RING_STATE [r] ∧
       (s.ringFetched r = true → t.fget .RING_FETCH_INDEX r = (s.ringx r).head % 2 ^ 32 ∧
         t.fget .RING_ARB_CREDIT r = s.fget .RING_ARB_WEIGHT r) },
   { op := 0x0304, cmd := .ringDisable
     ok := fun s p => LiveRing s (ringAt p) ∧ byteAt p 4 < 4 ∧ ZeroAt p 5 3 ∧ s.disableRefused (ringAt p) = false ∧
       (byteAt p 4 % 2 = 1 → ∀ j ∈ s.sched.jobs, j.ring ≠ ringAt p)
     post := fun s p t => let r := ringAt p
       t.fget .RING_STATE_ADMIN_HELD r = (if byteAt p 4 / 2 = 1 then 1 else s.fget .RING_STATE_ADMIN_HELD r) ∧
       KeptBut s t .RING_STATE [r] ∧
       (if s.fget .RING_STATE_STATE r = 0 then Done s t ∧ t.fget .RING_STATE_STATE r = 0
        else Waits t [] (some r) ∧ (t.ringx r).disabling ≠ 0 ∧ (∀ x ∈ t.sched.prefetch, x.ring ≠ r) ∧
          t.fget .RING_STATE_STATE r = (if s.fget .RING_STATE_STATE r = 1 then 2 else s.fget .RING_STATE_STATE r) ∧
          (byteAt p 4 % 2 = 1 → t.fget .RING_STATE_ABORTING r = 1)) },
   { op := 0x0305, cmd := .ringSetArb
     ok := fun s p => LiveRing s (ringAt p) ∧ s.fget .RING_CFG_TYPE (ringAt p) ∈ [0, 3] ∧ 1 ≤ byteAt p 4 ∧ 1 ≤ byteAt p 5 ∧
       byteAt p 5 ≤ 64 ∧ ZeroAt p 6 2
     post := fun s p t => let r := ringAt p
       let w := byteAt p 4
       Done s t ∧ OnlyRegs s t [.RING_ARB] ∧ KeptBut s t .RING_ARB [r] ∧ t.fget .RING_ARB_WEIGHT r = w ∧
       t.fget .RING_ARB_BURST r = byteAt p 5 ∧
       t.fget .RING_ARB_CREDIT r = min (s.fget .RING_ARB_CREDIT r) w },
   { op := 0x0306, cmd := .ringSetInt
     ok := fun s p => LiveRing s (ringAt p) ∧ Passes (s.setIntChecks (ringAt p) p)
     post := fun s p t => let r := ringAt p
       let ty := s.fget .RING_CFG_TYPE r
       Done s t ∧ OnlyRegs s t [.RING_CFG, .RING_INT, .RING_TIME] ∧ KeptBut s t .RING_CFG [r] ∧ KeptBut s t .RING_INT [r] ∧
       KeptBut s t .RING_TIME [r] ∧ (ty = 0 → t.fget .RING_CFG_DL_INT r = byteAt p 7) ∧
       ((ty = 1 ∨ ty = 2) → t.fget .RING_INT_IMT_VALID r = (if leAt p 4 2 = 0xFFFF then 0 else 1) ∧
         (leAt p 4 2 ≠ 0xFFFF → t.fget .RING_INT_IMT r = leAt p 4 2) ∧
         t.fget .RING_INT_COAL_COUNT r = (if byteAt p 6 = 0 then 1 else byteAt p 6) ∧ t.fget .RING_TIME_COAL_US r = leAt p 8 2) ∧
       (ty = 1 → t.fget .RING_TIME_FULL_MS r = (if leAt p 10 2 = 0 then 10 else leAt p 10 2)) }]

/-- Commands on scheduling. -/
noncomputable def schedChanges : List Change :=
  [{ op := 0x0401, cmd := .schedSetShare
     ok := fun s p => LiveTi s (leAt p 0 2) ∧ 1 ≤ leAt p 2 2 ∧ leAt p 2 2 ≤ 1000 ∧ leAt p 4 2 ≤ 4096 ∧ leAt p 6 2 = 0
     post := fun s p t => let n := leAt p 0 2
       Done s t ∧ OnlyRegs s t [.TI_SCHED] ∧ KeptBut s t .TI_SCHED [n] ∧ t.fget .TI_SCHED_SHARE n = leAt p 2 2 ∧
       t.fget .TI_SCHED_READY_LIMIT n = (if leAt p 4 2 = 0 then s.fget .TI_SCHED_READY_LIMIT n else leAt p 4 2) ∧
       Raised s t 0x5003 n (leAt p 2 2) (t.fget .TI_SCHED_READY_LIMIT n) },
   { op := 0x0402, cmd := .schedSetReserve
     ok := fun s p => LiveTi s (leAt p 0 2) ∧ byteAt p 2 < s.dies ∧ byteAt p 3 ≤ 12 ∧ byteAt p 4 ≤ 1 ∧ ZeroAt p 5 3 ∧
       s.reservedTotal (byteAt p 2) (leAt p 0 2) + byteAt p 3 ≤ 12
     post := fun s p t => let i := leAt p 0 2 * 8 + byteAt p 2
       (Done s t ∨ (Waits t [] none ∧ ∃ v ∈ t.sched.leaving, sparseGet 0 t.sched.reserved v = leAt p 0 2 + 1)) ∧
       t.fget .TI_RESV_COUNT i = byteAt p 3 ∧ t.fget .TI_RESV_LEND i = byteAt p 4 ∧
       Raised s t 0x5004 (leAt p 0 2) (byteAt p 2) (byteAt p 3 + 256 * byteAt p 4) },
   { op := 0x0403, cmd := .schedSetBalance
     ok := fun _ p => 2 ≤ leAt p 0 4 ∧ leAt p 0 4 ≤ 1000 ∧ 5 ≤ leAt p 4 4 ∧ leAt p 4 4 ≤ 10000 ∧ 1 ≤ leAt p 8 2 ∧
       leAt p 8 2 ≤ 1024 ∧ byteAt p 10 ≤ 1 ∧ byteAt p 11 = 0
     post := fun s p t => Done s t ∧ RegsKept s t mailboxRegs ∧ t.evr = s.evr ∧
       t.sched = { s.sched with balPeriod := leAt p 0 4, balThresh := leAt p 4 4, balMax := leAt p 8 2,
                                balOn := decide (byteAt p 10 = 1) } },
   { op := 0x0404, cmd := .schedSetWait
     ok := fun _ p => 1 ≤ leAt p 0 4 ∧ leAt p 0 4 ≤ 1000 ∧ 1 ≤ leAt p 4 4 ∧ leAt p 4 4 ≤ 1000 ∧ 12 ≤ leAt p 8 4 ∧
       leAt p 8 4 ≤ 64 ∧ 1 ≤ leAt p 12 4 ∧ leAt p 12 4 ≤ 1000
     post := fun s p t => Done s t ∧ RegsKept s t mailboxRegs ∧ t.evr = s.evr ∧
       t.sched = { s.sched with waitKey := leAt p 0 4, waitSlot := leAt p 4 4, waitLie := leAt p 8 4, waitRestore := leAt p 12 4 } }]

end Sys2Proof.Claims
end

