-- ==== Sys2Proof/Safety/Store.lean ====
section
/-!
DEFINITION. The mailbox commands on the key store, the kernel store, the recorder and the deckles: when each goes ahead, and
what stands afterwards (R226 to R229, R318, R322, R326 to R331, R334, R335, R346, R444, R447, R456).
-/

namespace Sys2Proof.Claims

open Sys2Proof.Machine

/-- The slot that a command names at payload bytes 0 to 7: a live TI, bytes 2 and 3 zero, a slot below its quota. -/
def SlotField (s : State) (p : Bytes) : Prop :=
  LiveTi s (leAt p 0 2) ∧ ZeroAt p 2 2 ∧ leAt p 4 4 < s.fget .TI_KEY_QUOTA_VALUE (leAt p 0 2)

/-- That slot's contents. -/
def named (s : State) (p : Bytes) : KeySlot := s.slot (leAt p 0 2) (leAt p 4 4)

/-- Every other slot of the directory holds what it held. -/
def SlotsKept (s t : State) (ti n : Nat) : Prop := ∀ a b, slotKey a b ≠ slotKey ti n → t.slot a b = s.slot a b

/-- The sealed blob of a key, under the sealing key of the root's shares (R326, R330). -/
def sealedBlob (s : State) (ti : Nat) (k : KeySlot) (iv : Bytes) : Bytes :=
  let e := s.fget .KS_ROOT_EPOCH 0
  let root := xorBytes (sliceZ (s.otp.epochs.getD (e - 1) ⟨[], [], false, 0⟩).share 0 32) (sliceZ s.bbks.share 0 32)
  let h := leBytes 4 0x4253565A ++ leBytes 1 1 ++ leBytes 1 e ++ leBytes 2 ti ++ leBytes 1 k.typ ++ leBytes 1 0 ++
    leBytes 2 k.usage ++ leBytes 4 k.stored.length ++ sliceZ s.otp.deviceId 0 16 ++ iv
  h ++ gcmEncrypt (kmac 256 root (leBytes 1 e) 32 (ascii "ZV-SEAL")) iv h k.stored

/-- ROOT_PROVISION goes ahead (R328), VDD_OTP apart. -/
def ProvisionOk (s : State) : Prop :=
  (∃ e ∈ s.otp.epochs, e.share = [] ∧ e.commit = false) ∧ s.flag .RNG_BORROW_BORROWING 0 = false ∧ s.hold = false

/-- A command that waits for VDD_OTP (R470): it has come to its first program pulse, and nothing else has changed; after
10 ms it ends with INTERNAL_ERROR, and programs nothing. -/
noncomputable def pulseWaits (op : Nat) (cmd : Instr) (ok : State → Bytes → Prop) : Change :=
  { op := op
    cmd := cmd
    ok := fun s p => s.otpGood = false ∧ ok s p
    post := fun s _ t =>
      (s.mbx.otpAt = none → t = { s with mbx := { s.mbx with otpAt := some s.time.ticks } }) ∧
      (∀ a, s.mbx.otpAt = some a → if 10000000 ≤ s.since a then Answered s t mInternalError 0 [] ∧ OnlyAnswer s t else t = s) }

/-- Commands on keys. -/
noncomputable def keyChanges : List Change :=
  [{ op := 0x0502, cmd := .keyDelete
     ok := fun s p => SlotField s p ∧ leAt p 4 4 < importSlot ∧ (named s p).state = .occupied ∧
       ¬ (s.flag .TI_KEY_HOME_DUPLEX_HELD (leAt p 0 2) = true ∧ (named s p).usage.testBit uMirror = true)
     post := fun s p t =>
       let mirrored := s.flag .TI_KEY_HOME_MIRRORED (leAt p 0 2) = true ∧ (named s p).usage.testBit uMirror = true ∧
         s.fget .DUPLEX_STATUS_ROLE 0 = 1 ∧ s.fget .DUPLEX_STATUS_STATE 0 = 5
       named t p = { KeySlot.blank with gen := (named s p).gen } ∧ SlotsKept s t (leAt p 0 2) (leAt p 4 4) ∧
       t.fget .TI_KEY_USED_VALUE (leAt p 0 2) = ((s.tiSlots (leAt p 0 2)).filter (fun e => e.1 != leAt p 4 4) |>.map (·.2.counted)).sum % 2 ^ 32 ∧
       (¬ mirrored → Done s t) ∧
       (mirrored → t.mbx.phase = .waiting ∧ t.mbx.waitSeq = some (s.fget .DUPLEX_TX_SEQ_SEQ 0 + 1)) },
   { op := 0x0503, cmd := .keyMoveHome
     ok := fun s p => s.flag .KS_STATE_DEBUG_LOCKED 0 = false ∧ LiveTi s (leAt p 0 2) ∧ byteAt p 2 < s.dies ∧ byteAt p 3 = 0 ∧
       (byteAt p 2 ≠ s.fget .TI_KEY_HOME_DIE (leAt p 0 2) →
         s.fget .TI_KEY_QUOTA_VALUE (leAt p 0 2) ≤ s.freeGranules (byteAt p 2))
     post := fun s p t => let n := leAt p 0 2
       Done s t ∧ t.fget .TI_KEY_HOME_DIE n = byteAt p 2 ∧ t.slots = s.slots ∧ OnlyRegs s t [.KS_GRANULES, .TI_KEY_HOME] ∧
       (byteAt p 2 ≠ s.fget .TI_KEY_HOME_DIE n → Raised s t 0xC003 n (s.fget .TI_KEY_HOME_DIE n) (byteAt p 2) ∧
         t.fget .KS_GRANULES_RESERVED_Q (byteAt p 2) = s.fget .KS_GRANULES_RESERVED_Q (byteAt p 2) + s.fget .TI_KEY_QUOTA_VALUE n) },
   { op := 0x0504, cmd := .keyPlaceCopy
     ok := fun s p => let k := s.slot (leAt p 0 2) (leAt p 4 4)
       let d := byteAt p 2
       LiveTi s (leAt p 0 2) ∧ d < s.dies ∧ byteAt p 3 ≤ 1 ∧ leAt p 4 4 < s.fget .TI_KEY_QUOTA_VALUE (leAt p 0 2) ∧ k.resident = true ∧
       (byteAt p 3 = 0 → ∃ c ∈ k.copies, c / 2 = d) ∧
       (byteAt p 3 = 1 → (∀ c ∈ k.copies, c / 2 ≠ d) ∧
         s.fget .TI_KEY_USED_VALUE (leAt p 0 2) + 1 ≤ s.fget .TI_KEY_QUOTA_VALUE (leAt p 0 2) ∧
         s.residentFits (s.roomiest d) k.stored.length = true)
     post := fun s p t => let k := named s p
       let d := byteAt p 2
       Done s t ∧ SlotsKept s t (leAt p 0 2) (leAt p 4 4) ∧ (named t p).stored = k.stored ∧ (named t p).gen = k.gen ∧
       (byteAt p 3 = 1 → (named t p).copies = k.copies ++ [s.roomiest d] ∧ (named t p).granules = k.granules + 1) ∧
       (byteAt p 3 = 0 → (∀ c, c ∈ (named t p).copies ↔ c ∈ k.copies ∧ c / 2 ≠ d) ∧ (named t p).granules = k.granules - 1) }] ++
  [{ op := 0x0505, cmd := .keySeal
     ok := fun s p => s.flag .KS_STATE_DEBUG_LOCKED 0 = false ∧ LiveTi s (leAt p 0 2) ∧ ZeroAt p 2 2 ∧
       (leAt p 4 4 < s.fget .TI_KEY_QUOTA_VALUE (leAt p 0 2) ∨ leAt p 4 4 = importSlot) ∧ (named s p).state = .occupied ∧
       (named s p).usage.testBit uExport = true ∧ s.flag .KS_ROOT_VALID 0 = true ∧ s.hold = false ∧ ∃ r, Draws s 12 r
     post := fun s p t => ∃ iv, Draws s 12 iv ∧ Answered s t mSuccess 0 (sealedBlob s (leAt p 0 2) (named s p) iv) ∧
       t.slots = s.slots ∧ Raised s t 0xC004 (leAt p 0 2) (leAt p 4 4) 1 },
   { op := 0x0506, cmd := .keyUnseal
     ok := fun s p => s.flag .KS_STATE_DEBUG_LOCKED 0 = false ∧ SlotField s p ∧ leAt p 4 4 < importSlot ∧ (named s p).state = .empty ∧
       leAt p 14 2 = leAt p 0 2 ∧ ¬ (s.flag .TI_KEY_HOME_DUPLEX_HELD (leAt p 0 2) = true ∧ (leAt p 18 2).testBit uMirror = true) ∧
       s.fget .TI_KEY_USED_VALUE (leAt p 0 2) + blobGranules (p.drop 8) ≤ s.fget .TI_KEY_QUOTA_VALUE (leAt p 0 2) ∧ s.hold = false ∧
       (residentType (byteAt p 16) = true → s.residentFits (s.roomiest (s.keyDie (leAt p 0 2))) (leAt p 20 4) = true) ∧
       ∃ k ty r, s.openBlob (p.drop 8) = some k ∧ keyTypeOf (byteAt p 16) = some ty ∧ Draws s ty.importDraw r ∧ ty.importCheck k r = none
     post := fun s p t => ∃ k, s.openBlob (p.drop 8) = some k ∧ Done s t ∧ SlotsKept s t (leAt p 0 2) (leAt p 4 4) ∧ (named t p).state = .occupied ∧ (named t p).stored = k ∧
       (named t p).typ = byteAt p 16 ∧ (named t p).usage = leAt p 18 2 ∧
       (named t p).gen = (if (named s p).gen = 0xFFFF then 1 else (named s p).gen + 1) ∧ Raised s t 0xC004 (leAt p 0 2) (leAt p 4 4) 2 },
   { op := 0x0507, cmd := .importKeyRotate
     ok := fun s p => s.flag .KS_STATE_DEBUG_LOCKED 0 = false ∧ LiveTi s (leAt p 0 2) ∧ ZeroAt p 2 2 ∧ s.hold = false ∧
       ∃ r, Draws s importPairDraw r
     post := fun s p t => ∃ r, Draws s importPairDraw r ∧ Done s t ∧ (let g := (s.slot (leAt p 0 2) importSlot).gen
       (t.slot (leAt p 0 2) importSlot).gen = (if g = 0xFFFF then 1 else g + 1) ∧
       (t.slot (leAt p 0 2) importSlot).stored = importPairOf r ∧ (t.slot (leAt p 0 2) importSlot).state = .occupied ∧
       SlotsKept s t (leAt p 0 2) importSlot ∧ Raised s t 0xC012 (leAt p 0 2) (if g = 0xFFFF then 1 else g + 1) 0) },
   { op := 0x0508, cmd := .rootProvision
     ok := fun s _ => s.otpGood = true ∧ ProvisionOk s ∧
       s.duplex.unacked = [] ∧ 64 + identityDraw ≤ (s.rngOf 0).mpRand.length
     post := fun s _ t => ∃ k r, s.freeEpoch = some k ∧ r = (s.rngOf 0).mpRand.take (64 + identityDraw) ∧ Done s t ∧
       t.fget .KS_ROOT_EPOCH 0 = (k + 1) % 32 ∧ t.flag .KS_ROOT_VALID 0 = true ∧ t.bbks.share = sliceZ r 32 32 ∧
       t.bbks.identity = identityOf (r.drop 64) ∧ t.bbks.paired = false ∧
       (∀ e, t.otp.epochs[k]? = some e → e.share = sliceZ r 0 32 ∧ e.commit = true ∧ e.owner = s.ownerSlot.getD 0) ∧
       (∀ i, i ≠ k → t.otp.epochs[i]? = s.otp.epochs[i]?) ∧ t.fget .PROT_ERASE_LATCHED 0 = 0 ∧ t.fget .PROT_ERASE_COUNT 0 = 0 ∧
       t.flag .DEV_READY_ROOT 0 = true }]

/-- The registers of one word for each digest channel. -/
def channelCounts : List RegKind :=
  [.DGE_CTL, .DGE_STAT, .DGE_COUNT, .DGE_BLOCKS, .DGE_FIN_SEQ, .DGE_LAST_LEN, .DGE_RESTARTS, .DGE_CMP, .DGE_VERDICT_A, .DGE_VERDICT_B]

/-- Nothing but digest channel `n` has changed (R263, R264, R271), and the record of what it left unfinished or began
anew, which neither a free channel nor one in the midst of its digest with nothing left to absorb makes. -/
def OnlyChannel (n : Nat) (s u : State) : Prop :=
  u = { s with regs := u.regs, dge := u.dge, evr := u.evr, free := u.free } ∧
    RegsKept s u (channelCounts ++ [.DGE_DIGEST, .DGE_EXPECT, .EVR_LOST]) ∧ (∀ k ∈ channelCounts, KeptBut s u k [n]) ∧
    KeptBut s u .DGE_DIGEST ((List.range 16).map (n * 16 + ·)) ∧ KeptBut s u .DGE_EXPECT ((List.range 16).map (n * 16 + ·)) ∧
    (∀ c, c ≠ n → u.dgeAt c = s.dgeAt c) ∧
    ((∀ b, (s.dgeAt n).bind = some b → (s.dgeAt n).fin = false ∧ (b.job = none → b.left = 0)) → u.evr = s.evr)

/-- Commands on kernels. -/
noncomputable def kernelChanges : List Change :=
  [{ op := 0x0B10, cmd := .kernelStageOpen
     ok := fun _ p => byteAt p 0 ≤ 31 ∧ ZeroAt p 1 3 ∧ leAt p 4 4 ≤ 73728
     post := fun s p t => Done s t ∧ t.kstage = ⟨some (byteAt p 0), leAt p 4 4, []⟩ ∧
       (∃ u, OnlyChannel 1 { s with kstage := t.kstage } u ∧ OnlyAnswer u t) ∧
       (s.fget .DGE_STAT_STATE 1 = 0 → (s.dgeAt 1).bind = none → 5454 < leAt p 4 4 →
         t.fget .DGE_STAT_STATE 1 = 2 ∧ t.fget .DGE_STAT_SOURCE 1 = 2 ∧ t.fget .DGE_CTL_FUNC 1 = 10 ∧ t.reg .DGE_COUNT 1 = 0 ∧
         ∃ b, (t.dgeAt 1).bind = some b ∧ b.left = leAt p 4 4 - 5454) },
   { op := 0x0B11, cmd := .kernelStageData
     ok := fun s p => s.kstage.target ≠ none ∧ leAt p 0 4 = s.kstage.data.length ∧ leAt p 4 4 = 0 ∧
       s.kstage.data.length + (p.drop 8).length ≤ s.kstage.size
     post := fun s p t => Done s t ∧ t.kstage = { s.kstage with data := s.kstage.data ++ p.drop 8 } ∧ t.kernels = s.kernels ∧
       (∃ u, OnlyChannel 1 { s with kstage := t.kstage } u ∧ OnlyAnswer u t) ∧
       ((s.dgeAt 1).bind = none → OnlyAnswer { s with kstage := t.kstage } t) ∧
       ((s.dgeAt 1).fin = false → t.evr = s.evr) ∧
       (∀ b, (s.dgeAt 1).bind = some b → b.job = none → b.left ≠ 0 →
         t.reg .DGE_COUNT 1 = s.reg .DGE_COUNT 1 + BitVec.ofNat 64 (min b.left (p.drop 8).length) ∧
         ∃ c, (t.dgeAt 1).bind = some c ∧ c.left = b.left - (p.drop 8).length) },
   { op := 0x0B12, cmd := .kernelCommit
     ok := fun _ p => byteAt p 0 ≤ 31 ∧ ZeroAt p 1 3
     post := fun s p t => let m := s.kstage.data.take (kMessageLen s.kstage.data)
       (∀ st d, s.commitFail (byteAt p 0) = some (st, d) → Answered s t st d [] ∧ t.kernels = s.kernels ∧
         ∃ u, OnlyChannel 1 s u ∧ Raised u t 0x8203 (byteAt p 0) st 0) ∧
       ((∀ x ∈ s.commitFail (byteAt p 0), x.1 ∈ [mNotAuthorised, mVerifyFailed, mNoResource]) → s.dgeDirect 1 = true →
         t.flag .DGE_CMP_DONE 1 = true) ∧
       (s.commitFail (byteAt p 0) = none →
         ∃ b, Done s t ∧ s.freeBlocks (kernelOf m 0).blocks = some b ∧ t.kernelAt (byteAt p 0) = kernelOf m b ∧
         (∀ i, i ≠ byteAt p 0 → t.kernelAt i = s.kernelAt i) ∧
         ∃ u, OnlyChannel 1 s u ∧ Raised u t 0x8201 (byteAt p 0) (leAt m 20 4) (leAt (sha3 48 m) 0 4) ∧
           RegsKept u t (mailboxRegs ++ [.EVR_LOST])) },
   { op := 0x0B13, cmd := .kernelRemove
     ok := fun s p => byteAt p 0 ≤ 31 ∧ ZeroAt p 1 3 ∧ (s.kernelAt (byteAt p 0)).header ≠ []
     post := fun s p t => let i := byteAt p 0
       let jobs := (s.callsOf i true).map (·.id)
       Raised s t 0x8202 i (leAt (s.kernelAt i).header 20 4) (s.callsOf i false).length ∧
       (∀ k, k ≠ i → t.kernelAt k = s.kernelAt k) ∧
       (if jobs = [] then Done s t ∧ t.kernelAt i = Kernel.none
        else Waits t jobs none ∧ t.kernelAt i = { s.kernelAt i with callable := false }) }]

/-- Commands on the recorder, and ACL_RECORD. -/
noncomputable def recorderChanges : List Change :=
  [{ op := 0x0A03, cmd := .evrClear
     ok := fun s p => byteAt p 0 ≤ 31 ∧ ZeroAt p 1 3 ∧ (30 ≤ byteAt p 0 → s.cmdAuthed = true)
     post := fun s p t => Done s t ∧ t.chan (byteAt p 0) = [] ∧ (∀ c, c ≠ byteAt p 0 → t.chan c = s.chan c) ∧
       OnlyRegs s t [] ∧ Raised s t 0x0001 (byteAt p 0) (s.chan (byteAt p 0)).length (if s.cmdAuthed then 2 else 1) },
   { op := 0x0A04, cmd := .evrSet
     ok := fun s p => let c := byteAt p 0
       c ≤ 31 ∧ byteAt p 1 < 4 ∧ ZeroAt p 6 2 ∧ ((byteAt p 1).testBit 1 = true → leAt p 4 2 < 2 ^ 14) ∧
       ((byteAt p 1).testBit 0 = true → c ≠ 31 ∧ leAt p 2 2 % 64 = 0 ∧ leAt p 2 2 ≤ 8192 ∧ s.chan c = [] ∧
         ((List.range 31).map (fun x => if x = c then leAt p 2 2 else s.fget .EVR_COUNT_QUOTA x)).sum ≤ 8192)
     post := fun s p t => let c := byteAt p 0
       Done s t ∧ OnlyRegs s t [.EVR_COUNT, .EVR_THRESH] ∧ KeptBut s t .EVR_COUNT [c] ∧ KeptBut s t .EVR_THRESH [c] ∧
       t.fget .EVR_COUNT_QUOTA c = (if (byteAt p 1).testBit 0 then leAt p 2 2 else s.fget .EVR_COUNT_QUOTA c) ∧
       t.fget .EVR_THRESH_THRESH c = (if (byteAt p 1).testBit 1 then leAt p 4 2 else s.fget .EVR_THRESH_THRESH c) ∧
       Raised s t 0x0002 c (t.fget .EVR_COUNT_QUOTA c) (t.fget .EVR_THRESH_THRESH c) },
   { op := 0x0E03, cmd := .aclRecord
     ok := fun s p => (leAt p 0 2 = 0xFFFF ∨ s.hasDeckle (leAt p 0 2) = true) ∧ byteAt p 2 ≤ 1 ∧ byteAt p 3 = 0
     post := fun s p t => Done s t ∧ RegsKept s t mailboxRegs ∧
       ∀ k, t.dklAt k = (if (leAt p 0 2 = 0xFFFF ∧ k < 64 ∧ s.hasDeckle k = true) ∨ (leAt p 0 2 ≠ 0xFFFF ∧ k = leAt p 0 2)
         then { s.dklAt k with quiet := decide (byteAt p 2 = 0) } else s.dklAt k) }]

end Sys2Proof.Claims
end

