-- ==== Sys2Proof/Safety/Duplex.lean ====
section
/-!
DEFINITION. Rows of the key store's own work, of the pairing handshake, and of the mirror protocol of a duplex pair
(R320, R321, R336 to R345).
-/

namespace Sys2Proof.Claims

open Sys2Proof.Machine

/-- The key store's own work. -/
noncomputable def keyStoreRows : List Row :=
  [{ Arg := Nat × Nat
     cmd := fun a => .keyRemaskPass a.1 a.2
     ok := fun s a => a.1 < s.dies ∧ s.flag .KS_STATE_READY a.1 = true ∧ (s.rngOf a.1).remaskQ = 0 ∧
       1000000000 ≤ (s.elapse a.2).since (s.rngOf a.1).remaskAt
     post := fun s a t =>
       let u := s.elapse a.2
       let n := 64 * s.dieGranules a.1
       (t.rngOf a.1).remaskAt = u.time.ticks ∧ t.slots = s.slots ∧
         (s.hold = true → Counted s t .KS_REMASK_SKIPS a.1 ∧ Raised u t 0xC002 a.1 0 0) ∧
         (s.hold = false → n = 0 → Counted s t .KS_REMASK_PASSES a.1 ∧ t.evr = s.evr) ∧
         (s.hold = false → n ≠ 0 → (t.rngOf a.1).remaskQ = n ∧ t.regs = s.regs) },
   { Arg := Nat × Nat
     cmd := fun a => .keyStoreEccLoss a.1 a.2 true
     ok := fun s a => (s.slot a.1 a.2).state = .occupied
     post := fun s a t => Counted s t .KS_ECC_CORRECTED (s.keyDie a.1) ∧ RegsOnly s t [.KS_ECC] },
   { Arg := Nat × Nat
     cmd := fun a => .keyStoreEccLoss a.1 a.2 false
     ok := fun s a => (s.slot a.1 a.2).state = .occupied
     post := fun s a t => t.slot a.1 a.2 = { KeySlot.blank with gen := (s.slot a.1 a.2).gen } ∧ SlotsKept s t a.1 a.2 ∧
       Counted s t .KS_ECC_UNCORRECTED (s.keyDie a.1) ∧ Raised s t 0xC001 (s.keyDie a.1) a.1 a.2 }]

/-- The pair record that a handshake writes, and the role that a new pair takes (R337). -/
def Established (s t : State) (p : Pairing) (secret : Bytes) : Prop :=
  t.bbks.paired = true ∧ t.bbks.secret = secret ∧ t.bbks.keyI2R = dirKey secret "I2R" ∧ t.bbks.keyR2I = dirKey secret "R2I" ∧
    t.bbks.peer = p.hash ∧ t.bbks.initiator = p.initiator ∧ t.bbks.share = s.bbks.share ∧ t.duplex.pairing = none ∧
    (p.renew = true → t.reg .DUPLEX_STATUS 0 = s.reg .DUPLEX_STATUS 0) ∧
    (p.renew = false → t.fget .DUPLEX_STATUS_ROLE 0 = (if p.initiator then 1 else 2) ∧ Records s t 0xC020)

/-- The handshake. -/
noncomputable def pairingRows : List Row :=
  [{ Arg := (Nat × Bytes × Bytes) × Pairing
     cmd := fun a => .pair1 a.1.1 a.1.2.1 a.1.2.2
     ok := fun s a => s.responderSide = some a.2 ∧ a.2.t2 = [] ∧ a.1.2.2.length = pairMsgLen ∧ pairOk a.2.hash a.1.2.2 true = true ∧
       ∃ r, Draws s pairDraw2 r
     post := fun s a t =>
       ∃ m sig p, t.out = s.out ++ [.mirror 0 (.pair2 (s.idPublic ++ m ++ sig)) []] ∧ t.duplex.pairing = some p ∧ p.initiator = a.2.initiator ∧
         p.hash = a.2.hash ∧ p.msg1 = a.1.2.2 ∧ p.t2 = sha3 48 (a.1.2.2 ++ (s.idPublic ++ m)) ∧ t.bbks = s.bbks ∧
         t.reg .DUPLEX_STATUS 0 = s.reg .DUPLEX_STATUS 0 },
   { Arg := (Nat × Bytes × Bytes) × Pairing
     cmd := fun a => .pair2 a.1.1 a.1.2.1 a.1.2.2
     ok := fun s a =>
       let m := a.1.2.2.take pairMsgLen
       s.duplex.pairing = some a.2 ∧ a.2.initiator = true ∧ a.1.2.2.length = pairMsgLen + 4723 ∧ pairOk a.2.hash m false = true ∧
         ∃ r, Draws s idSignDraw r
     post := fun s a t =>
       let m := a.1.2.2.take pairMsgLen
       let t2 := sha3 48 (a.2.msg1 ++ m)
       let good := idVerify (pairId m) t2 (a.1.2.2.drop pairMsgLen)
       (good = false → t = s) ∧
       (good = true → ∃ r, Draws s idSignDraw r ∧ t.out = s.out ++ [.mirror 0 (.pair3 (s.idSign (pair3Text t2) [] r)) []] ∧
         Established s t a.2 (pairSecret (pqDecaps 3 2 (a.2.eph.take 64) (pairKem m)) (ecDeriveOf .x448 (a.2.eph.drop 64) (pairX m)) t2)) },
   { Arg := (Nat × Bytes × Bytes) × Pairing
     cmd := fun a => .pair3 a.1.1 a.1.2.1 a.1.2.2
     ok := fun s a => s.duplex.pairing = some a.2 ∧ a.2.initiator = false ∧ a.2.t2 ≠ []
     post := fun s a t =>
       let good := idVerify (pairId a.2.msg1) (pair3Text a.2.t2) a.1.2.2
       t.out = s.out ∧ (good = false → t = s) ∧ (good = true → Established s t a.2 a.2.eph) ∧
       (good = true → a.2.renew = false → ∀ n, n < s.part.tenants → s.flag .TI_KEY_HOME_MIRRORED n = true → s.fget .TI_STATUS_STATE n = 2 →
         t.fget .TI_STATUS_STATE n = 3 ∧ t.flag .TI_KEY_HOME_DUPLEX_HELD n = true) },
   { Arg := Nat × Pairing
     cmd := fun a => .pairingTimeout a.1
     ok := fun s a => s.duplex.pairing = some a.2 ∧ 10000000000 ≤ (s.elapse a.1).since a.2.at_ ∧ s.duplex.unacked = [] ∧
       s.mbx.phase ≠ .waiting
     post := fun s a t => t.duplex.pairing = none ∧ (a.2.renew = true → t.bbks = s.bbks ∧ t.regs = s.regs) ∧
       (a.2.renew = false → t.bbks.paired = false ∧ t.fget .DUPLEX_STATUS_STATE 0 = 0 ∧ t.fget .DUPLEX_STATUS_ROLE 0 = 0) },
   { Arg := Nat
     cmd := .pairRekey
     ok := fun s dt => s.paired = true ∧ s.bbks.initiator = true ∧ s.flag .KS_ROOT_VALID 0 = true ∧ s.duplex.pairing = none ∧
       86400000000000 ≤ (s.elapse dt).since s.duplex.keyTick ∧ ∃ r, Draws s pairDraw1 r
     post := fun s _ t => ∃ p, t.duplex.pairing = some p ∧ p.initiator = true ∧ p.renew = true ∧ p.hash = s.bbks.peer ∧
       t.out = s.out ++ [.mirror 0 (.pair1 p.msg1) []] ∧ t.bbks = s.bbks ∧ t.fget .DUPLEX_STATUS_STATE 0 = s.fget .DUPLEX_STATUS_STATE 0 }]

/-- A valid message that is no copy: a pair is held and the sequence number is new (R338). -/
def NewMessage (s : State) (seq : Nat) : Prop := s.paired = true ∧ s.fget .DUPLEX_RX_SEQ_SEQ 0 < seq ∧ seq < 2 ^ 64

/-- The package is the standby of a pair that synchronises or is in step. -/
def OnStandby (s : State) : Prop := s.fget .DUPLEX_STATUS_ROLE 0 = 2 ∧ s.fget .DUPLEX_STATUS_STATE 0 ∈ [4, 5]

/-- The package is the active of such a pair, and its peer has shown itself as the standby. -/
def OnActive (s : State) : Prop :=
  s.fget .DUPLEX_STATUS_ROLE 0 = 1 ∧ s.fget .DUPLEX_STATUS_STATE 0 ∈ [4, 5] ∧ s.duplex.peerRole = 2

/-- The answer to message `seq`. -/
def Acknowledges (s t : State) (seq : Nat) (yes : Bool) : Prop :=
  let q := s.fget .DUPLEX_TX_SEQ_SEQ 0 + 1
  t.out = s.out ++ [.mirror q (.ack seq yes) (s.mirrorWire q (.ack seq yes))] ∧ t.fget .DUPLEX_TX_SEQ_SEQ 0 = q % 2 ^ 64 ∧
    t.fget .DUPLEX_RX_SEQ_SEQ 0 = seq

/-- A mirrored TI of the standby. -/
def MirrorTi (s : State) (n : Nat) : Prop := LiveTi s n ∧ s.flag .TI_KEY_HOME_MIRRORED n = true

/-- A key has been stored as the active holds it. -/
def KeyTaken (t : State) (ti slot gen typ usage : Nat) (b : Bytes) : Prop :=
  let k := t.slot ti slot
  k.state = .occupied ∧ k.gen = gen ∧ k.typ = typ ∧ k.usage = usage ∧ k.stored = b

/-- Messages on the standby. -/
noncomputable def standbyRows : List Row :=
  [{ Arg := Nat × Nat × MirrorBody
     cmd := fun a => .mirrorMessage a.1 a.2.1 false a.2.2
     ok := fun s _ => s.paired = true
     post := fun s a t => Counted s t dupAuthFail 0 ∧ Raised s t 0xC025 (if a.1 = 0 then s.duplex.portA else s.duplex.portB) (a.2.1 % 2 ^ 32) 0 ∧
       t.duplex = s.duplex ∧ t.slots = s.slots ∧ t.out = s.out ∧ RegsKept s t [.DUPLEX_ERRORS, .EVR_LOST] },
   { Arg := Nat × Nat × MirrorBody
     cmd := fun a => .mirrorMessage a.1 a.2.1 true a.2.2
     ok := fun s a => s.paired = true ∧ a.2.1 ≤ s.fget .DUPLEX_RX_SEQ_SEQ 0
     post := fun s a t => t = { s with duplex := t.duplex } ∧ t.duplex.heard = s.time.ticks ∧
       (if a.1 = 0 then t.duplex.heardA = some s.time.ticks ∧ t.duplex.heardB = s.duplex.heardB
        else t.duplex.heardB = some s.time.ticks ∧ t.duplex.heardA = s.duplex.heardA) },
   { Arg := Nat × Nat × Nat × Nat
     cmd := fun a => .mirrorMessage a.1 a.2.1 true (.keyDelete a.2.2.1 a.2.2.2)
     ok := fun s a => NewMessage s a.2.1 ∧ OnStandby s ∧ MirrorTi s a.2.2.1
     post := fun s a t => Acknowledges s t a.2.1 true ∧
       t.slot a.2.2.1 a.2.2.2 = { KeySlot.blank with gen := (s.slot a.2.2.1 a.2.2.2).gen } ∧ SlotsKept s t a.2.2.1 a.2.2.2 },
   { Arg := (Nat × Nat) × (Nat × Nat × Nat) × Nat × Nat × Bytes
     cmd := fun a => .keyPut a.1.1 a.1.2 a.2.1.1 a.2.1.2.1 a.2.1.2.2 a.2.2.1 a.2.2.2.1 a.2.2.2.2
     ok := fun s a =>
       let ti := a.2.1.1
       let slot := a.2.1.2.1
       NewMessage s a.1.2 ∧ OnStandby s ∧ MirrorTi s ti ∧ slot < s.fget .TI_KEY_QUOTA_VALUE ti ∧
         s.fget .TI_KEY_USED_VALUE ti - (s.slot ti slot).counted + keyGranules a.2.2.1 a.2.2.2.2.length ≤ s.fget .TI_KEY_QUOTA_VALUE ti ∧
         (residentType a.2.2.1 = true → let u := s.setSlot ti slot KeySlot.blank
           u.residentFits (u.roomiest (s.keyDie ti)) a.2.2.2.2.length = true)
     post := fun s a t =>
       let ti := a.2.1.1
       let slot := a.2.1.2.1
       Acknowledges s t a.1.2 true ∧ KeyTaken t ti slot a.2.1.2.2 a.2.2.1 a.2.2.2.1 a.2.2.2.2 ∧ SlotsKept s t ti slot ∧
         slotKey ti slot ∈ t.duplex.named },
   { Arg := (Nat × Nat) × (Nat × Nat × Nat) × Nat × Nat × Bytes
     cmd := fun a => .keyPut a.1.1 a.1.2 a.2.1.1 a.2.1.2.1 a.2.1.2.2 a.2.2.1 a.2.2.2.1 a.2.2.2.2
     ok := fun s a => NewMessage s a.1.2 ∧ OnStandby s ∧ (¬ MirrorTi s a.2.1.1 ∨ s.fget .TI_KEY_QUOTA_VALUE a.2.1.1 ≤ a.2.1.2.1)
     post := fun s a t => Acknowledges s t a.1.2 false ∧ Counted s t dupRefused 0 ∧ t.fget .DUPLEX_STATUS_STATE 0 = 6 ∧
       t.slots = s.slots },
   { Arg := Nat × Nat
     cmd := fun a => .syncBegin a.1 a.2
     ok := fun s a => NewMessage s a.2 ∧ s.fget .DUPLEX_STATUS_ROLE 0 = 2
     post := fun s a t => t.fget .DUPLEX_STATUS_STATE 0 = 4 ∧ t.duplex.named = [] ∧ t.duplex.namedCtx = [] ∧ t.slots = s.slots ∧
       t.out = s.out ∧ t.fget .DUPLEX_RX_SEQ_SEQ 0 = a.2 },
   { Arg := Nat × Nat
     cmd := fun a => .syncEnd a.1 a.2
     ok := fun s a => NewMessage s a.2 ∧ s.fget .DUPLEX_STATUS_ROLE 0 = 2 ∧ s.fget .DUPLEX_STATUS_STATE 0 = 4 ∧
       ∀ e ∈ s.mirrorCtxs, e.1 ∈ s.duplex.namedCtx
     post := fun s a t => t.fget .DUPLEX_STATUS_STATE 0 = 5 ∧ Acknowledges s t a.2 true ∧
       Raised s t 0xC026 s.duplex.named.length s.duplex.namedCtx.length 0 ∧
       ∀ ti sl, sl < 2 ^ 24 →
         ((slotKey ti sl ∈ s.duplex.named → t.slot ti sl = s.slot ti sl) ∧
          ((s.slot ti sl).state = .occupied → (s.slot ti sl).usage.testBit uMirror = true → s.flag .TI_KEY_HOME_MIRRORED ti = true →
            slotKey ti sl ∉ s.duplex.named → t.slot ti sl = { KeySlot.blank with gen := (s.slot ti sl).gen })) }]

/-- A message of the active that waits for its acknowledgement, with no CQE and no mailbox answer behind it. -/
def Unacked (s : State) (q : Nat) (u : Nat × Nat × Option Nat × Nat) : Prop :=
  s.duplex.unacked.find? (fun x => x.1 == q) = some u ∧ u.2.2.1 = none ∧ s.mbx.phase ≠ .waiting

/-- Message `q` waits no longer. -/
def AckSettled (s t : State) (q : Nat) : Prop := t.duplex.unacked = s.duplex.unacked.filter (fun x => x.1 != q)

/-- Acknowledgements and heartbeats, and the loss of the mirror links. -/
noncomputable def activeRows : List Row :=
  [{ Arg := (Nat × Nat × Nat) × (Nat × Nat × Option Nat × Nat)
     cmd := fun a => .mirrorAck a.1.1 a.1.2.1 a.1.2.2 true
     ok := fun s a => NewMessage s a.1.2.1 ∧ OnActive s ∧ Unacked s a.1.2.2 a.2
     post := fun s a t => AckSettled s t a.1.2.2 ∧ t.fget .DUPLEX_LAG_VALUE 0 = s.fget .DUPLEX_LAG_VALUE 0 - 1 ∧
       (s.duplex.syncEnd = some a.1.2.2 → s.fget .DUPLEX_STATUS_STATE 0 = 4 →
         t.fget .DUPLEX_STATUS_STATE 0 = 5 ∧ t.duplex.syncEnd = none ∧ Raised s t 0xC026 s.duplex.synced.1 s.duplex.synced.2 0) ∧
       (s.duplex.syncEnd ≠ some a.1.2.2 → t.fget .DUPLEX_STATUS_STATE 0 = s.fget .DUPLEX_STATUS_STATE 0 ∧ t.evr = s.evr) },
   { Arg := (Nat × Nat × Nat) × (Nat × Nat × Option Nat × Nat)
     cmd := fun a => .mirrorAck a.1.1 a.1.2.1 a.1.2.2 false
     ok := fun s a => NewMessage s a.1.2.1 ∧ OnActive s ∧ Unacked s a.1.2.2 a.2
     post := fun s a t => AckSettled s t a.1.2.2 ∧ Counted s t dupRefused 0 ∧ t.fget .DUPLEX_STATUS_STATE 0 = 6 ∧
       Raised s t 0xC022 (a.1.2.2 % 2 ^ 32) 2 a.2.2.2.2 },
   { Arg := (Nat × Nat × Nat) × (Nat × Nat × Option Nat × Nat) × Job
     cmd := fun a => .mirrorAck a.1.1 a.1.2.1 a.1.2.2 true
     ok := fun s a => NewMessage s a.1.2.1 ∧ OnActive s ∧ s.duplex.unacked.find? (fun x => x.1 == a.1.2.2) = some a.2.1 ∧
       a.2.1.2.2.1 = some a.2.2.id ∧ s.job? a.2.2.id = some a.2.2 ∧ s.duplex.syncEnd ≠ some a.1.2.2 ∧ CqFits s a.2.2
     post := fun s a t => AckSettled s t a.1.2.2 ∧ t.sched.jobs = s.sched.jobs.filter (fun x => x.id != a.2.2.id) ∧
       (let cq := s.jobCq a.2.2
        (s.ringx cq).held = [] → 0 < s.ringFree cq → t.didx cq = (s.didx cq + 1) % 2 ^ 32) },
   { Arg := Nat × (Nat × Nat × Option Nat × Nat)
     cmd := fun a => .mirrorAckTimeout a.1
     ok := fun s a => s.duplex.unacked.head? = some a.2 ∧ s.duplex.ackMs * 1000000 ≤ (s.elapse a.1).since a.2.2.1 ∧ a.2.2.2.1 = none ∧
       s.mbx.phase ≠ .waiting
     post := fun s a t => AckSettled s t a.2.1 ∧ Raised (s.elapse a.1) t 0xC022 (a.2.1 % 2 ^ 32) 1 a.2.2.2.2 ∧
       t.fget .DUPLEX_STATUS_STATE 0 = (if s.fget .DUPLEX_STATUS_STATE 0 = 4 ∨ s.fget .DUPLEX_STATUS_STATE 0 = 5 then 6
         else s.fget .DUPLEX_STATUS_STATE 0) },
   { Arg := Nat
     cmd := .heartbeat
     ok := fun s dt => s.paired = true ∧ s.duplex.hbPeriod * 1000000 ≤ (s.elapse dt).since s.duplex.beat
     post := fun s dt t =>
       let q := s.fget .DUPLEX_TX_SEQ_SEQ 0 + 1
       let b := .heartbeat (s.fget .DUPLEX_STATUS_ROLE 0) (s.fget .DUPLEX_EPOCH_VALUE 0) (s.fget .DUPLEX_STATUS_STATE 0)
       t.out = s.out ++ [.mirror q b (s.mirrorWire q b)] ∧
         t.fget .DUPLEX_TX_SEQ_SEQ 0 = q % 2 ^ 64 ∧ t.duplex = { s.duplex with beat := (s.elapse dt).time.ticks } ∧
         RegsKept s t [.DUPLEX_TX_SEQ] },
   { Arg := Nat × Nat × Nat × Nat × Nat
     cmd := fun a => .heartbeatReceived a.1 a.2.1 a.2.2.1 a.2.2.2.1 a.2.2.2.2
     ok := fun s a => NewMessage s a.2.1 ∧ s.fget .DUPLEX_STATUS_ROLE 0 ∈ [1, 2] ∧ a.2.2.1 ∈ [1, 2] ∧ s.fget .DUPLEX_STATUS_STATE 0 ∈ [1, 2, 3, 4, 5, 6, 7]
     post := fun s a t =>
       let role := s.fget .DUPLEX_STATUS_ROLE 0
       let peer := a.2.2.1
       let st := s.fget .DUPLEX_STATUS_STATE 0
       let q := s.fget .DUPLEX_TX_SEQ_SEQ 0 + 1
       t.duplex.peerRole = peer ∧ t.duplex.peerEpoch = a.2.2.2.1 ∧ t.duplex.peerState = a.2.2.2.2 ∧ t.duplex.heard = s.time.ticks ∧
         t.fget .DUPLEX_STATUS_ROLE 0 = role ∧
         (role = 1 → peer = 1 → t.fget .DUPLEX_STATUS_STATE 0 = 7 ∧ (st ≠ 7 → Records s t 0xC024)) ∧
         (role = 2 → peer = 2 → t.fget .DUPLEX_STATUS_STATE 0 = 3) ∧
         (role ≠ peer → st ∈ [4, 5] → t.fget .DUPLEX_STATUS_STATE 0 = st ∧ t.out = s.out) ∧
         (role = 2 → peer = 1 → st ∉ [4, 5] → t.fget .DUPLEX_STATUS_STATE 0 = 4 ∧ t.out = s.out) ∧
         (role = 1 → peer = 2 → st ∉ [4, 5] → s.keysLocked = true → t.fget .DUPLEX_STATUS_STATE 0 = st ∧ t.out = s.out) ∧
         (role = 1 → peer = 2 → st ∉ [4, 5] → s.keysLocked = false → t.fget .DUPLEX_STATUS_STATE 0 = 4 ∧ (∃ l, t.out = s.out ++ .mirror q .syncBegin (s.mirrorWire q .syncBegin) :: l) ∧
           t.duplex.syncEnd.isSome = true) },
   { Arg := Nat
     cmd := .mirrorLinkLost
     ok := fun s dt => s.paired = true ∧ s.fget .DUPLEX_STATUS_STATE 0 ≠ 2 ∧
       s.duplex.hbMiss * s.duplex.hbPeriod * 1000000 ≤ (s.elapse dt).since s.duplex.heard
     post := fun s dt t =>
       let sync := s.fget .DUPLEX_STATUS_STATE 0 = 5
       let goes := s.fget .DUPLEX_STATUS_ROLE 0 = 2 ∧ sync ∧ s.flag .DUPLEX_STATUS_AUTO_PROMOTE 0 = true
       t.fget .DUPLEX_STATUS_STATE 0 = 2 ∧ (t.duplex.fromSync = true ↔ sync) ∧ t.duplex.peerRole = 0 ∧ Records (s.elapse dt) t 0xC021 ∧
         (goes → t.fget .DUPLEX_STATUS_ROLE 0 = 1 ∧ t.fget .DUPLEX_EPOCH_VALUE 0 = (s.fget .DUPLEX_EPOCH_VALUE 0 + 1) % 2 ^ 32 ∧
           Records (s.elapse dt) t 0xC023 ∧ ∀ n, n < s.part.tenants → s.flag .TI_KEY_HOME_DUPLEX_HELD n = true →
             t.flag .TI_KEY_HOME_DUPLEX_HELD n = false ∧ t.fget .TI_STATUS_STATE n = 2) ∧
         (¬ goes → t.fget .DUPLEX_STATUS_ROLE 0 = s.fget .DUPLEX_STATUS_ROLE 0 ∧
           t.fget .DUPLEX_EPOCH_VALUE 0 = s.fget .DUPLEX_EPOCH_VALUE 0) }]

end Sys2Proof.Claims
end

