-- ==== Sys2Proof/Safety/Resets.lean ====
section
/-!
DEFINITION. Rows of resets, main power and the backup cell, boot, readiness, installation and built-in tests
(R25, R372 to R387, R393, R397, R469, R474, R479).
-/

namespace Sys2Proof.Claims

open Sys2Proof.Machine

/-- What a reset of the device leaves (Table 13.1): BOOT, the queues, rings, jobs, keys and contexts gone, every register
outside the AO domain at its reset value; the OTP, the flash, and without an erase the battery-backed store stay. -/
def ResetDone (s t : State) : Prop :=
  t.mode = 1 ∧ t.boot.phase = 0 ∧ t.mbx.phase = .idle ∧ t.rings = [] ∧ t.sched.jobs = [] ∧ t.sched.prefetch = [] ∧ t.slots = [] ∧
    t.streams = [] ∧ t.kernels = [] ∧ t.cores = [] ∧ t.otp = s.otp ∧ t.boot.flash = s.boot.flash ∧ t.pending = s.pending ∧
    (∀ k i, k ∉ aoKinds → t.reg k i = BitVec.ofNat 64 (regReset s.part s.grade k i)) ∧ (s.prot.eraseAt = none → t.bbks = s.bbks)

/-- A device reset with its cause (R372); the other registers of the AO domain stay where no erase runs. -/
def DeviceReset (s t : State) (cause : Fld) : Prop :=
  ResetDone s t ∧ t.fget cause 0 = 1 ∧
    (s.prot.eraseAt = none → ∀ k i, k ∈ aoKinds → k ≠ .DEV_RESET_CAUSE → t.reg k i = s.reg k i)

/-- LOCKDOWN is in force, with its cause where the package was not in it before (R387). -/
def LockedDown (s t : State) (cause : Nat) : Prop := t.mode = 5 ∧ (s.mode ≠ 5 → t.fget .DEV_MODE_LOCK_CAUSE 0 = cause)

/-- Resets, and the two supplies. -/
noncomputable def resetRows : List Row :=
  [{ Arg := Unit
     cmd := fun _ => .powerOnReset
     ok := fun _ _ => True
     post := fun s _ t => DeviceReset s t .DEV_RESET_CAUSE_POR ∧ t.boot.powered = true },
   { Arg := Nat
     cmd := .resetPin true
     ok := fun s dt => 10000 ≤ dt ∧ s.onVbat = false
     post := fun s dt t => DeviceReset (s.elapse dt) t .DEV_RESET_CAUSE_PIN ∧ t.boot.resetPin = true },
   { Arg := Nat
     cmd := .resetPin false
     ok := fun _ _ => True
     post := fun s dt t => t = { s.elapse dt with boot := { s.boot with resetPin := false } } },
   { Arg := Nat × Nat × Nat
     cmd := fun a => .supplyReset a.1 a.2.1 a.2.2
     ok := fun s a => a.1 < 3 ∧ a.2.1 < s.dies ∧ s.onVbat = false ∧ a.2.2 < s.resetMv a.1 a.2.1 ∧ a.1 * 8 + a.2.1 ∉ s.boot.low
     post := fun s a t => DeviceReset s t .DEV_RESET_CAUSE_SUPPLY ∧ a.1 * 8 + a.2.1 ∈ t.boot.low },
   { Arg := Nat × Nat × Nat
     cmd := fun a => .supplyReset a.1 a.2.1 a.2.2
     ok := fun s a => a.1 < 3 ∧ a.2.1 < s.dies ∧ s.onVbat = false ∧ s.resetMv a.1 a.2.1 ≤ a.2.2
     post := fun s a t => a.1 * 8 + a.2.1 ∉ t.boot.low ∧ t.regs = s.regs ∧ ∀ n, n ≠ a.1 * 8 + a.2.1 → (n ∈ t.boot.low ↔ n ∈ s.boot.low) },
   { Arg := Nat × Int × Int
     cmd := fun a => .thermalShutdown a.1 a.2.1 a.2.2
     ok := fun s a => (a.1 = 8 ∨ (a.1 < s.dies ∧ a.1 < 8)) ∧ 120 ≤ a.2.1 ∧ 120 ≤ a.2.2 ∧ s.onVbat = false
     post := fun s _ t => DeviceReset s t .DEV_RESET_CAUSE_THERMAL ∧ t.boot.thermal = true },
   { Arg := Nat
     cmd := .thermalShutdownRelease
     ok := fun _ dt => 1000000000 ≤ dt
     post := fun s dt t => t = { s.elapse dt with boot := { s.boot with thermal := false } } },
   { Arg := Unit
     cmd := fun _ => .pwrgoodFall
     ok := fun s _ => s.onVbat = false
     post := fun s _ t => ResetDone s t ∧ t.boot.powered = false },
   { Arg := Unit
     cmd := fun _ => .mainPowerLoss
     ok := fun s _ => s.onVbat = false
     post := fun s _ t => t.mode = 0 ∧ t.boot.powered = false ∧ t.otp = s.otp ∧ t.slots = [] ∧ t.sched.jobs = [] ∧
       (s.boot.vbat = false → t.bbks = Bbks.zero ∧ t.evr.aoSeq = 1 ∧
         ∀ k i, k ∈ aoKinds → t.reg k i = BitVec.ofNat 64 (regReset s.part s.grade k i)) ∧
       (s.boot.vbat = true → s.prot.eraseAt = none → t.bbks = s.bbks ∧ ∀ k i, k ∈ aoKinds → t.reg k i = s.reg k i) ∧
       (s.boot.vbat = true → s.prot.eraseAt ≠ none → t.bbks = Bbks.zero ∧ t.fget .PROT_ERASE_ON_VBAT 0 = 1) },
   { Arg := Unit
     cmd := fun _ => .vbatApplied
     ok := fun _ _ => True
     post := fun s _ t => t.boot.vbat = true ∧ t.otp = s.otp ∧ t.mode = s.mode ∧
       (s.onVbat = true → s.boot.vbat = false → t.bbks = Bbks.zero) ∧ ((s.onVbat = false ∨ s.boot.vbat = true) → t.bbks = s.bbks) },
   { Arg := Unit
     cmd := fun _ => .vbatExhausted
     ok := fun s _ => s.onVbat = true
     post := fun s _ t => t.bbks = Bbks.zero ∧ t.boot.vbat = false ∧ t.otp = s.otp ∧ t.mode = s.mode ∧
       ∀ k i, k ∈ aoKinds → t.reg k i = BitVec.ofNat 64 (regReset s.part s.grade k i) }]

/-- The firmware of slot `k` runs (R379, R380). -/
def Booted (s t : State) (k : Nat) (fallback : Bool) : Prop :=
  t.boot.phase = 2 ∧ t.boot.head = imageHead (s.slotFlash k) ∧ t.fget .DEV_BOOT_SLOT 0 = k ∧
    t.fget .DEV_BOOT_SVN 0 = byteAt (imageHead (s.slotFlash k)) 0x10 ∧ t.fget .DEV_BOOT_FALLBACK 0 = bit fallback ∧
    t.mode = 1 ∧ Records s t 0x1001 ∧
    (fallback = true → t.fget .DEV_FW_SLOT_TRIAL 0 = 0 ∧ t.fget .DEV_FW_SLOT_PREFERRED 0 = k ∧ Records s t 0x1003 ∧ Records s t 0x1002)

/-- The epoch that counts has a share whose check word the recombined root matches (R327). -/
def RootMatches (s : State) : Prop :=
  s.ownEpoch ≠ 0 ∧ rootCheck (s.rootOf (s.ownEpoch - 1)) s.ownEpoch = (s.otp.epochs.getD (s.ownEpoch - 1) ⟨[], [], false, 0⟩).check

/-- A unit may report ready. -/
def UnitMay (s : State) : ReadyUnit → Prop
  | .pcie => s.host.perst = false
  | .phc | .recorder | .fetch => True
  | .die d => d < s.dies ∧ s.idlDown d = false
  | .golden cl => cl < 2 * s.dies ∧ s.flag .DEV_READY_MAP_DIE (cl / 2) = true ∧ cl ∉ s.goldBad
  | .core v => v < 16 * s.dies ∧ s.flag .DEV_READY_MAP_DIE (v / 16) = true ∧ s.flag .CLU_GOLD_STAT_VALID (v / 8) = true ∧
      s.vcRetired v = false ∧ v / 8 ∉ s.boot.bistBad ∧ (∀ b, s.boot.bist = some b → b.1 ≠ v / 8) ∧ s.idlDown (v / 16) = false
  | .engine k => k < 2 * s.dies ∧ s.flag .DEV_READY_MAP_DIE (k / 2) = true ∧ s.lieOffline k = false ∧
      s.fget .LIE_STATE_STATE k ≠ 3 ∧ (sparseGet LieX.idle s.lies k).tables = true ∧ s.idlDown (k / 2) = false
  | .calender d c => d < s.dies ∧ c < 4 ∧ s.flag .DEV_READY_MAP_DIE d = true ∧ s.idlDown d = false
  | .port p => p < 16 * s.dies ∧ s.flag .DEV_READY_MAP_DIE (p / 16) = true ∧ s.idlDown (p / 16) = false
  | .keyStore d => d < s.dies ∧ s.flag .DEV_READY_MAP_DIE d = true ∧ s.idlDown d = false ∧ 128 + d ∉ s.boot.bistBad

/-- A unit shows ready (R382, R383). -/
def UnitShows (t : State) : ReadyUnit → Prop
  | .pcie => t.fget .DEV_READY_PCIE 0 = 1
  | .phc => t.fget .DEV_READY_PHC 0 = 1
  | .recorder => t.fget .DEV_READY_EVR 0 = 1
  | .fetch => t.fget .DEV_READY_FETCH 0 = 1
  | .die d => t.fget .DEV_READY_MAP_DIE d = 1
  | .golden cl => t.fget .CLU_GOLD_STAT_VALID cl = 1
  | .core v => (t.fget .DEV_READY_VC_VC (v / 16)).testBit (v % 16) = true
  | .engine k => (t.fget .DEV_READY_MAP_LIE (k / 2)).testBit (k % 2) = true
  | .calender d c => (t.fget .DEV_READY_MAP_CAL d).testBit c = true
  | .port p => (t.fget .DEV_READY_MAP_PORT (p / 16)).testBit (p % 16) = true
  | .keyStore d => t.fget .DEV_READY_MAP_KS d = 1 ∧ t.fget .KS_STATE_READY d = 1

/-- The boot ROM reads slot `k` in its three stages before anything else is said (R466). -/
def FlashRead (s t : State) (k : Nat) : Prop :=
  ∃ l, t.out = s.out ++ [.flash k .first, .flash k .sfdp, .flash k (fastRead (s.boot.sfdp.getD k (false, false)))] ++ l

/-- BOOT_VERDICT verifies the slots: the device boots, and no earlier verdict awaits its second evaluation. -/
def Judges (s : State) : Prop :=
  s.boot.phase = 1 ∧ s.mode = 1 ∧ s.lcs ≠ lcBlank ∧ ∀ d ∈ s.prot.doubled, d.number ≠ 4

/-- Boot, readiness, installation, built-in tests and the links between dies. -/
noncomputable def bootRows : List Row :=
  [{ Arg := Nat
     cmd := .resetRelease
     ok := fun s _ => s.mayRelease = true
     post := fun _ sel t => t.boot.phase = 1 ∧ t.boot.sel = sel % 4 ∧ t.fget .DEV_BOOT_BOOT_SEL 0 = sel % 4 ∧ t.time.ticks = 0 ∧ t.time.ns = 0 ∧
       (t.lcs = lcBlank → t.fget .DBG_STATE_LEVEL 0 = 3) ∧ (t.lcs ≠ lcBlank → sel % 4 = 3 → t.mode = 5) },
   { Arg := Nat
     cmd := .bootVerdict
     ok := fun s _ => Judges s ∧ s.otp.f2 = false
     post := fun s dt t =>
       let u := s.elapse dt
       let bad := fun k => (s.imageFail (s.slotFlash k)).1 ≠ 0
       ∀ a rest, s.bootSlots = a :: rest → FlashRead s t a ∧
         (¬ bad a → Booted u t a false ∧ t.fget .DGE_STAT_STATE 0 = 0 ∧ t.flag .DGE_CMP_DONE 0 = true) ∧ (bad a → rest = [] → LockedDown s t 7) ∧
         (∀ b l, bad a → rest = b :: l → (¬ bad b → Booted u t b true) ∧ (bad b → LockedDown s t 7)) },
   { Arg := Nat
     cmd := .bootVerdict
     ok := fun s _ => Judges s ∧ s.otp.f2 = true
     post := fun s _ t =>
       let bad := fun k => (s.imageFail (s.slotFlash k)).1 ≠ 0
       let waits := fun k fallback => t.prot.doubled = s.prot.doubled ++ [.verdict k fallback] ∧ t.boot = s.boot ∧ t.mode = 1
       ∀ a rest, s.bootSlots = a :: rest → FlashRead s t a ∧ (¬ bad a → waits a false) ∧ (bad a → rest = [] → LockedDown s t 7) ∧
         (∀ b l, bad a → rest = b :: l → (¬ bad b → waits b true) ∧ (bad b → LockedDown s t 7)) },
   { Arg := Nat
     cmd := .leaveBoot
     ok := fun s _ => s.boot.phase = 2 ∧ s.mode = 1 ∧ s.lcs ≠ lcBlank ∧ s.hold = false ∧ s.rootValid = false
     post := fun s _ t => t.boot.phase = 3 ∧ t.fget .KS_ROOT_EPOCH 0 = s.ownEpoch ∧
       (s.host.perst = false → t.fget .MBX_STATUS_READY 0 = 1 ∧ t.fget .DEV_READY_MBX 0 = 1 ∧ t.fget .DEV_READY_PCIE 0 = 1) ∧
       ((s.lcs = lcScrap ∨ s.lcs = lcLost) → LockedDown s t 6) ∧
       (s.lcs ≠ lcScrap → s.lcs ≠ lcLost →
         (s.ownEpoch ≠ 0 → ¬ RootMatches s → LockedDown s t 1) ∧ (s.flag .PROT_ERASE_LATCHED 0 = true → LockedDown s t 1) ∧
         (s.flag .PROT_ERASE_LATCHED 0 = false → RootMatches s → t.rootValid = true ∧ t.mode = if s.lcs = lcOwned then 3 else 2) ∧
         (s.flag .PROT_ERASE_LATCHED 0 = false → s.ownEpoch = 0 → t.mode = 2)) },
   { Arg := ReadyUnit
     cmd := .unitReady
     ok := fun s u => 2 ≤ s.boot.phase ∧ s.boot.head ≠ [] ∧ UnitMay s u
     post := fun _ u t => UnitShows t u },
   { Arg := Nat × Nat × Nat
     cmd := fun a => .fwInstallDone a.1
     ok := fun s a => s.boot.install = some a.2 ∧ a.2.1 < s.boot.installed.length ∧ a.2.1 < s.boot.invalid.length
     post := fun s a t =>
       let step := (s.imageFail (s.slotFlash a.2.1)).1
       t.boot.install = none ∧ t.boot.stage = ⟨none, 0, []⟩ ∧ t.boot.flash = s.boot.flash ∧
         t.boot.outcome = (if step = 0 then mSuccess else if step = 6 then mRollback else mVerifyFailed) ∧
         t.boot.installed[a.2.1]? = some (step == 0) ∧ t.boot.invalid[a.2.1]? = some (step != 0) ∧
         (step = 0 → Records (s.elapse a.1) t 0x1007) },
   { Arg := (Option Nat × Nat) × (Nat × Nat × Nat)
     cmd := fun a => .diagBistDone a.1.1 a.1.2
     ok := fun s a => s.boot.bist = some a.2 ∧ s.clusterBusy a.2.1 = false
     post := fun s a t =>
       let cl := a.2.1
       let kind := a.2.2.1
       t.boot.bist = none ∧ t.boot.result = leBytes 4 kind ++ leBytes 4 cl ++
           leBytes 4 (if a.1.1 = none then mSuccess else mVerifyFailed) ++ leBytes 4 (a.1.1.getD 0) ∧
         (a.1.1 ≠ none → (if kind = 3 then 128 + cl / 2 else cl) ∈ t.boot.bistBad) ∧
         (a.1.1 = none → t.boot.bistBad = s.boot.bistBad) ∧ (kind = 1 → ∀ c, c < 8 → t.core (cl * 8 + c) = VCore.idle) },
   { Arg := Nat × Nat
     cmd := fun a => .idlClockLoss a.1 a.2
     ok := fun s a => max a.1 a.2 < s.dies ∧ dieHops (min a.1 a.2) (max a.1 a.2) = 1 ∧ s.onVbat = false ∧ s.boot.phase ≠ 0
     post := fun s a t => LockedDown s t 5 ∧ Records s t 0x1006 ∧ 
       ∀ d, d < s.dies → idlCuts (min a.1 a.2) (max a.1 a.2) d = true →
         t.idlDown d = true ∧ ∀ f ∈ dieReadyFields, t.fget f d = 0 }]

end Sys2Proof.Claims
end

