-- ==== Sys2Proof/Safety/Life.lean ====
section
/-!
DEFINITION. Rows of the life-cycle transitions, of the test access port and of debug accesses (R399 to R404, R410 to R414).
-/

namespace Sys2Proof.Claims

open Sys2Proof.Machine

/-- The write reaches LCS_REQUEST: PF0, or the debug master at level 3 (R401). -/
def LcsWriter (s : State) (m : Master) : Prop := m = .pf0 ∨ (m = .dbg ∧ s.fget .DBG_STATE_LEVEL 0 = 3)

/-- The OTP with target `n` programmed: its mark in both copies, and every group up to it (R402, R403). -/
def Programmed (s t : State) (n : Nat) : Prop :=
  t.otp.marks = s.otp.marks.set (n - 1) (some n, some n) ∧ t.otp.groups = programGroups n s.otp.groups

/-- The device has been reset by the command: BOOT again, everything outside the AO domain as after reset. -/
def CommandReset (s t : State) : Prop :=
  t.mode = 1 ∧ t.boot.phase = 0 ∧ t.mbx.phase = .idle ∧ t.rings = [] ∧ t.sched.jobs = [] ∧ t.slots = [] ∧ t.streams = [] ∧
    t.fget .DEV_RESET_CAUSE_COMMAND 0 = 1 ∧ t.boot.flash = s.boot.flash ∧
    ∀ k i, k ∉ aoKinds → t.reg k i = BitVec.ofNat 64 (regReset s.part s.grade k i)

/-- A transition may be programmed at once: its decision is not doubled, and VDD_OTP permits a program pulse (R431, R470). -/
def Pulses (s : State) : Prop := s.otp.f2 = false ∧ s.otpGood = true

/-- A transition to `n` that touches nothing but its mark and its groups. -/
noncomputable def plainTransition (cmd : Master → Instr) (n : Nat) (ok : State → Master → Prop) : Row :=
  { Arg := Master
    cmd := cmd
    ok := fun s m => LcsWriter s m ∧ s.fget .LCS_STATUS_BUSY 0 = 0 ∧ Pulses s ∧ ok s m
    post := fun s _ t => Programmed s t n ∧ CommandReset s t ∧ t.otp.owners = s.otp.owners ∧ t.otp.epochs = s.otp.epochs ∧
      (s.prot.eraseAt = none → t.bbks = s.bbks) }

/-- A transition whose commit is held, for its second evaluation or for VDD_OTP: it has begun, and programmed nothing
(R431, R470). -/
noncomputable def heldTransition (cmd : Master → Instr) (n : Nat) : Row :=
  { Arg := Master
    cmd := cmd
    ok := fun s m => LcsWriter s m ∧ s.fget .LCS_STATUS_BUSY 0 = 0 ∧ s.mayEnter (m == .dbg) n = true ∧ ¬ Pulses s
    post := fun s _ t => t.fget .LCS_STATUS_BUSY 0 = 1 ∧ t.otp = s.otp ∧ t.bbks = s.bbks ∧ RegsKept s t [.LCS_STATUS, .EVR_LOST] ∧
      Raised s t 0x2001 (s.fget .LCS_STATE_STATE 0) n 0 ∧
      (s.otp.f2 = true → t.prot = { s.prot with doubled := s.prot.doubled ++ [.commit n] } ∧ t.boot = s.boot) ∧
      (s.otp.f2 = false → t.prot = s.prot ∧ t.boot = { s.boot with waitOtp := some n }) }

/-- A transition that Table 14.2 does not allow is refused: REFUSED and event 0x2002. -/
noncomputable def refusedTransition (cmd : Master → Instr) (n : Nat) : Row :=
  { Arg := Master
    cmd := cmd
    ok := fun s m => LcsWriter s m ∧ (s.fget .LCS_STATUS_BUSY 0 = 1 ∨ s.mayEnter (m == .dbg) n = false)
    post := fun s _ t => t.fget .LCS_STATUS_REFUSED 0 = 1 ∧ Raised s t 0x2002 (s.fget .LCS_STATE_STATE 0) n s.mode ∧ t.otp = s.otp ∧
      t.bbks = s.bbks ∧ RegsKept s t [.LCS_STATUS, .EVR_LOST] }

/-- The current owner slot is revoked. -/
def Revoked (s t : State) : Prop :=
  ∀ k, s.ownerSlot = some k → ∀ o, s.otp.owners[k]? = some o → t.otp.owners[k]? = some { o with revoked := true }

/-- The life cycle. -/
noncomputable def lifeRows : List Row :=
  [plainTransition .lcsToTest 1 (fun s m => m = .dbg ∧ s.fget .LCS_STATE_STATE 0 = 0 ∧ s.mode = 1),
   plainTransition .lcsToSealed 2 (fun s _ => s.fget .LCS_STATE_STATE 0 = 1 ∧ s.mode = 2 ∧ s.otp.deviceId ≠ [] ∧ s.otp.imageHash ≠ [] ∧
     s.otp.vendorDebug ≠ [] ∧ s.otp.floor ≠ []),
   plainTransition .lcsToOwned 3 (fun s _ => s.fget .LCS_STATE_STATE 0 = 2 ∧ s.mode = 2 ∧
     (s.otp.owners.getD 0 ⟨[], [], [], false⟩).owner ≠ []),
   { Arg := Master
     cmd := .lcsToReturned
     ok := fun s m => LcsWriter s m ∧ s.fget .LCS_STATUS_BUSY 0 = 0 ∧ Pulses s ∧ s.fget .LCS_STATE_STATE 0 = 3 ∧ s.mode = 2 ∧
       s.flag .LCS_PERMIT_RETURN 0 = true
     post := fun s _ t => Programmed s t 4 ∧ CommandReset s t ∧ Revoked s t ∧ t.bbks.share = [] ∧ t.bbks.paired = false },
   { Arg := Master
     cmd := .lcsToScrap
     ok := fun s m => LcsWriter s m ∧ s.fget .LCS_STATUS_BUSY 0 = 0 ∧ Pulses s
     post := fun s _ t => Programmed s t 5 ∧ CommandReset s t ∧ Revoked s t ∧ t.bbks = Bbks.zero },
   heldTransition .lcsToTest 1, heldTransition .lcsToSealed 2, heldTransition .lcsToOwned 3, heldTransition .lcsToReturned 4,
   heldTransition .lcsToScrap 5, refusedTransition .lcsToTest 1, refusedTransition .lcsToSealed 2, refusedTransition .lcsToOwned 3,
   refusedTransition .lcsToReturned 4,
   { Arg := Master
     cmd := .lcsToScrap
     ok := fun s m => LcsWriter s m ∧ s.fget .LCS_STATUS_BUSY 0 = 1
     post := fun s _ t => t.fget .LCS_STATUS_REFUSED 0 = 1 ∧ t.otp = s.otp ∧ t.bbks = s.bbks ∧ RegsKept s t [.LCS_STATUS, .EVR_LOST] }]

/-- The TAP acted as instruction `ir` and shifted out this value of so many bits; nothing else has changed. -/
def Shifted (s t : State) (ir bits v : Nat) : Prop :=
  t = { s with
    tap := { s.tap with ir := ir }
    out := s.out ++ [.tdo bits v] }

/-- A life-cycle state in which challenges and tokens pass through the TAP (Table 14.5). -/
def TapDebug (s : State) : Prop := s.fget .LCS_STATE_STATE 0 ∈ [1, 2, 3, 4]

/-- The TAP (R410, Table 14.5). -/
noncomputable def tapRows : List Row :=
  [{ Arg := Unit
     cmd := fun _ => .tapReset
     ok := fun s _ => s.onVbat = false
     post := fun s _ t => t = { s with tap := { s.tap with ir := 0x01 } } },
   { Arg := Unit
     cmd := fun _ => .idcode
     ok := fun s _ => s.onVbat = false
     post := fun s _ t =>
       let part := match s.part with
         | .zv2800 => 0x2800
         | .zv4800 => 0x4800
         | .zv8800 => 0x8800
       Shifted s t 0x01 32 (0x10000000 + part * 2 ^ 12 + Config.jedec % 2 ^ 11 * 2 + 1) },
   { Arg := Nat × Nat × Nat
     cmd := fun a => .samplePreload a.1 a.2.1 a.2.2
     ok := fun s _ => s.onVbat = false
     post := fun s a t => t.out = s.out ++ [.tdo a.1 (a.2.1 % 2 ^ a.1)] ∧ t.tap.boundary = a.2.2 % 2 ^ a.1 ∧ t.tap.ir = 0x02 ∧
       t.regs = s.regs ∧ t.tap.halted = s.tap.halted },
   { Arg := Nat × Nat
     cmd := fun a => .bypass a.1 a.2
     ok := fun s _ => s.onVbat = false
     post := fun s a t => Shifted s t 0xFF a.1 (2 * a.2 % 2 ^ a.1) },
   { Arg := Nat × Nat × Nat
     cmd := fun a => .extest a.1 a.2.1 a.2.2
     ok := fun s _ => s.onVbat = false ∧ s.fget .LCS_STATE_STATE 0 ∈ [1, 4]
     post := fun s a t => t.tap.ir = 0x00 ∧ t.tap.boundary = a.2.2 % 2 ^ a.1 ∧ t.regs = s.regs ∧
       t.out = s.out ++ [.boundary s.tap.boundary, .tdo a.1 (a.2.1 % 2 ^ a.1), .boundary (a.2.2 % 2 ^ a.1)] },
   { Arg := Nat × Nat × Nat
     cmd := fun a => .extest a.1 a.2.1 a.2.2
     ok := fun s _ => s.onVbat = false ∧ s.fget .LCS_STATE_STATE 0 ∉ [1, 4]
     post := fun s _ t => Shifted s t 0xFF 1 0 },
   { Arg := Unit
     cmd := fun _ => .tapDbgStatus
     ok := fun s _ => s.onVbat = false
     post := fun s _ t => Shifted s t 0x12 32 ((s.reg .DBG_STATE 0).toNat % 2 ^ 32) },
   { Arg := Unit
     cmd := fun _ => .tapDbgRelock
     ok := fun s _ => s.onVbat = false
     post := fun s _ t => t.fget .DBG_STATE_LEVEL 0 = 0 ∧ t.reg .DBG_EXPIRY 0 = 0 ∧ t.tap.ir = 0x14 ∧
       RegsKept s t [.DBG_STATE, .DBG_EXPIRY, .EVR_LOST] ∧
       (s.fget .DBG_STATE_LEVEL 0 ≠ 0 → Raised s t 0x2010 (s.fget .DBG_STATE_LEVEL 0) 0 3) },
   { Arg := Nat
     cmd := .debugGrantExpiry
     ok := fun s dt => s.reg .DBG_EXPIRY 0 ≠ 0 ∧ (s.reg .DBG_EXPIRY 0).toNat ≤ (s.elapse dt).time.ns
     post := fun s dt t => t.fget .DBG_STATE_LEVEL 0 = 0 ∧ t.reg .DBG_EXPIRY 0 = 0 ∧
       RegsKept s t [.DBG_STATE, .DBG_EXPIRY, .EVR_LOST] ∧
       (s.fget .DBG_STATE_LEVEL 0 ≠ 0 → Raised (s.elapse dt) t 0x2010 (s.fget .DBG_STATE_LEVEL 0) 0 2) },
   { Arg := Nat
     cmd := .debugGrantExpiry
     ok := fun s dt => s.reg .DBG_EXPIRY 0 = 0 ∨ (s.elapse dt).time.ns < (s.reg .DBG_EXPIRY 0).toNat
     post := fun s dt t => t = s.elapse dt }]

/-- Challenges and tokens at the TAP (R411, Table 14.8). -/
noncomputable def tokenRows : List Row :=
  [{ Arg := Unit
     cmd := fun _ => .tapDbgChal
     ok := fun s _ => s.onVbat = false ∧ TapDebug s
     post := fun s _ t => ∃ b, b.length = 32 ∧ t.out = s.out ++ [.tdo 256 (leNat b)] ∧ t.auth = { s.auth with
         chal := b
         chalAt := s.time.ticks
         chalLive := true
         chalTtl := min 3600 (max 1 (s.fget .DBG_CHAL_TTL_SECONDS 0)) } ∧ t.tap.ir = 0x10 ∧ t.regs = s.regs },
   { Arg := Bytes
     cmd := .tapDbgToken
     ok := fun s p => s.onVbat = false ∧ TapDebug s ∧ p.length = 5518
     post := fun s p t => t.tap.ir = 0x11 ∧
       (∀ st e, s.tokenFail p = some (st, e) → t.out = s.out ∧ t.fget .DBG_STATE_ERR_CODE 0 = e ∧
         t.fget .DBG_FAILS_COUNT 0 = min 8 (s.fget .DBG_FAILS_COUNT 0 + 1) ∧
         (t.fget .DBG_FAILS_COUNT 0 = 8 → t.flag .DBG_FAILS_BLOCKED 0 = true) ∧
         t.fget .DBG_STATE_LEVEL 0 = s.fget .DBG_STATE_LEVEL 0 ∧ Raised s t 0x2011 e 2 (t.fget .DBG_FAILS_COUNT 0)) ∧
       (s.tokenFail p = none → s.otp.f2 = true → t.prot = { s.prot with doubled := s.prot.doubled ++ [.unlock p 2] } ∧ t.regs = s.regs ∧
         t.auth.chalLive = false) ∧
       (s.tokenFail p = none → s.otp.f2 = false → ¬ (s.fget .LCS_STATE_STATE 0 = 3 ∧ byteAt p 6 = 2) →
         t.fget .DBG_STATE_LEVEL 0 = byteAt p 6 ∧ t.fget .DBG_FAILS_COUNT 0 = 0 ∧ t.auth.chalLive = false ∧
         (t.reg .DBG_EXPIRY 0).toNat = (if leAt p 56 4 = 0 then 0 else (s.time.ns + leAt p 56 4 * 1000000000) % 2 ^ 64)) },
   { Arg := Bytes
     cmd := .tapDbgToken
     ok := fun s _ => s.onVbat = false ∧ ¬ TapDebug s
     post := fun s _ t => Shifted s t 0xFF 1 0 }]

/-- A debug access is denied: event 0x2012, zero data, response 0x01 (R414). -/
def DebugDenied (s t : State) (address : Nat) (write : Bool) : Prop :=
  Raised s t 0x2012 address (address / 2 ^ 32 % 2 ^ 16) (if write then 2 else 1) ∧ t.out = s.out ++ [.debug 0 1]

/-- A debug access is served: the data, and a response other than 0x01. -/
def DebugServed (s t : State) (v : Nat) : Prop := ∃ r, t.out = s.out ++ [.debug v r] ∧ r ≠ 1

/-- The debug master runs DBG_ACCESS: a level is granted (R410, R412). -/
def DebugOn (s : State) (level : Nat) : Prop := s.onVbat = false ∧ level ≤ s.fget .DBG_STATE_LEVEL 0 ∧ s.fget .DBG_STATE_LEVEL 0 ≠ 0

/-- Debug accesses (R404, R412, R414, Tables 14.9, 14.10). -/
noncomputable def debugRows : List Row :=
  [{ Arg := Nat × DbgTarget × Bool × Nat
     cmd := fun a => .dbgAccess a.1 a.2.1 a.2.2.1 a.2.2.2
     ok := fun s _ => s.onVbat = false ∧ s.fget .DBG_STATE_LEVEL 0 = 0
     post := fun s _ t => Shifted s t 0xFF 1 0 },
   { Arg := Nat × Bool × Nat
     cmd := fun a => .dbgAccess a.1 .denied a.2.1 a.2.2
     ok := fun s _ => DebugOn s 1
     post := fun s a t => DebugDenied s t a.1 a.2.1 ∧ RegsKept s t [.EVR_LOST] },
   { Arg := (Nat × Nat × Nat) × (RegKind × Nat)
     cmd := fun a => .dbgAccess a.1.1 (.register a.1.2.1) false a.1.2.2
     ok := fun s a => DebugOn s 1 ∧ a.1.2.1 % 4 = 0 ∧ s.regAt a.1.2.1 = some (a.2.1, a.2.2, 0) ∧ a.2.1 ∈ [.DBG_STATE, .DEV_MODE, .TIME_CTL] ∧
       s.flag .DKL_CTL_EN 6 = true ∧ s.decision 6 0xC000 false a.1.2.1 = 1 ∧
       ∀ e ∈ s.dkl, e.2.held = [] ∧ e.2.behind = []
     post := fun s a t => DebugServed s t (s.view a.2.1 a.2.2 % 2 ^ 32) ∧ t.regs = s.regs ∧ t.evr = s.evr },
   { Arg := (Nat × Nat × Nat) × Bool × Nat
     cmd := fun a => .dbgAccess a.1.1 (.store a.1.2.1 a.1.2.2) a.2.1 a.2.2
     ok := fun s a => DebugOn s 2 ∧ a.1.2.1 < 16 * s.dies ∧ a.1.2.2 + 4 ≤ 2 ^ 18 ∧
       (s.core a.1.2.1).debugSecret a.1.2.2 = false
     post := fun s a t =>
       let v := a.1.2.1
       let m := (s.core v).mem
       (∀ w, w ≠ v → t.core w = s.core w) ∧
       (a.2.1 = false → DebugServed s t (leNat (memRead 0 m a.1.2.2 4)) ∧ t.core v = s.core v) ∧
       (a.2.1 = true → DebugServed s t 0 ∧ memRead 0 (t.core v).mem a.1.2.2 4 = leBytes 4 a.2.2 ∧
         ∀ x, (x < a.1.2.2 ∨ a.1.2.2 + 4 ≤ x) → memByte 0 (t.core v).mem x = memByte 0 m x) },
   { Arg := (Nat × Nat × Nat) × Bool × Nat
     cmd := fun a => .dbgAccess a.1.1 (.store a.1.2.1 a.1.2.2) a.2.1 a.2.2
     ok := fun s a => DebugOn s 1 ∧ a.1.2.1 < 16 * s.dies ∧ a.1.2.2 + 4 ≤ 2 ^ 18 ∧
       (s.fget .DBG_STATE_LEVEL 0 < 2 ∨ (s.core a.1.2.1).debugSecret a.1.2.2 = true)
     post := fun s a t => DebugDenied s t a.1.1 a.2.1 ∧ t.cores = s.cores },
   { Arg := (Nat × Nat) × Bool × Nat
     cmd := fun a => .dbgAccess a.1.1 (.core a.1.2) a.2.1 a.2.2
     ok := fun s a => DebugOn s 2 ∧ a.1.2 < 16 * s.dies
     post := fun s a t => DebugServed s t 0 ∧ (∀ u, u ≠ a.1.2 → (u ∈ t.tap.halted ↔ u ∈ s.tap.halted)) ∧
       (a.1.2 ∈ t.tap.halted ↔ (a.2.1 = true ∧ a.2.2 % 2 = 1)) ∧ t.regs = s.regs },
   { Arg := Nat × Bytes × Nat
     cmd := fun a => .dbgAccess a.1 (.otp 0 a.2.1) true a.2.2
     ok := fun s _ => DebugOn s 3 ∧ s.otpGood = true ∧ s.fget .LCS_STATE_STATE 0 < 2
     post := fun s a t => DebugServed s t 0 ∧
       t.otp = { s.otp with deviceId := if s.otp.deviceId = [] then sliceZ a.2.1 0 16 else s.otp.deviceId } },
   { Arg := Nat × Nat × Bytes × Nat
     cmd := fun a => .dbgAccess a.1 (.otp a.2.1 a.2.2.1) true a.2.2.2
     ok := fun s _ => DebugOn s 1 ∧ (s.fget .DBG_STATE_LEVEL 0 ≠ 3 ∨ 2 ≤ s.fget .LCS_STATE_STATE 0)
     post := fun s a t => DebugDenied s t a.1 true ∧ t.otp = s.otp }]

end Sys2Proof.Claims
end

