-- ==== Sys2Proof/Safety/Guard.lean ====
section
/-!
DEFINITION. Rows of the protection monitors, the alarm controller and ERASE, of the doubled decisions, and of the deckles'
rule updates and holds (R5, R416 to R431, R440 to R442).
-/

namespace Sys2Proof.Claims

open Sys2Proof.Machine

/-- The monitor of source `src` on `die` reports: its condition is there or not, a condition that arises waits for the next
evaluation, and no other source changes. -/
def Reports (s t : State) (src die : Nat) (on : Bool) : Prop :=
  (sparseGet 0 t.prot.phys src).testBit die = on ∧
    (∀ d, d ≠ die → (sparseGet 0 t.prot.phys src).testBit d = (sparseGet 0 s.prot.phys src).testBit d) ∧
    (∀ x, x ≠ src → sparseGet 0 t.prot.phys x = sparseGet 0 s.prot.phys x ∧ t.prot.pend.testBit x = s.prot.pend.testBit x) ∧
    (on = true → t.condition src = true → t.prot.pend.testBit src = true) ∧ t.regs = s.regs ∧ t.evr = s.evr ∧ t.bbks = s.bbks

/-- The detail words that its event will carry. -/
def Details (t : State) (src d1 d2 : Nat) : Prop := sparseGet (0, 0) t.prot.info src = (d1, d2)

/-- The monitors. -/
noncomputable def monitorRows : List Row :=
  [{ Arg := Nat × Bool
     cmd := fun a => .caseSwitchOpen a.1 a.2
     ok := fun _ a => a.1 < 4
     post := fun s a t => Reports s t a.1 0 a.2 ∧ (a.2 = true → Details t a.1 (s.effMap a.1) (bit s.onVbat)) },
   { Arg := Nat × Bool
     cmd := fun a => .loopOpen a.1 a.2
     ok := fun s a => a.1 < 8 ∧ s.watermark a.1 = false
     post := fun s a t => Reports s t (4 + a.1) 0 a.2 ∧ (a.2 = true → Details t (4 + a.1) 1 (bit s.onVbat)) },
   { Arg := Nat × Nat
     cmd := fun a => .watermarkMismatch a.1 a.2
     ok := fun s a => a.1 < 8 ∧ s.watermark a.1 = true ∧ (s.elapse a.2).armed (4 + a.1) = true
     post := fun s a t =>
       let l := a.1
       let u := s.elapse a.2
       let n := fun (x : State) => natBits (x.fget .PROT_LOOP_ERR_COUNT 0) (4 * l + 3) (4 * l)
       let last := sparseGet 0 s.prot.loopLast l
       let two := last ≠ 0 ∧ u.since (last - 1) < 8 * (if s.onVbat then 15259 else 1000)
       n t = min 15 (n s + 1) ∧ RegsKept s t [.PROT_LOOP_ERR] ∧ sparseGet 0 t.prot.loopLast l = u.time.ticks + 1 ∧
         (two → sparseGet 0 t.prot.loopPair l = last ∧ Details t (4 + l) 2 (bit s.onVbat) ∧
           (t.condition (4 + l) = true → t.prot.pend.testBit (4 + l) = true)) ∧
         (¬ two → t.prot.pend = s.prot.pend ∧ t.prot.loopPair = s.prot.loopPair) },
   { Arg := Nat × Nat × Nat
     cmd := fun a => .supplyWarning a.1 a.2.1 a.2.2
     ok := fun s a => a.1 < 3 ∧ a.2.1 < s.dies ∧ s.onVbat = false
     post := fun s a t => Reports s t (12 + a.1) a.2.1 (decide (a.2.2 < s.warnMv a.1 a.2.1)) ∧
       (a.2.2 < s.warnMv a.1 a.2.1 → Details t (12 + a.1) a.2.1 a.2.2) },
   { Arg := Nat × Nat
     cmd := fun a => .supplyWarning 3 a.1 a.2
     ok := fun s _ => s.onVbat = false ∧ s.boot.waitOtp = none
     post := fun s a t => t = { s with boot := { s.boot with otpMv := a.2 } } },
   { Arg := Nat × Nat × Nat
     cmd := fun a => .supplyWarning 3 a.1 a.2.1
     ok := fun s a => s.onVbat = false ∧ s.boot.waitOtp = some a.2.2 ∧ a.2.2 ≠ 5
     post := fun s a t =>
       let good := { s with boot := { s.boot with otpMv := a.2.1 } }.otpGood
       (good = true → Programmed s t a.2.2 ∧ CommandReset s t) ∧
         (good = false → t = { s with boot := { s.boot with otpMv := a.2.1 } }) },
   { Arg := Nat × Nat × Nat
     cmd := fun a => .overvoltage a.1 a.2.1 a.2.2
     ok := fun s a => a.1 < 3 ∧ a.2.1 < s.dies ∧ s.onVbat = false
     post := fun s a t => Reports s t 16 (a.1 * 8 + a.2.1) (decide (s.overMv a.1 a.2.1 < a.2.2)) ∧
       (s.overMv a.1 a.2.1 < a.2.2 → Details t 16 a.2.1 a.2.2) },
   { Arg := Nat
     cmd := .vbatLow
     ok := fun _ _ => True
     post := fun s mv t => Reports s t 15 0 (decide (mv < 2300)) ∧ (mv < 2300 → Details t 15 mv 0) },
   { Arg := Nat × Int
     cmd := fun a => .temperatureLimit a.1 a.2
     ok := fun s a => (a.1 = 8 ∨ (a.1 < 8 ∧ a.1 < s.dies)) ∧ s.onVbat = false
     post := fun s a t =>
       let lo : Int := if s.grade = .extended then -55 else -15
       let hi : Int := if s.grade = .extended then 115 else 110
       (sparseGet 0 t.prot.phys 17).testBit a.1 = decide (a.2 < lo) ∧ (sparseGet 0 t.prot.phys 18).testBit a.1 = decide (hi < a.2) ∧
         (∀ x, x ≠ 17 → x ≠ 18 → sparseGet 0 t.prot.phys x = sparseGet 0 s.prot.phys x) ∧ t.regs = s.regs ∧
         (hi < a.2 → t.condition 18 = true → t.prot.pend.testBit 18 = true) ∧
         (a.2 < lo → t.condition 17 = true → t.prot.pend.testBit 17 = true) },
   { Arg := Nat × Nat × Nat
     cmd := fun a => .refclockFault a.1 a.2.1 a.2.2
     ok := fun s a => a.1 < 3 ∧ a.2.1 < s.dies ∧ a.2.2 < 3 ∧ s.onVbat = false
     post := fun s a t => Reports s t (19 + a.1) a.2.1 (decide (a.2.2 ≠ 0)) ∧ (a.2.2 ≠ 0 → Details t (19 + a.1) a.2.2 a.2.1) },
   { Arg := Bool
     cmd := .aoXtalStop
     ok := fun _ _ => True
     post := fun s stopped t => Reports s t 22 0 stopped }]

/-- An ERASE has started on main power (R427, R428). -/
def EraseStarted (u t : State) : Prop :=
  t.bbks = Bbks.zero ∧ t.slots = [] ∧ t.prot.eraseAt = some u.time.ticks ∧ t.fget .PROT_ERASE_LATCHED 0 = 1 ∧
    t.flag .KS_ROOT_VALID 0 = false ∧ Counted u t .PROT_ERASE_COUNT 0 ∧ t.cores = [] ∧ t.saves = [] ∧ t.shared = []

/-- The sources that an evaluation latches anew. -/
def newSources (u : State) : Nat :=
  let old := u.fget .PROT_ALARM_LATCHED 0
  ((u.present ||| u.prot.pend) % 2 ^ 26 ||| old) ^^^ old

/-- The alarm controller, ERASE, the built-in test, the doubled decisions. -/
noncomputable def alarmRows : List Row :=
  [{ Arg := Nat
     cmd := .alarmEvaluation
     ok := fun s _ => s.onVbat = false ∧ ∀ d, d < s.dies → (sparseGet 0 s.prot.wires d % 4 = 0 ∨ d = 0)
     post := fun s dt t =>
       let u := s.elapse dt
       let new := newSources u
       let m := u.unionMap new
       t.fget .PROT_ALARM_LATCHED 0 = (s.fget .PROT_ALARM_LATCHED 0 ||| new) ∧
         (new = 0 → t.regs = s.regs ∧ t.evr = s.evr ∧ t.mode = s.mode) ∧ (m.testBit rErase = true → EraseStarted u t) ∧
         (m.testBit rErase = false → t.bbks = s.bbks ∧ t.prot.eraseAt = s.prot.eraseAt) ∧
         (m.testBit rErase = false → m.testBit rLockdown = true → t.mode = 5) ∧
         (m.testBit rErase = false → m.testBit rLockdown = false → t.mode = s.mode) ∧
         (m.testBit rErase = false → m.testBit rLockdown = false → m.testBit rHold = true → s.mode ≠ 5 → t.hold = true) ∧
         (m.testBit rErase = false → m.testBit rLockdown = false → m.testBit rHold = false →
           t.hold = s.hold ∧ RegsKept s t [.PROT_ALARM, .EVR_LOST] ∧ t.sched = s.sched) },
   { Arg := Nat
     cmd := .alarmEvaluation
     ok := fun s _ => s.onVbat = true
     post := fun s dt t =>
       let u := s.elapse dt
       let m := u.unionMap (newSources u)
       (m.testBit rErase = true → t.bbks = Bbks.zero ∧ t.fget .PROT_ERASE_LATCHED 0 = 1 ∧ t.fget .PROT_ERASE_ON_VBAT 0 = 1 ∧
         t.reg .PROT_ALARM 0 = 0 ∧ Counted u t .PROT_ERASE_COUNT 0) ∧
       (m.testBit rErase = false → t.bbks = s.bbks ∧
         t.fget .PROT_ALARM_LATCHED 0 = (s.fget .PROT_ALARM_LATCHED 0 ||| newSources u)) },
   { Arg := Nat
     cmd := .eraseComplete
     ok := fun s _ => s.prot.eraseAt ≠ none ∧ s.onVbat = false
     post := fun s _ t => t.mode = 5 ∧ t.prot.eraseAt = none ∧ t.fget .PROT_ERASE_DONE 0 = 2 ^ s.dies - 1 ∧ t.bbks = Bbks.zero ∧
       t.slots = [] ∧ (s.mode ≠ 5 → t.fget .DEV_MODE_LOCK_CAUSE 0 = 2) ∧ t.otp = s.otp },
   { Arg := Nat
     cmd := .eraseComplete
     ok := fun s _ => s.prot.eraseAt = none
     post := fun s dt t => t = s.elapse dt },
   { Arg := Nat
     cmd := .protAlarmClear
     ok := fun _ _ => True
     post := fun s mask t => RegsKept s t [.PROT_ALARM] ∧ t.prot = s.prot ∧ t.evr = s.evr ∧ ∀ b, b < 26 →
       (t.fget .PROT_ALARM_LATCHED 0).testBit b = ((s.fget .PROT_ALARM_LATCHED 0).testBit b && !mask.testBit b) },
   { Arg := (Bool × Nat) × Nat × Nat × Nat × Nat
     cmd := fun a => .bistChannelTest a.1.1 a.1.2
     ok := fun s a => s.prot.bist = some a.2 ∧ a.2.1 < 51 ∧ 50000 ≤ (s.elapse a.1.2).since a.2.2.1 ∧ s.onVbat = false
     post := fun s a t =>
       let i := a.2.1
       let f := if a.1.1 then 0 else 2 ^ (i / 2)
       t.prot.bist = some (i + 1, (s.elapse a.1.2).time.ticks, (if i % 2 = 0 then a.2.2.2.1 ||| f else a.2.2.2.1),
           (if i % 2 = 1 then a.2.2.2.2 ||| f else a.2.2.2.2)) ∧
         t.fget .PROT_BIST_STAT_UNDER_TEST 0 = (i + 1) / 2 ∧ t.fget .PROT_BIST_STAT_CHANNEL 0 = (i + 1) % 2 ∧
         RegsKept s t [.PROT_BIST_STAT] ∧ t.evr = s.evr },
   { Arg := (Bool × Nat) × Nat × Nat × Nat
     cmd := fun a => .bistChannelTest a.1.1 a.1.2
     ok := fun s a => s.prot.bist = some (51, a.2) ∧ 50000 ≤ (s.elapse a.1.2).since a.2.1 ∧ s.onVbat = false
     post := fun s a t =>
       let b := if a.1.1 then a.2.2.2 else a.2.2.2 ||| 2 ^ 25
       t.prot.bist = none ∧ t.fget .PROT_BIST_STAT_RUNNING 0 = 0 ∧ t.fget .PROT_BIST_STAT_DONE 0 = 1 ∧
         Counted s t .PROT_BIST_STAT_RUNS 0 ∧ t.fget .PROT_BIST_RESULT_FAIL_A 0 = a.2.2.1 % 2 ^ 26 ∧
         t.fget .PROT_BIST_RESULT_FAIL_B 0 = b % 2 ^ 26 ∧ t.prot.outA = a.2.2.1 ∧ t.prot.outB = b ∧
         Raised (s.elapse a.1.2) t 0x3050 0 a.2.2.1 b },
   { Arg := Nat × Nat
     cmd := fun a => .alarmEvaluation a.2
     ok := fun s a => s.onVbat = false ∧ a.1 < s.dies ∧ a.1 ≠ 0 ∧ sparseGet 0 s.prot.wires a.1 % 4 ≠ 0 ∧ s.prot.eraseAt = none
     post := fun s a t =>
       (∀ e ∈ t.slots, s.keyDie (e.1 / 2 ^ 24) = a.1 → e.2.state = .empty) ∧
         (∀ e ∈ t.streams, ctxDie e.1 = a.1 → e.2.cur = none ∧ e.2.next = none) ∧
         (∀ e ∈ t.cores, e.1 / 16 ≠ a.1) ∧ (∀ e ∈ t.shared, e.1 / 2 ≠ a.1) ∧ ∀ e ∈ t.saves, e.1 / 8 ≠ a.1 }]

/-- The decision of kind `n` that was taken first, and a delay of R431. -/
def Evaluates (s : State) (n delay : Nat) (d : Doubled) : Prop :=
  s.prot.doubled.find? (fun x => x.number == n) = some d ∧ 1 ≤ n ∧ 16 ≤ delay ∧ delay ≤ 1023

/-- The second evaluation is counted with its delay, and the decision waits no longer. -/
def Evaluated (s t : State) (delay : Nat) (d : Doubled) : Prop :=
  t.fget .PROT_F2_LAST_DELAY 0 = delay ∧ Counted s t .PROT_F2_DECISIONS 0 ∧ t.prot = { s.prot with doubled := s.prot.doubled.erase d }

/-- Second evaluations. -/
noncomputable def secondRows : List Row :=
  [{ Arg := (Nat × Nat × Nat) × Doubled
     cmd := fun a => .f2SecondEvaluation a.1.1 a.1.2.1 false a.1.2.2
     ok := fun s a => Evaluates s a.1.1 a.1.2.1 a.2
     post := fun s a t => t.fget .PROT_F2_LAST_DELAY 0 = a.1.2.1 ∧ Counted s t .PROT_F2_DECISIONS 0 ∧ LockedDown s t 4 ∧
       Records (s.elapse a.1.2.2) t 0x3040 ∧ t.otp = s.otp ∧ t.fget .DBG_STATE_LEVEL 0 = s.fget .DBG_STATE_LEVEL 0 },
   { Arg := (Nat × Nat) × Bytes
     cmd := fun a => .f2SecondEvaluation 1 a.1.1 true a.1.2
     ok := fun s a => Evaluates s 1 a.1.1 (.unlock a.2 2) ∧ ¬ (s.fget .LCS_STATE_STATE 0 = 3 ∧ byteAt a.2 6 = 2)
     post := fun s a t => Evaluated s t a.1.1 (.unlock a.2 2) ∧ t.fget .DBG_STATE_LEVEL 0 = byteAt a.2 6 % 4 ∧
       t.fget .DBG_FAILS_COUNT 0 = 0 ∧ t.mbx = s.mbx ∧ (t.reg .DBG_EXPIRY 0).toNat =
         (if leAt a.2 56 4 = 0 then 0 else ((s.elapse a.1.2).time.ns + leAt a.2 56 4 * 1000000000) % 2 ^ 64) },
   { Arg := (Nat × Nat) × Bytes
     cmd := fun a => .f2SecondEvaluation 1 a.1.1 true a.1.2
     ok := fun s a => Evaluates s 1 a.1.1 (.unlock a.2 1) ∧ ¬ (s.fget .LCS_STATE_STATE 0 = 3 ∧ byteAt a.2 6 = 2) ∧
       s.mbx.phase = .running ∧ s.cmdOpcode = 0x0808
     post := fun s a t => t.fget .PROT_F2_LAST_DELAY 0 = a.1.1 ∧ Counted s t .PROT_F2_DECISIONS 0 ∧ t.mbx.phase = .idle ∧
       t.fget .MBX_STATUS_DONE 0 = 1 ∧ t.fget .DBG_STATE_LEVEL 0 = byteAt a.2 6 % 4 ∧ t.fget .DBG_FAILS_COUNT 0 = 0 },
   { Arg := (Nat × Nat) × Nat
     cmd := fun a => .f2SecondEvaluation 2 a.1.1 true a.1.2
     ok := fun s a => Evaluates s 2 a.1.1 (.commit a.2) ∧ a.2 ≠ 5
     post := fun s a t => (s.otpGood = true → Programmed s t a.2 ∧ CommandReset s t) ∧
       (s.otpGood = false → Evaluated s t a.1.1 (.commit a.2) ∧ t.boot = { s.boot with waitOtp := some a.2 } ∧ t.otp = s.otp ∧
         RegsKept s t [.PROT_F2]) },
   { Arg := (Nat × Nat) × (Nat × Nat) × Job
     cmd := fun a => .f2SecondEvaluation 3 a.1.1 true a.1.2
     ok := fun s a => Evaluates s 3 a.1.1 (.key a.2.1.1 a.2.1.2) ∧ s.job? a.2.1.1 = some a.2.2
     post := fun s a t => Evaluated s t a.1.1 (.key a.2.1.1 a.2.1.2) ∧ RegsKept s t [.PROT_F2] ∧ t.cores = s.cores ∧
       t.job? a.2.1.1 = some { a.2.2 with due := a.2.2.due.filter (· != held a.2.1.2) } },
   { Arg := (Nat × Nat) × Nat
     cmd := fun a => .f2SecondEvaluation 3 a.1.1 true a.1.2
     ok := fun s a => Evaluates s 3 a.1.1 (.load a.2)
     post := fun s a t => Evaluated s t a.1.1 (.load a.2) ∧ RegsKept s t [.PROT_F2] ∧ t.sched = s.sched ∧
       t.core a.2 = { s.core a.2 with released := true } ∧ ∀ v, v ≠ a.2 → t.core v = s.core v },
   { Arg := (Nat × Nat) × Nat × Bool
     cmd := fun a => .f2SecondEvaluation 4 a.1.1 true a.1.2
     ok := fun s a => Evaluates s 4 a.1.1 (.verdict a.2.1 a.2.2) ∧ s.boot.phase = 1 ∧ s.mode = 1
     post := fun s a t =>
       let h := imageHead (s.slotFlash a.2.1)
       t.fget .PROT_F2_LAST_DELAY 0 = a.1.1 ∧ Counted s t .PROT_F2_DECISIONS 0 ∧ t.boot.phase = 2 ∧ t.boot.head = h ∧
         t.fget .DEV_BOOT_SLOT 0 = a.2.1 % 2 ∧ t.fget .DEV_BOOT_SVN 0 = byteAt h 0x10 ∧ t.fget .DEV_BOOT_FALLBACK 0 = bit a.2.2 ∧
         t.mode = 1 ∧ Records (s.elapse a.1.2) t 0x1001 },
   { Arg := Nat × Nat × Bool × Nat
     cmd := fun a => .f2SecondEvaluation a.1 a.2.1 a.2.2.1 a.2.2.2
     ok := fun s a => ∀ d ∈ s.prot.doubled, d.number ≠ a.1
     post := fun s a t => t = s.elapse a.2.2.2 }]

/-- Deckle `k` has DKL registers, and the master may write them: the MP or its die agent (R441). -/
def DklWriter (s : State) (k w : Nat) : Prop := k / 8 < s.dies ∧ (k % 8 < 6 ∨ k = 6) ∧ (w = 0x2000 ∨ w = 0x3000 + k / 8)

/-- No access waits behind an earlier one of its master (R32). -/
def InOrder (s : State) : Prop := ∀ e ∈ s.dkl, e.2.behind = []

/-- Deckle registers written, and held accesses timed out. -/
noncomputable def deckleRows : List Row :=
  [{ Arg := Nat × Nat
     cmd := fun a => .dklDisable a.1 a.2
     ok := fun s a => DklWriter s a.1 a.2
     post := fun s a t => t.fget .DKL_CTL_EN a.1 = 0 ∧ t.fget .DKL_CTL_BOOT_RULE a.1 = 0 ∧ RegsOnly s t [.DKL_CTL] ∧
       KeptBut s t .DKL_CTL [a.1] },
   { Arg := Nat × Nat
     cmd := fun a => .dklDisable a.1 a.2
     ok := fun s a => a.1 / 8 < s.dies ∧ (a.1 % 8 < 6 ∨ a.1 = 6) ∧ ¬ DklWriter s a.1 a.2
     post := fun s a t => Counted s t .DKL_REFUSED_COUNT (a.1 / 8 * 8 + 5) ∧ t.dkl = s.dkl ∧
       RegsKept s t [.DKL_REFUSED, .DKL_LAST, .EVR_LOST] ∧ t.fget .DKL_LAST_MASTER (a.1 / 8 * 8 + 5) = a.2 % 2 ^ 16 },
   { Arg := Nat × Nat
     cmd := fun a => .dklEnable a.1 a.2
     ok := fun s a => DklWriter s a.1 a.2 ∧ s.flag .DKL_CTL_EN a.1 = false ∧ (s.dklAt a.1).held = [] ∧ InOrder s
     post := fun s a t => t.flag .DKL_CTL_EN a.1 = true ∧ Raised s t 0x4003 a.1 (s.enabledRegions a.1) 0 ∧
       RegsKept s t [.DKL_CTL, .DKL_STAT, .EVR_LOST] ∧ (t.dklAt a.1).held = [] },
   { Arg := Nat × Nat
     cmd := fun a => .dklEnable a.1 a.2
     ok := fun s a => DklWriter s a.1 a.2 ∧ s.flag .DKL_CTL_EN a.1 = true
     post := fun s _ t => t = s },
   { Arg := Nat × Nat × Nat × Nat × Nat
     cmd := fun a => .dklRegionWrite a.1 a.2.1 a.2.2.1 a.2.2.2.1 a.2.2.2.2
     ok := fun s a => DklWriter s a.1 a.2.2.2.2 ∧ a.2.1 < 16 ∧ a.2.2.1 < 10 ∧ s.flag .DKL_CTL_EN a.1 = false
     post := fun s a t => t.regionWord a.1 a.2.1 a.2.2.1 = a.2.2.2.1 % 2 ^ 32 ∧ t.evr = s.evr ∧
       ∀ r w, r < 16 → w < 10 → ¬ (r = a.2.1 ∧ w = a.2.2.1) → t.regionWord a.1 r w = s.regionWord a.1 r w },
   { Arg := Nat × Nat × Nat × Nat × Nat
     cmd := fun a => .dklRegionWrite a.1 a.2.1 a.2.2.1 a.2.2.2.1 a.2.2.2.2
     ok := fun s a => DklWriter s a.1 a.2.2.2.2 ∧ a.2.1 < 16 ∧ a.2.2.1 < 10 ∧ s.flag .DKL_CTL_EN a.1 = true
     post := fun s a t => t.fget .DKL_STAT_ERR a.1 = 1 ∧ t.dkl = s.dkl ∧ RegsKept s t [.DKL_STAT, .EVR_LOST] ∧
       Raised s t 0x4004 a.1 (0x100 + 0x40 * a.2.1 + (if a.2.2.1 < 2 then 4 * a.2.2.1 else 0x10 + 4 * (a.2.2.1 - 2))) a.2.2.2.2 },
   { Arg := Nat × Nat
     cmd := fun a => .heldAccessTimeout a.1 a.2
     ok := fun s a => (∃ h ∈ (s.dklAt a.1).held, 2000 ≤ (s.elapse a.2).since h.at_) ∧ InOrder s
     post := fun s a t =>
       let u := s.elapse a.2
       let l := (s.dklAt a.1).held
       let left := l.filter (fun h => decide (u.since h.at_ < 2000))
       (t.dklAt a.1).held = left ∧ t.fget .DKL_STAT_HELD a.1 = left.length % 2 ^ 7 ∧
         t.fget .DKL_HOLD_TO_COUNT a.1 = satAdd (2 ^ 32 - 1) (s.fget .DKL_HOLD_TO_COUNT a.1) (l.length - left.length) ∧
         Records u t 0x4002 }]

end Sys2Proof.Claims
end

