-- ==== Sys2Proof/Safety/Secure.lean ====
section
/-!
DEFINITION. The mailbox commands on life cycle, debug, protection, firmware, modes, diagnostics and entropy: when each goes
ahead, and what stands afterwards (R5, R370, R387, R393 to R397, R406 to R413, R420 to R423).
-/

namespace Sys2Proof.Claims

open Sys2Proof.Machine

/-- The life-cycle state. -/
def life (s : State) : Nat := s.fget .LCS_STATE_STATE 0

/-- OWNER_CLAIM goes ahead, VDD_OTP apart. -/
def ClaimOk (s : State) : Prop := life s = 2 ∧ (s.otp.owners.getD 0 ⟨[], [], [], false⟩).owner = []

/-- OWNER_SET_KEYS goes ahead, VDD_OTP apart. -/
def SetKeysOk (s : State) (p : Bytes) : Prop :=
  life s = 3 ∧ byteAt p 0 < 4 ∧ ZeroAt p 1 3 ∧
    ((byteAt p 0).testBit 0 = true → s.currentOwner.kernel = []) ∧ ((byteAt p 0).testBit 1 = true → s.currentOwner.debugHash = [])

/-- OWNER_TRANSFER goes ahead, VDD_OTP apart. -/
def TransferOk (s : State) : Prop := life s = 3 ∧ ∃ k, s.ownerSlot = some k ∧ k < 3

/-- FW_ADVANCE_SVN goes ahead, VDD_OTP apart. -/
def AdvanceOk (s : State) : Prop := s.fget .DEV_FW_SLOT_TRIAL 0 = 0 ∧ s.otp.svn < s.fwSvn ∧ s.fwSvn ≤ 64

/-- The commands that program the OTP, without VDD_OTP (R470). -/
noncomputable def pulseChanges : List Change :=
  [pulseWaits 0x0508 .rootProvision (fun s _ => ProvisionOk s), pulseWaits 0x0803 .ownerClaim (fun s _ => ClaimOk s),
   pulseWaits 0x0804 .ownerSetKeys SetKeysOk, pulseWaits 0x0805 .ownerTransfer (fun s _ => TransferOk s),
   pulseWaits 0x0905 .protF2Set (fun s _ => s.otp.f2 = false), pulseWaits 0x0B06 .fwAdvanceSvn (fun s _ => AdvanceOk s)]

/-- Commands on owners and debug. -/
noncomputable def ownerChanges : List Change :=
  [{ op := 0x0802, cmd := .authNonce
     ok := fun s _ => life s ≤ 5 ∧ ∃ r, Draws s 32 r
     post := fun s _ t => ∃ r, Draws s 32 r ∧ Answered s t mSuccess 0 r ∧
       t.auth = { s.auth with nonce := r, nonceAt := s.time.ticks, nonceLive := true } },
   { op := 0x0803, cmd := .ownerClaim
     ok := fun s _ => s.otpGood = true ∧ ClaimOk s
     post := fun s p t => Done s t ∧ t.otp = { s.otp with owners := s.otp.owners.set 0 ⟨sliceZ p 0 48, [], [], false⟩ } ∧
       Raised s t 0x2005 0 1 0 ∧ RegsKept s t (mailboxRegs ++ [.EVR_LOST]) },
   { op := 0x0804, cmd := .ownerSetKeys
     ok := fun s p => s.otpGood = true ∧ SetKeysOk s p
     post := fun s p t =>
       let o := s.currentOwner
       let k := if (byteAt p 0).testBit 0 then sliceZ p 4 48 else o.kernel
       let d := if (byteAt p 0).testBit 1 then sliceZ p 52 48 else o.debugHash
       Done s t ∧ t.otp = { s.otp with owners := s.otp.owners.set (s.ownerSlot.getD 0) ⟨o.owner, k, d, o.revoked⟩ } ∧
       Raised s t 0x2005 (s.ownerSlot.getD 0) 4 0 ∧ RegsKept s t (mailboxRegs ++ [.EVR_LOST]) },
   { op := 0x0805, cmd := .ownerTransfer
     ok := fun s _ => s.otpGood = true ∧ TransferOk s ∧ s.prot.eraseAt = none
     post := fun s p t => ∀ k, s.ownerSlot = some k →
       t.otp = { s.otp with owners := (s.otp.owners.set (k + 1) ⟨sliceZ p 0 48, [], [], false⟩).set k { s.currentOwner with revoked := true } } ∧
       t.bbks.share = [] ∧ t.fget .DEV_RESET_CAUSE_COMMAND 0 = 1 ∧ t.mode = modeBoot ∧ t.mbx = State.reset.mbx }] ++
  [{ op := 0x0806, cmd := .returnAuthorise
     ok := fun s _ => life s = 3
     post := fun s _ t => Done s t ∧ t.fget .LCS_PERMIT_RETURN 0 = 1 ∧ OnlyRegs s t [.LCS_PERMIT] ∧ t.evr = s.evr },
   { op := 0x0807, cmd := .dbgChallenge
     ok := fun s _ => life s ≤ 4
     post := fun s _ t => ∃ b, b.length = 32 ∧ Answered s t mSuccess 0 b ∧ 
       t.auth = { s.auth with
         chal := b
         chalAt := s.time.ticks
         chalLive := true
         chalTtl := min 3600 (max 1 (s.fget .DBG_CHAL_TTL_SECONDS 0)) } ∧ RegsKept s t mailboxRegs },
   { op := 0x0808, cmd := .dbgUnlock
     ok := fun s _ => s.unlockWaits = false
     post := fun s p t =>
       (∀ st e, s.tokenFail p = some (st, e) → Answered s t st 0 [] ∧ t.fget .DBG_STATE_ERR_CODE 0 = e ∧
         t.fget .DBG_FAILS_COUNT 0 = min 8 (s.fget .DBG_FAILS_COUNT 0 + 1) ∧
         (t.fget .DBG_FAILS_COUNT 0 = 8 → t.flag .DBG_FAILS_BLOCKED 0 = true) ∧
         t.fget .DBG_STATE_LEVEL 0 = s.fget .DBG_STATE_LEVEL 0 ∧ Raised s t 0x2011 e 1 (t.fget .DBG_FAILS_COUNT 0)) ∧
       (s.tokenFail p = none → s.otp.f2 = true → t.prot = { s.prot with doubled := s.prot.doubled ++ [.unlock p 1] } ∧ t.regs = s.regs ∧
         t.mbx = s.mbx ∧ t.auth.chalLive = false) ∧
       (s.tokenFail p = none → s.otp.f2 = false → ¬ (life s = 3 ∧ byteAt p 6 = 2) →
         Done s t ∧ t.fget .DBG_STATE_LEVEL 0 = byteAt p 6 ∧ t.fget .DBG_FAILS_COUNT 0 = 0 ∧
         t.auth.chalLive = false ∧ t.fget .DBG_STATE_KS_LOCKED 0 = s.fget .DBG_STATE_KS_LOCKED 0 ∧
         (t.reg .DBG_EXPIRY 0).toNat = (if leAt p 56 4 = 0 then 0 else (s.time.ns + leAt p 56 4 * 1000000000) % 2 ^ 64) ∧
         (s.fget .DBG_STATE_LEVEL 0 ≠ byteAt p 6 → Raised s t 0x2010 (s.fget .DBG_STATE_LEVEL 0) (byteAt p 6) 1)) },
   { op := 0x0808, cmd := .dbgUnlock
     ok := fun s _ => s.unlockWaits = true
     post := fun s _ t => t = s },
   { op := 0x0809, cmd := .dbgRelock
     ok := fun _ _ => True
     post := fun s _ t => Done s t ∧ t.fget .DBG_STATE_LEVEL 0 = 0 ∧ t.reg .DBG_EXPIRY 0 = 0 ∧ OnlyRegs s t [.DBG_STATE, .DBG_EXPIRY] ∧
       (s.fget .DBG_STATE_LEVEL 0 ≠ 0 → Raised s t 0x2010 (s.fget .DBG_STATE_LEVEL 0) 0 3) }]

/-- Commands on protection. -/
noncomputable def protChanges : List Change :=
  [{ op := 0x0902, cmd := .protSetMap
     ok := fun _ p => byteAt p 0 ≤ 25 ∧ byteAt p 1 < 32 ∧ ZeroAt p 2 2
     post := fun s p t => Done s t ∧ Raised s t 0x3080 (byteAt p 0) (byteAt p 1) 1 ∧ RegsKept s t (mailboxRegs ++ [.EVR_LOST]) ∧
       t.effMap (byteAt p 0) = byteAt p 1 ||| s.floorMap (byteAt p 0) ∧ (∀ x, x ≠ byteAt p 0 → t.effMap x = s.effMap x) },
   { op := 0x0903, cmd := .protArm
     ok := fun s p => byteAt p 0 < 16 ∧ byteAt p 3 = 0 ∧
       (armWatermarks p = [] ∨ ∃ r, Draws s (4 * (armWatermarks p).length) r ∧
         ∀ i, i < (armWatermarks p).length → leAt r (4 * i) 4 ≠ 0)
     post := fun s p t => Done s t ∧ Raised s t 0x3080 0 (leAt p 0 3) 2 ∧
       t.fget .PROT_TAMPER_CFG_CASE_ARMED 0 = byteAt p 0 ∧ t.fget .PROT_TAMPER_CFG_LOOP_ARMED 0 = byteAt p 1 ∧
       t.fget .PROT_TAMPER_CFG_WATERMARK 0 = byteAt p 2 ∧ t.prot.armAt = s.time.aoTicks ∧
       t.prot.seeds.map (·.1) = armWatermarks p ∧ ∀ e ∈ t.prot.seeds, e.2 ≠ 0 },
   { op := 0x0904, cmd := .protBist
     ok := fun s _ => s.prot.bist = none
     post := fun s _ t => Answered s t mInProgress 0 [] ∧ t.prot = { s.prot with bist := some (0, s.time.ticks, 0, 0) } ∧
       t.fget .PROT_BIST_STAT_RUNNING 0 = 1 ∧ t.fget .PROT_BIST_STAT_UNDER_TEST 0 = 0 ∧ t.fget .PROT_BIST_STAT_CHANNEL 0 = 0 ∧
       RegsKept s t (mailboxRegs ++ [.PROT_BIST_STAT]) },
   { op := 0x0905, cmd := .protF2Set
     ok := fun s _ => s.otpGood = true ∧ s.otp.f2 = false
     post := fun s _ t => Done s t ∧ t.otp = { s.otp with f2 := true } ∧ RegsKept s t mailboxRegs ∧ t.view .PROT_F2 0 / 2 ^ 31 = 1 }]

/-- The slot of the flash that a command names may be staged (R393). -/
def SlotFree (s : State) (p : Bytes) : Prop :=
  byteAt p 0 < 2 ∧ (s.boot.sel = 2 ∨ s.mode = modeLockdown) ∧ s.runningSlot ≠ some (byteAt p 0) ∧ s.boot.install = none ∧ ZeroAt p 1 3

/-- Commands on firmware, modes and resets. -/
noncomputable def firmwareChanges : List Change :=
  [{ op := 0x0B01, cmd := .fwStageOpen
     ok := fun s p => SlotFree s p ∧ 1 ≤ leAt p 4 4 ∧ leAt p 4 4 ≤ 2 ^ 24
     post := fun s p t => let k := byteAt p 0
       Done s t ∧ t.boot = { s.boot with
         flash := s.boot.flash.set k []
         stage := ⟨some k, leAt p 4 4, []⟩
         installed := s.boot.installed.set k false
         invalid := s.boot.invalid.set k false } ∧
       (∃ u, OnlyChannel 0 { s with boot := t.boot } u ∧ OnlyAnswer u t) ∧
       (s.fget .DGE_STAT_STATE 0 = 0 → (s.dgeAt 0).bind = none →
         t.fget .DGE_STAT_STATE 0 = 2 ∧ t.fget .DGE_STAT_SOURCE 0 = 3 ∧ t.fget .DGE_CTL_FUNC 0 = 2 ∧ t.reg .DGE_COUNT 0 = 0 ∧
         ∃ b, (t.dgeAt 0).bind = some b ∧ b.left = leAt p 4 4) },
   { op := 0x0B02, cmd := .fwStageData
     ok := fun s p => ∃ k, s.boot.stage.target = some k ∧ leAt p 0 4 = (s.boot.flash.getD k []).length ∧ ZeroAt p 4 4 ∧
       leAt p 0 4 + (p.length - 8) ≤ s.boot.stage.size ∧ s.boot.install = none
     post := fun s p t => ∀ k, s.boot.stage.target = some k →
       Done s t ∧ t.boot = { s.boot with flash := s.boot.flash.set k (s.boot.flash.getD k [] ++ p.drop 8) } ∧
       (∃ u, OnlyChannel 0 { s with boot := t.boot } u ∧ OnlyAnswer u t) ∧
       (∀ b, (s.dgeAt 0).bind = some b → b.job = none → b.left ≠ 0 →
         t.reg .DGE_COUNT 0 = s.reg .DGE_COUNT 0 + BitVec.ofNat 64 (min b.left (p.drop 8).length)) },
   { op := 0x0B03, cmd := .fwInstall
     ok := SlotFree
     post := fun s p t => Answered s t mInProgress 0 [] ∧ RegsKept s t mailboxRegs ∧
       t.boot = { s.boot with install := some (byteAt p 0, s.time.ticks), outcome := mInProgress } },
   { op := 0x0B04, cmd := .fwActivate
     ok := fun s p => byteAt p 0 < 2 ∧ s.boot.installed.getD (byteAt p 0) false = true ∧ ZeroAt p 1 3
     post := fun s p t => Done s t ∧ OnlyRegs s t [.DEV_FW_SLOT] ∧ t.fget .DEV_FW_SLOT_PREFERRED 0 = byteAt p 0 ∧
       t.fget .DEV_FW_SLOT_TRIAL 0 = 1 ∧ t.fget .DEV_FW_SLOT_TRIES 0 = 0 ∧
       Raised s t 0x1007 (byteAt p 0) 2 (byteAt (imageHead (s.boot.flash.getD (byteAt p 0) [])) 0x10) }] ++
  [{ op := 0x0B05, cmd := .fwConfirm
     ok := fun _ _ => True
     post := fun s _ t => Done s t ∧ OnlyRegs s t [.DEV_FW_SLOT] ∧ t.fget .DEV_FW_SLOT_TRIAL 0 = 0 ∧
       t.fget .DEV_FW_SLOT_PREFERRED 0 = s.fget .DEV_FW_SLOT_PREFERRED 0 ∧
       (s.fget .DEV_FW_SLOT_TRIAL 0 = 1 → Raised s t 0x1007 (s.fget .DEV_BOOT_SLOT 0) 3 (s.fget .DEV_BOOT_SVN 0)) ∧
       (s.fget .DEV_FW_SLOT_TRIAL 0 = 0 → t.evr = s.evr) },
   { op := 0x0B06, cmd := .fwAdvanceSvn
     ok := fun s _ => s.otpGood = true ∧ AdvanceOk s
     post := fun s _ t => Done s t ∧ t.otp = { s.otp with svn := s.fwSvn } ∧ RegsKept s t (mailboxRegs ++ [.EVR_LOST]) ∧
       Raised s t 0x1008 s.otp.svn s.fwSvn 0 },
   { op := 0x0C01, cmd := .modeEnter
     ok := fun s p => ZeroAt p 1 3 ∧
       ((s.mode = 2 ∧ byteAt p 0 = 3 ∧ life s = 3 ∧ s.flag .KS_ROOT_VALID 0 = true) ∨ (s.mode = 3 ∧ byteAt p 0 = 4) ∨
        (s.mode = 4 ∧ byteAt p 0 = 3 ∧ s.quiet = true) ∨ (s.mode = 4 ∧ byteAt p 0 = 2 ∧ s.cmdAuthed = true ∧ s.allFree = true) ∨
        (s.mode = 5 ∧ byteAt p 0 = 2 ∧ s.cmdAuthed = true ∧ life s = 3 ∧ s.fget .DEV_MODE_LOCK_CAUSE 0 = 1 ∧
          s.freeEpoch ≠ none ∧ s.allFree = true))
     post := fun s p t => Done s t ∧ OnlyRegs { s with boot := t.boot } t [.DEV_MODE] ∧ t.fget .DEV_MODE_MODE 0 = byteAt p 0 ∧
       t.fget .DEV_MODE_LOCK_CAUSE 0 = 0 ∧ t.fget .DEV_MODE_HOLD 0 = s.fget .DEV_MODE_HOLD 0 ∧
       Raised s t 0x1004 s.mode (byteAt p 0) 1 },
   { op := 0x0C02, cmd := .devReset
     ok := fun s p => leAt p 0 4 = 0x52455345 ∧ s.prot.eraseAt = none
     post := fun s _ t => t.fget .DEV_RESET_CAUSE_COMMAND 0 = 1 ∧ t.mode = modeBoot ∧ t.mbx = State.reset.mbx ∧ t.rings = [] ∧
       t.sched = State.reset.sched ∧ t.slots = [] ∧ t.otp = s.otp ∧ t.bbks = s.bbks ∧ t.pending = s.pending }]

/-- Commands on diagnostics and entropy. -/
noncomputable def diagChanges : List Change :=
  [{ op := 0x0C12, cmd := .diagBist
     ok := fun s p => byteAt p 0 < 2 * s.dies ∧ 1 ≤ byteAt p 1 ∧ byteAt p 1 ≤ 3 ∧ ZeroAt p 2 2 ∧ s.boot.bist = none ∧
       (byteAt p 1 = 3 → s.dieHasKey (byteAt p 0 / 2) = false)
     post := fun s p t => Answered s t mInProgress 0 [] ∧ t.boot = { s.boot with bist := some (byteAt p 0, byteAt p 1, s.time.ticks) } ∧
       (byteAt p 1 = 3 → t.flag .KS_STATE_READY (byteAt p 0 / 2) = false) },
   { op := 0x0702, cmd := .rngSet
     ok := fun s p => (byteAt p 0 < s.dies ∨ byteAt p 0 = 0xFF) ∧ byteAt p 1 < 4 ∧
       ∀ v ∈ [leAt p 2 2, leAt p 4 4, leAt p 8 4, leAt p 12 4], v = 0 ∨ (10 ≤ v ∧ v ≤ 10000)
     post := fun s p t => Done s t ∧ ∀ d, d < s.dies → (byteAt p 0 = d ∨ byteAt p 0 = 0xFF) →
       t.fget .RNG_CTL_BORROW_EN d = byteAt p 1 % 2 ∧ t.fget .RNG_CTL_LEND_EN d = byteAt p 1 / 2 ∧
       t.fget .RNG_RETRY_RETRY_MS d = (if leAt p 2 2 = 0 then s.fget .RNG_RETRY_RETRY_MS d else leAt p 2 2) ∧
       ∀ c, c < 3 → t.fget .RNG_WAIT_LIMIT_US (d * 3 + c) =
         (if leAt p (4 + 4 * c) 4 = 0 then s.fget .RNG_WAIT_LIMIT_US (d * 3 + c) else leAt p (4 + 4 * c) 4) }]

end Sys2Proof.Claims
end

