-- ==== Sys2Proof/Safety/Links.lean ====
section
/-!
DEFINITION. The mailbox commands on ports, stream contexts, the duplex pair, entropy banks and the engines' DIAG: when each
goes ahead, and what stands afterwards (R252, R276, R280, R286 to R295, R312, R313, R336, R337, R344 to R347, R369, R370).
-/

namespace Sys2Proof.Claims

open Sys2Proof.Machine

/-- The checks of PORT_CONFIG pass: a port that is not of the mirror, its mode, FEC, role, options, rings and raw TI. -/
def PortFields (s : State) (p : Bytes) : Prop :=
  let n := leAt p 0 2
  n < 16 * s.dies ∧ s.fget .PORT_CFG_ROLE n ≠ 2 ∧ byteAt p 2 < 6 ∧ byteAt p 3 < 3 ∧ (byteAt p 3 = 0 ∨ byteAt p 2 = 5) ∧ byteAt p 4 < 2 ∧
    (byteAt p 4 = 0 ∨ s.flag .PORT_CFG_PAIRED n = false) ∧ byteAt p 5 < 8 ∧ (byteAt p 5 < 4 ∨ byteAt p 2 < 3) ∧ ZeroAt p 6 2 ∧
    s.frxOf (leAt p 8 2) = true ∧ s.frxOf (leAt p 10 2) = true ∧ (leAt p 12 2 = 0xFFFF ∨ LiveTi s (leAt p 12 2)) ∧ ZeroAt p 14 2

/-- A port that may enter a pair (R280). -/
def Pairable (s : State) (n : Nat) : Prop :=
  n < 16 * s.dies ∧ s.fget .PORT_CFG_ROLE n = 0 ∧ s.flag .PORT_CFG_PAIRED n = false

/-- Commands on ports and the frame path as a whole. -/
noncomputable def portChanges : List Change :=
  [{ op := 0x0601, cmd := .portConfig
     ok := PortFields
     post := fun s p t => let n := leAt p 0 2
       Done s t ∧ RegsKept s t (mailboxRegs ++ [.EVR_LOST, .PORT_CFG, .PORT_RINGS, .PORT_STATUS]) ∧
       KeptBut s t .PORT_CFG [n] ∧ KeptBut s t .PORT_RINGS [n] ∧ KeptBut s t .PORT_STATUS [n] ∧
       t.fget .PORT_CFG_MODE n = byteAt p 2 ∧ t.fget .PORT_CFG_FEC n = byteAt p 3 ∧ t.fget .PORT_CFG_ROLE n = byteAt p 4 ∧
       t.fget .PORT_CFG_PAUSE_GEN n = byteAt p 5 % 2 ∧ t.fget .PORT_CFG_JUMBO n = byteAt p 5 / 2 % 2 ∧
       t.fget .PORT_CFG_AN n = byteAt p 5 / 4 ∧ t.fget .PORT_CFG_PAIRED n = s.fget .PORT_CFG_PAIRED n ∧
       t.fget .PORT_CFG_PARTNER n = s.fget .PORT_CFG_PARTNER n ∧ t.fget .PORT_CFG_PRP_LAN_B n = s.fget .PORT_CFG_PRP_LAN_B n ∧
       t.fget .PORT_RINGS_DEFAULT_RING n = leAt p 8 2 ∧ t.fget .PORT_RINGS_PTP_RING n = leAt p 10 2 ∧
       t.fget .PORT_RINGS_RAW_TI n = leAt p 12 2 ∧
       (if s.fget .PORT_CFG_MODE n = byteAt p 2 ∧ s.fget .PORT_CFG_FEC n = byteAt p 3 ∧ s.fget .PORT_CFG_AN n = byteAt p 5 / 4
        then t.reg .PORT_STATUS n = s.reg .PORT_STATUS n ∧ t.evr = s.evr
        else t.fget .PORT_STATUS_LINK n = 0 ∧
          (s.fget .PORT_STATUS_LINK n = 1 → t.fget .PORT_STATUS_LINK_CHANGED n = 1 ∧ Raised s t 0x7001 n 0 0)) },
   { op := 0x0602, cmd := .prpPair
     ok := fun s p => let a := leAt p 0 2
       let c := leAt p 2 2
       ZeroAt p 5 3 ∧ ((byteAt p 4 = 1 ∧ Pairable s a ∧ Pairable s c ∧ a / 16 = c / 16 ∧ a ≠ c) ∨
         (byteAt p 4 = 0 ∧ a < 16 * s.dies ∧ c < 16 * s.dies ∧ a ≠ c ∧ s.lanA a = true ∧ s.partner a = c ∧ s.pairBound a = false))
     post := fun s p t => let a := leAt p 0 2
       let c := leAt p 2 2
       Done s t ∧ OnlyRegs s t [.PORT_CFG, .PORT_PRP_SEQ] ∧ t.evr = s.evr ∧ KeptBut s t .PORT_CFG [a, c] ∧
       KeptBut s t .PORT_PRP_SEQ [a] ∧ t.fget .PORT_PRP_SEQ_SEQ a = 0 ∧
       t.fget .PORT_CFG_PAIRED a = byteAt p 4 ∧ t.fget .PORT_CFG_PAIRED c = byteAt p 4 ∧ t.fget .PORT_CFG_PRP_LAN_B c = byteAt p 4 ∧
       t.fget .PORT_CFG_PRP_LAN_B a = s.fget .PORT_CFG_PRP_LAN_B a ∧
       t.fget .PORT_CFG_PARTNER a = byteAt p 4 * (c % 16) ∧ t.fget .PORT_CFG_PARTNER c = byteAt p 4 * (a % 16) },
   { op := 0x0609, cmd := .fpSetGlobal
     ok := fun _ p => byteAt p 0 < 8 ∧ ZeroAt p 2 2 ∧ (leAt p 4 4 = 0 ∨ (10 ≤ leAt p 4 4 ∧ leAt p 4 4 ≤ 10000)) ∧ leAt p 8 4 ≤ 1000
     post := fun s p t => Done s t ∧ OnlyAnswer { s with frames := t.frames } t ∧ t.frames = { s.frames with
       share := if byteAt p 0 = 0 then s.frames.share else byteAt p 0
       utc := if byteAt p 1 = 0 then s.frames.utc else byteAt p 1
       maxWait := if leAt p 4 4 = 0 then s.frames.maxWait else leAt p 4 4
       slip := if leAt p 8 4 = 0 then s.frames.slip else leAt p 8 4 } }]

/-- The context that a payload names at byte 0 is live, and its owner is not under the duplex hold. -/
def LiveCtx (s : State) (p : Bytes) : Prop := leAt p 0 4 < 4096 * s.dies ∧ (s.stream (leAt p 0 4)).live = true

/-- Its owner is not under the duplex hold (R341). -/
def NotHeld (s : State) (p : Bytes) : Prop := s.flag .TI_KEY_HOME_DUPLEX_HELD (s.stream (leAt p 0 4)).owner = false

/-- Context `n` holds `x`, and every other what it held. -/
def OnlyStream (s t : State) (n : Nat) (x : Stream) : Prop := t.stream n = x ∧ ∀ m, m ≠ n → t.stream m = s.stream m

/-- What context `n` held stays for the frames whose first byte has entered (R33). -/
def Revised (s t : State) (n : Nat) : Prop := (s.time.ticks, n, s.stream n) ∈ t.frames.past

/-- The fields that only a receive context uses are in range. -/
def RxFields (s : State) (p : Bytes) : Prop :=
  byteAt p 2 = 0 → leAt p 12 2 % 2 ^ 15 < 2 ^ 12 ∧ byteAt p 18 < 3 ∧ byteAt p 19 < 3 ∧ s.frxOf (leAt p 20 2) = true ∧ ZeroAt p 22 2 ∧
    (leAt p 24 4 = 0 ∨ (10 ≤ leAt p 24 4 ∧ leAt p 24 4 ≤ 1000000)) ∧ (leAt p 28 4 = 0 ∨ (2 ≤ leAt p 28 4 ∧ leAt p 28 4 ≤ 65536))

/-- Commands on stream contexts. -/
noncomputable def streamChanges : List Change :=
  [{ op := 0x0603, cmd := .streamCreate
     ok := fun s p => let ti := leAt p 0 2
       let port := leAt p 14 2 % 2 ^ 14
       LiveTi s ti ∧ byteAt p 2 < 2 ∧ byteAt p 3 < 2 ∧ (leAt p 14 2).testBit 14 = false ∧ port < 16 * s.dies ∧
       s.fget .PORT_CFG_ROLE port ≠ 2 ∧ ((leAt p 14 2).testBit 15 = true → s.lanA port = true) ∧
       ((byteAt p 16 = 1 ∧ byteAt p 17 ∈ [10, 16, 32]) ∨ (byteAt p 16 = 2 ∧ byteAt p 17 ∈ [8, 16])) ∧ RxFields s p ∧ ZeroAt p 36 4 ∧
       (leAt p 32 4 ≠ 0xFFFFFFFF → leAt p 32 4 / 4096 = port / 16 ∧ (s.stream (leAt p 32 4)).live = false) ∧
       (leAt p 32 4 = 0xFFFFFFFF → s.freeContext (port / 16) ≠ none) ∧
       (∀ e ∈ s.streams, e.2.sameMatch (streamOf p) = false) ∧ s.flag .TI_KEY_HOME_DUPLEX_HELD ti = false ∧
       s.fget .TI_STREAM_USED ti < s.fget .TI_STREAM_QUOTA ti
     post := fun s p t => let ti := leAt p 0 2
       ∃ n, Answered s t mSuccess 0 (leBytes 4 n) ∧ OnlyStream s t n (streamOf p) ∧ (s.stream n).live = false ∧
         (leAt p 32 4 = n ∨ (leAt p 32 4 = 0xFFFFFFFF ∧ s.freeContext (leAt p 14 2 % 2 ^ 14 / 16) = some n)) ∧
         t.fget .TI_STREAM_USED ti = s.fget .TI_STREAM_USED ti + 1 ∧ Raised s t 0x7009 n ti 1 ∧ Revised s t n },
   { op := 0x0604, cmd := .streamModify
     ok := fun s p => LiveCtx s p ∧ (s.stream (leAt p 0 4)).dir ≠ 1 ∧ byteAt p 4 < 3 ∧ byteAt p 5 < 3 ∧ s.frxOf (leAt p 6 2) = true ∧
       (leAt p 8 4 = 0 ∨ (10 ≤ leAt p 8 4 ∧ leAt p 8 4 ≤ 1000000)) ∧ ZeroAt p 12 4 ∧ NotHeld s p
     post := fun s p t => let x := s.stream (leAt p 0 4)
       Done s t ∧ t.evr = s.evr ∧ Revised s t (leAt p 0 4) ∧ OnlyStream s t (leAt p 0 4) { x with
         unauth := byteAt p 4
         fail := byteAt p 5
         secRing := leAt p 6 2
         window := if leAt p 8 4 = 0 then x.window else leAt p 8 4 } },
   { op := 0x0605, cmd := .streamSubscribe
     ok := fun s p => let x := s.stream (leAt p 0 4)
       LiveCtx s p ∧ x.dir ≠ 1 ∧ leAt p 4 2 ≠ 0xFFFF ∧ s.frxOf (leAt p 4 2) = true ∧ byteAt p 6 < 2 ∧ byteAt p 7 = 0 ∧
       (byteAt p 6 = 1 → leAt p 4 2 ∉ x.subs ∧ x.subs.length < 8) ∧ (byteAt p 6 = 0 → leAt p 4 2 ∈ x.subs)
     post := fun s p t => let x := s.stream (leAt p 0 4)
       Done s t ∧ OnlyAnswer { s with streams := t.streams, frames := { s.frames with past := t.frames.past } } t ∧
       Revised s t (leAt p 0 4) ∧ OnlyStream s t (leAt p 0 4) { x with
         subs := if byteAt p 6 = 1 then x.subs ++ [leAt p 4 2] else x.subs.filter (· != leAt p 4 2) } },
   { op := 0x0606, cmd := .streamDestroy
     ok := fun s p => LiveCtx s p ∧ NotHeld s p
     post := fun s p t => let o := (s.stream (leAt p 0 4)).owner
       Done s t ∧ OnlyStream s t (leAt p 0 4) Stream.blank ∧ Revised s t (leAt p 0 4) ∧ t.fget .TI_STREAM_USED o = s.fget .TI_STREAM_USED o - 1 ∧
       Raised s t 0x7009 (leAt p 0 4) o 0 ∧ ∀ f ∈ t.frames.rx, f.ctx = some (leAt p 0 4) → f.seen.live = false }] ++
  [{ op := 0x0607, cmd := .streamResetState
     ok := LiveCtx
     post := fun s p t => Done s t ∧ OnlyAnswer { s with streams := t.streams } t ∧
       OnlyStream s t (leAt p 0 4) { s.stream (leAt p 0 4) with last := none, hist := [] } },
   { op := 0x0608, cmd := .streamClearKeys
     ok := fun s p => LiveCtx s p ∧ NotHeld s p
     post := fun s p t => let x := s.stream (leAt p 0 4)
       Done s t ∧ OnlyStream s t (leAt p 0 4) { x with cur := none, next := none } ∧ Revised s t (leAt p 0 4) ∧
       ∃ k, Raised s t 0x7008 (leAt p 0 4) 3 k ∧ ∀ c, x.cur = some c → k = c.1 },
   { op := 0x060A, cmd := .streamQuery
     ok := LiveCtx
     post := fun s p t => let x := s.stream (leAt p 0 4)
       Answered s t mSuccess 0 (streamQueryBytes (leAt p 0 4) x) ∧ OnlyAnswer { s with streams := t.streams } t ∧
       OnlyStream s t (leAt p 0 4) { x with counts := List.replicate 12 0 } }]

/-- A field within a range, or zero for what is in force. -/
def ZeroOr (v lo hi : Nat) : Prop := v = 0 ∨ (lo ≤ v ∧ v ≤ hi)

/-- The mirror ports that DUPLEX_CONFIG leaves in force: a zero keeps the one there is. -/
def newPortA (s : State) (p : Bytes) : Nat := if leAt p 0 2 = 0 then s.duplex.portA else leAt p 0 2

/-- The second of them. -/
def newPortB (s : State) (p : Bytes) : Nat := if leAt p 2 2 = 0 then s.duplex.portB else leAt p 2 2

/-- Commands on the duplex pair. -/
noncomputable def duplexChanges : List Change :=
  [{ op := 0x0D01, cmd := .duplexConfig
     ok := fun s p => let a := newPortA s p
       let b := newPortB s p
       ((leAt p 0 2 ≠ 0 ∨ leAt p 2 2 ≠ 0) → s.mirrorPort a = true ∧ s.mirrorPort b = true ∧ a / 16 ≠ b / 16 ∧
         ((a = s.duplex.portA ∧ b = s.duplex.portB) ∨ s.fget .DUPLEX_STATUS_STATE 0 = 0)) ∧ ZeroOr (leAt p 4 2) 1 1000 ∧
       ZeroOr (byteAt p 6) 2 255 ∧ byteAt p 7 < 2 ∧ ZeroOr (leAt p 8 2) 1 100 ∧ ZeroAt p 10 2
     post := fun s p t => let a := newPortA s p
       let b := newPortB s p
       Done s t ∧ RegsKept s t (mailboxRegs ++ [.PORT_CFG, .DUPLEX_STATUS]) ∧
       (∀ x, (x = a ∨ x = b) → x < 16 * s.dies → t.fget .PORT_CFG_ROLE x = 2 ∧ t.fget .PORT_CFG_JUMBO x = 1) ∧
       (∀ x, (x = s.duplex.portA ∨ x = s.duplex.portB) → x ≠ a → x ≠ b → x < 16 * s.dies → t.fget .PORT_CFG_ROLE x = 0) ∧
       t.fget .DUPLEX_STATUS_AUTO_PROMOTE 0 = byteAt p 7 ∧
       t.duplex = { s.duplex with
         portA := a
         portB := b
         hbPeriod := if leAt p 4 2 = 0 then s.duplex.hbPeriod else leAt p 4 2
         hbMiss := if byteAt p 6 = 0 then s.duplex.hbMiss else byteAt p 6
         ackMs := if leAt p 8 2 = 0 then s.duplex.ackMs else leAt p 8 2 } },
   { op := 0x0D02, cmd := .duplexPair
     ok := fun s p => byteAt p 0 < 2 ∧ ZeroAt p 1 3 ∧ s.duplex.portA ≠ 0xFFFF ∧ s.flag .KS_ROOT_VALID 0 = true ∧
       s.fget .DUPLEX_STATUS_STATE 0 = 0 ∧ s.hold = false ∧ (byteAt p 0 = 0 → ∃ r, Draws s pairDraw1 r)
     post := fun s p t => Answered s t mInProgress 0 [] ∧ t.fget .DUPLEX_STATUS_STATE 0 = 1 ∧ t.bbks = s.bbks ∧
       ∃ x, t.duplex.pairing = some x ∧ x.hash = sliceZ p 4 48 ∧ x.initiator = decide (byteAt p 0 = 0) ∧ x.renew = false ∧
         x.at_ = s.time.ticks ∧ (byteAt p 0 = 0 → OutMsg.mirror 0 (.pair1 x.msg1) [] ∈ t.out) },
   { op := 0x0D03, cmd := .duplexUnpair
     ok := fun s _ => s.fget .DUPLEX_STATUS_STATE 0 ≠ 0 ∧ ∀ u ∈ s.duplex.unacked, u.2.2.1 = none
     post := fun s _ t => Done s t ∧ t.fget .DUPLEX_STATUS_STATE 0 = 0 ∧ t.fget .DUPLEX_STATUS_ROLE 0 = 0 ∧
       t.bbks.paired = false ∧ t.bbks.secret = [] ∧ t.bbks.keyI2R = [] ∧ t.bbks.keyR2I = [] ∧ t.bbks.peer = [] ∧
       (∀ n, n < s.part.tenants → t.flag .TI_KEY_HOME_DUPLEX_HELD n = false ∧
         t.fget .TI_STATUS_STATE n = s.fget .TI_STATUS_STATE n) ∧
       Raised s t 0xC020 0 (s.fget .DUPLEX_STATUS_ROLE 0) 0 },
   { op := 0x0D04, cmd := .duplexMirrorTi
     ok := fun s p => LiveTi s (leAt p 0 2) ∧ byteAt p 2 < 2 ∧ byteAt p 3 = 0
     post := fun s p t => let n := leAt p 0 2
       Done s t ∧ t.fget .TI_KEY_HOME_MIRRORED n = byteAt p 2 ∧ KeptBut s t .TI_KEY_HOME [n] ∧
       (byteAt p 2 = 0 → t.flag .TI_KEY_HOME_DUPLEX_HELD n = false) ∧
       t.fget .TI_STATUS_STATE n = (if byteAt p 2 = 1 ∧ s.fget .DUPLEX_STATUS_ROLE 0 = 2 ∧ s.fget .TI_STATUS_STATE n = 2 then 3
         else s.fget .TI_STATUS_STATE n) }] ++
  [{ op := 0x0D05, cmd := .duplexPromote
     ok := fun s p => byteAt p 0 < 2 ∧ ZeroAt p 1 3 ∧ (byteAt p 0 = 0 → s.mayPromote = true)
     post := fun s _ t => Done s t ∧
       (if s.fget .DUPLEX_STATUS_ROLE 0 = 2 then
          t.fget .DUPLEX_STATUS_ROLE 0 = 1 ∧ t.fget .DUPLEX_EPOCH_VALUE 0 = (s.fget .DUPLEX_EPOCH_VALUE 0 + 1) % 2 ^ 32 ∧
          Records s t 0xC023 ∧ ∀ n, n < s.part.tenants → s.flag .TI_KEY_HOME_DUPLEX_HELD n = true →
            t.flag .TI_KEY_HOME_DUPLEX_HELD n = false ∧ t.fget .TI_STATUS_STATE n = 2
        else OnlyAnswer s t) },
   { op := 0x0D06, cmd := .duplexDemote
     ok := fun s p => leAt p 0 2 < 2 ∧ ZeroAt p 2 2 ∧ s.fget .DUPLEX_STATUS_ROLE 0 = 1 ∧ (leAt p 0 2 = 1 → s.sched.jobs = [])
     post := fun s _ t => t.fget .DUPLEX_STATUS_ROLE 0 = 2 ∧
       (let jobs := (s.sched.jobs.filter (fun j => t.flag .TI_KEY_HOME_DUPLEX_HELD j.ti)).map (·.id)
        if jobs = [] ∧ (∀ e ∈ s.rings, e.2.held = [] ∨ s.flag .TI_KEY_HOME_MIRRORED (s.ringOwner e.1) = false) then Done s t
        else Waits t jobs none) ∧
       Raised s t 0xC023 4 (s.fget .DUPLEX_EPOCH_VALUE 0) 0 ∧
       ∀ n, n < s.part.tenants → s.flag .TI_KEY_HOME_MIRRORED n = true → s.fget .TI_STATUS_STATE n = 2 →
         t.fget .TI_STATUS_STATE n = 3 ∧ t.flag .TI_KEY_HOME_DUPLEX_HELD n = true }]

/-- DIAG_LIE: an engine enters DIAG at once when it is idle, else when its job has ended and it is clear; it leaves with L of
36 and every slot cleared. -/
noncomputable def engineChanges : List Change :=
  [{ op := 0x0C10, cmd := .diagLie
     ok := fun s p => byteAt p 0 < 2 * s.dies ∧ ZeroAt p 2 2 ∧
       ((byteAt p 1 = 1 ∧ s.fget .LIE_STATE_STATE (byteAt p 0) < 3) ∨
        (byteAt p 1 = 0 ∧ s.fget .LIE_STATE_STATE (byteAt p 0) = 3 ∧ (s.lieAt (byteAt p 0)).cmd = none))
     post := fun s p t => let k := byteAt p 0
       if byteAt p 1 = 0 then
         Done s t ∧ t.fget .LIE_STATE_STATE k = 0 ∧ t.fget .LIE_CFG_SLOT_WORDS k = 36 ∧ t.fget .LIE_CFG_SLOT_COUNT k = 227 ∧
           (t.lieAt k).mem = [] ∧ (t.lieAt k).tables = false ∧ Records s t 0x9005
       else if s.fget .LIE_STATE_STATE k = 0 ∧ s.flag .LIE_STATE_TI_VALID k = false then
         Done s t ∧ t.fget .LIE_STATE_STATE k = 3 ∧ (t.lieAt k).mem = [] ∧ Records s t 0x9005 ∧
           (t.fget .DEV_READY_MAP_LIE (k / 2)).testBit (k % 2) = false
       else Waits t [] none ∧ (t.lieAt k).diagWait = true ∧ t.fget .LIE_STATE_STATE k = s.fget .LIE_STATE_STATE k ∧
         (t.fget .DEV_READY_MAP_LIE (k / 2)).testBit (k % 2) = false }]

/-- RNG_BANK: a bank leaves the seeds, or returns by a start-up test of outcome `fail` (R369). -/
noncomputable def BankCommand (fail : Nat) : Change :=
  { op := 0x0703, cmd := .rngBank fail
    ok := fun s p => byteAt p 0 < s.dies ∧ byteAt p 1 < 7 ∧ byteAt p 2 < 2 ∧ byteAt p 3 = 0
    post := fun s p t => let d := byteAt p 0
      let b := byteAt p 1
      Done s t ∧
        (byteAt p 2 = 0 → (t.fget .RNG_BANKS_ACTIVE d).testBit b = false ∧
          ((s.fget .RNG_BANKS_RETIRED d).testBit b = false → (t.fget .RNG_BANKS_EXCLUDED d).testBit b = true)) ∧
        (byteAt p 2 = 1 → (s.fget .RNG_BANKS_ACTIVE d).testBit b = false → fail ≠ 1 → fail ≠ 2 →
          (t.fget .RNG_BANKS_ACTIVE d).testBit b = true ∧ (t.fget .RNG_BANKS_EXCLUDED d).testBit b = false ∧
          (t.fget .RNG_BANKS_RETIRED d).testBit b = false ∧ Records s t 0xB003) ∧
        (byteAt p 2 = 1 → (s.fget .RNG_BANKS_ACTIVE d).testBit b = false → fail = 1 →
          (t.fget .RNG_BANKS_ACTIVE d) = s.fget .RNG_BANKS_ACTIVE d ∧
          t.fget .RNG_BANK_FAILS_RCT (d * 7 + b) = satAdd (2 ^ 16 - 1) (s.fget .RNG_BANK_FAILS_RCT (d * 7 + b)) 1) }

/-- DIAG_RNG_CAPTURE: the raw bits of a bank, in TEST and RETURNED; the bank returns by a start-up test. -/
noncomputable def CaptureCommand (bits : Bytes) (fail : Nat) : Change :=
  { op := 0x0C11, cmd := .diagRngCapture bits fail
    ok := fun s p => (life s = 1 ∨ life s = 4) ∧ byteAt p 0 < s.dies ∧ byteAt p 1 < 7 ∧ 1 ≤ leAt p 2 2 ∧ leAt p 2 2 ≤ 16368
    post := fun s p t => Answered s t mSuccess 0 (sliceZ bits 0 (leAt p 2 2)) ∧
      (fail ≠ 1 → fail ≠ 2 → (t.fget .RNG_BANKS_ACTIVE (byteAt p 0)).testBit (byteAt p 1) = true) }

end Sys2Proof.Claims
end

