-- ==== Sys2Proof/Safety/Power.lean ====
section
/-!
DEFINITION. Rows of the power cap, of temperature and of the regulators, and of the SMBus target (R471, R472, R475 to R480).
-/

namespace Sys2Proof.Claims

open Sys2Proof.Machine

/-- Die `d` may take a step down: its point is not the lowest and no change runs. -/
def MayFall (s : State) (d : Nat) : Prop := d < s.dies ∧ s.fget .PWR_DIE_POINT d < 3 ∧ s.dvfsOf d = none

/-- Die `d` may take a step up. -/
def MayRise (s : State) (d : Nat) : Prop :=
  d < s.dies ∧ 0 < s.fget .PWR_DIE_POINT d ∧ s.dvfsOf d = none ∧ s.flag .PWR_DIE_THERMAL d = false

/-- Die `d` runs one point lower: frequency first, then voltage, and the change runs (R472). -/
def Fell (u t : State) (d why : Nat) : Prop :=
  let p := u.fget .PWR_DIE_POINT d
  t.fget .PWR_DIE_POINT d = p + 1 ∧ t.fget .DIE_SCHED_STATE_DVFS d = p + 1 ∧
    t.fget .DIE_SCHED_STATE_SET_MHZ d = pointMhz (p + 1) ∧ t.fget .PWR_DIE_VCORE_MV d = pointMv (p + 1) ∧
    (⟨d, p, p + 1, u.time.ticks, why⟩ : Dvfs) ∈ t.power.changes ∧ Records u t 0xD001

/-- The averages that an evaluation leaves in the registers. -/
def Averages (s t : State) (pkg : Nat) (dies : List Nat) : Prop :=
  t.fget .PWR_STAT_POWER 0 = min 0xFFFF pkg ∧ ∀ d, d < s.dies → t.fget .PWR_DIE_POWER d = min 0xFFF (dies.getD d 0)

/-- No die is at its grade limit. -/
def Cool (s : State) : Prop := ∀ d, d < s.dies → s.tooHot d = false

/-- The cap, the changes of point, and the samples of temperature. -/
noncomputable def powerRows : List Row :=
  [{ Arg := Nat × List Nat × Nat × Nat
     cmd := fun a => .powerCapEvaluation a.1 a.2.1 a.2.2.1
     ok := fun s a => s.onVbat = false ∧ s.cap16 < min 0xFFFF a.1 ∧ Cool s ∧ MayFall s a.2.2.2 ∧
       (∀ e, MayFall s e → s.fget .PWR_DIE_POINT a.2.2.2 < s.fget .PWR_DIE_POINT e ∨
         (s.fget .PWR_DIE_POINT a.2.2.2 = s.fget .PWR_DIE_POINT e ∧ e ≤ a.2.2.2))
     post := fun s a t => Averages s t a.1 a.2.1 ∧ Fell (s.elapse a.2.2.1) t a.2.2.2 1 ∧ t.fget .PWR_DIE_CAP a.2.2.2 = 1 ∧
       t.fget .PWR_STAT_CAPPING 0 = 1 ∧ t.power.below = 0 ∧
       ∀ e, e ≠ a.2.2.2 → t.fget .PWR_DIE_POINT e = s.fget .PWR_DIE_POINT e },
   { Arg := Nat × List Nat × Nat
     cmd := fun a => .powerCapEvaluation a.1 a.2.1 a.2.2
     ok := fun s a => s.onVbat = false ∧ min 0xFFFF a.1 ≤ s.cap16
     post := fun s a t => Averages s t a.1 a.2.1 ∧
       (∀ d, MayFall s d → s.tooHot d = true → Fell (s.elapse a.2.2) t d 2) ∧
       (∀ d, ¬ (MayFall s d ∧ s.tooHot d = true) → t.fget .PWR_DIE_POINT d = s.fget .PWR_DIE_POINT d) },
   { Arg := Nat × List Nat × Nat
     cmd := fun a => .powerCapEvaluation a.1 a.2.1 a.2.2
     ok := fun s a => s.onVbat = false ∧ min 0xFFFF a.1 ≤ s.cap16 ∧ s.cap16 ≤ min 0xFFFF a.1 + capMargin s.cap16 ∧ Cool s
     post := fun s a t => Averages s t a.1 a.2.1 ∧ t.power.below = 0 ∧ t.power.changes = s.power.changes ∧
       (∀ d, t.fget .PWR_DIE_POINT d = s.fget .PWR_DIE_POINT d ∧ t.fget .PWR_DIE_VCORE_MV d = s.fget .PWR_DIE_VCORE_MV d) ∧
       t.fget .PWR_STAT_CAP_UNMET 0 = 0 ∧ RegsKept s t [.PWR_STAT, .PWR_DIE] ∧ t.evr = s.evr },
   { Arg := Nat × List Nat × Nat × Nat
     cmd := fun a => .powerCapEvaluation a.1 a.2.1 a.2.2.1
     ok := fun s a => s.onVbat = false ∧ min 0xFFFF a.1 + capMargin s.cap16 < s.cap16 ∧ Cool s ∧ s.power.below = 9 ∧
       s.hold = false ∧ MayRise s a.2.2.2 ∧
       (∀ e, MayRise s e → s.fget .PWR_DIE_POINT e < s.fget .PWR_DIE_POINT a.2.2.2 ∨
         (s.fget .PWR_DIE_POINT a.2.2.2 = s.fget .PWR_DIE_POINT e ∧ a.2.2.2 ≤ e))
     post := fun s a t =>
       let u := s.elapse a.2.2.1
       let d := a.2.2.2
       let p := s.fget .PWR_DIE_POINT d
       t.power.below = 0 ∧ t.fget .PWR_DIE_VCORE_MV d = pointMv (p - 1) ∧
         t.power.changes = s.power.changes ++ [⟨d, p, p - 1, u.time.ticks, 3⟩] ∧
         ∀ e, t.fget .PWR_DIE_POINT e = s.fget .PWR_DIE_POINT e },
   { Arg := Nat × List Nat × Nat
     cmd := fun a => .powerCapEvaluation a.1 a.2.1 a.2.2
     ok := fun s _ => s.onVbat = true
     post := fun s a t => Averages s t a.1 a.2.1 ∧ t.power = s.power ∧ RegsKept s t [.PWR_STAT, .PWR_DIE] },
   { Arg := Nat × Nat × Dvfs
     cmd := fun a => .regulatorSettled a.1 a.2.1
     ok := fun s a => s.dvfsOf a.1 = some a.2.2 ∧ (a.2.2.old < a.2.2.new ∨ s.hold = false)
     post := fun s a t =>
       let c := a.2.2
       t.power.changes = s.power.changes.filter (fun x => x.die != a.1) ∧ (c.old < c.new → t.regs = s.regs ∧ t.evr = s.evr) ∧
         (¬ c.old < c.new → t.fget .PWR_DIE_POINT a.1 = c.new % 4 ∧ t.fget .DIE_SCHED_STATE_SET_MHZ a.1 = pointMhz c.new ∧
           Raised (s.elapse a.2.1) t 0xD001 a.1 (c.old + 256 * c.new) c.why) },
   { Arg := Nat × Nat
     cmd := fun a => .regulatorSettled a.1 a.2
     ok := fun s a => s.dvfsOf a.1 = none ∨ ∃ c, s.dvfsOf a.1 = some c ∧ ¬ c.old < c.new ∧ s.hold = true
     post := fun s a t => t = s.elapse a.2 },
   { Arg := Nat × Nat × Nat × Dvfs
     cmd := fun a => .regulatorTimeout a.1 a.2.1 a.2.2.1
     ok := fun s a => s.dvfsOf a.1 = some a.2.2.2 ∧
       (a.2.1 = 1 ∨ (a.2.1 = 2 ∧ 1000000 ≤ (s.elapse a.2.2.1).since a.2.2.2.at_))
     post := fun s a t =>
       let c := a.2.2.2
       Counted s t .PWR_PMB_FAULTS 0 ∧ Raised (s.elapse a.2.2.1) t 0xD005 a.1 a.2.1 (pointMv c.new) ∧
         t.power.changes = s.power.changes.filter (fun x => x.die != a.1) ∧
         (c.new < c.old → t.fget .PWR_DIE_VCORE_MV a.1 = pointMv c.old) ∧
         (∀ d, t.fget .PWR_DIE_POINT d = s.fget .PWR_DIE_POINT d) ∧ RegsKept s t [.PWR_PMB, .PWR_DIE, .EVR_LOST] },
   { Arg := Nat × Nat × Nat
     cmd := fun a => .regulatorTimeout a.1 a.2.1 a.2.2
     ok := fun s a => s.dvfsOf a.1 = none
     post := fun s a t => t = s.elapse a.2.2 },
   { Arg := List Int × Nat
     cmd := fun a => .thermalSample a.1 a.2
     ok := fun s a => s.onVbat = false ∧ ∀ k, -32768 ≤ a.1.getD k 0 ∧ a.1.getD k 0 < 1920
     post := fun s a t =>
       let u := s.elapse a.2
       let warn : Int := ((16 * s.fget .THM_CTL_WARN_C 0 : Nat) : Int)
       (∀ k ∈ s.sensors, t.temp16 k = a.1.getD k 0 ∧ (a.1.getD k 0).fdiv 16 ≤ signedOf 16 (t.fget .THM_STAT_MAX_C 0)) ∧
         (∀ d, d < s.dies → ((16 * s.grade.limit : Nat) : Int) ≤ a.1.getD d 0 → t.flag .PWR_DIE_THERMAL d = true) ∧
         (∀ d, d < s.dies → s.flag .PWR_DIE_THERMAL d = false → a.1.getD d 0 < ((16 * s.grade.limit : Nat) : Int) →
           t.flag .PWR_DIE_THERMAL d = false) ∧
         (∀ d, d < s.dies → (t.fget .THM_STAT_THROTTLED 0).testBit d = t.flag .PWR_DIE_THERMAL d) ∧
         ((∃ k ∈ s.sensors, warn ≤ a.1.getD k 0) → s.flag .THM_STAT_THERM 0 = false →
           t.flag .THM_STAT_THERM 0 = true ∧ Records u t 0xD006) ∧
         ((∀ k ∈ s.sensors, a.1.getD k 0 ≤ warn - 32) → t.flag .THM_STAT_THERM 0 = false) ∧
         t.power.hot = 0 ∧ t.mode = s.mode },
   { Arg := List Int × Nat × Nat
     cmd := fun a => .thermalSample a.1 a.2.1
     ok := fun s a => s.onVbat = false ∧ s.power.hot.testBit a.2.2 = true ∧ a.2.2 ∈ s.sensors ∧ 1920 ≤ a.1.getD a.2.2 0 ∧
       ∀ k, -32768 ≤ a.1.getD k 0 ∧ a.1.getD k 0 < 32768
     post := fun s a t => ResetDone (s.elapse a.2.1) t ∧ t.fget .DEV_RESET_CAUSE_THERMAL 0 = 1 ∧ t.boot.thermal = true },
   { Arg := List Int × Nat
     cmd := fun a => .thermalSample a.1 a.2
     ok := fun s _ => s.onVbat = true
     post := fun s a t => t = s.elapse a.2 }]

/-- What the SMBus target answers to a read of `n` bytes by command `c` that hold `v` (Table 18.9): nothing below step 6. -/
def SmbusAnswer (s t : State) (c n v : Nat) (check : Bool) : Prop :=
  (s.onVbat = false → 2 ≤ s.boot.phase → ∃ b, leNat b = v % 2 ^ (8 * n) ∧ b.length = n ∧
    t = { s with out := s.out ++ [.smbus (b ++ (if check then [BitVec.ofNat 8 (pec ([0xB4, c, 0xB5] ++ b.map (·.toNat)))] else []))] }) ∧
  (¬ (s.onVbat = false ∧ 2 ≤ s.boot.phase) → t = s)

/-- The SMBus target. -/
noncomputable def smbusRows : List Row :=
  [{ Arg := Bool
     cmd := .smbusMode
     ok := fun _ _ => True
     post := fun s p t => SmbusAnswer s t 1 1 (s.mode + 8 * bit s.hold) p },
   { Arg := Bool
     cmd := .smbusReady
     ok := fun _ _ => True
     post := fun s p t =>
       SmbusAnswer s t 2 1 (s.fget .DEV_READY_MBX 0 + 2 * s.fget .DEV_READY_ALL 0 + 4 * s.fget .DEV_READY_ROOT 0) p },
   { Arg := Bool × Nat
     cmd := fun a => .smbusTemperature a.1
     ok := fun s a => a.2 ∈ s.sensors ∧ ∀ k ∈ s.sensors, s.temp16 k ≤ s.temp16 a.2
     post := fun s a t => SmbusAnswer s t 3 1 (unsignedOf 8 ((s.temp16 a.2).fdiv 16)) a.1 },
   { Arg := Bool
     cmd := .smbusPower
     ok := fun _ _ => True
     post := fun s p t => SmbusAnswer s t 4 2 (s.fget .PWR_STAT_POWER 0) p },
   { Arg := Bool
     cmd := .smbusAlarmSummary
     ok := fun _ _ => True
     post := fun s p t => SmbusAnswer s t 5 1 (bit (decide (s.fget .PROT_ALARM_LATCHED 0 ≠ 0)) + 2 * bit s.alarmLow +
       4 * bit (s.mode == 5) + 8 * bit s.hold + 16 * s.fget .THM_STAT_THERM 0) p },
   { Arg := Bool
     cmd := .smbusLifecycle
     ok := fun _ _ => True
     post := fun s p t => SmbusAnswer s t 6 1 s.lcs p },
   { Arg := Bool
     cmd := .smbusFirmware
     ok := fun _ _ => True
     post := fun s p t => SmbusAnswer s t 7 2 (byteAt s.boot.head 12 * 256 + byteAt s.boot.head 13) p },
   { Arg := Unit
     cmd := fun _ => .smbusAlertResponse
     ok := fun s _ => s.onVbat = false ∧ 2 ≤ s.boot.phase ∧ s.boot.alert = true
     post := fun s _ t => t = { s with boot := { s.boot with alert := false }, out := s.out ++ [.smbus [0xB4#8]] } },
   { Arg := Unit
     cmd := fun _ => .smbusAlertResponse
     ok := fun s _ => ¬ (s.onVbat = false ∧ 2 ≤ s.boot.phase ∧ s.boot.alert = true)
     post := fun s _ t => t = s }]

end Sys2Proof.Claims
end

