-- ==== Sys2Proof/Safety/Queries.lean ====
section
/-!
DEFINITION. The mailbox commands that return data and change nothing: their conditions and what they return (R100, R101,
R139, R166, R226, R312, R332, R346, R347, R370, R396, R407, R432, R444, R454, R458).
-/

namespace Sys2Proof.Claims

open Sys2Proof.Machine

/-- Always. -/
def free (_ : State) (_ : Bytes) : Prop := True

/-- A die of the part at payload byte 0, then three zero bytes. -/
def dieAt (s : State) (p : Bytes) : Prop := byteAt p 0 < s.dies ∧ ZeroAt p 1 3

/-- Commands of the package and of its tenants. -/
noncomputable def deviceQueries : List Query :=
  [⟨0x0101, .devInfo, free, fun s _ =>
      sliceZ (ascii (match s.part with | .zv2800 => "ZV2800" | .zv4800 => "ZV4800" | .zv8800 => "ZV8800")) 0 8 ++
      leBytes 1 s.dies ++ ascii (match s.grade with | .extended => "E" | .commercial => "C") ++ ascii "B1" ++ sliceZ s.boot.head 0x0C 4 ++
      leBytes 4 s.fwManifest ++ leBytes 1 s.otp.svn ++ leBytes 1 (s.fget .KS_ROOT_EPOCH 0) ++
      leBytes 1 (s.fget .LCS_STATE_STATE 0) ++ leBytes 1 s.mode ++ leBytes 1 (if s.otp.f2 then 1 else 0) ++
      leBytes 1 (s.fget .DBG_STATE_LEVEL 0) ++ leBytes 6 0 ++ sliceZ s.otp.deviceId 0 16 ++ leBytes 8 s.time.ns ++ leBytes 8 0⟩,
   ⟨0x0102, .devCaps, free, fun s _ =>
      [s.part.tenants, s.part.rings, 4096, 4096 * s.dies, 28672 * s.dies, 16, 16368, 8, 32, 8 * s.dies].flatMap (leBytes 4)⟩,
   ⟨0x0103, .devPools, free, fun s _ =>
      let sum := fun (f : Fld) => ((List.range s.part.tenants).map (s.fget f)).sum
      ([((List.range s.part.tenants).filter (fun n => s.fget .TI_STATUS_STATE n == 0)).length, s.part.rings - sum .TI_RING_QUOTA,
        4096 - sum .TI_IMT_QUOTA, 4096 * s.dies - sum .TI_STREAM_QUOTA].flatMap (leBytes 4)) ++
      (List.range 8).flatMap (fun d => leBytes 4 (if d < s.dies then 28672 - s.fget .KS_GRANULES_RESERVED_Q d else 0))⟩,
   ⟨0x0110, .echo, free, fun _ p => p⟩,
   ⟨0x020B, .tiQuery, fun s p => leAt p 0 2 < s.part.tenants ∧ ZeroAt p 2 2,
      fun s p => s.peek (0x2000000 + 0x1000 * leAt p 0 2) 64⟩,
   ⟨0x0307, .ringQuery, fun s p => LiveRing s (leAt p 0 4), fun s p => s.peek (0x1000000 + 0x400 * leAt p 0 4) 80⟩,
   ⟨0x0405, .schedQuery, dieAt, fun s p => s.peek (0x100000 * (byteAt p 0 + 1) + 0x100) 32⟩,
   ⟨0x060B, .portQuery, fun s p => leAt p 0 2 < 16 * s.dies ∧ ZeroAt p 2 2,
      fun s p => s.peek (0x100000 * (leAt p 0 2 / 16 + 1) + 0x30000 + 0x1000 * (leAt p 0 2 % 16)) 128⟩,
   ⟨0x0B14, .kernelQuery, fun s p => byteAt p 0 < 32 ∧ ZeroAt p 1 3 ∧ (s.kernelAt (byteAt p 0)).header ≠ [],
      fun s p => (s.kernelAt (byteAt p 0)).header ++ (s.kernelAt (byteAt p 0)).measure⟩]

/-- Commands of the recorder, the key store, the duplex pair, entropy, firmware, life cycle, protection and the deckles. -/
noncomputable def blockQueries : List Query :=
  [⟨0x0A01, .evrQuery, free, fun s _ => s.peek 0x20100 128 ++ s.peek 0x20200 128 ++ s.peek 0x20280 128 ++ s.peek 0x20300 128⟩,
   ⟨0x0A02, .evrRead, fun _ p => byteAt p 0 ≤ 31 ∧ ZeroAt p 1 3 ∧ 1 ≤ leAt p 8 4 ∧ leAt p 8 4 ≤ 511, fun s p =>
      let l := s.chan (byteAt p 0)
      let r := (l.drop (leAt p 4 4)).take (leAt p 8 4)
      leBytes 4 r.length ++ leBytes 4 l.length ++ List.replicate 8 0 ++ r.flatMap EvRec.bytes⟩,
   ⟨0x0501, .keyInfo, fun s p => LiveTi s (leAt p 0 2) ∧ ZeroAt p 2 2 ∧
        (leAt p 4 4 < s.fget .TI_KEY_QUOTA_VALUE (leAt p 0 2) ∨ leAt p 4 4 = 0xFFFFFF),
      fun s p => s.keyInfoBytes (leAt p 0 2) (leAt p 4 4)⟩,
   ⟨0x0509, .identityRead, fun s _ => s.flag .KS_ROOT_VALID 0 = true, fun s _ => leBytes 1 (s.fget .KS_ROOT_EPOCH 0) ++ s.idPublic⟩,
   ⟨0x050A, .ksQuery, dieAt, fun s p => s.peek (0x100000 * (byteAt p 0 + 1) + 0x90000) 32⟩,
   ⟨0x0D07, .duplexQuery, free, fun s _ => s.peek 0x190100 48⟩,
   ⟨0x0701, .rngQuery, dieAt, fun s p => s.peek (0x100000 * (byteAt p 0 + 1) + 0x50000) 64⟩,
   ⟨0x0B07, .fwQuery, free, fun s _ =>
      leBytes 4 (s.reg .DEV_BOOT 0).toNat ++ leBytes 4 (s.reg .DEV_FW_SLOT 0).toNat ++ leBytes 4 s.fwVersion ++
      leBytes 1 (s.slotSvn 0) ++ leBytes 1 (s.slotSvn 1) ++ leBytes 1 s.otp.svn ++ leBytes 1 0 ++ leBytes 2 s.boot.outcome ++
      List.replicate 14 0⟩] ++
  [⟨0x0C13, .diagResult, free, fun s _ => s.boot.result⟩,
   ⟨0x0801, .lcsQuery, free, fun s _ => s.peek 0x40000 32⟩,
   ⟨0x0901, .protQuery, free, fun s _ => s.peek 0x40200 64⟩,
   ⟨0x0E01, .aclQuery, fun s p => s.hasDeckle (leAt p 0 2) = true ∧ ZeroAt p 2 2, fun s p =>
      let k := leAt p 0 2
      s.peek (0x100000 * (k / 8 + 1) + 0x60000 + 0x800 * (k % 8)) 32 ++
        (if k % 8 = 7 then [] else (List.range 16).flatMap (fun r => (List.range 10).flatMap (fun w => leBytes 4 (s.regionWord k r w))))⟩,
   ⟨0x0E02, .aclTest, fun s p => s.hasDeckle (leAt p 0 2) = true ∧ byteAt p 4 ≤ 1 ∧ ZeroAt p 5 3 ∧ 1 ≤ leAt p 16 4 ∧
        leAt p 16 4 ≤ 4096 ∧ (leAt p 0 2 % 8 = 7 → leAt p 20 2 < s.part.tenants) ∧ ZeroAt p 22 2, fun s p =>
      let l := s.testParts p
      leBytes 4 l.length ++ l.flatMap (fun x => leBytes 8 x.1 ++ leBytes 4 x.2.1 ++ leBytes 4 x.2.2)⟩]

end Sys2Proof.Claims
end

