-- ==== Sys2Proof/Safety/Regs.lean ====
section
/-!
DEFINITION. What statements about register accesses and about the recorder are told in (R11, R12, R14, R16, R430, R439,
R449 to R454, R491, R492).
-/

namespace Sys2Proof.Claims

open Sys2Proof.Machine

/-- An access to BAR0 that reaches the device, carries its integrity codes and that its deckle allows at once; no earlier
access waits (R32, R441). -/
def Granted (s : State) (m : Master) (write : Bool) (a : Nat) (data : Bytes) (n code : Nat) : Prop :=
  s.mode ≠ 0 ∧ (m = .pf0 → s.host.perst = false ∧ s.host.d3hot = false) ∧ codesOk (masterId m) a n data code = true ∧
    ∃ k off, s.deckleOf a = some (k, off) ∧ (s.flag .DKL_CTL_EN k = true ∨ inDkl a = true) ∧
      s.decision k (masterId m) write off = 1 ∧ ∀ e ∈ s.dkl, e.2.held = [] ∧ e.2.behind = []

/-- Registers whose read follows a rule of its own. -/
def specialReads : List RegKind :=
  [.EVR_WINDOW, .EVR_CURSOR, .TIME_NOW_FRAC, .LIE_WINDOW, .LIE_SLOT_SEL, .LIE_CMD, .DKL_RGN_BASE, .DKL_RGN_SIZE, .DKL_RGN_RD,
   .DKL_RGN_WR]

/-- Registers whose write has an effect beyond the access codes of their bits. -/
def specialWrites : List RegKind :=
  [.MBX_DOORBELL, .MBX_CTL, .MBX_TIMEOUT, .MBX_CMD, .EVR_CURSOR, .EVR_INT_EN, .TIME_CTL, .TIME_SET, .TIME_STEP, .TIME_INCR,
   .TIME_SLEW, .TIME_PPS_OUT, .TIME_TARGET] ++
  [.LCS_REQUEST, .DBG_CHAL_TTL, .PROT_ALARM, .PWR_CAP, .THM_CTL, .RNG_CTL, .DGE_CTL, .DGE_DATA, .DGE_CMP, .LIE_CFG,
   .LIE_SLOT_SEL, .LIE_CMD, .LIE_WINDOW, .IMT_ADDR, .IMT_DATA, .IMT_CTL, .DKL_CTL, .DKL_RGN_BASE, .DKL_RGN_SIZE, .DKL_RGN_RD,
   .DKL_RGN_WR]

/-- What the master of a read sees, and nothing else has changed but the registers. -/
def ReadAnswered (s t : State) (m : Master) (v : Nat) : Prop :=
  (m ≠ .dbg → t = { s with regs := t.regs, out := s.out ++ [.readReturn (leBytes 4 v)] }) ∧
  (m = .dbg → t = { s with out := t.out, free := t.free } ∧ ∃ x, x ≠ 1 ∧ t.out = s.out ++ [.debug (v % 2 ^ 32) x])

/-- What the master of a write sees: only the debug master is answered. -/
def WriteAnswered (s t : State) (m : Master) : Prop :=
  (m ≠ .dbg → t = s) ∧
  (m = .dbg → t = { s with out := t.out, free := t.free } ∧ ∃ x, x ≠ 1 ∧ t.out = s.out ++ [.debug 0 x])

/-- The bit that a register holds after a write of `v` (Table 00.5): `rw`, `w1s` and `w1c` are the masks of its bits. -/
def writtenBit (row : RegRow) (old v j : Nat) : Bool :=
  if row.w1c.testBit j && v.testBit j then false
  else if row.w1s.testBit j && v.testBit j then true
  else if row.rw.testBit j then v.testBit j
  else old.testBit j

/-- The state in which a master's halves are `h`, else `s`. -/
def withHalf (s : State) (m : Master) (staged shadow : Option (Nat × Nat)) : State := s.setHalf m ⟨shadow, staged⟩

end Sys2Proof.Claims
end

