-- ==== Sys2Proof/Safety/Time.lean ====
section
/-!
DEFINITION. Rows of the time base, of entropy and of the mask generators (R35, R37, R168 to R171, R187, R188,
R350 to R368).
-/

namespace Sys2Proof.Claims

open Sys2Proof.Machine

/-- A PF0 vector fires: its message, or its pending bit (R94). -/
def VectorFired (s t : State) (v : Nat) : Prop :=
  if s.host.msixEnable && !s.host.msixMask && !s.host.vecMask.testBit v then
    Sent s t [.memWrite none none none (sparseGet 0 s.host.vecAddr v) (leBytes 4 (sparseGet 0 s.host.vecData v))]
  else t.host.pba = s.host.pba ||| (1 <<< v) ∧ t.out = s.out

/-- The PHC after a step (R168): a set gives the value itself, a step adds a signed number; both are modulo 2⁶⁴. -/
def stepped (ns kind : Nat) (v : Int) : Nat := ((if kind = 1 then v else (ns : Int) + v) % (2 ^ 64 : Int)).toNat

/-- The time base. -/
noncomputable def timeRows : List Row :=
  [{ Arg := Nat
     cmd := .timeSet
     ok := fun _ _ => True
     post := fun s v t => t = { s with
         regs := t.regs
         time := { s.time with step := some (1, ((v % 2 ^ 64 : Nat) : Int), s.time.ticks + 4000) } } ∧
       t.fget .TIME_CTL_STEP_PENDING 0 = 1 ∧ RegsKept s t [.TIME_CTL] },
   { Arg := Nat
     cmd := .timeStep
     ok := fun _ _ => True
     post := fun s v t => t = { s with
         regs := t.regs
         time := { s.time with step := some (2, signedOf 64 v, s.time.ticks + 4000) } } ∧
       t.fget .TIME_CTL_STEP_PENDING 0 = 1 ∧ RegsKept s t [.TIME_CTL] },
   { Arg := Nat
     cmd := .timeSlew
     ok := fun _ _ => True
     post := fun s v t => t = { s with time := { s.time with slew := signedOf 32 v * 2 ^ 48 } } },
   { Arg := Nat × (Nat × Int × Nat)
     cmd := fun a => .stepTakesEffect a.1
     ok := fun s a => s.time.step = some a.2 ∧ a.2.2.2 ≤ (s.elapse a.1).time.ticks
     post := fun s a t =>
       let u := s.elapse a.1
       let new := stepped u.time.ns a.2.1 a.2.2.1
       let diff := (((new : Int) - (u.time.ns : Int)) % (2 ^ 64 : Int)).toNat
       t.time.ns = new ∧ t.time.frac = (if a.2.1 = 1 then 0 else u.time.frac) ∧ t.time.slew = 0 ∧ t.time.step = none ∧
         t.time.ticks = u.time.ticks ∧ t.fget .TIME_CTL_STEP_PENDING 0 = 0 ∧ t.fget .TIME_INT_STEPPED 0 = 1 ∧
         Raised u t 0x5005 a.2.1 (diff / 2 ^ 32) (diff % 2 ^ 32) ∧
         (s.time.targetArmed = true → (s.reg .TIME_TARGET 0).toNat ≤ new → t.fget .TIME_INT_TARGET 0 = 1) ∧
         (s.flag .TIME_CTL_PPS_OUT_EN 0 = true → s.ppsSecond u.time.ns < s.ppsSecond new → t.time.ppsOut = true) },
   { Arg := Nat
     cmd := .stepTakesEffect
     ok := fun s _ => s.time.step = none
     post := fun s dt t => t = s.elapse dt },
   { Arg := Nat
     cmd := .timeTarget
     ok := fun _ _ => True
     post := fun s v t => (t.reg .TIME_TARGET 0).toNat = v % 2 ^ 64 ∧ t.time.ns = s.time.ns ∧
       (v % 2 ^ 64 ≤ s.time.ns → t.time.targetArmed = false ∧ t.fget .TIME_INT_TARGET 0 = 1 ∧
         (s.flag .TIME_INT_EN_TARGET 0 = true → VectorFired s t 5)) ∧
       (s.time.ns < v % 2 ^ 64 → t.time.targetArmed = true ∧ RegsKept s t [.TIME_TARGET] ∧ t.out = s.out) },
   { Arg := Nat
     cmd := .targetReached
     ok := fun s dt => s.time.targetArmed = true ∧ (s.reg .TIME_TARGET 0).toNat ≤ (s.elapse dt).time.ns
     post := fun s dt t => t.time.targetArmed = false ∧ t.fget .TIME_INT_TARGET 0 = 1 ∧ RegsKept s t [.TIME_INT] ∧
       (s.flag .TIME_INT_EN_TARGET 0 = true → VectorFired (s.elapse dt) t 5) ∧
       (s.flag .TIME_INT_EN_TARGET 0 = false → t.out = s.out ∧ t.host = s.host) },
   { Arg := Nat
     cmd := .ppsOutEdge
     ok := fun s dt => s.flag .TIME_CTL_PPS_OUT_EN 0 = true ∧ s.ppsSecond s.time.ns < s.ppsSecond (s.elapse dt).time.ns
     post := fun s dt t => t = s.elapse dt ∧ t.time.ppsOut = true ∧ t.time.ppsOutAt = t.time.ticks },
   { Arg := Nat
     cmd := .ppsOutPulseEnd
     ok := fun s dt => (s.elapse dt).time.ppsOut = true ∧
       s.fget .TIME_PPS_OUT_PPS_WIDTH_MS 0 * 1000000 ≤ (s.elapse dt).since (s.elapse dt).time.ppsOutAt
     post := fun s dt t => let u := s.elapse dt
       t = { u with time := { u.time with ppsOut := false } } },
   { Arg := Bool × Nat
     cmd := fun a => .ppsInEdge a.1 a.2
     ok := fun s a => (s.elapse a.2).ppsTaken a.1 = true
     post := fun s a t =>
       let u := s.elapse a.2
       (∃ e : Int, -5 ≤ e ∧ e ≤ 5 ∧ (t.reg .TIME_PPS_IN 0).toNat = (((u.time.ns : Int) + e) % (2 ^ 64 : Int)).toNat) ∧
         t.fget .TIME_INT_PPS_IN 0 = 1 ∧ t.time.ppsLast = some u.time.ticks ∧ t.time.ppsLost = 0 ∧ RegsKept s t [.TIME_PPS_IN, .TIME_INT] ∧
         t.time.ns = u.time.ns },
   { Arg := Bool × Nat
     cmd := fun a => .ppsInEdge a.1 a.2
     ok := fun s a => (s.elapse a.2).ppsTaken a.1 = false
     post := fun s a t => t = s.elapse a.2 },
   { Arg := Nat
     cmd := .ppsInLost
     ok := fun s dt => s.flag .TIME_CTL_PPS_IN_EN 0 = true ∧
       1100000000 + s.time.ppsLost * 1000000000 ≤ (s.elapse dt).since s.time.ppsBase
     post := fun s dt t =>
       let u := s.elapse dt
       t.fget .TIME_INT_PPS_LOST 0 = 1 ∧ t.time.ppsLost = s.time.ppsLost + 1 ∧
         Raised u t 0x5007 (u.since s.time.ppsBase / 1000000000) 0 0 ∧ RegsKept s t [.TIME_INT, .EVR_LOST] },
   { Arg := Nat
     cmd := .replicaCorrection
     ok := fun _ _ => True
     post := fun s dt t =>
       (∀ d, d < s.dies → -2 ≤ sparseGet 0 t.time.replica d ∧ sparseGet 0 t.time.replica d ≤ 2) ∧ t.time.ns = (s.elapse dt).time.ns ∧
         t.time.ticks = (s.elapse dt).time.ticks ∧ t.regs = s.regs },
   { Arg := Master × Bool
     cmd := fun a => .timeNowCaptureRead a.1 a.2
     ok := fun s a => s.time.ns < 2 ^ 64 ∧ a.1 ≠ .dbg ∧ s.reaches a.1 .bar0 = true ∧ s.decision 6 (masterId a.1) false 0x30008 = 1 ∧
       s.flag .DKL_CTL_EN 6 = true ∧ ∀ e ∈ s.dkl, e.2.held = [] ∧ e.2.behind = []
     post := fun s a t => t.out = s.out ++ [.readReturn (leBytes (if a.2 then 8 else 4) s.time.ns)] ∧
       sparseGet 0 t.time.fracCap (masterNo a.1) = s.time.frac / 2 ^ 32 ∧ t.regs = s.regs ∧ t.time.ns = s.time.ns ∧
       (a.2 = false → (t.half a.1).shadow = some (regKey .TIME_NOW 0, s.time.ns / 2 ^ 32)) }]

/-- Bank `b` of die `d` is out of the seeds: excluded, or retired at the third exclusion within 3,600 s (R352, R353). -/
def BankOut (s t : State) (d b : Nat) : Prop :=
  (t.activeBanks d).testBit b = false ∧
    let n := ((sparseGet [] (s.rngOf d).exTimes b).filter (fun x => s.time.ticks - x < 7200000000000)).length + 1
    if 3 ≤ n then (t.fget .RNG_BANKS_RETIRED d).testBit b = true ∧ (t.fget .RNG_BANKS_EXCLUDED d).testBit b = false
    else (t.fget .RNG_BANKS_EXCLUDED d).testBit b = true

/-- The counter of a bank's health test. -/
def failField (test : Nat) : Fld := if test = 1 then .RNG_BANK_FAILS_RCT else .RNG_BANK_FAILS_APT

/-- The bits in bank `b`'s buffer once more have arrived (R354). -/
def filled (s : State) (d : Nat) (arrived : List Nat) (b : Nat) : Nat :=
  let x := (s.rngOf d).bufs.getD b 0
  if (s.activeBanks d).testBit b then min 128 (x + arrived.getD b 0) else x

/-- The DRBG of a die serves a request at once. -/
def DrbgReady (s : State) (d : Nat) (g : Drbg) : Prop :=
  (s.rngOf d).drbg = some g ∧ s.flag .RNG_STATUS_DRBG_STALLED d = false ∧ s.fget .RNG_REQS_COUNT d < 4096

/-- Noise banks, conditioner and seeds. -/
noncomputable def entropyRows : List Row :=
  [{ Arg := Nat
     cmd := .entropyEnable
     ok := fun s d => d < s.dies ∧ s.flag .DEV_READY_MAP_DIE d = true ∧ s.flag .RNG_CTL_EN d = false ∧ 512 + d ∉ s.tap.halted
     post := fun _ d t => t.fget .RNG_CTL_EN d = 1 ∧ t.fget .RNG_STATUS_STATE d = 1 ∧ t.activeBanks d = 0 ∧
       (t.rngOf d).asm = [] ∧ (t.rngOf d).credit = 0 ∧ (t.rngOf d).bufs = List.replicate 7 0 },
   { Arg := Nat × Nat × Nat
     cmd := fun a => .startupTestEnd a.1 a.2.1 a.2.2
     ok := fun s a => a.1 < s.dies ∧ s.fget .RNG_STATUS_STATE a.1 = 1
     post := fun s a t =>
       let out := s.fget .RNG_BANKS_EXCLUDED a.1 ||| s.fget .RNG_BANKS_RETIRED a.1
       (∀ b, b < 7 → (t.activeBanks a.1).testBit b = (!out.testBit b && !a.2.1.testBit b && !a.2.2.testBit b)) ∧
         (∀ b, b < 7 → out.testBit b = false → (a.2.1.testBit b = true ∨ a.2.2.testBit b = true) → BankOut s t a.1 b) ∧
         (s.flag .RNG_CTL_EN a.1 = true → t.activeBanks a.1 ≠ 0 → t.fget .RNG_STATUS_STATE a.1 = 2) },
   { Arg := Nat × Nat × Nat
     cmd := fun a => .bankHealthFailure a.1 a.2.1 a.2.2
     ok := fun s a => a.1 < s.dies ∧ a.2.1 < 7 ∧ (s.activeBanks a.1).testBit a.2.1 = true ∧ (a.2.2 = 1 ∨ a.2.2 = 2)
     post := fun s a t => BankOut s t a.1 a.2.1 ∧ Counted s t (failField a.2.2) (a.1 * 7 + a.2.1) ∧ (t.rngOf a.1).asm = [] ∧
       (t.rngOf a.1).credit = 0 ∧ (t.rngOf a.1).bufs = (s.rngOf a.1).bufs.set a.2.1 0 ∧ Records s t 0xB002 ∧
       (∀ b, b ≠ a.2.1 → (t.activeBanks a.1).testBit b = (s.activeBanks a.1).testBit b) },
   { Arg := Nat × Nat × Nat × Nat
     cmd := fun a => .bankRetry a.1 a.2.1 a.2.2.1 a.2.2.2
     ok := fun s a => a.1 < s.dies ∧ a.2.1 < 7 ∧
       (s.fget .RNG_BANKS_EXCLUDED a.1).testBit a.2.1 = true ∧ (s.rngOf a.1).admin.testBit a.2.1 = false ∧
       s.fget .RNG_RETRY_RETRY_MS a.1 * 1000000 ≤ (s.elapse a.2.2.2).since (sparseGet 0 (s.rngOf a.1).tryAt a.2.1)
     post := fun s a t =>
       let d := a.1
       let b := a.2.1
       let test := a.2.2.1
       ((test = 1 ∨ test = 2) → Counted s t (failField test) (d * 7 + b) ∧ t.reg .RNG_BANKS d = s.reg .RNG_BANKS d ∧
         sparseGet 0 (t.rngOf d).tryAt b = (s.elapse a.2.2.2).time.ticks) ∧
         (test ≠ 1 → test ≠ 2 → (t.activeBanks d).testBit b = true ∧ (t.fget .RNG_BANKS_EXCLUDED d).testBit b = false ∧
           Records (s.elapse a.2.2.2) t 0xB003) },
   { Arg := Nat × List Nat × Nat
     cmd := fun a => .intakeRound a.1 a.2.1 a.2.2
     ok := fun s a => a.1 < s.dies ∧ 2 ≤ s.fget .RNG_STATUS_STATE a.1 ∧ (s.rngOf a.1).bufs.length = 7 ∧
       (s.elapse a.2.2).roundDue a.1 = true
     post := fun s a t =>
       let d := a.1
       let n := filled s d a.2.1
       let takes := fun b => (s.activeBanks d).testBit b && 64 ≤ n b
       let credit := (s.rngOf d).credit + (((List.range 7).filter takes).map bankCredit).sum
       (s.conditionerOn d = false → (∀ b, b < 7 → (t.rngOf d).bufs.getD b 0 = n b) ∧ (t.rngOf d).credit = (s.rngOf d).credit) ∧
         (s.conditionerOn d = true → (∀ b, b < 7 → (t.rngOf d).bufs.getD b 0 = n b - (if takes b then 64 else 0)) ∧
           (credit < 7680 → (t.rngOf d).credit = credit ∧ t.regs = s.regs ∧
             (t.rngOf d).asm.length = (s.rngOf d).asm.length + 9 * ((List.range 7).filter takes).length) ∧
           (7680 ≤ credit → (t.rngOf d).credit = 0 ∧ (t.rngOf d).asm = [] ∧
             t.fget .RNG_SEEDS_COUNT d = (s.fget .RNG_SEEDS_COUNT d + 1) % 2 ^ 32)) },
   { Arg := Nat × Bytes × Drbg
     cmd := fun a => .borrowedSeedArrival a.1
     ok := fun s a =>
       let dn := s.fget .RNG_BORROW_DONOR a.1
       a.1 < s.dies ∧ s.flag .RNG_BORROW_BORROWING a.1 = true ∧ dn ≠ a.1 ∧ (s.rngOf dn).fifo.head? = some a.2.1 ∧
         3 ≤ (s.rngOf dn).fifo.length ∧ (s.rngOf a.1).fifo.length < 2 ∧ (s.rngOf a.1).owed = [] ∧ (s.rngOf a.1).coming = [] ∧
         (s.rngOf a.1).drbg = some a.2.2
     post := fun s a t =>
       let dn := s.fget .RNG_BORROW_DONOR a.1
       (t.rngOf dn).fifo = (s.rngOf dn).fifo.tail ∧ Counted s t .RNG_BORROW_SEEDS a.1 ∧
         (s.flag .RNG_STATUS_DRBG_STALLED a.1 = false → (t.rngOf a.1).fifo = (s.rngOf a.1).fifo ++ [a.2.1] ∧
           t.fget .RNG_STATUS_FIFO a.1 = (s.rngOf a.1).fifo.length + 1) ∧
         (s.flag .RNG_STATUS_DRBG_STALLED a.1 = true → (t.rngOf a.1).drbg = some (a.2.2.reseed a.2.1) ∧
           t.flag .RNG_STATUS_DRBG_STALLED a.1 = false) }]

/-- The DRBG and its requests, and the mask generators that it seeds. -/
noncomputable def drbgRows : List Row :=
  [{ Arg := Nat × Drbg × Nat × List Nat
     cmd := fun a => .drbgGenerate a.1
     ok := fun s a => DrbgReady s a.1 a.2.1 ∧ (s.rngOf a.1).mgenQ = a.2.2.1 :: a.2.2.2
     post := fun s a t => (t.rngOf a.1).mgenQ = a.2.2.2 ∧ sparseGet 0 t.mgen a.2.2.1 = 2 ∧
       (t.rngOf a.1).drbg = some (a.2.1.generate 32).2 ∧ t.fget .RNG_REQS_COUNT a.1 = s.fget .RNG_REQS_COUNT a.1 + 1 },
   { Arg := Nat × Drbg × (Nat × Nat) × Job
     cmd := fun a => .drbgGenerate a.1
     ok := fun s a => DrbgReady s a.1 a.2.1 ∧ (s.rngOf a.1).mgenQ = [] ∧ (s.rngOf a.1).jobQ.head? = some a.2.2.1 ∧
       (s.rngOf a.1).owed = [] ∧ 1 ≤ a.2.2.1.2 ∧ a.2.2.1.2 ≤ 65536 ∧ s.job? a.2.2.1.1 = some a.2.2.2
     post := fun s a t => (t.rngOf a.1).jobQ = (s.rngOf a.1).jobQ.tail ∧
       t.job? a.2.2.1.1 = some { a.2.2.2 with rand := (a.2.1.generate a.2.2.1.2).1 } ∧
       (t.rngOf a.1).drbg = some (a.2.1.generate a.2.2.1.2).2 ∧ t.fget .RNG_REQS_COUNT a.1 = s.fget .RNG_REQS_COUNT a.1 + 1 },
   { Arg := Nat × Drbg
     cmd := fun a => .drbgGenerate a.1
     ok := fun s a =>
       let r := s.rngOf a.1
       DrbgReady s a.1 a.2 ∧ r.mgenQ = [] ∧ r.jobQ = [] ∧ r.owed = [] ∧ ((1 ≤ r.mpQ ∧ r.mpQ ≤ 65536) ∨
         (r.mpQ = 0 ∧ 1 ≤ r.remaskQ ∧ r.remaskQ ≤ 65536))
     post := fun s a t =>
       let r := s.rngOf a.1
       (r.mpQ ≠ 0 → (t.rngOf a.1).mpQ = 0 ∧ (t.rngOf a.1).mpRand = (a.2.generate r.mpQ).1 ∧ t.sched = s.sched) ∧
         (r.mpQ = 0 → (t.rngOf a.1).remaskQ = 0 ∧ Counted s t .KS_REMASK_PASSES a.1 ∧
           t.slots = s.remaskKeys a.1 s.slots (a.2.generate r.remaskQ).1 ∧
           ∀ ti q, t.slot ti q = { s.slot ti q with share := (t.slot ti q).share }) },
   { Arg := Nat × Drbg
     cmd := fun a => .drbgReseed a.1
     ok := fun s a => (s.rngOf a.1).drbg = some a.2
     post := fun s a t =>
       (s.fget .RNG_REQS_COUNT a.1 < 4096 → t = s) ∧
         (4096 ≤ s.fget .RNG_REQS_COUNT a.1 → ∀ x l, (s.rngOf a.1).fifo = x :: l →
           (t.rngOf a.1).drbg = some (a.2.reseed x) ∧ (t.rngOf a.1).fifo = l ∧ t.fget .RNG_REQS_COUNT a.1 = 0 ∧
             t.flag .RNG_STATUS_DRBG_STALLED a.1 = false ∧ Counted s t .RNG_RESEEDS_COUNT a.1) ∧
         (4096 ≤ s.fget .RNG_REQS_COUNT a.1 → (s.rngOf a.1).fifo = [] → s.flag .RNG_STATUS_DRBG_STALLED a.1 = false →
           t.flag .RNG_STATUS_DRBG_STALLED a.1 = true ∧ (t.rngOf a.1).owed = (s.rngOf a.1).owed ++ [⟨.reseed, 0, s.time.ticks⟩] ∧
           Raised s t 0xB006 a.1 (s.rngOf a.1).waiting 0) },
   { Arg := Nat × Nat × Nat × Nat
     cmd := fun a => .randomWaitTimeout a.1 a.2.1 a.2.2.1 a.2.2.2
     ok := fun s a => a.2.1 = 1 ∧ a.1 = 0 ∧
       ((s.elapse a.2.2.2).waited 0 0).any (fun x => decide (s.waitLimit 0 1 ≤ x)) = true
     post := fun s a t => Counted s t .RNG_WAIT_TIMEOUTS 1 ∧ Raised (s.elapse a.2.2.2) t 0xB007 0 1 0xFFFFFFFF ∧ (t.rngOf 0).mpQ = 0 ∧
       (t.rngOf 0).mpRand = [] ∧ (s.mbx.phase = .running → Answered s t mEntropy 0 []) },
   { Arg := (Nat × Nat × Nat) × Job
     cmd := fun a => .randomWaitTimeout a.1.1 0 a.1.2.1 a.1.2.2
     ok := fun s a => s.job? a.1.2.1 = some a.2 ∧ a.2.die = a.1.1 ∧ CqFits s a.2 ∧
       (((s.elapse a.1.2.2).waited a.1.1 (a.1.2.1 + 2)).any (fun x => decide (s.waitLimit a.1.1 0 ≤ x)) = true ∨
         (a.2.running = true ∧ (s.elapse a.1.2.2).maskWaitPast a.1.1 a.2 = true))
     post := fun s a t => Ended (s.elapse a.1.2.2) t a.2 jEntropy 0 0 ∧ Counted s t .RNG_WAIT_TIMEOUTS (a.1.1 * 3) ∧
       Records (s.elapse a.1.2.2) t 0xB007 },
   { Arg := Nat × Nat × Nat
     cmd := fun a => .randomWaitTimeout a.1 2 a.2.1 a.2.2
     ok := fun s a => ((s.elapse a.2.2).waited a.1 1).any (fun x => decide (s.waitLimit a.1 2 ≤ x)) = true
     post := fun s a t => Counted s t .RNG_WAIT_TIMEOUTS (a.1 * 3 + 2) ∧ Counted s t .KS_REMASK_SKIPS a.1 ∧ (t.rngOf a.1).remaskQ = 0 ∧
       Records (s.elapse a.2.2) t 0xC002 ∧ t.slots = s.slots }]

/-- The mask generators. -/
noncomputable def mgenRows : List Row :=
  [{ Arg := Nat × Nat
     cmd := fun a => .mgenBlock a.1 a.2
     ok := fun s a => s.flag .VC_MGEN_STAT_SEEDED a.1 = true ∧ s.flag .VC_MGEN_STAT_STALLED a.1 = false ∧
       s.fget .VC_MGEN_STAT_FILL a.1 < 65536 ∧ s.fget .VC_MGEN_BLOCKS_BLOCKS a.1 < 65536 ∧ (s.elapse a.2).mgenDue a.1 = true
     post := fun s a t => t.fget .VC_MGEN_STAT_FILL a.1 = min 65536 (s.fget .VC_MGEN_STAT_FILL a.1 + 1088) ∧
       t.fget .VC_MGEN_BLOCKS_BLOCKS a.1 = s.fget .VC_MGEN_BLOCKS_BLOCKS a.1 + 1 ∧ RegsKept s t [.VC_MGEN_STAT, .VC_MGEN_BLOCKS] ∧
       t.flag .VC_MGEN_STAT_SEEDED a.1 = true ∧ t.flag .VC_MGEN_STAT_STALLED a.1 = false ∧ KeptBut s t .VC_MGEN_STAT [a.1] },
   { Arg := Nat
     cmd := .mgenReseedRequest
     ok := fun s v => 64512 ≤ s.fget .VC_MGEN_BLOCKS_BLOCKS v ∧ sparseGet 0 s.mgen v = 0
     post := fun s v t => sparseGet 0 t.mgen v = 1 ∧ t.regs = s.regs ∧ (t.rngOf (v / 16)).mgenQ = (s.rngOf (v / 16)).mgenQ ++ [v] ∧
       ∀ w, w ≠ v → sparseGet 0 t.mgen w = sparseGet 0 s.mgen w },
   { Arg := Nat
     cmd := .mgenSeedArrival
     ok := fun s v => sparseGet 0 s.mgen v = 2
     post := fun s v t =>
       ((s.flag .VC_MGEN_STAT_SEEDED v = false ∨ s.flag .VC_MGEN_STAT_STALLED v = true) →
         sparseGet 0 t.mgen v = 0 ∧ t.flag .VC_MGEN_STAT_SEEDED v = true ∧ t.flag .VC_MGEN_STAT_STALLED v = false ∧
           t.fget .VC_MGEN_BLOCKS_BLOCKS v = 0 ∧ Counted s t .VC_MGEN_RESEEDS_COUNT v ∧
           (s.flag .VC_MGEN_STAT_SEEDED v = false → Raised s t 0x8103 v 0 0xFFFFFFFF)) ∧
       (s.flag .VC_MGEN_STAT_SEEDED v = true → s.flag .VC_MGEN_STAT_STALLED v = false →
         sparseGet 0 t.mgen v = 3 ∧ t = { s with mgen := t.mgen }) },
   { Arg := Nat
     cmd := .mgenSeedApply
     ok := fun s v => s.fget .VC_MGEN_BLOCKS_BLOCKS v = 65536 ∧ s.flag .VC_MGEN_STAT_STALLED v = false
     post := fun s v t =>
       (sparseGet 0 s.mgen v = 3 → sparseGet 0 t.mgen v = 0 ∧ t.fget .VC_MGEN_BLOCKS_BLOCKS v = 0 ∧
         t.flag .VC_MGEN_STAT_STALLED v = false ∧ Counted s t .VC_MGEN_RESEEDS_COUNT v) ∧
       (sparseGet 0 s.mgen v ≠ 3 → t.flag .VC_MGEN_STAT_STALLED v = true ∧ Raised s t 0x8104 v 0 (s.coreRing v) ∧
         t.mgen = s.mgen) }]

end Sys2Proof.Claims
end

