-- ==== Sys2Proof/Safety/Vec.lean ====
section
/-!
DEFINITION. What statements about kernel instructions are told in: a core that executes, what an issue leaves
alone, and the shapes of results (R172 to R211).
-/

namespace Sys2Proof.Claims

open Sys2Proof.Machine

/-- Core `v` runs job `j`'s owner kernel, is not halted, waits for nothing, and has met none of the limits of R208, R210
and R211. -/
def Executing (s : State) (v : Nat) (j : Job) : Prop :=
  s.fget .VC_STATE_STATE v = 1 ∧ s.tap.halted.contains v = false ∧ (s.core v).job.bind s.job? = some j ∧ j.phase = .bound ∧
    (s.core v).kernel ≠ 0xFF ∧ (s.core v).pc < (s.core v).codeLen ∧
    ((s.kernelAt (s.core v).kernel).pages ≤ 8 → (s.core v).sinceYield < 3000) ∧ (s.core v).cycles < 4 * s.declaredOf j ∧ (s.core v).wait = none

/-- No bit of the control-store word and of the kernel-store word that core `v` reads next has changed (R214, R217). -/
def WordsGood (s : State) (v : Nat) : Prop := s.ctlBits v (s.microAddr v) = 0 ∧ s.kernelBits v = 0

/-- The word that core `v` fetches next is instruction `i` (R177), and it reads it unchanged. -/
def Fetched (s : State) (v : Nat) (i : Instr) : Prop := kdecode (s.kernelWord v) = kernelCode i ∧ WordsGood s v

/-- The byte of cluster shared memory that an address reads. -/
def sharedByte (s : State) (cluster a : Nat) : Byte := memByte 0 (sparseGet [] s.shared cluster) a

/-- What an issue on core `v` that draws `bits` of mask leaves alone: every other core, every register but the core's run
cycles and its mask fill, and every field of the state that is not named here. Free values may have been drawn. -/
def IssueFrame (s t : State) (v bits : Nat) : Prop :=
  t = { s with cores := t.cores, regs := t.regs, shared := t.shared, free := t.free } ∧ (∀ u, u ≠ v → t.core u = s.core u) ∧
    (∀ k i, (k, i) ≠ (.VC_RUN_CYCLES, v) → (k, i) ≠ (.VC_MGEN_STAT, v) → t.reg k i = s.reg k i) ∧
    t.reg .VC_MGEN_STAT v = withField (s.reg .VC_MGEN_STAT v) Fld.VC_MGEN_STAT_FILL.hi Fld.VC_MGEN_STAT_FILL.lo
      (s.fget .VC_MGEN_STAT_FILL v - bits)

/-- An issue of `cyc` cycles that draws `bits` of mask, stores nothing to shared memory and goes on at word `pc`. -/
def IssuedWith (s t : State) (v pc cyc bits : Nat) : Prop :=
  IssueFrame s t v bits ∧ (∀ cl a, sharedByte t cl a = sharedByte s cl a) ∧ (t.core v).pc = pc ∧
    (t.core v).cycles = (s.core v).cycles + cyc ∧ (t.core v).sinceYield = (s.core v).sinceYield + cyc

/-- An issue that draws no masks. -/
def Issued (s t : State) (v pc cyc : Nat) : Prop := IssuedWith s t v pc cyc 0

/-- The fields of a word as its encoding holds them, unused ones zero, and a width that the instruction has (R177, R178). -/
def FieldsOk (f : VFields) (used : List VF) (ws : List Nat) : Prop :=
  f.cut = f ∧ f.clean used = true ∧ (VF.w ∈ used → f.w ∈ ws)

/-- An instruction that writes vector registers VD onwards under predication (R175). -/
structure VectorForm where
  cmd : Nat → VFields → Instr
  /-- The fields used and the widths allowed. -/
  used : List VF
  ws : List Nat
  cyc : Nat → Nat
  /-- The width of the elements of the result. -/
  rw : Nat → Nat
  /-- The tags of the sources, the predicate and a merged destination apart. -/
  srcs : VFields → VCore → List VTag
  /-- Element `e` of each destination, taken modulo its width. -/
  outs : List (VFields → VCore → Nat → Nat)
  /-- What else the form demands. -/
  ok : VFields → VCore → Bool

/-- The sources of a form: its own, the predicate and, when merging, the old destinations (R189). -/
def VectorForm.allSrcs (x : VectorForm) (f : VFields) (c : VCore) : List VTag :=
  c.srcs f (x.srcs f c) ((regRange f.vd x.outs.length).map c.vtag)

/-- The effect of a form: each destination's active elements are those of the table, its inactive ones kept or zero, its
tag formed from the sources; the core changes in nothing else but the place and the cycles. -/
def VectorForm.Effect (x : VectorForm) (f : VFields) (c d : VCore) : Prop :=
  (∀ i, (h : i < x.outs.length) → ∀ e, e < eCount (x.rw f.w) →
    elem (x.rw f.w) (d.vreg (f.vd + i)) e =
      if c.active f (x.rw f.w) e then x.outs[i] f c e % 2 ^ eBits (x.rw f.w)
      else if f.zm = 1 then 0 else elem (x.rw f.w) (c.vreg (f.vd + i)) e) ∧
  (∀ i, i < x.outs.length → d.vtag (f.vd + i) = formTag (x.allSrcs f c)) ∧
  (∀ r, (r < f.vd ∨ f.vd + x.outs.length ≤ r) → d.vreg r = c.vreg r ∧ d.vtag r = c.vtag r) ∧
  d = { c with v := d.v, vt := d.vt, pc := d.pc, cycles := d.cycles, sinceYield := d.sinceYield }

/-- A form completes with its effect wherever its fields are good, a pair's VD is even, and no two sources are different
shares of one group (R178, R190). -/
def VectorForm.Completes (x : VectorForm) : Prop :=
  ∀ (s : State) (v : Nat) (j : Job) (f : VFields), Executing s v j → FieldsOk f x.used x.ws → x.ok f (s.core v) = true →
    (x.outs.length = 2 → f.vd % 2 = 0) → clash (x.allSrcs f (s.core v)) = false → Fetched s v (x.cmd v f) →
    ∃ t, exec (x.cmd v f) s = .next t ∧ Issued s t v ((s.core v).pc + 1) (x.cyc f.w) ∧ x.Effect f (s.core v) (t.core v)

/-- An instruction that writes one scalar register. -/
structure ScalarForm where
  cmd : Nat → VFields → Instr
  used : List VF
  ws : List Nat
  cyc : Nat
  srcs : VFields → VCore → List VTag
  val : State → Nat → VFields → VCore → Nat
  ok : VFields → VCore → Bool

/-- A scalar form completes: S[VD] takes the value with the tag formed from the sources, and nothing else changes. -/
def ScalarForm.Completes (x : ScalarForm) : Prop :=
  ∀ (s : State) (v : Nat) (j : Job) (f : VFields), Executing s v j → FieldsOk f x.used x.ws → x.ok f (s.core v) = true →
    clash (x.srcs f (s.core v)) = false → Fetched s v (x.cmd v f) →
    ∃ t, exec (x.cmd v f) s = .next t ∧ Issued s t v ((s.core v).pc + 1) x.cyc ∧
      (t.core v).sreg f.vd = BitVec.ofNat 64 (x.val s v f (s.core v)) ∧ (t.core v).stag f.vd = formTag (x.srcs f (s.core v)) ∧
      (∀ r, r ≠ f.vd → (t.core v).sreg r = (s.core v).sreg r ∧ (t.core v).stag r = (s.core v).stag r) ∧
      t.core v = { s.core v with sc := (t.core v).sc, st := (t.core v).st, pc := (t.core v).pc,
                                 cycles := (t.core v).cycles, sinceYield := (t.core v).sinceYield }

/-- An instruction that writes one predicate register. -/
structure PredForm where
  cmd : Nat → VFields → Instr
  used : List VF
  ws : List Nat
  /-- The tags of the register sources and whether the form is predicated. -/
  srcs : VFields → VCore → List VTag
  bit : VFields → VCore → Nat → Bool
  ok : VFields → VCore → Bool

/-- The sources of a predicate form. -/
def PredForm.allSrcs (x : PredForm) (f : VFields) (c : VCore) : List VTag := c.srcs f (x.srcs f c) [⟨c.ptag f.vd, 0, 0⟩]

/-- A predicate form completes: every bit of an active element's bytes is the element's bit, an inactive element is kept or
clear, T is the or of the sources' T, and nothing else changes. -/
def PredForm.Completes (x : PredForm) : Prop :=
  ∀ (s : State) (v : Nat) (j : Job) (f : VFields), Executing s v j → FieldsOk f x.used x.ws → x.ok f (s.core v) = true →
    f.vd < 8 → clash (x.allSrcs f (s.core v)) = false → Fetched s v (x.cmd v f) →
    ∃ t, exec (x.cmd v f) s = .next t ∧ Issued s t v ((s.core v).pc + 1) 1 ∧
      (∀ e b, e < eCount f.w → b < eBytes f.w →
        ((t.core v).preg f.vd).testBit (e * eBytes f.w + b) =
          if (s.core v).active f f.w e then x.bit f (s.core v) e
          else decide (f.zm = 0) && ((s.core v).preg f.vd).testBit (e * eBytes f.w)) ∧
      (t.core v).ptag f.vd = (x.allSrcs f (s.core v)).any (·.t) ∧
      (∀ r, r ≠ f.vd → (t.core v).preg r = (s.core v).preg r ∧ (t.core v).ptag r = (s.core v).ptag r) ∧
      t.core v = { s.core v with p := (t.core v).p, pt := (t.core v).pt, pc := (t.core v).pc,
                                 cycles := (t.core v).cycles, sinceYield := (t.core v).sinceYield }

end Sys2Proof.Claims
end

