-- ==== Sys2Proof/Safety/Units.lean ====
section
/-!
DEFINITION. Rows of the control stores, the long-integer engines with their direct commands, and the digest channels
(R216 to R220, R236 to R240, R245 to R263, R272, R273).
-/

namespace Sys2Proof.Claims

open Sys2Proof.Machine

/-- A check of cause `c` on core `v` is recorded, and the core leaves dispatch: until its control store or kernel store is
rewritten, or at the third check within one second until the next reset (R218 to R220). -/
def CoreChecked (s t : State) (v c groups addr : Nat) : Prop :=
  t.fget .VC_MC_LAST_CAUSE v = c ∧ t.fget .VC_MC_LAST_GROUPS v = groups % 2 ^ 8 ∧ t.fget .VC_MC_LAST_UADDR v = addr % 2 ^ 14 ∧
    Records s t 0x8001 ∧
    (let n := ((sparseGet [] s.mcTimes v).filter (fun x => s.since x < 1000000000)).length + 1
     if 3 ≤ n then t.fget .VC_STATE_STATE v = 5 else t.fget .VC_STATE_STATE v = 4 ∧ (c ≠ 3 → v ∈ t.reloads)) ∧
    ∀ id j, (s.core v).job = some id → s.job? id = some j → j.past = false → j.mayReplay = true → Replayed t j

/-- The bits of a kernel-store word of core `v`, or of its check bits, that have changed since it was written. -/
def krnBits (s : State) (v a : Nat) : Nat := sparseGet 0 (s.seqOf v).krn a

/-- The bits `mask` of word `addr` have changed in store `kind`, 1 the control store of core `v`, 2 its kernel store, 3
its cluster's golden copy, and those of no other word. -/
def Upset (s t : State) (v kind mask addr : Nat) : Prop :=
  (∀ u a, t.ctlBits u a = if kind = 1 ∧ u = v ∧ a = addr % 2 ^ 14 then s.ctlBits u a ^^^ mask % 2 ^ 152 else s.ctlBits u a) ∧
  (∀ u a, krnBits t u a = if kind = 2 ∧ u = v ∧ a = addr % 2 ^ 13 then krnBits s u a ^^^ mask % 2 ^ 72 else krnBits s u a) ∧
  (∀ c a, t.goldBits c a = if kind = 3 ∧ c = v / 8 ∧ a = addr % 2 ^ 14 then s.goldBits c a ^^^ mask % 2 ^ 161 else s.goldBits c a)

/-- What the fetch of core `v` detects (R217): parity of the failing groups, a malformed microword, or more than one
changed bit in the kernel word that an owner kernel asks for. -/
def Detects (s : State) (v cause groups addr : Nat) : Prop :=
  let m := s.microAddr v
  let c := s.core v
  (cause = 1 ∧ s.ctlBits v m ≠ 0 ∧ groups = badGroups (s.ctlWord v m) ∧ groups ≠ 0 ∧ addr = m) ∨
  (cause = 4 ∧ s.ctlBits v m ≠ 0 ∧ badGroups (s.ctlWord v m) = 0 ∧ (microOf (s.ctlWord v m % 2 ^ 144)).malformed = true ∧
    groups = 0 ∧ addr = m) ∨
  (cause = 3 ∧ s.ctlBits v m = 0 ∧ c.kernel ≠ 0xFF ∧ c.pc < c.codeLen ∧ 2 ≤ popCount 72 (s.kernelBits v) ∧ groups = 0 ∧
    addr = s.wordAddr c.kernel c.pc)

/-- Control stores: scrubbing, fetches, reloads and the golden copies. -/
noncomputable def storeRows : List Row :=
  [{ Arg := Nat × Nat × Nat
     cmd := fun a => .controlStoreScrub a.1 0 a.2.1 a.2.2
     ok := fun s a => a.1 < 16 * s.dies ∧ s.fget .VC_STATE_STATE a.1 < 2 ∧ s.ctlBits a.1 (s.fget .VC_CS_SCRUB_NEXT a.1) = 0
     post := fun s a t =>
       (s.flag .VC_CS_SCRUB_EN a.1 = true → t.fget .VC_CS_SCRUB_NEXT a.1 = (s.fget .VC_CS_SCRUB_NEXT a.1 + 1) % 2 ^ 14 ∧
         RegsKept s t [.VC_CS_SCRUB] ∧ KeptBut s t .VC_CS_SCRUB [a.1] ∧ t = { s with regs := t.regs }) ∧
       (s.flag .VC_CS_SCRUB_EN a.1 = false → t = s) },
   { Arg := Nat × Nat × Nat × Nat
     cmd := fun a => .controlStoreScrub a.1 a.2.1 a.2.2.1 a.2.2.2
     ok := fun s a => a.1 < 16 * s.dies ∧ s.fget .VC_STATE_STATE a.1 < 2 ∧ s.flag .VC_CS_SCRUB_EN a.1 = true ∧
       badGroups ((s.upset a.1 a.2.1 a.2.2.1 a.2.2.2).ctlWord a.1 (s.fget .VC_CS_SCRUB_NEXT a.1)) ≠ 0 ∧
       (s.upset a.1 a.2.1 a.2.2.1 a.2.2.2).ctlBits a.1 (s.fget .VC_CS_SCRUB_NEXT a.1) ≠ 0
     post := fun s a t =>
       let n := s.fget .VC_CS_SCRUB_NEXT a.1
       CoreChecked s t a.1 2 (badGroups ((s.upset a.1 a.2.1 a.2.2.1 a.2.2.2).ctlWord a.1 n)) n ∧
         Upset s t a.1 a.2.1 a.2.2.1 a.2.2.2 },
   { Arg := Nat × Nat × Nat × Nat
     cmd := fun a => .controlStoreScrub a.1 a.2.1 a.2.2.1 a.2.2.2
     ok := fun s a => a.1 < 16 * s.dies ∧ (2 ≤ s.fget .VC_STATE_STATE a.1 ∨ s.flag .VC_CS_SCRUB_EN a.1 = false)
     post := fun s a t => t = { s with seqs := t.seqs, gold := t.gold } ∧ Upset s t a.1 a.2.1 a.2.2.1 a.2.2.2 },
   { Arg := (Nat × VFields) × Nat × Nat × Nat
     cmd := fun a => .nop a.1.1 a.1.2
     ok := fun s a => (s.issuing a.1.1).isSome = true ∧ Detects s a.1.1 a.2.1 a.2.2.1 a.2.2.2
     post := fun s a t => CoreChecked s t a.1.1 a.2.1 a.2.2.1 a.2.2.2 },
   { Arg := Nat × VFields × Job
     cmd := fun a => .nop a.1 a.2.1
     ok := fun s a => Executing s a.1 a.2.2 ∧ FieldsOk a.2.1 [] [0] ∧ kdecode (s.kernelWord a.1) = kernelCode (.nop a.1 a.2.1) ∧
       s.ctlBits a.1 (s.microAddr a.1) = 0 ∧ popCount 72 (s.kernelBits a.1) = 1
     post := fun s a t => Counted s t .VC_MC_COUNT_KS_CORRECTED a.1 ∧ (t.core a.1).pc = (s.core a.1).pc + 1 ∧
       RegsKept s t [.VC_MC_COUNT, .VC_RUN_CYCLES, .VC_MGEN_STAT] },
   { Arg := Nat × Bool × Nat × Nat × Nat
     cmd := fun a => .controlStoreReloadDone a.1 a.2.1 a.2.2.1 a.2.2.2.1 a.2.2.2.2
     ok := fun s a => s.reloads.find? (fun v => v / 8 == a.1 / 8) = some a.1 ∧ a.1 / 8 ∉ s.goldBad ∧
       120000000 ≤ a.2.2.2.2 * s.setMhz (a.1 / 16)
     post := fun s a t =>
       let v := a.1
       let cl := v / 8
       let g := s.flipGold cl (a.2.2.2.1 % 2 ^ 14) a.2.2.1
       let u := s.elapse a.2.2.2.2
       t.fget .CLU_GOLD_STAT_CORRECTED cl = satAdd (2 ^ 16 - 1) (s.fget .CLU_GOLD_STAT_CORRECTED cl) (g.goldOnes cl).length ∧
       (g.goldMany cl = [] → a.2.1 = true → t.fget .VC_STATE_STATE v = 0 ∧ Counted s t .VC_MC_COUNT_RELOADS v ∧ v ∉ t.reloads ∧
         ∀ w, t.ctlBits v w = 0) ∧
       (g.goldMany cl = [] → a.2.1 = false → t.fget .VC_STATE_STATE v = 5 ∧ v ∉ t.reloads ∧ Records u t 0x8003) ∧
       (∀ w l, g.goldMany cl = w :: l → t.fget .CLU_GOLD_STAT_VALID cl = 0 ∧ cl ∈ t.goldBad ∧ t.reloads = s.reloads ∧
         Raised u t 0x8002 v w cl) },
   { Arg := Nat × Nat
     cmd := fun a => .kernelStoreRewriteDone a.1 a.2
     ok := fun s a => s.fget .VC_STATE_STATE a.1 = 4 ∧ a.1 ∉ s.reloads
     post := fun s a t => t.fget .VC_STATE_STATE a.1 = 0 ∧ (∀ w, krnBits t a.1 w = 0) ∧ t.evr = s.evr ∧
       t.reg .VC_MC_COUNT a.1 = s.reg .VC_MC_COUNT a.1 },
   { Arg := Nat × Nat
     cmd := fun a => .goldenCopyRewriteDone a.1 a.2
     ok := fun s a => a.1 ∈ s.goldBad
     post := fun s a t => t.fget .CLU_GOLD_STAT_VALID a.1 = 1 ∧ a.1 ∉ t.goldBad ∧ t.reloads = s.reloads ∧ ∀ w, t.goldBits a.1 w = 0 }]

/-- An access of the master reaches the registers of engine `k` at offset `off` of its block: its deckle allows it at once. -/
def EngineAllows (s : State) (m : Master) (k off : Nat) : Prop :=
  let d := k / 2 * 8 + 3 + k % 2
  k < 2 * s.dies ∧ s.flag .DKL_CTL_EN d = true ∧ s.decision d (masterId m) true off = 1 ∧
    ∀ e ∈ s.dkl, e.2.held = [] ∧ e.2.behind = []

/-- The engines apart from their jobs. -/
noncomputable def engineRows : List Row :=
  [{ Arg := Nat × Nat
     cmd := fun a => .lieClearDone a.1 a.2
     ok := fun s a => s.fget .LIE_STATE_STATE a.1 = 2
     post := fun s a t =>
       ((s.lieAt a.1).diagWait = false → t.fget .LIE_STATE_STATE a.1 = 0 ∧ RegsKept s t [.LIE_STATE] ∧ KeptBut s t .LIE_STATE [a.1]) ∧
       ((s.lieAt a.1).diagWait = true → t.fget .LIE_STATE_STATE a.1 = 3 ∧ (t.lieAt a.1).mem = [] ∧ (t.lieAt a.1).tables = true ∧
         (t.lieAt a.1).diagWait = false ∧ Records (s.elapse a.2) t 0x9005) },
   { Arg := Nat × Nat
     cmd := fun a => .lieClearDone a.1 a.2
     ok := fun s a => (s.lieAt a.1).diagWait = true ∧ s.fget .LIE_STATE_STATE a.1 = 0 ∧ s.flag .LIE_STATE_TI_VALID a.1 = false
     post := fun s a t => t.fget .LIE_STATE_STATE a.1 = 3 ∧ (t.lieAt a.1).mem = [] ∧ (t.lieAt a.1).diagWait = false ∧
       Records (s.elapse a.2) t 0x9005 },
   { Arg := Nat × Nat
     cmd := fun a => .lieClearDone a.1 a.2
     ok := fun s a => (s.lieAt a.1).diagWait = true ∧ s.fget .LIE_STATE_STATE a.1 = 4 ∧ s.mbx.phase = .waiting
     post := fun s a t => Answered s t mNotFound 0 [] ∧ (t.lieAt a.1).diagWait = false },
   { Arg := Nat × Nat × Nat
     cmd := fun a => .lieEccUncorrectable a.1 a.2.1 a.2.2 true
     ok := fun s a => a.1 < 2 * s.dies
     post := fun s a t => Counted s t .LIE_ECC_CORRECTED a.1 ∧ t = { s with regs := t.regs } ∧ RegsKept s t [.LIE_ECC] },
   { Arg := Nat × Nat × Nat
     cmd := fun a => .lieEccUncorrectable a.1 a.2.1 a.2.2 false
     ok := fun s a => a.1 < 2 * s.dies
     post := fun s a t =>
       let table := (s.lieAt a.1).tables = true ∧ s.lieWords a.1 = 36 ∧ 171 ≤ a.2.1
       Counted s t .LIE_ECC_UNCORRECTED a.1 ∧ Records s t 0x9002 ∧
         (table → (t.lieAt a.1).tables = false ∧ (t.lieAt a.1).why = 1 ∧
           (t.fget .DEV_READY_MAP_LIE (a.1 / 2)).testBit (a.1 % 2) = false) ∧
         (∀ j, s.lieJob a.1 = some j → s.job? j.id = some j → (a.2.1 < s.jobSlots a.1 j ∨ table) → j.past = false →
           j.mayReplay = true → Replayed t j) },
   { Arg := Nat × Bool × Nat
     cmd := fun a => .lieTablesRewritten a.1 a.2.1 a.2.2
     ok := fun s a => a.1 < 2 * s.dies ∧ (s.lieAt a.1).tables = false ∧ (s.lieAt a.1).why ≠ 0 ∧ s.fget .LIE_STATE_STATE a.1 ≠ 4
     post := fun s a t =>
       let x := s.lieAt a.1
       (a.2.1 = false → t.fget .LIE_STATE_STATE a.1 = 4 ∧ Records (s.elapse a.2.2) t 0x9004 ∧
         (t.fget .DEV_READY_MAP_LIE (a.1 / 2)).testBit (a.1 % 2) = false) ∧
       (a.2.1 = true → t.lieAt a.1 = { x with
           tables := true
           tab := []
           why := 0 } ∧ (x.why ≠ 4 → Raised (s.elapse a.2.2) t 0x9006 a.1 x.why (s.lieRing a.1)) ∧
         (s.lieDiag a.1 = false → x.diagWait = false →
           (t.fget .DEV_READY_MAP_LIE (a.1 / 2)).testBit (a.1 % 2) = true)) },
   { Arg := Master × Nat × Nat
     cmd := fun a => .lieSlotWordsWrite a.1 a.2.1 a.2.2
     ok := fun s a => EngineAllows s a.1 a.2.1 0
     post := fun s a t =>
       let k := a.2.1
       let L := min 144 (max 4 (a.2.2 % 256))
       (s.lieDiag k = true → (s.lieAt k).cmd = none → t.lieWords k = L ∧ t.fget .LIE_CFG_SLOT_COUNT k = 8192 / L ∧
         (t.lieAt k).mem = [] ∧ (t.lieAt k).tables = false ∧ ((t.lieAt k).why = if L = 36 then 4 else 0)) ∧
       (s.lieDiag k = false → t.lies = s.lies ∧ t.regs = s.regs) }]

/-- The direct commands by their codes (Table 08.4). -/
noncomputable def directCommands : List ((Master → Nat → Nat → Nat → Instr) × Nat) :=
  [(.directRsaPrivate, 0x01), (.directRsaPublic, 0x02), (.directEcdsaKeygen, 0x11), (.directEcdsaSign, 0x12),
   (.directEcdsaVerify, 0x13), (.directEcdh, 0x14), (.directEddsaKeygen, 0x21), (.directEddsaSign, 0x22),
   (.directEddsaVerify, 0x23), (.directXKeygen, 0x31), (.directXDerive, 0x32)]

/-- A direct command starts in DIAG, or sets ERR (R253). -/
def DirectStarts (cmd : Master → Nat → Nat → Nat → Instr) (code : Nat) : Prop :=
  ∀ (s : State) (m : Master) (k size base : Nat), EngineAllows s m k 0xC →
    ∃ t, exec (cmd m k size base) s = .next t ∧
      let x := s.lieAt k
      let z := size % 8
      let p := base % 2 ^ 11
      let listed := directOk code z = true ∧ (3 ≤ code → s.lieWords k = 36 ∧ x.tables = true)
      let fits := p + s.lieRun k code z * directPositions code ≤ s.lieSlots k
      (s.lieDiag k = false → t.lies = s.lies ∧ t.regs = s.regs) ∧
      (s.lieDiag k = true → (x.cmd ≠ none ∨ ¬ listed ∨ ¬ fits) → t.fget .LIE_DONE_ERR k = 1 ∧ t.lies = s.lies) ∧
      (s.lieDiag k = true → x.cmd = none → listed → ¬ fits → t.fget .LIE_DONE_STATUS k = jInvalidParam) ∧
      (s.lieDiag k = true → x.cmd = none → listed → fits → t.fget .LIE_STATE_COMMAND k = code ∧
        t.lieAt k = { x with
          cmd := some (code, z, p)
          started := s.time.ticks } ∧ RegsKept s t [.LIE_STATE])

/-- The end of a direct command (R253): DONE and STATUS are set, and outputs stand in their positions. -/
def DirectEnds : Prop :=
  ∀ (s : State) (k dt code size base : Nat), (s.lieAt k).cmd = some (code, size, base) → 256 + k ∉ s.tap.halted →
    (let w := directTimes code size
     scaled ((w.1 + w.2.1 + w.2.2) * 100000) (s.lieMhz k) / 1000 ≤ (s.elapse dt).since (s.lieAt k).started) →
    ∃ t, exec (.directCommandDone k dt) s = .next t ∧
      let g := s.lieRun k code size
      let len := 8 * s.lieWords k * g
      let at' : LieX → Nat → Bytes := fun x p => x.read (8 * s.lieWords k * (base + g * p)) len
      let v : Nat → Nat := fun p => leNat (at' (s.lieAt k) p)
      let r : LieRes := directResult code size v (fun p q => (v p + v q) % 2 ^ (8 * len))
      (t.lieAt k).cmd = none ∧ t.fget .LIE_DONE_DONE k = 1 ∧ t.fget .LIE_DONE_STATUS k = r.status % 2 ^ 16 ∧
        t.fget .LIE_STATE_COMMAND k = 0 ∧
        ((r.status = jOk ∨ r.status = jVerifyFail) → (s.lieAt k).tab = [] →
          ∀ i p y : Nat, (directOutputs code).1[i]? = some p → r.outs[i]? = some y → at' (t.lieAt k) p = leBytes len y) ∧
        (r.status = jMachineCheck → Raised (s.elapse dt) t 0x9001 k (code * 256 + size) 0xFFFFFFFF)

/-- A digest is in DGE_DIGEST of channel `c`, zero beyond its length, and the channel stands at its initial state (R259). -/
def DigestShown (s t : State) (c : Nat) (d : Bytes) : Prop :=
  (∀ i, i < 16 → (t.reg .DGE_DIGEST (c * 16 + i)).toNat = leAt d (4 * i) 4) ∧ t.fget .DGE_STAT_STATE c = 0 ∧
    t.reg .DGE_COUNT c = 0 ∧ t.reg .DGE_LAST_LEN c = s.reg .DGE_COUNT c ∧
    t.fget .DGE_FIN_SEQ_COUNT c = (s.fget .DGE_FIN_SEQ_COUNT c + 1) % 2 ^ 32 ∧ (t.dgeAt c).h = dgeInit (s.dgeAt c).fn ∧
    (t.dgeAt c).buf = [] ∧ (t.dgeAt c).fin = true

/-- The digest of what a channel has absorbed. -/
def channelDigest (s : State) (c : Nat) (d : Bytes) : Prop :=
  let x := s.dgeAt c
  (∀ f, dgeSha2 x.fn = some f → d = sha2Finish f x.h ((s.reg .DGE_COUNT c).toNat - x.buf.length) x.buf) ∧
  (dgeSha2 x.fn = none → dgeRate x.fn ≠ 0 →
    d = (keccakBytes (keccakF (keccakXor x.h (x.buf ++ keccakPad (dgeRate x.fn) (dgeDomain x.fn) x.buf.length)))).take (dgeOut x.fn))

/-- The digest channels. -/
noncomputable def digestRows : List Row :=
  [{ Arg := Nat × Nat
     cmd := fun a => .dgeInit a.1 a.2
     ok := fun s a => a.1 < 4 * s.dies ∧ s.dgeDirect a.1 = true
     post := fun s a t => t.fget .DGE_STAT_STATE a.1 = 1 ∧ t.fget .DGE_CTL_FUNC a.1 = a.2 % 16 ∧ t.reg .DGE_COUNT a.1 = 0 ∧
       (t.dgeAt a.1).fn = a.2 % 16 ∧ (t.dgeAt a.1).h = dgeInit (a.2 % 16) ∧ (t.dgeAt a.1).buf = [] ∧ (t.dgeAt a.1).fin = false ∧
       RegsKept s t [.DGE_STAT, .DGE_CTL, .DGE_COUNT] },
   { Arg := Nat × Nat
     cmd := fun a => .dgeData a.1 a.2
     ok := fun s a => a.1 < 4 * s.dies ∧ s.dgeDirect a.1 = true
     post := fun s a t =>
       let x := s.dgeAt a.1
       let b := leBytes (s.fget .DGE_CTL_NBYTES a.1 + 1) a.2
       let r := dgeBlocks x.fn (dgeRate x.fn) (b.length + 1) x.h (x.buf ++ b)
       t.fget .DGE_STAT_STATE a.1 = 1 ∧ t.reg .DGE_COUNT a.1 = s.reg .DGE_COUNT a.1 + BitVec.ofNat 64 b.length ∧
         (t.dgeAt a.1).h = r.1 ∧ (t.dgeAt a.1).buf = r.2.1 ∧ (t.dgeAt a.1).fin = false ∧ (t.dgeAt a.1).bind = x.bind ∧
         (x.fin = true → Counted s t .DGE_RESTARTS_COUNT a.1) },
   { Arg := Nat × Nat
     cmd := fun a => .dgeData a.1 a.2
     ok := fun s a => a.1 < 4 * s.dies ∧ s.dgeDirect a.1 = false
     post := fun s a t => t.fget .DGE_STAT_ERR a.1 = 1 ∧ t = { s with regs := t.regs } ∧ RegsKept s t [.DGE_STAT] },
   { Arg := Nat × Bytes
     cmd := fun a => .dgeFin a.1
     ok := fun s a => a.1 < 4 * s.dies ∧ s.dgeDirect a.1 = true ∧ s.fget .DGE_STAT_STATE a.1 ≠ 0 ∧
       (dgeSha2 (s.dgeAt a.1).fn ≠ none ∨ dgeRate (s.dgeAt a.1).fn ≠ 0) ∧ channelDigest s a.1 a.2
     post := fun s a t => DigestShown s t a.1 a.2 },
   { Arg := Nat
     cmd := .dgeFin
     ok := fun s c => c < 4 * s.dies ∧ (s.dgeDirect c = false ∨ s.fget .DGE_STAT_STATE c = 0)
     post := fun s c t => t.fget .DGE_STAT_ERR c = 1 ∧ t = { s with regs := t.regs } ∧ RegsKept s t [.DGE_STAT] },
   { Arg := Nat × DgeBind × Bytes
     cmd := fun a => .snoopSelfFinish a.1
     ok := fun s a => s.fget .DGE_STAT_STATE a.1 = 2 ∧ (s.dgeAt a.1).bind = some a.2.1 ∧ a.2.1.job = none ∧ a.2.1.left = 0 ∧
       (dgeSha2 (s.dgeAt a.1).fn ≠ none ∨ dgeRate (s.dgeAt a.1).fn ≠ 0) ∧ channelDigest s a.1 a.2.2
     post := fun s a t => DigestShown s t a.1 a.2.2 ∧ t.fget .DGE_STAT_SOURCE a.1 = 0 ∧ (t.dgeAt a.1).bind = none },
   { Arg := (Nat × DgeBind × Nat) × Job × Bytes
     cmd := fun a => .snoopSelfFinish a.1.1
     ok := fun s a => let c := a.1.1
       let j := a.2.1
       let u := s.dgeAbsorb c (j.in0.drop (j.in0.length - a.1.2.1.left))
       s.fget .DGE_STAT_STATE c = 2 ∧ (s.dgeAt c).bind = some a.1.2.1 ∧ a.1.2.1.job = some a.1.2.2 ∧
       s.sched.jobs.find? (fun x => x.id == a.1.2.2) = some j ∧
       (dgeSha2 (s.dgeAt c).fn ≠ none ∨ dgeRate (s.dgeAt c).fn ≠ 0) ∧ channelDigest u c a.2.2
     post := fun s a t => let c := a.1.1
       let j := a.2.1
       DigestShown (s.dgeAbsorb c (j.in0.drop (j.in0.length - a.1.2.1.left))) t c a.2.2 ∧ t.fget .DGE_STAT_SOURCE c = 0 ∧
         (t.dgeAt c).bind = some { a.1.2.1 with left := 0 } },
   { Arg := Nat × Nat
     cmd := fun a => .dgeCompare a.1 a.2
     ok := fun s a => a.1 < 4 * s.dies
     post := fun s a t => t.fget .DGE_CMP_LEN a.1 = min 64 (max 1 a.2) ∧ t.fget .DGE_CMP_DONE a.1 = 0 ∧
       t.reg .DGE_VERDICT_A a.1 = 0 ∧ t.reg .DGE_VERDICT_B a.1 = 0 ∧ (t.dgeAt a.1).cmpAt = some s.time.ticks ∧
       RegsKept s t [.DGE_CMP, .DGE_VERDICT_A, .DGE_VERDICT_B] },
   { Arg := (Nat × Nat × Nat × Nat) × Nat
     cmd := fun a => .dgeCompareDone a.1.1 a.1.2.1 a.1.2.2.1 a.1.2.2.2
     ok := fun s a => a.1.1 < 4 * s.dies ∧ (s.dgeAt a.1.1).cmpAt = some a.2 ∧ 10 ≤ (s.elapse a.1.2.2.2).since a.2
     post := fun s a t =>
       let c := a.1.1
       let n := s.fget .DGE_CMP_LEN c
       let eq := (s.dgeWords .DGE_DIGEST c).take n = (s.dgeWords .DGE_EXPECT c).take n
       let w := if eq then 0xA5C35A3C else 0x3C5AC3A5
       let x := (w ^^^ a.1.2.1) % 2 ^ 32
       let y := ((2 ^ 32 - 1 - w) ^^^ a.1.2.2.1) % 2 ^ 32
       let clean := (x = 0xA5C35A3C ∧ y = 0x5A3CA5C3) ∨ (x = 0x3C5AC3A5 ∧ y = 0xC3A53C5A)
       (t.reg .DGE_VERDICT_A c).toNat = x ∧ (t.reg .DGE_VERDICT_B c).toNat = y ∧ t.fget .DGE_CMP_DONE c = 1 ∧
         (clean → t.mode = s.mode ∧ t.evr = s.evr ∧ RegsKept s t [.DGE_VERDICT_A, .DGE_VERDICT_B, .DGE_CMP]) ∧
         (¬ clean → Records (s.elapse a.1.2.2.2) t 0xA001 ∧
           ((∃ i u, i < 4 ∧ (s.dgeAt (c / 4 * 4 + i)).lastDis = some u ∧ (s.elapse a.1.2.2.2).since u < 1000000000) →
             t.mode = 5 ∧ (s.mode ≠ 5 → t.fget .DEV_MODE_LOCK_CAUSE 0 = 4))) }]

end Sys2Proof.Claims
end

