-- ==== Sys2Proof/Safety/VecRows.lean ====
section
/-!
DEFINITION. The kernel instructions as tables of forms: Tables 06.4 to 06.9 and 07.4 as rows, each element of a result a
function of the elements of its sources.
-/

namespace Sys2Proof.Claims

open Sys2Proof.Machine

/-- Always. -/
def always (_ : VFields) (_ : VCore) : Bool := true

/-- An elementwise form of VA and VB: `g bits a b`. -/
def binary (cmd : Nat → VFields → Instr) (ws : List Nat) (cyc : Nat → Nat) (g : Nat → Nat → Nat → Nat) : VectorForm :=
  { cmd := cmd, used := [.w, .pred, .vd, .va, .vb], ws := ws, cyc := cyc, rw := id,
    srcs := fun f c => [c.vtag f.va, c.vtag f.vb],
    outs := [fun f c e => g (eBits f.w) (elem f.w (c.vreg f.va) e) (elem f.w (c.vreg f.vb) e)], ok := always }

/-- An elementwise form of VA: `g bits a`. -/
def unary (cmd : Nat → VFields → Instr) (ws : List Nat) (g : Nat → Nat → Nat) : VectorForm :=
  { cmd := cmd, used := [.w, .pred, .vd, .va], ws := ws, cyc := fun _ => 1, rw := id, srcs := fun f c => [c.vtag f.va],
    outs := [fun f c e => g (eBits f.w) (elem f.w (c.vreg f.va) e)], ok := always }

/-- An elementwise form of VA and IMM: `g bits a imm`. -/
def immediate (cmd : Nat → VFields → Instr) (g : Nat → Nat → Nat → Nat) : VectorForm :=
  { cmd := cmd, used := [.w, .pred, .vd, .va, .imm], ws := allW, cyc := fun _ => 1, rw := id,
    srcs := fun f c => [c.vtag f.va], outs := [fun f c e => g (eBits f.w) (elem f.w (c.vreg f.va) e) f.imm], ok := always }

/-- An element that a shift to the right fills with the sign. -/
def signFill (n a k : Nat) : Nat :=
  if n ≤ k then (if a.testBit (n - 1) then 2 ^ n - 1 else 0)
  else a >>> k + (if a.testBit (n - 1) then 2 ^ n - 2 ^ (n - k) else 0)

/-- A rotation to the left by `k` mod `n`. -/
def rotated (n a k : Nat) : Nat := a * 2 ^ (k % n) % 2 ^ n + a / 2 ^ (n - k % n)

/-- Integer, logic, minimum, maximum and shift forms (Table 06.4). -/
def integerForms : List VectorForm :=
  [binary .vadd allW (fun _ => 1) (fun _ a b => a + b),
   binary .vsub allW (fun _ => 1) (fun n a b => a + 2 ^ n - b),
   binary .vand allW (fun _ => 1) (fun _ a b => a &&& b),
   binary .vor allW (fun _ => 1) (fun _ a b => a ||| b),
   binary .vxor allW (fun _ => 1) (fun _ a b => a ^^^ b),
   binary .vandn allW (fun _ => 1) (fun n a b => a &&& (2 ^ n - 1 - b)),
   binary .vminu allW (fun _ => 1) (fun _ a b => min a b),
   binary .vmaxu allW (fun _ => 1) (fun _ a b => max a b),
   binary .vmin allW (fun _ => 1) (fun n a b => if signedOf n a ≤ signedOf n b then a else b),
   binary .vmax allW (fun _ => 1) (fun n a b => if signedOf n b ≤ signedOf n a then a else b)] ++
  [unary .vneg allW (fun n a => 2 ^ n - a),
   immediate .vaddi (fun n a k => unsignedOf n ((a : Int) + signedOf 16 k)),
   immediate .vsll (fun _ a k => a * 2 ^ (k % 64)),
   immediate .vsrl (fun _ a k => a / 2 ^ (k % 64)),
   immediate .vsra (fun n a k => signFill n a (k % 64)),
   immediate .vrol (fun n a k => rotated n a (k % 64)),
   binary .vsllv allW (fun _ => 1) (fun n a k => if n ≤ k then 0 else a * 2 ^ k),
   binary .vsrlv allW (fun _ => 1) (fun n a k => if n ≤ k then 0 else a / 2 ^ k),
   binary .vsrav allW (fun _ => 1) signFill,
   binary .vrolv allW (fun _ => 1) rotated]

/-- The product of two elements read signed, in `m` bits. -/
def signedProduct (n m a b : Nat) : Nat := unsignedOf m (signedOf n a * signedOf n b)

/-- A widening multiply: elements `2e + odd` of VA and VB into element `e` of twice the width. -/
def widening (cmd : Nat → VFields → Instr) (odd : Nat) (signed : Bool) : VectorForm :=
  { cmd := cmd, used := [.w, .pred, .vd, .va, .vb], ws := [1, 2], cyc := fun _ => 2, rw := (· + 1),
    srcs := fun f c => [c.vtag f.va, c.vtag f.vb],
    outs := [fun f c e =>
      let a := elem f.w (c.vreg f.va) (2 * e + odd)
      let b := elem f.w (c.vreg f.vb) (2 * e + odd)
      if signed then signedProduct (eBits f.w) (eBits (f.w + 1)) a b else a * b], ok := always }

/-- A dot product: element `e` of VD at width `w` plus the products of the `n` parts of width `u` of VA and VB. -/
def dotForm (cmd : Nat → VFields → Instr) (w u n : Nat) (signed : Bool) : VectorForm :=
  { cmd := cmd, used := [.w, .pred, .vd, .va, .vb], ws := [w], cyc := fun _ => 2, rw := id,
    srcs := fun f c => [c.vtag f.va, c.vtag f.vb],
    outs := [fun f c e => elem w (c.vreg f.vd) e + ((List.range n).map (fun k =>
      let a := elem u (c.vreg f.va) (n * e + k)
      let b := elem u (c.vreg f.vb) (n * e + k)
      if signed then signedProduct (eBits u) (eBits w) a b else a * b)).sum], ok := always }

/-- Bit `k` of a carry-less product of two 64-bit numbers: the parity of the pairs of bits whose places add to `k`. -/
def carrylessBit (a b k : Nat) : Nat :=
  ((List.range 64).countP (fun i => a.testBit i && decide (i ≤ k) && b.testBit (k - i))) % 2

/-- `n` bits of a carry-less product from bit `lo`. -/
def carryless (a b lo : Nat) : Nat := ((List.range 64).map (fun k => carrylessBit a b (lo + k) * 2 ^ k)).sum

/-- A carry-less form: the two halves of each product, plain or added by exclusive or. -/
def carrylessForm (cmd : Nat → VFields → Instr) (acc : Bool) : VectorForm :=
  let out := fun (k : Nat) (f : VFields) (c : VCore) (e : Nat) =>
    carryless (elem 3 (c.vreg f.va) e) (elem 3 (c.vreg f.vb) e) (64 * k) ^^^
      (if acc then elem 3 (c.vreg (f.vd + k)) e else 0)
  { cmd := cmd, used := [.w, .pred, .vd, .va, .vb], ws := [3], cyc := fun _ => 4, rw := id,
    srcs := fun f c => [c.vtag f.va, c.vtag f.vb],
    outs := [out 0, out 1], ok := always }

/-- Multiply, dot-product and carry-less forms (Tables 06.4, 06.5). -/
def multiplyForms : List VectorForm :=
  [binary .vmull allW (fun w => if w = 3 then 4 else 1) (fun _ a b => a * b),
   binary .vmulhu [1, 2] (fun _ => 2) (fun n a b => a * b / 2 ^ n),
   binary .vmulhs [1, 2] (fun _ => 2) (fun n a b => signedProduct n (2 * n) a b / 2 ^ n),
   widening .vmulweu 0 false, widening .vmulwou 1 false, widening .vmulwes 0 true, widening .vmulwos 1 true,
   { cmd := .vmacl, used := [.w, .pred, .vd, .va, .vb], ws := [0, 1, 2], cyc := fun _ => 2, rw := id,
     srcs := fun f c => [c.vtag f.va, c.vtag f.vb],
     outs := [fun f c e => elem f.w (c.vreg f.vd) e + elem f.w (c.vreg f.va) e * elem f.w (c.vreg f.vb) e], ok := always }] ++
  [dotForm .vdot4b 2 0 4 false, dotForm .vdot4bs 2 0 4 true, dotForm .vdot2h 2 1 2 false, dotForm .vdot2hs 2 1 2 true,
   dotForm .vdot4h 3 1 4 false, dotForm .vdot4hs 3 1 4 true, carrylessForm .vclmul false, carrylessForm .vclmulx true]

/-- A permutation of VA and VB: `g w e a b`, where `a` and `b` give their elements. -/
def placing (cmd : Nat → VFields → Instr) (cyc : Nat) (g : Nat → Nat → (Nat → Nat) → (Nat → Nat) → Nat) : VectorForm :=
  { cmd := cmd, used := [.w, .pred, .vd, .va, .vb], ws := allW, cyc := fun _ => cyc, rw := id,
    srcs := fun f c => [c.vtag f.va, c.vtag f.vb],
    outs := [fun f c e => g f.w e (elem f.w (c.vreg f.va)) (elem f.w (c.vreg f.vb))], ok := always }

/-- A slide of VA, by IMM or by S[SS]. -/
def sliding (cmd : Nat → VFields → Instr) (up scalar : Bool) : VectorForm :=
  { cmd := cmd, used := [.w, .pred, .vd, .va, if scalar then .ss else .imm], ws := allW, cyc := fun _ => 1, rw := id,
    srcs := fun f c => c.vtag f.va :: (if scalar then [c.stag f.ss] else []),
    outs := [fun f c e =>
      let k := if scalar then (c.sreg f.ss).toNat else f.imm
      if up then (if k ≤ e then elem f.w (c.vreg f.va) (e - k) else 0)
      else (if e + k < eCount f.w then elem f.w (c.vreg f.va) (e + k) else 0)], ok := always }

/-- The element's number from its bits: bit `k` is `g k`. -/
def fromBits (n : Nat) (g : Nat → Bool) : Nat := ((List.range n).map (fun k => if g k then 2 ^ k else 0)).sum

/-- Permute, bit and move forms (Table 06.6). -/
def permuteForms : List VectorForm :=
  [placing .vpermv 2 (fun w e a b => a (b e % eCount w)),
   sliding .vslideup true false, sliding .vslideups true true, sliding .vslidedn false false, sliding .vslidedns false true,
   { cmd := .vbcast, used := [.w, .pred, .vd, .va, .imm], ws := allW, cyc := fun _ => 1, rw := id,
     srcs := fun f c => [c.vtag f.va], outs := [fun f c _ => elem f.w (c.vreg f.va) f.imm],
     ok := fun f _ => decide (f.imm < eCount f.w) },
   placing .vziplo 1 (fun _ e a b => if e % 2 = 0 then a (e / 2) else b (e / 2)),
   placing .vziphi 1 (fun w e a b => if e % 2 = 0 then a (eCount w / 2 + e / 2) else b (eCount w / 2 + e / 2)),
   placing .vunzipe 1 (fun w e a b => if e < eCount w / 2 then a (2 * e) else b (2 * e - eCount w)),
   placing .vunzipo 1 (fun w e a b => if e < eCount w / 2 then a (2 * e + 1) else b (2 * e + 1 - eCount w))] ++
  [{ unary .vtr32 [2] (fun _ a => a) with
       cyc := fun _ => 4
       outs := [fun f c e => fromBits 32 (fun i => (elem 2 (c.vreg f.va) (e / 32 * 32 + i)).testBit (e % 32))] },
   unary .vtr8 [3] (fun _ a => fromBits 64 (fun k => a.testBit (8 * (k % 8) + k / 8))),
   unary .vpopc allW (fun n a => (List.range n).countP (fun k => a.testBit k)),
   unary .vbrev allW (fun n a => fromBits n (fun k => a.testBit (n - 1 - k))),
   { cmd := .vbitsel, used := [.w, .pred, .vd, .va, .vb, .vc], ws := allW, cyc := fun _ => 1, rw := id,
     srcs := fun f c => [c.vtag f.va, c.vtag f.vb, c.vtag f.vc],
     outs := [fun f c e => fromBits (eBits f.w) (fun k =>
       if (elem f.w (c.vreg f.vc) e).testBit k then (elem f.w (c.vreg f.va) e).testBit k
       else (elem f.w (c.vreg f.vb) e).testBit k)], ok := always }] ++
  [{ cmd := .vmov, used := [.w, .pred, .vd, .va], ws := [0], cyc := fun _ => 1, rw := id, srcs := fun f c => [c.vtag f.va],
     outs := [fun f c e => elem f.w (c.vreg f.va) e], ok := always },
   { cmd := .vmovi, used := [.w, .pred, .vd, .imm], ws := allW, cyc := fun _ => 1, rw := id, srcs := fun _ _ => [],
     outs := [fun f _ _ => unsignedOf (eBits f.w) (signedOf 16 f.imm)], ok := always },
   { cmd := .vmovs, used := [.w, .pred, .vd, .ss], ws := allW, cyc := fun _ => 1, rw := id,
     srcs := fun f c => [c.stag f.ss], outs := [fun f c _ => (c.sreg f.ss).toNat], ok := always },
   { cmd := .vins, used := [.w, .pred, .vd, .ss, .imm], ws := allW, cyc := fun _ => 1, rw := id,
     srcs := fun f c => [c.stag f.ss],
     outs := [fun f c e => if e = f.imm then (c.sreg f.ss).toNat else elem f.w (c.vreg f.vd) e], ok := always },
   { cmd := .vzero, used := [.w, .vd], ws := [0], cyc := fun _ => 1, rw := id, srcs := fun _ _ => [],
     outs := [fun _ _ _ => 0], ok := always },
   { cmd := .vsel, used := [.w, .pred, .vd, .va, .vb], ws := allW, cyc := fun _ => 1, rw := id,
     srcs := fun f c => [c.vtag f.va, c.vtag f.vb],
     outs := [fun f c e => if (c.preg f.pred).testBit (e * eBytes f.w) then elem f.w (c.vreg f.va) e
                           else elem f.w (c.vreg f.vb) e],
     ok := fun f _ => decide (f.pen = 0 ∧ f.zm = 0) }]

/-- The modulus of Q[QS] is odd and within the width's bound, as QSET leaves every modulus (R182, R183). -/
def goodModulus (f : VFields) (c : VCore) : Bool :=
  decide (c.modq f % 2 = 1 ∧ 3 ≤ c.modq f ∧ c.modq f < (if f.w = 1 then 2 ^ 15 else 2 ^ 31))

/-- A modular form of VA and VB: `g bits q a b`. -/
def modular2 (cmd : Nat → VFields → Instr) (cyc : Nat) (g : Nat → Nat → Nat → Nat → Nat) : VectorForm :=
  { cmd := cmd, used := [.w, .pred, .vd, .va, .vb, .qs], ws := [1, 2], cyc := fun _ => cyc, rw := id,
    srcs := fun f c => [c.vtag f.va, c.vtag f.vb],
    outs := [fun f c e => g (eBits f.w) (c.modq f) (elem f.w (c.vreg f.va) e) (elem f.w (c.vreg f.vb) e)],
    ok := goodModulus }

/-- A modular form of VA: `g bits q a`. -/
def modular1 (cmd : Nat → VFields → Instr) (cyc : Nat) (g : Nat → Nat → Nat → Nat) : VectorForm :=
  { cmd := cmd, used := [.w, .pred, .vd, .va, .qs], ws := [1, 2], cyc := fun _ => cyc, rw := id,
    srcs := fun f c => [c.vtag f.va],
    outs := [fun f c e => g (eBits f.w) (c.modq f) (elem f.w (c.vreg f.va) e)], ok := goodModulus }

/-- `a − b` modulo `q`. -/
def minusMod (q a b : Nat) : Nat := (((a : Int) - (b : Int)) % (q : Int)).toNat

/-- A butterfly across registers: `g bits q a b k` for VD and VD + 1. -/
def butterfly (cmd : Nat → VFields → Instr) (g h : Nat → Nat → Nat → Nat → Nat → Nat) : VectorForm :=
  let out := fun (g : Nat → Nat → Nat → Nat → Nat → Nat) (f : VFields) (c : VCore) (e : Nat) =>
    g (eBits f.w) (c.modq f) (elem f.w (c.vreg f.va) e) (elem f.w (c.vreg f.vb) e) (elem f.w (c.vreg f.vc) e)
  { cmd := cmd, used := [.w, .pred, .vd, .va, .vb, .vc, .qs], ws := [1, 2], cyc := fun _ => 3, rw := id,
    srcs := fun f c => [c.vtag f.va, c.vtag f.vb, c.vtag f.vc], outs := [out g, out h], ok := goodModulus }

/-- A butterfly in a register: pairs `d = 2^IMM[2:0]` apart, the twiddle from the lower place of VB. -/
def inRegister (cmd : Nat → VFields → Instr) (g h : Nat → Nat → Nat → Nat → Nat → Nat) : VectorForm :=
  { cmd := cmd, used := [.w, .pred, .vd, .va, .vb, .qs, .imm], ws := [1, 2], cyc := fun _ => 3, rw := id,
    srcs := fun f c => [c.vtag f.va, c.vtag f.vb],
    outs := [fun f c e =>
      let d := 2 ^ (f.imm % 8)
      let j := if e / d % 2 = 0 then e else e - d
      let out := fun (g : Nat → Nat → Nat → Nat → Nat → Nat) =>
        g (eBits f.w) (c.modq f) (elem f.w (c.vreg f.va) j) (elem f.w (c.vreg f.va) (j + d)) (elem f.w (c.vreg f.vb) j)
      if e / d % 2 = 0 then out g else out h],
    ok := fun f c => goodModulus f c && decide (2 ^ (f.imm % 8) < eCount f.w) }

/-- Modular and butterfly forms (Tables 06.8, 06.9); the Montgomery product is `montMul`. -/
def modularForms : List VectorForm :=
  [modular2 .madd 1 (fun _ q a b => (a + b) % q),
   modular2 .msub 1 (fun _ q a b => minusMod q a b),
   modular1 .mneg 1 (fun _ q a => minusMod q 0 a),
   modular1 .mred 2 (fun _ q a => a % q),
   modular2 .mmulm 2 montMul,
   modular2 .mmulb 3 (fun _ q a b => a * b % q),
   modular1 .mtom 2 (fun n q a => a * 2 ^ n % q),
   modular1 .mfromm 2 (fun n q a => montMul n q a 1),
   modular1 .mcsub 1 (fun _ q a => if q ≤ a then a - q else a),
   modular1 .mcenter 1 (fun n q a => if q < 2 * (a % q) then unsignedOf n ((a % q : Nat) - (q : Int)) else a % q)] ++
  [butterfly .bfct (fun n q a b k => (a + montMul n q b k) % q) (fun n q a b k => minusMod q a (montMul n q b k)),
   butterfly .bfgs (fun _ q a b _ => (a + b) % q) (fun n q a b k => montMul n q (minusMod q a b) k),
   inRegister .bfcti (fun n q a b k => (a + montMul n q b k) % q) (fun n q a b k => minusMod q a (montMul n q b k)),
   inRegister .bfgsi (fun _ q a b _ => (a + b) % q) (fun n q a b k => montMul n q (minusMod q a b) k)]

/-- A compare (Table 06.4). -/
def comparing (cmd : Nat → VFields → Instr) (g : Nat → Nat → Nat → Bool) : PredForm :=
  { cmd := cmd, used := [.w, .pred, .vd, .va, .vb], ws := allW, srcs := fun f c => [c.vtag f.va, c.vtag f.vb],
    bit := fun f c e => g (eBits f.w) (elem f.w (c.vreg f.va) e) (elem f.w (c.vreg f.vb) e), ok := always }

/-- Predicate logic (Table 06.6). -/
def logical (cmd : Nat → VFields → Instr) (g : Bool → Bool → Bool) : PredForm :=
  { cmd := cmd, used := [.w, .vd, .va, .vb], ws := [0], srcs := fun f c => [⟨c.ptag f.va, 0, 0⟩, ⟨c.ptag f.vb, 0, 0⟩],
    bit := fun f c e => g ((c.preg f.va).testBit e) ((c.preg f.vb).testBit e),
    ok := fun f _ => decide (f.va < 8 ∧ f.vb < 8) }

/-- Compare and predicate forms. -/
def predicateForms : List PredForm :=
  [comparing .vceq (fun _ a b => decide (a = b)), comparing .vcne (fun _ a b => decide (a ≠ b)),
   comparing .vcltu (fun _ a b => decide (a < b)), comparing .vcgeu (fun _ a b => decide (b ≤ a)),
   comparing .vclt (fun n a b => decide (signedOf n a < signedOf n b)),
   comparing .vcge (fun n a b => decide (signedOf n b ≤ signedOf n a)),
   logical .pand (· && ·), logical .por (· || ·), logical .pxor xor,
   { cmd := .pnot, used := [.w, .vd, .va], ws := [0], srcs := fun f c => [⟨c.ptag f.va, 0, 0⟩],
     bit := fun f c e => !(c.preg f.va).testBit e, ok := fun f _ => decide (f.va < 8) },
   { cmd := .pset, used := [.w, .vd, .imm], ws := allW, srcs := fun _ _ => [],
     bit := fun f _ e => decide (e < f.imm), ok := always }]

/-- A scalar operation on S[VA] and S[VB] (Table 07.4). -/
def scalar2 (cmd : Nat → VFields → Instr) (cyc : Nat) (g : Nat → Nat → Nat) : ScalarForm :=
  { cmd := cmd, used := [.vd, .va, .vb], ws := [0], cyc := cyc, srcs := fun f c => [c.stag f.va, c.stag f.vb],
    val := fun _ _ f c => g (c.sreg f.va).toNat (c.sreg f.vb).toNat, ok := always }

/-- A scalar form whose result is public. -/
def publicForm (cmd : Nat → VFields → Instr) (used : List VF) (val : State → Nat → VFields → VCore → Nat)
    (ok : VFields → VCore → Bool) : ScalarForm :=
  { cmd := cmd, used := used, ws := [0], cyc := 1, srcs := fun _ _ => [], val := val, ok := ok }

/-- The fields of a modulus register by QRD index (Table 06.7): lowest bit and width. -/
def modulusField (k : Nat) : Nat × Nat :=
  [(0, 32), (32, 32), (64, 16), (80, 16), (96, 32), (128, 32), (160, 64)].getD k (224, 0)

/-- Scalar forms, and the forms that bring an element, a count, a field, a tag, a parameter or the mask state to a scalar
(Tables 06.6, 06.7, 06.10, 06.11, 07.4). -/
noncomputable def scalarForms : List ScalarForm :=
  [scalar2 .sadd 1 (fun a b => a + b), scalar2 .ssub 1 (fun a b => a + 2 ^ 64 - b), scalar2 .sand 1 (fun a b => a &&& b),
   scalar2 .sor 1 (fun a b => a ||| b), scalar2 .sxor 1 (fun a b => a ^^^ b), scalar2 .ssll 1 (fun a b => a * 2 ^ (b % 64)),
   scalar2 .ssrl 1 (fun a b => a / 2 ^ (b % 64)), scalar2 .ssra 1 (fun a b => signFill 64 a (b % 64)),
   scalar2 .smul 4 (fun a b => a * b), scalar2 .sltu 1 (fun a b => if a < b then 1 else 0),
   scalar2 .slt 1 (fun a b => if signedOf 64 a < signedOf 64 b then 1 else 0)] ++
  [{ cmd := .saddi, used := [.vd, .va, .imm], ws := [0], cyc := 1, srcs := fun f c => [c.stag f.va],
     val := fun _ _ f c => unsignedOf 64 (((c.sreg f.va).toNat : Int) + signedOf 16 f.imm), ok := always },
   { cmd := .slui, used := [.vd, .va, .vb, .imm], ws := [0], cyc := 1, srcs := fun f c => [c.stag f.va],
     val := fun _ _ f c =>
       let k := 16 * (f.vb % 4)
       (c.sreg f.va).toNat - (c.sreg f.va).toNat / 2 ^ k % 2 ^ 16 * 2 ^ k + f.imm * 2 ^ k, ok := always },
   { cmd := .vext, used := [.w, .vd, .va, .imm], ws := allW, cyc := 1, srcs := fun f c => [c.vtag f.va],
     val := fun _ _ f c => elem f.w (c.vreg f.va) f.imm, ok := fun f _ => decide (f.imm < eCount f.w) },
   { cmd := .pcnt, used := [.w, .vd, .va], ws := allW, cyc := 1, srcs := fun f c => [⟨c.ptag f.va, 0, 0⟩],
     val := fun _ _ f c => (List.range (eCount f.w)).countP (fun e => (c.preg f.va).testBit (e * eBytes f.w)),
     ok := fun f _ => decide (f.va < 8) }] ++
  [publicForm .qrd [.vd, .qs, .imm]
     (fun _ _ f c => c.qreg f.qs / 2 ^ (modulusField (f.imm % 8)).1 % 2 ^ (modulusField (f.imm % 8)).2) always,
   publicForm .mstat [.vd] (fun s v _ _ => (s.reg .VC_MGEN_STAT v).toNat) always,
   publicForm .tagrd [.vd, .va, .imm] (fun _ _ f c =>
     let t := if f.imm / 256 % 2 = 1 then c.stag f.va else c.vtag f.va
     (if t.t then 1 else 0) + 2 * t.si + 8 * t.gid) always,
   publicForm .sparam [.vd, .imm] (fun _ _ f c => c.params.getD (f.imm % 16) 0) (fun f _ => decide (f.imm % 16 < 8))]

end Sys2Proof.Claims
end

