-- ==== Sys2Proof/Safety/VecUnits.lean ====
section
/-!
DEFINITION. What statements about the units, masks, memory and control flow of a vector core are told in.
-/

namespace Sys2Proof.Claims

open Sys2Proof.Machine

/-- A core that differs from `c` in its vector registers, their tags, the model's note of its share groups, its place and
its cycles alone. -/
def SameButVectors (c d : VCore) : Prop :=
  d = { c with v := d.v, vt := d.vt, doms := d.doms, pc := d.pc, cycles := d.cycles, sinceYield := d.sinceYield }

/-- Vector registers outside `vd` to `vd + n - 1` are as before, with their tags. -/
def VectorsKept (c d : VCore) (vd n : Nat) : Prop :=
  ∀ r, (r < vd ∨ vd + n ≤ r) → d.vreg r = c.vreg r ∧ d.vtag r = c.vtag r

/-- A SHA-2 compressor that holds the message `m` of function `fn`: whole blocks compressed, the rest waiting. -/
def Sha2Holds (u : HashUnit) (fn : Nat) (m : Bytes) : Prop :=
  let h := s2Fn fn
  u.live = true ∧ u.fn = fn ∧ u.count = m.length % 2 ^ 64 ∧ u.buf = m.drop (m.length / h.block * h.block) ∧
    u.h = sha2Absorb h.word h.init (m.take (m.length / h.block * h.block))

/-- A Keccak unit that holds the message `m` of mode `mode`, unfinished. -/
def KeccakHolds (u : HashUnit) (mode : Nat) (m : Bytes) : Prop :=
  u.live = true ∧ u.fn = mode ∧ u.fin = false ∧ u.count = m.length % 2 ^ 64 ∧ u.h = (kAbsorbAt (kRate mode) 0 keccakZero m).1

/-- Byte `p` of the output that a state squeezes at a rate. -/
def squeezed (rate : Nat) (h : List Nat) (p : Nat) : Byte := (keccakBytes (Nat.repeat keccakF (p / rate) h)).getD (p % rate) 0

/-- A unit's output `x`: in VD with tag T alone, or with MSK as a new two-share group in VD and VD + 1 (R186). -/
def UnitOutput (f : VFields) (d : VCore) (tag : Bool) (x : VReg) : Prop :=
  if f.msk then d.vreg f.vd ^^^ d.vreg (f.vd + 1) = x ∧ setOk (d.vtags f.vd 2) = true ∧ (d.vtags f.vd 2).all (·.t) = true
  else d.vreg f.vd = x ∧ d.vtag f.vd = ⟨tag, 0, 0⟩

/-- Registers that a unit's output takes. -/
def unitRegs (f : VFields) : Nat := if f.msk then 2 else 1

/-- A new share set at VD of the order that the word names. -/
def NewSet (f : VFields) (d : VCore) : Prop :=
  setOk (d.vtags f.vd f.shares) = true ∧ (d.vtags f.vd f.shares).all (·.t) = true

/-- The value that the set at register `r` recombines to in a domain, element by element: the exclusive or, the sum modulo
2^w, or the sum modulo q (R191). -/
def shared (d w q : Nat) (c : VCore) (r n e : Nat) : Nat :=
  let xs := (regRange r n).map (fun k => elem w (c.vreg k) e)
  if d = 0 then xs.foldl (· ^^^ ·) 0 else if d = 1 then xs.sum % 2 ^ eBits w else xs.sum % q

/-- A plain value in a domain: as it is, or modulo q. -/
def plainIn (d q x : Nat) : Nat := if d = 2 then x % q else x

/-- A domain that an instruction allows at its width, its modulus good where it has one (R183, R191). -/
def DomainOk (f : VFields) (c : VCore) (allowed : List Nat) : Prop :=
  f.imm % 4 ∈ allowed ∧ (f.imm % 4 = 2 → (f.w = 1 ∨ f.w = 2) ∧ badModulus f.w (c.modq f) = false)

/-- The masks of a draw are there above the reserve (R187). -/
def MasksFor (s : State) (v bits : Nat) : Prop := bits + 32768 ≤ s.fget .VC_MGEN_STAT_FILL v

/-- The active elements of a plain access of core `c` fall aligned into segments, into blocks without a share record
(R199, R201, R204). -/
def PlainAccess (f : VFields) (c : VCore) (addr : Nat → Nat) : Prop :=
  ∀ e, e < eCount f.w → c.active f f.w e = true →
    addr e % eBytes f.w = 0 ∧ (∃ g, c.place (addr e) (eBytes f.w) = .seg g) ∧ c.hasRec (addr e) = false

/-- A load leaves in VD the little-endian elements at their addresses, inactive ones merged or zero, with T where an active
element came from a SECRET segment or a source was tagged (R201, R204). -/
def Loaded (f : VFields) (c d : VCore) (idx : Bool) (addr : Nat → Nat) : Prop :=
  (∀ e, e < eCount f.w → elem f.w (d.vreg f.vd) e =
    if c.active f f.w e then leNat (memRead 0 c.mem (addr e) (eBytes f.w)) else if f.zm = 1 then 0 else elem f.w (c.vreg f.vd) e) ∧
  (d.vtag f.vd).si = 0 ∧
  ((d.vtag f.vd).t = true ↔ idx = true ∨ (f.pen = 1 ∧ c.ptag f.pred = true) ∨ (f.merging = true ∧ (c.vtag f.vd).t = true) ∨
    ∃ e g, e < eCount f.w ∧ c.active f f.w e = true ∧ c.place (addr e) (eBytes f.w) = .seg g ∧ g.secret = true) ∧
  VectorsKept c d f.vd 1 ∧ SameButVectors c d

/-- A store of VA is allowed: the access is plain, every segment is writable, and what is tagged goes to SECRET segments
(R204). -/
def StoreAllowed (f : VFields) (c : VCore) (idx : Bool) (addr : Nat → Nat) : Prop :=
  (c.vtag f.va).si = 0 ∧ ∀ e, e < eCount f.w → c.active f f.w e = true →
    addr e % eBytes f.w = 0 ∧ ∃ g, c.place (addr e) (eBytes f.w) = .seg g ∧ g.wr = true ∧
      (((c.vtag f.va).t = true ∨ idx = true) → g.secret = true)

/-- The byte that a store leaves at an address: that of the highest-numbered active element that covers it (R201). -/
def storedByte (f : VFields) (c : VCore) (addr : Nat → Nat) (a : Nat) : Byte :=
  match (List.range (eCount f.w)).reverse.find? (fun e => c.active f f.w e && decide (addr e ≤ a ∧ a < addr e + eBytes f.w)) with
  | some e => (leBytes (eBytes f.w) (elem f.w (c.vreg f.va) e)).getD (a - addr e) 0
  | none => memByte 0 c.mem a

/-- The core after a store: its operand store by `storedByte`, and no share record in a block that was written (R200). -/
def Stored (f : VFields) (c d : VCore) (addr : Nat → Nat) : Prop :=
  (∀ a, memByte 0 d.mem a = storedByte f c addr a) ∧
  (∀ b, sparseGet (0, 0) d.recs b =
    if (List.range (eCount f.w)).any (fun e => c.active f f.w e && addr e / 512 == b) then (0, 0) else sparseGet (0, 0) c.recs b) ∧
  d = { c with mem := d.mem, recs := d.recs, pc := d.pc, cycles := d.cycles, sinceYield := d.sinceYield }

/-- A command that core `v` has fetched moves it on to word `pc` in `cyc` cycles and leaves it otherwise as `d`. -/
def Moves (s : State) (i : Instr) (v : Nat) (d : VCore) (pc cyc : Nat) : Prop :=
  Fetched s v i → ∃ t, exec i s = .next t ∧ Issued s t v pc cyc ∧
    t.core v = { d with pc := pc, cycles := d.cycles + cyc, sinceYield := d.sinceYield + cyc }

end Sys2Proof.Claims
end

