-- ==== Sys2Proof/Certificates/Slice0/Obligations.lean ====
section
/-!
DEFINITION. The statements for the provers.
-/

open Sys2Proof Sys2Proof.Machine Sys2Proof.Claims

/-! ## The block as a whole -/

/-- The command at the front of the queue runs on the state with the queue's rest. -/
def Obligations.StepRunsFrontCommand : Prop :=
  ∀ (c : Instr) (s : State) (rest : List Instr), step { s with pending := c :: rest } = exec c { s with pending := rest }

/-- Log entry 4 (the model's choice): with no command waiting one tick of 0.5 ns passes and only the clocks move. -/
def Obligations.IdleStepIsOneTick : Prop :=
  ∀ s : State, s.pending = [] → ∃ t, step s = .next t ∧ t = { s with time := t.time } ∧ t.time.ticks = s.time.ticks + 1 ∧
    (s.time.slew = 0 → t.time.ns * 2 ^ 48 + t.time.frac =
      (s.time.ns * 2 ^ 48 + s.time.frac + s.fget .TIME_INCR_INCR 0) % 2 ^ 112)

/-- R5: once programmed, the F2 bit stays programmed through every command and state transition. -/
def Obligations.F2BitStaysProgrammed : Prop := Kept F2Set

/-- After reset the F2 bit is not programmed, and PROT_F2_SET is what programs it: from the reset state with the command
running, the step answers a state that the invariant holds of. -/
def Obligations.F2BitAfterReset : Prop :=
  State.reset.otp.f2 = false ∧
  ∀ s : State, s.pending = [.protF2Set] → s.mbx.phase = .running → s.cmdOpcode = 0x0905 → s.otp.f2 = false → s.otpGood = true →
    ∃ t, step s = .next t ∧ F2Set t

/-- R384, R490: the state after reset: mode BOOT, life cycle BLANK, the reset column of R490, and empty stores. -/
def Obligations.ResetValues : Prop :=
  State.reset.mode = 1 ∧ State.reset.fget .LCS_STATE_STATE 0 = 0 ∧ State.reset.pending = [] ∧
  State.reset.fget .MBX_CTL_DONE_IE 0 = 1 ∧ State.reset.fget .MBX_STATUS_READY 0 = 0 ∧
  State.reset.fget .MBX_TIMEOUT_LIMIT_MS 0 = 1000 ∧ State.reset.fget .EVR_SEQ_NEXT 0 = 1 ∧
  State.reset.fget .TIME_INCR_INCR 0 = 2 ^ 47 ∧ State.reset.fget .DBG_CHAL_TTL_SECONDS 0 = 60 ∧ State.reset.slots = [] ∧
  State.reset.streams = [] ∧ State.reset.fget .RNG_RETRY_RETRY_MS 0 = 100 ∧ State.reset.reg .DEV_ID 0 = 0x880008B1 ∧
  (∀ c, c < 14 → State.reset.fget .EVR_COUNT_QUOTA c = 512) ∧ (∀ n, n < 4096 → State.reset.flag .IMT_CTL_MASK n = true) ∧
  (∀ n, n < 1024 → State.reset.fget .TI_STATUS_STATE n = 0) ∧ ∀ r, r < 16384 → State.reset.flag .RING_CFG_ALLOCATED r = false

/-! ## Registers -/

/-- R12, R14, R15, R491, R492: a read of a 32-bit register that its deckle allows returns what the register shows and clears
its RC bits; the debug master's read clears nothing. -/
def Obligations.RegisterReads : Prop :=
  ∀ (s : State) (m : Master) (a code : Nat) (k : RegKind) (i : Nat), Granted s m false a [] 4 code → a % 4 = 0 →
    s.regAt a = some (k, i, 0) → (regRow k).width = 32 → k ∉ specialReads →
    ∃ t, exec (.rcRegisterRead m .bar0 a 4 code) s = .next t ∧ ReadAnswered s t m (s.view k i) ∧ RegsKept s t [k] ∧
      KeptBut s t k [i] ∧ (m = .dbg → t.reg k i = s.reg k i) ∧
      (m ≠ .dbg → ∀ j, j < 64 → (t.reg k i).getLsbD j = ((s.reg k i).getLsbD j && !(regRow k).rc.testBit j))

/-- R14: a read of an RC register by the debug master returns the current value without clearing it. -/
def Obligations.DebugReadClearsNothing : Prop :=
  ∀ (s : State) (a code : Nat) (k : RegKind) (i : Nat), Granted s .dbg false a [] 4 code → a % 4 = 0 →
    s.regAt a = some (k, i, 0) → (regRow k).width = 32 → (regRow k).rc ≠ 0 → k ∉ specialReads →
    ∃ t x, exec (.rcRegisterRead .dbg .bar0 a 4 code) s = .next t ∧ t.regs = s.regs ∧
      t.out = s.out ++ [.debug (s.view k i % 2 ^ 32) x]

/-- R12, R15, R491, R492: a write of a 32-bit register without an effect of its own, which its deckle allows, leaves in each
bit what Table 00.5 gives its access code; every other register stays. -/
def Obligations.RegisterWrites : Prop :=
  ∀ (s : State) (m : Master) (a code : Nat) (data : Bytes) (k : RegKind) (i : Nat), Granted s m true a data 4 code →
    data.length = 4 → a % 4 = 0 → s.regAt a = some (k, i, 0) → (regRow k).width = 32 → k ∉ specialWrites →
    ∃ t, exec (.registerWrite m .bar0 a data true code) s = .next t ∧ WriteAnswered { s with regs := t.regs } t m ∧
      RegsKept s t [k] ∧ KeptBut s t k [i] ∧
      ∀ j, j < 64 → (t.reg k i).getLsbD j = writtenBit (regRow k) (s.reg k i).toNat (leNat data) j

/-- R11: the two halves of a 64-bit register, read and written by one master. -/
def Obligations.SixtyFourBitHalves : Prop :=
  ∀ (s : State) (m : Master) (a code : Nat) (k : RegKind) (i : Nat), s.regAt a = some (k, i, 0) → s.regAt (a + 4) = some (k, i, 4) →
    (regRow k).width = 64 → k ∉ specialReads → k ≠ .TIME_NOW → (regRow k).rc = 0 → a % 8 = 0 →
    (Granted s m false a [] 4 code →
      ∃ t, exec (.rcRegisterRead m .bar0 a 4 code) s = .next t ∧
        ReadAnswered (withHalf s m (s.half m).staged (some (regKey k i, s.view k i / 2 ^ 32))) t m (s.view k i)) ∧
    (Granted s m false (a + 4) [] 4 code → ∀ x, (s.half m).shadow = some (regKey k i, x) →
      ∃ t, exec (.rcRegisterRead m .bar0 (a + 4) 4 code) s = .next t ∧
        ReadAnswered (withHalf s m (s.half m).staged none) t m x) ∧
    (Granted s m false a [] 8 code → m ≠ .dbg →
      ∃ t, exec (.rcRegisterRead m .bar0 a 8 code) s = .next t ∧
        t = { s with regs := t.regs, out := s.out ++ [.readReturn (leBytes 8 (s.view k i))] }) ∧
    (∀ data, data.length = 4 → Granted s m true a data 4 code →
      ∃ t, exec (.registerWrite m .bar0 a data true code) s = .next t ∧
        WriteAnswered (withHalf s m (some (regKey k i, leNat data)) (s.half m).shadow) t m) ∧
    (∀ data, data.length = 4 → Granted s m true (a + 4) data 4 code → ∀ l, (s.half m).staged = some (regKey k i, l) →
      ∃ t, exec (.registerWrite m .bar0 (a + 4) data true code) s = .next t ∧
        WriteAnswered ((withHalf s m none (s.half m).shadow).commitReg m k i (l + leNat data * 2 ^ 32)) t m) ∧
    (∀ data, data.length = 4 → Granted s m true (a + 4) data 4 code → (s.half m).staged = none →
      ∃ t, exec (.registerWrite m .bar0 (a + 4) data true code) s = .next t ∧
        WriteAnswered (s.commitReg m k i (s.view k i % 2 ^ 32 + leNat data * 2 ^ 32)) t m)

/-- R16: an offset that is not allocated to any register reads as zero and ignores writes, without an error. -/
def Obligations.UnallocatedOffsets : Prop :=
  ∀ (s : State) (m : Master) (a code : Nat), s.regAt a = none → a % 4 = 0 →
    (Granted s m false a [] 4 code → ∃ t, exec (.rcRegisterRead m .bar0 a 4 code) s = .next t ∧
      t.regs = s.regs ∧ ReadAnswered s t m 0) ∧
    ∀ data, data.length = 4 → Granted s m true a data 4 code →
      ∃ t, exec (.registerWrite m .bar0 a data true code) s = .next t ∧ WriteAnswered s t m

/-! ## The recorder -/

/-- R449 to R453: the oldest waiting event is committed to its channel: it repeats the last record, or is appended with the
next sequence number, or is dropped, or in a security channel takes the place of the oldest record of lower severity. -/
def Obligations.EventCommitRules : Prop :=
  ∀ (s : State) (e : EvRec) (rest : List EvRec), s.evr.fifo = e :: rest → retained e.code = false → e.chan ≠ 31 →
    ∃ t, exec .eventCommit s = .next t ∧ t.evr.fifo = rest ∧ (∀ c, c ≠ e.chan → t.chan c = s.chan c) ∧
      let l := s.chan e.chan
      let q := s.fget .EVR_COUNT_QUOTA e.chan
      let n := s.fget .EVR_SEQ_NEXT 0
      let new := { e with seq := n }
      let next := if n + 1 = 2 ^ 32 then 1 else n + 1
      (∀ r, l.getLast? = some r → repeats r e = true →
        t.chan e.chan = l.dropLast ++ [{ r with
          rep := min 0xFFFF (r.rep + 1)
          last := lastField (e.time - r.time)
          d0 := e.d0
          d2 := e.d2 }] ∧ t.fget .EVR_SEQ_NEXT 0 = n) ∧
      ((∀ r, l.getLast? = some r → repeats r e = false) →
        (l.length < q → t.chan e.chan = l ++ [new] ∧ t.fget .EVR_SEQ_NEXT 0 = next) ∧
        (q ≤ l.length → e.chan < 30 → t.chan e.chan = l ∧ t.fget .EVR_SEQ_NEXT 0 = n ∧
          t.fget .EVR_DROPPED_COUNT e.chan = satAdd (2 ^ 32 - 1) (s.fget .EVR_DROPPED_COUNT e.chan) 1) ∧
        (q ≤ l.length → e.chan = 30 → (∀ r ∈ l, e.sev ≤ r.sev) → t.chan 30 = l) ∧
        (q ≤ l.length → e.chan = 30 → ∀ j, lowerPlace e.sev l = some j →
          t.chan 30 = l.eraseIdx j ++ [new] ∧ t.fget .EVR_SEQ_NEXT 0 = next))

/-- R454: reading EVR_WINDOW[0] copies the record at the master's cursor, whose first word it returns; reading EVR_WINDOW[7]
returns the last word of the copy and advances the cursor. Past the last record both return zero and leave the cursor. -/
def Obligations.EventWindowReads : Prop :=
  ∀ (s : State) (m : Master), s.readsRecorder m = true →
    let c := (s.cursor m).1
    let i := (s.cursor m).2
    (∀ r, (s.chan c)[i]? = some r →
      (∃ t, exec (.evrWindow0Read m) s = .next t ∧ t.out = s.out ++ [.readReturn (leBytes 4 (leAt r.bytes 0 4))] ∧
        sparseGet [] t.evr.snaps (masterNo m) = r.bytes ∧ t.cursor m = s.cursor m ∧ t.evr.chans = s.evr.chans) ∧
      (i < 8191 → ∃ t, exec (.evrWindow7Read m) s = .next t ∧
        t.out = s.out ++ [.readReturn (leBytes 4 (leAt (sparseGet [] s.evr.snaps (masterNo m)) 28 4))] ∧
        t.evr.chans = s.evr.chans ∧ (c < 32 → t.cursor m = (c, i + 1)))) ∧
    ((s.chan c).length ≤ i →
      (∃ t, exec (.evrWindow0Read m) s = .next t ∧ t.out = s.out ++ [.readReturn [0, 0, 0, 0]] ∧ t.cursor m = s.cursor m) ∧
      exec (.evrWindow7Read m) s = .next { s with out := s.out ++ [.readReturn [0, 0, 0, 0]] })

/-! ## Kernel instructions -/

/-- R179: the integer, logic, minimum, maximum and shift instructions of Table 06.4 complete with the elements of the
table, under predication, with the tag that R189 forms, and change nothing else of the core or of the package. -/
def Obligations.KernelIntegerForms : Prop := ∀ x ∈ integerForms, x.Completes

/-- R179, R180: the multiply, dot-product and carry-less instructions of Tables 06.4 and 06.5. -/
def Obligations.KernelMultiplyForms : Prop := ∀ x ∈ multiplyForms, x.Completes

/-- R181: the permute, bit and move instructions of Table 06.6, and VSEL of Table 06.4. -/
def Obligations.KernelPermuteForms : Prop := ∀ x ∈ permuteForms, x.Completes

/-- R183, R184: the modular and butterfly instructions of Tables 06.8 and 06.9 under an odd modulus within its bound; the
Montgomery product `montMul` is the subject of `MontgomeryAndQset`. -/
def Obligations.KernelModularForms : Prop := ∀ x ∈ modularForms, x.Completes

/-- R179, R181: the compares and the predicate instructions. -/
def Obligations.KernelPredicateForms : Prop := ∀ x ∈ predicateForms, x.Completes

/-- The scalar instructions of Table 07.4 and those that bring an element, a count, a field, a tag, a parameter or the mask
state to a scalar (R181, R182, R185, R191). -/
def Obligations.KernelScalarForms : Prop := ∀ x ∈ scalarForms, x.Completes

/-- R182, R183: QSET loads an odd modulus with the fields of Table 06.7, and `montMul` with such a modulus is the product
times R⁻¹, below q. -/
def Obligations.MontgomeryAndQset : Prop :=
  (∀ (s : State) (v : Nat) (j : Job) (f : VFields), Executing s v j → FieldsOk f [.qs, .ss] [0] →
    ((s.core v).stag f.ss).t = false → ∀ q, ((s.core v).sreg f.ss).toNat = q → q % 2 = 1 → 3 ≤ q → q < 2 ^ 31 →
    Fetched s v (.qset v f) → ∃ t, exec (.qset v f) s = .next t ∧ Issued s t v ((s.core v).pc + 1) 40 ∧
      (let x := (t.core v).qreg f.qs
       x % 2 ^ 32 = q ∧ (x / 2 ^ 32 % 2 ^ 32 * q + 1) % 2 ^ 32 = 0 ∧ (x / 2 ^ 64 % 2 ^ 16 * q + 1) % 2 ^ 16 = 0 ∧
       x / 2 ^ 80 % 2 ^ 16 = (if q < 2 ^ 15 then 2 ^ 32 % q else 0) ∧ x / 2 ^ 96 % 2 ^ 32 = 2 ^ 64 % q ∧
       x / 2 ^ 128 % 2 ^ 32 = 2 ^ 32 / q ∧ x / 2 ^ 160 = 2 ^ 64 / q) ∧
      (∀ r, r ≠ f.qs → (t.core v).qreg r = (s.core v).qreg r) ∧
      t.core v = { s.core v with q := (t.core v).q, pc := (t.core v).pc, cycles := (t.core v).cycles,
                                 sinceYield := (t.core v).sinceYield }) ∧
  (∀ n q a b : Nat, (n = 16 ∨ n = 32) → q % 2 = 1 → 3 ≤ q → q < 2 ^ (n - 1) →
    montMul n q a b < q ∧ montMul n q a b * 2 ^ n % q = a * b % q)

/-- R208: B, the conditional branches, LOOP, CALL, RET, FENCE and NOP. -/
def Obligations.KernelControlFlow : Prop :=
  ∀ (s : State) (v : Nat) (j : Job) (f : VFields), Executing s v j →
    (FieldsOk f [.imm] [0] → f.imm < (s.core v).codeLen → Moves s (.branch v f) v (s.core v) f.imm 2) ∧
    (FieldsOk f [.ss, .imm] [0] → ((s.core v).stag f.ss).t = false → f.imm < (s.core v).codeLen →
      ∀ x, (s.core v).sreg f.ss = x →
        Moves s (.beqz v f) v (s.core v) (if x = 0 then f.imm else (s.core v).pc + 1) (if x = 0 then 2 else 1) ∧
        Moves s (.bnez v f) v (s.core v) (if x = 0 then (s.core v).pc + 1 else f.imm) (if x = 0 then 1 else 2) ∧
        Moves s (.bltz v f) v (s.core v) (if x.toInt < 0 then f.imm else (s.core v).pc + 1) (if x.toInt < 0 then 2 else 1) ∧
        Moves s (.bgez v f) v (s.core v) (if x.toInt < 0 then (s.core v).pc + 1 else f.imm) (if x.toInt < 0 then 1 else 2) ∧
        Moves s (.loopOp v f) v ((s.core v).setS f.ss (x - 1) ((s.core v).stag f.ss))
          (if x = 1 then (s.core v).pc + 1 else f.imm) 1) ∧
    (FieldsOk f [.imm] [0] → f.imm < (s.core v).codeLen → (s.core v).stack.length < 16 →
      Moves s (.callOp v f) v { s.core v with stack := ((s.core v).pc + 1) :: (s.core v).stack } f.imm 2) ∧
    (FieldsOk f [] [0] → ∀ a r, (s.core v).stack = a :: r → a < (s.core v).codeLen →
      Moves s (.retOp v f) v { s.core v with stack := r } a 2) ∧
    (FieldsOk f [] [0] → Moves s (.nop v f) v (s.core v) ((s.core v).pc + 1) 1 ∧
      Moves s (.fence v f) v (s.core v) ((s.core v).pc + 1) (1 + ((s.core v).unitsDone - (s.core v).cycles)))

/-- R201 to R204: the loads. Every active element lies aligned in a segment; VLDFF stops at the first that does not lie in
one. -/
def Obligations.KernelLoads : Prop :=
  ∀ (s : State) (v : Nat) (j : Job) (f : VFields), Executing s v j → ((s.core v).stag f.ss).t = false →
    (FieldsOk f [.w, .pred, .vd, .ss, .imm] allW → PlainAccess f (s.core v) (unitAddr f (s.core v)) →
      Fetched s v (.vld v f) → ∃ t, exec (.vld v f) s = .next t ∧ IssuedWith s t v ((s.core v).pc + 1) (2 + unaligned f (s.core v)) 0 ∧
        Loaded f (s.core v) (t.core v) false (unitAddr f (s.core v))) ∧
    (FieldsOk f [.w, .pred, .vd, .vb, .ss, .imm] allW → ((s.core v).stag f.vb).t = false →
      PlainAccess f (s.core v) (strideAddr f (s.core v)) →
      Fetched s v (.vlds v f) → ∃ t, exec (.vlds v f) s = .next t ∧ (t.core v).pc = (s.core v).pc + 1 ∧
        Loaded f (s.core v) (t.core v) false (strideAddr f (s.core v))) ∧
    (FieldsOk f [.w, .pred, .vd, .vb, .ss, .imm] allW → f.imm < 4 → ((s.core v).vtag f.vb).t = false →
      PlainAccess f (s.core v) (indexAddr f (s.core v)) →
      Fetched s v (.vgather v f) → ∃ t, exec (.vgather v f) s = .next t ∧ (t.core v).pc = (s.core v).pc + 1 ∧
        Loaded f (s.core v) (t.core v) false (indexAddr f (s.core v))) ∧
    (FieldsOk f [.w, .pred, .vd, .vb, .ss, .imm] allW → f.imm < 4 → ((s.core v).vtag f.vb).t = true →
      ((s.core v).sreg f.ss).toNat < 0x40000 → PlainAccess f (s.core v) (indexAddr f (s.core v)) →
      Fetched s v (.vgather v f) → ∃ t, exec (.vgather v f) s = .next t ∧ IssuedWith s t v ((s.core v).pc + 1) (4 * eCount f.w) 0 ∧
        Loaded f (s.core v) (t.core v) true (indexAddr f (s.core v))) ∧
    (FieldsOk f [.w, .pred, .vd, .vb, .vc, .ss, .imm] allW → f.vc < 8 → ∀ n, n ≤ eCount f.w →
      (∀ e, e < n → (s.core v).active f f.w e = true → unitAddr f (s.core v) e % eBytes f.w = 0 ∧
        (∃ g, (s.core v).place (unitAddr f (s.core v) e) (eBytes f.w) = .seg g) ∧
        (s.core v).hasRec (unitAddr f (s.core v) e) = false) →
      (n < eCount f.w → (s.core v).active f f.w n = true ∧
        (∃ x, (s.core v).place (unitAddr f (s.core v) n) (eBytes f.w) = .bad x) ∧ ∃ e, e < n ∧ (s.core v).active f f.w e = true) →
      Fetched s v (.vldff v f) → ∃ t, exec (.vldff v f) s = .next t ∧ (t.core v).pc = (s.core v).pc + 1 ∧
        (∀ e, e < eCount f.w → elem f.w ((t.core v).vreg f.vd) e =
          if n ≤ e then 0
          else if (s.core v).active f f.w e then leNat (memRead 0 (s.core v).mem (unitAddr f (s.core v) e) (eBytes f.w))
          else if f.zm = 1 then 0 else elem f.w ((s.core v).vreg f.vd) e) ∧
        (∀ e b, e < eCount f.w → b < eBytes f.w → ((t.core v).preg f.vc).testBit (e * eBytes f.w + b) =
          (decide (e < n) && (s.core v).active f f.w e)) ∧
        (t.core v).sreg f.vb = BitVec.ofNat 64 ((List.range n).countP ((s.core v).active f f.w)) ∧
        (t.core v).stag f.vb = VTag.clear ∧ (t.core v).ptag f.vc = false) ∧
    (FieldsOk f [.vd, .ss, .imm] [0] → ∀ g, (s.core v).base f % 8 = 0 → (s.core v).place ((s.core v).base f) 8 = .seg g →
      (s.core v).hasRec ((s.core v).base f) = false →
      Moves s (.sld v f) v ((s.core v).setS f.vd (BitVec.ofNat 64 (leNat (memRead 0 (s.core v).mem ((s.core v).base f) 8)))
        ⟨g.secret, 0, 0⟩) ((s.core v).pc + 1) 2)

/-- R201, R203, R204: the stores. The bytes stored are those of the active elements at their addresses, the higher-numbered
one staying; every other byte is as before; a block that is written loses its share record. -/
def Obligations.KernelStores : Prop :=
  ∀ (s : State) (v : Nat) (j : Job) (f : VFields), Executing s v j → ((s.core v).stag f.ss).t = false →
    (FieldsOk f [.w, .pred, .va, .ss, .imm] allW → StoreAllowed f (s.core v) false (unitAddr f (s.core v)) →
      Fetched s v (.vst v f) → ∃ t, exec (.vst v f) s = .next t ∧ IssuedWith s t v ((s.core v).pc + 1) (1 + unaligned f (s.core v)) 0 ∧
        Stored f (s.core v) (t.core v) (unitAddr f (s.core v))) ∧
    (FieldsOk f [.w, .pred, .va, .vb, .ss, .imm] allW → ((s.core v).stag f.vb).t = false →
      StoreAllowed f (s.core v) false (strideAddr f (s.core v)) →
      Fetched s v (.vsts v f) → ∃ t, exec (.vsts v f) s = .next t ∧ (t.core v).pc = (s.core v).pc + 1 ∧
        Stored f (s.core v) (t.core v) (strideAddr f (s.core v))) ∧
    (FieldsOk f [.w, .pred, .va, .vb, .ss, .imm] allW → f.imm < 4 → ((s.core v).vtag f.vb).t = false →
      StoreAllowed f (s.core v) false (indexAddr f (s.core v)) →
      Fetched s v (.vscatter v f) → ∃ t, exec (.vscatter v f) s = .next t ∧ (t.core v).pc = (s.core v).pc + 1 ∧
        Stored f (s.core v) (t.core v) (indexAddr f (s.core v))) ∧
    (FieldsOk f [.w, .pred, .va, .vb, .ss, .imm] allW → f.imm < 4 → ((s.core v).vtag f.vb).t = true →
      ((s.core v).sreg f.ss).toNat < 0x40000 → (s.core v).inSecret ((s.core v).sreg f.ss).toNat = true →
      StoreAllowed f (s.core v) true (indexAddr f (s.core v)) →
      Fetched s v (.vscatter v f) → ∃ t, exec (.vscatter v f) s = .next t ∧ IssuedWith s t v ((s.core v).pc + 1) (4 * eCount f.w) 0 ∧
        Stored f (s.core v) (t.core v) (indexAddr f (s.core v))) ∧
    (FieldsOk f [.va, .ss, .imm] [0] → ∀ g, (s.core v).base f % 8 = 0 → (s.core v).place ((s.core v).base f) 8 = .seg g →
      g.wr = true → ((s.core v).stag f.va).si = 0 → (((s.core v).stag f.va).t = true → g.secret = true) →
      Moves s (.sst v f) v { s.core v with
          mem := memWrite 0 (s.core v).mem ((s.core v).base f) (leBytes 8 ((s.core v).sreg f.va).toNat),
          recs := sparseDel (s.core v).recs ((s.core v).base f / 512) } ((s.core v).pc + 1) 1)

/-- R205, R206: VSTSH writes each share of a well-formed set to its block with a new memory group number, and VLDSH reads
such blocks back as a new share group; KEYLOAD brings a chunk of a stored key, a secret one as shares whose exclusive or it
is and, with F2 mode set, after both evaluations of its release. -/
def Obligations.ShareTransport : Prop :=
  ∀ (s : State) (v : Nat) (j : Job) (f : VFields), Executing s v j →
    (FieldsOk f [.w, .va, .ord, .ss, .imm] allW → ((s.core v).stag f.ss).t = false → f.va + f.shares ≤ 32 →
      (s.core v).base f % 512 = 0 →
      (∀ k, k < f.shares → ∃ g, (s.core v).place ((s.core v).base f + 512 * k) 512 = .seg g ∧ g.wr = true ∧ g.secret = true) →
      setOk ((s.core v).vtags f.va f.shares) = true → (s.core v).nextGroup ≤ 65535 →
      Fetched s v (.vstsh v f) → ∃ t, exec (.vstsh v f) s = .next t ∧ IssuedWith s t v ((s.core v).pc + 1) (2 * f.shares) 0 ∧
        (∀ k, k < f.shares → memRead 0 (t.core v).mem ((s.core v).base f + 512 * k) 512 = vBytes ((s.core v).vreg (f.va + k)) ∧
          sparseGet (0, 0) (t.core v).recs ((s.core v).base f / 512 + k) = ((s.core v).nextGroup, k + 1)) ∧
        (∀ a, (a < (s.core v).base f ∨ (s.core v).base f + 512 * f.shares ≤ a) →
          memByte 0 (t.core v).mem a = memByte 0 (s.core v).mem a) ∧
        (t.core v).nextGroup = (s.core v).nextGroup + 1 ∧ (∀ r, (t.core v).vreg r = (s.core v).vreg r)) ∧
    (FieldsOk f [.w, .vd, .ord, .ss, .imm] allW → ((s.core v).stag f.ss).t = false → f.vd + f.shares ≤ 32 →
      (s.core v).base f % 512 = 0 →
      (∀ k, k < f.shares → ∃ g, (s.core v).place ((s.core v).base f + 512 * k) 512 = .seg g) →
      (s.core v).groupAt ((s.core v).base f) f.shares = true →
      Fetched s v (.vldsh v f) → ∃ t, exec (.vldsh v f) s = .next t ∧ IssuedWith s t v ((s.core v).pc + 1) (2 * f.shares) 0 ∧
        (∀ k, k < f.shares → vBytes ((t.core v).vreg (f.vd + k)) = memRead 0 (s.core v).mem ((s.core v).base f + 512 * k) 512) ∧
        NewSet f (t.core v) ∧ VectorsKept (s.core v) (t.core v) f.vd f.shares ∧ SameButVectors (s.core v) (t.core v)) ∧
    (FieldsOk f [.vd, .imm] [0] → f.imm / 2 % 8 = 0 → f.imm / 64 % 4 = 0 → s.keysLocked = false → j.due.contains (f.imm / 16 % 4) = false →
      ∀ ty b kt, j.krefs.getD (f.imm / 16 % 4) (0, []) = (ty, b) → keyTypeOf ty = some kt →
      ∀ n, n = f.imm % 2 + 2 →
      (kt.secret = true → s.otp.f2 = true → (s.core v).released = false → Fetched s v (.keyload v f) →
        ∃ t, exec (.keyload v f) s = .next t ∧ Doubled.load v ∈ t.prot.doubled ∧ (t.core v).wait ≠ none ∧ (t.core v).pc = (s.core v).pc ∧
          ∀ r, (t.core v).vreg r = (s.core v).vreg r) ∧
      (kt.secret = true → (s.otp.f2 = true → (s.core v).released = true) → f.vd + n ≤ 32 → ¬ ((s.core v).order = 2 ∧ n = 2) →
        Fetched s v (.keyload v f) → ∃ t, exec (.keyload v f) s = .next t ∧ IssuedWith s t v ((s.core v).pc + 1) (8 * n) 0 ∧
          ((regRange f.vd n).map (t.core v).vreg).foldl (· ^^^ ·) 0 = vOfBytes (sliceZ b (f.imm / 256 * 512) 512) ∧
          setOk ((t.core v).vtags f.vd n) = true ∧ ((t.core v).vtags f.vd n).all (·.t) = true ∧
          VectorsKept (s.core v) (t.core v) f.vd n ∧ SameButVectors { s.core v with released := false } (t.core v)) ∧
      (kt.secret = false → f.imm % 2 = 0 →
        Moves s (.keyload v f) v
          { (s.core v).setV f.vd (vOfBytes (sliceZ b (f.imm / 256 * 512) 512)) VTag.clear with released := false }
          ((s.core v).pc + 1) 8))

/-- R185, R186, R256, R259: S2INIT, S2ABS and S2FIN compute the SHA-2 digest of what was absorbed, in any pieces; S2STS and
S2LDS carry a midstate. -/
def Obligations.Sha2Instructions : Prop :=
  ∀ (s : State) (v : Nat) (j : Job) (f : VFields), Executing s v j → ∀ u, (s.core v).s2u (f.imm % 4) = u →
    (FieldsOk f [.imm] [0] → f.imm / 4 % 8 ≤ 4 →
      Fetched s v (.s2init v f) → ∃ t, exec (.s2init v f) s = .next t ∧ Issued s t v ((s.core v).pc + 1) (u.doneAt - (s.core v).cycles + 1) ∧
        Sha2Holds ((t.core v).s2u (f.imm % 4)) (f.imm / 4 % 8) [] ∧
        (∀ k, k ≠ f.imm % 4 → (t.core v).s2u k = (s.core v).s2u k)) ∧
    (FieldsOk f (unitFields f [.va, .ss, .imm]) [0] → u.live = true → ((s.core v).stag f.ss).t = false →
      ∀ x tg, unitValue f (s.core v) = .ok (x, tg) → (unitDraw f = 0 ∨ MasksFor s v (unitDraw f)) →
      (∀ m n, Sha2Holds u u.fn m → ((s.core v).sreg f.ss).toNat = n → n ≤ 512 →
        Fetched s v (.s2abs v f) → ∃ t, exec (.s2abs v f) s = .next t ∧
          IssuedWith s t v ((s.core v).pc + 1) (u.doneAt - (s.core v).cycles + 1) (unitDraw f) ∧
          Sha2Holds ((t.core v).s2u (f.imm % 4)) u.fn (m ++ (vBytes x).take n) ∧
          ((t.core v).s2u (f.imm % 4)).tag = (u.tag || tg)) ∧
      (Fetched s v (.s2lds v f) → ∃ t, exec (.s2lds v f) s = .next t ∧
        IssuedWith s t v ((s.core v).pc + 1) (u.doneAt - (s.core v).cycles + 1) (unitDraw f) ∧
        (∀ k, k < 8 → ((t.core v).s2u (f.imm % 4)).h.getD k 0 =
          beNat (sliceZ (vBytes x) (k * ((s2Fn u.fn).word / 8)) ((s2Fn u.fn).word / 8))) ∧
        ((t.core v).s2u (f.imm % 4)).count =
          ((s.core v).sreg f.ss).toNat / (s2Fn u.fn).block * (s2Fn u.fn).block)) ∧
    (FieldsOk f [.vd, .imm, .msk] [0] → (f.msk = true → f.vd + 2 ≤ 32) →
      (∀ m, Sha2Holds u u.fn m → m.length < 2 ^ 61 →
        Fetched s v (.s2fin v f) → ∃ t, exec (.s2fin v f) s = .next t ∧ (t.core v).pc = (s.core v).pc + 1 ∧
          UnitOutput f (t.core v) u.tag (vOfBytes (sha2 (s2Fn u.fn) m)) ∧ Sha2Holds ((t.core v).s2u (f.imm % 4)) u.fn [] ∧
          VectorsKept (s.core v) (t.core v) f.vd (unitRegs f)) ∧
      (u.live = true →
        Fetched s v (.s2sts v f) → ∃ t, exec (.s2sts v f) s = .next t ∧ IssuedWith s t v ((s.core v).pc + 1) (u.doneAt - (s.core v).cycles + 1) 0 ∧
          UnitOutput f (t.core v) u.tag (vOfBytes (sha2Out (s2Fn u.fn).word u.h)) ∧
          VectorsKept (s.core v) (t.core v) f.vd (unitRegs f) ∧ (t.core v).s2u (f.imm % 4) = u))

/-- R185, R186, R256: KINIT and KABS take a message in any pieces, KFIN pads it, KSQZ squeezes the next bytes, KPERM permutes,
KSTS and KLDS carry the raw state. -/
def Obligations.KeccakInstructions : Prop :=
  ∀ (s : State) (v : Nat) (j : Job) (f : VFields), Executing s v j → ∀ u, (s.core v).kku (f.imm % 2) = u →
    (FieldsOk f [.imm] [0] →
      (f.imm / 2 % 16 ≤ 7 →
        Fetched s v (.kinit v f) → ∃ t, exec (.kinit v f) s = .next t ∧ Issued s t v ((s.core v).pc + 1) (u.doneAt - (s.core v).cycles + 1) ∧
          KeccakHolds ((t.core v).kku (f.imm % 2)) (f.imm / 2 % 16) []) ∧
      (∀ m, KeccakHolds u u.fn m → u.fn < 8 → m.length < 2 ^ 64 →
        Fetched s v (.kfin v f) → ∃ t, exec (.kfin v f) s = .next t ∧ Issued s t v ((s.core v).pc + 1) (u.doneAt - (s.core v).cycles + 1) ∧
          ((t.core v).kku (f.imm % 2)).h =
            keccakAbsorb (kRate u.fn) keccakZero (m ++ keccakPad (kRate u.fn) (kDomain u.fn).toNat m.length) ∧
          ((t.core v).kku (f.imm % 2)).off = 0 ∧ ((t.core v).kku (f.imm % 2)).fin = true) ∧
      (u.live = true →
        Fetched s v (.kperm v f) → ∃ t, exec (.kperm v f) s = .next t ∧ Issued s t v ((s.core v).pc + 1) (u.doneAt - (s.core v).cycles + 1) ∧
          ((t.core v).kku (f.imm % 2)).h = keccakF u.h)) ∧
    (FieldsOk f (unitFields f [.va, .ss, .imm]) [0] → u.live = true → ((s.core v).stag f.ss).t = false →
      ∀ x tg, unitValue f (s.core v) = .ok (x, tg) → (unitDraw f = 0 ∨ MasksFor s v (unitDraw f)) →
      (∀ m n, KeccakHolds u u.fn m → u.fn < 8 → m.length < 2 ^ 64 → ((s.core v).sreg f.ss).toNat = n → n ≤ 512 →
        Fetched s v (.kabs v f) → ∃ t, exec (.kabs v f) s = .next t ∧
          IssuedWith s t v ((s.core v).pc + 1) (u.doneAt - (s.core v).cycles + 1) (unitDraw f) ∧
          KeccakHolds ((t.core v).kku (f.imm % 2)) u.fn (m ++ (vBytes x).take n)) ∧
      (Fetched s v (.klds v f) → ∃ t, exec (.klds v f) s = .next t ∧
        IssuedWith s t v ((s.core v).pc + 1) (u.doneAt - (s.core v).cycles + 1) (unitDraw f) ∧
        keccakBytes ((t.core v).kku (f.imm % 2)).h = (vBytes x).take 200 ∧
        ((t.core v).kku (f.imm % 2)).count = ((s.core v).sreg f.ss).toNat)) ∧
    (FieldsOk f [.vd, .ss, .imm, .msk] [0] → (f.msk = true → f.vd + 2 ≤ 32) → u.live = true → u.fn < 8 → u.h.length = 25 →
      u.off ≤ kRate u.fn → ((s.core v).stag f.ss).t = false → ∀ n, ((s.core v).sreg f.ss).toNat = n → 0 < n → n ≤ 512 →
      Fetched s v (.ksqz v f) → ∃ t, exec (.ksqz v f) s = .next t ∧ (t.core v).pc = (s.core v).pc + 1 ∧
        UnitOutput f (t.core v) u.tag (vOfBytes ((List.range n).map (fun i => squeezed (kRate u.fn) u.h (u.off + i)))) ∧
        VectorsKept (s.core v) (t.core v) f.vd (unitRegs f)) ∧
    (FieldsOk f [.vd, .imm, .msk] [0] → (f.msk = true → f.vd + 2 ≤ 32) → u.live = true →
      Fetched s v (.ksts v f) → ∃ t, exec (.ksts v f) s = .next t ∧ IssuedWith s t v ((s.core v).pc + 1) (u.doneAt - (s.core v).cycles + 1) 0 ∧
        UnitOutput f (t.core v) u.tag (vOfBytes (keccakBytes u.h)) ∧ (t.core v).kku (f.imm % 2) = u)

/-- R185, R187: AKEY expands a key, AENC, ADEC and ACTR pass the 32 blocks of VA, and MRD gives 4,096 fresh bits, tagged. -/
def Obligations.AesAndMaskInstructions : Prop :=
  ∀ (s : State) (v : Nat) (j : Job) (f : VFields), Executing s v j →
    (FieldsOk f (unitFields f [.va, .imm]) [0] → f.imm % 4 < 3 → ∀ x tg, unitValue f (s.core v) = .ok (x, tg) →
      (unitDraw f = 0 ∨ MasksFor s v (unitDraw f)) →
      Fetched s v (.akey v f) → ∃ t, exec (.akey v f) s = .next t ∧
        IssuedWith s t v ((s.core v).pc + 1) ((s.core v).aes.doneAt - (s.core v).cycles + 1) (unitDraw f) ∧
        (t.core v).aes.live = true ∧ (t.core v).aes.key = (vBytes x).take (16 + 8 * (f.imm % 4)) ∧ (t.core v).aes.tag = tg) ∧
    (FieldsOk f [.vd, .va, .msk] [0] → (f.msk = true → f.vd + 2 ≤ 32) → (s.core v).aes.live = true →
      ∀ k b, (s.core v).aes.key = k → k.length ∈ [16, 24, 32] → vBytes ((s.core v).vreg f.va) = b →
      ∀ x ∈ [(Instr.aenc v f, fun i => aesEnc k (sliceZ b (16 * i) 16)), (Instr.adec v f, fun i => aesDec k (sliceZ b (16 * i) 16)),
             (Instr.actr v f, fun i => aesEnc k (b.take 12 ++ beBytes 4 (beNat (sliceZ b 12 4) + i)))],
        Fetched s v x.1 → ∃ t, exec x.1 s = .next t ∧
          IssuedWith s t v ((s.core v).pc + 1)
            ((s.core v).aes.doneAt - (s.core v).cycles + (if k.length = 16 then 40 else if k.length = 24 then 48 else 56)) 0 ∧
          UnitOutput f (t.core v) ((s.core v).aes.tag || ((s.core v).vtag f.va).t) (vOfBytes ((List.range 32).flatMap x.2)) ∧
          VectorsKept (s.core v) (t.core v) f.vd (unitRegs f)) ∧
    (FieldsOk f [.vd] [0] → MasksFor s v 4096 →
      Fetched s v (.mrd v f) → ∃ t, exec (.mrd v f) s = .next t ∧ IssuedWith s t v ((s.core v).pc + 1) 1 4096 ∧ (t.core v).vtag f.vd = ⟨true, 0, 0⟩ ∧
        VectorsKept (s.core v) (t.core v) f.vd 1 ∧ SameButVectors (s.core v) (t.core v))

/-- R191, R192: SPLIT, REFRESH, GMULQ, GAND, GA2B and GB2A leave a well-formed, tagged share set whose recombination is the
value that the operation defines, and draw the masks of Table 06.11. -/
def Obligations.MaskedOperations : Prop :=
  ∀ (s : State) (v : Nat) (j : Job) (f : VFields), Executing s v j → ∀ c, s.core v = c → f.vd + f.shares ≤ 32 →
    (c.order = 2 → f.ord = 1) → ∀ dm q n, f.imm % 4 = dm → c.modq f = q → f.shares = n →
    let Shares := fun (i : Instr) (d cyc bits : Nat) (val : Nat → Nat) =>
      Fetched s v i → ∃ t, exec i s = .next t ∧ IssuedWith s t v (c.pc + 1) cyc bits ∧ NewSet f (t.core v) ∧
        (∀ e, e < eCount f.w → shared d f.w q (t.core v) f.vd n e = val e) ∧
        VectorsKept c (t.core v) f.vd n ∧ SameButVectors c (t.core v)
    let Source := fun (r : Nat) => r + n ≤ 32 ∧ setOk (c.vtags r n) = true ∧ partOverlap f.vd n r n = false
    (FieldsOk f ([.w, .vd, .va, .ord, .imm] ++ domFields f) allW → DomainOk f c [0, 1, 2] → MasksFor s v (4096 * (n - 1)) →
      Shares (.split v f) dm 2 (4096 * (n - 1)) (fun e => plainIn dm q (elem f.w (c.vreg f.va) e)) ∧
      (Source f.va → Shares (.refresh v f) dm n (4096 * (n - 1)) (fun e => shared dm f.w q c f.va n e)) ∧
      (n = 3 → f.va + 2 ≤ 32 → setOk (c.vtags f.va 2) = true → setOk (c.vtags f.va 3) = false →
        partOverlap f.vd 3 f.va 2 = false → Shares (.refresh v f) dm 3 8192 (fun e => shared dm f.w q c f.va 2 e))) ∧
    (FieldsOk f [.w, .vd, .va, .vb, .qs, .ord] [1, 2] → badModulus f.w q = false → Source f.va → Source f.vb →
      MasksFor s v (if n = 2 then 4096 else 12288) →
      Shares (.gmulq v f) 2 (if n = 2 then 8 else 20) (if n = 2 then 4096 else 12288)
        (fun e => montMul (eBits f.w) q (shared 2 f.w q c f.va n e) (shared 2 f.w q c f.vb n e))) ∧
    (FieldsOk f [.w, .vd, .va, .vb, .ord] allW → Source f.va → Source f.vb → MasksFor s v (if n = 2 then 4096 else 12288) →
      Shares (.gand v f) 0 (if n = 2 then 4 else 10) (if n = 2 then 4096 else 12288)
        (fun e => shared 0 f.w q c f.va n e &&& shared 0 f.w q c f.vb n e)) ∧
    (FieldsOk f ([.w, .vd, .va, .ord, .imm] ++ domFields f) [1, 2] → DomainOk f c [1, 2] → Source f.va →
      MasksFor s v (if n = 2 then 12288 else 32768) →
      Shares (.ga2b v f) 0 ((if f.w = 1 then (if n = 2 then 24 else 52) else (if n = 2 then 30 else 64)) + if dm = 2 then 8 else 0)
        (if n = 2 then 12288 else 32768) (fun e => shared dm f.w q c f.va n e)) ∧
    (FieldsOk f ([.w, .vd, .va, .ord, .imm] ++ domFields f) allW → DomainOk f c [1, 2] → Source f.va →
      MasksFor s v (if n = 2 then 8192 else 24576) →
      Shares (.gb2a v f) dm ((if n = 2 then 12 else 28) + if dm = 2 then 8 else 0) (if n = 2 then 8192 else 24576)
        (fun e => plainIn dm q (shared 0 f.w q c f.va n e)))

/-- R191, R193: TAGV and TAGS raise a tag; DECLV and DECLS at a declared site give the plain value without a tag, and at any
other place raise a secrecy fault. -/
def Obligations.TagsAndDeclassification : Prop :=
  ∀ (s : State) (v : Nat) (j : Job) (f : VFields), Executing s v j → ∀ c, s.core v = c →
    (FieldsOk f [.vd] [0] →
      Moves s (.tagv v f) v { c with vt := sparseSet VTag.clear c.vt f.vd { c.vtag f.vd with t := true } } (c.pc + 1) 1 ∧
      Moves s (.tags v f) v { c with st := sparseSet VTag.clear c.st f.vd { c.stag f.vd with t := true } } (c.pc + 1) 1) ∧
    (FieldsOk f [.w, .va, .vd] allW → f.msk = false → c.sites.contains c.pc = true →
      Moves s (.declv v f) v (c.setV f.vd (c.vreg f.va) VTag.clear) (c.pc + 1) 1 ∧
      Moves s (.decls v f) v (c.setS f.vd (c.sreg f.va) VTag.clear) (c.pc + 1) 1) ∧
    (FieldsOk f ([.w, .vd, .va, .msk, .ord, .imm] ++ domFields f) allW → f.msk = true → DomainOk f c [0, 1, 2] →
      c.sites.contains c.pc = true → f.va + f.shares ≤ 32 →
      (setOk (c.vtags f.va f.shares) = true →
        Fetched s v (.declv v f) → ∃ t, exec (.declv v f) s = .next t ∧ Issued s t v (c.pc + 1) 2 ∧ (t.core v).vtag f.vd = VTag.clear ∧
          (∀ e, e < eCount f.w →
            elem f.w ((t.core v).vreg f.vd) e = shared (f.imm % 4) f.w (c.modq f) c f.va f.shares e) ∧
          VectorsKept c (t.core v) f.vd 1 ∧ SameButVectors c (t.core v)) ∧
      (setOk ((regRange f.va f.shares).map c.stag) = true →
        Fetched s v (.decls v f) → ∃ t, exec (.decls v f) s = .next t ∧ Issued s t v (c.pc + 1) 2 ∧ (t.core v).stag f.vd = VTag.clear ∧
          (f.imm % 4 = 0 → (t.core v).sreg f.vd = ((regRange f.va f.shares).map c.sreg).foldl (· ^^^ ·) 0))) ∧
    (c.sites.contains c.pc = false → f.cut = f → f.clean [.w, .vd, .va] = true → f.msk = false →
      (Fetched s v (.declv v f) → exec (.declv v f) s = .next (s.vcFault v j c.kernel c.pc 0x02)) ∧
      (Fetched s v (.decls v f) → exec (.decls v f) s = .next (s.vcFault v j c.kernel c.pc 0x02)))

/-- R194, R195, R208 to R211, R224, R230: the call, the yield point and the end of an owner kernel's entry, the completion
of a unit, the count that is passed, and the two limits. -/
def Obligations.KernelEntryAndLimits : Prop :=
  ∀ (s : State) (v : Nat) (j : Job),
    (∀ f i e, Executing s v j → FieldsOk f [.ss, .imm] [0] → j.oper = some (.kernel i e) → j.lie = none →
      (s.core v).checking = false → f.imm % 2 = 0 → byteAt ((s.kernelAt i).entry e) 20 = 0xFF →
      ∀ n, ((s.core v).sreg f.ss).toNat = n → n ≤ j.outLen → n ≤ ((s.kernelAt i).outSeg e).2 →
      Fetched s v (.endOp v f) → ∃ t j', exec (.endOp v f) s = .next t ∧ t.job? j.id = some j' ∧ j'.phase = .computed ∧ j'.status = 0 ∧
        j'.result = memRead 0 (s.core v).mem ((s.kernelAt i).outSeg e).1 n) ∧
    (∀ f, Executing s v j → FieldsOk f [] [0] → (s.core v).unitHeld = false → s.yieldOver (s.core v).fenced = false →
      (s.core v).preempt = false →
      Fetched s v (.yieldOp v f) → ∃ t, exec (.yieldOp v f) s = .next t ∧ (t.core v).pc = (s.core v).pc + 1 ∧ (t.core v).sinceYield = 0 ∧
        (t.core v).cycles = (s.core v).cycles + 1 + ((s.core v).unitsDone - (s.core v).cycles) ∧
        t.fget .VC_STATE_STATE v = 1 ∧ (∀ r, (t.core v).vreg r = (s.core v).vreg r)) ∧
    (∀ f, Executing s v j → FieldsOk f [] [0] → (s.core v).unitHeld = false → s.yieldOver (s.core v).fenced = false →
      (s.core v).preempt = true → s.saveRoom v = true →
      Fetched s v (.yieldOp v f) → ∃ t, exec (.yieldOp v f) s = .next t ∧ t.fget .VC_STATE_STATE v = 2) ∧
    (∀ unit, Executing s v j → unit < 4 → ∃ t, exec (.hashUnitComplete v unit) s = .next t ∧
      ((t.core v).s2u unit).doneAt = 0 ∧ (t.core v).cycles = max (s.core v).cycles ((s.core v).s2u unit).doneAt) ∧
    (Executing s v j → (s.core v).passed = false → s.declaredOf j < (s.core v).cycles → s.evr.fifo.length < 64 →
      ∃ t r, exec (.declaredCountPassed v) s = .next t ∧ (t.core v).passed = true ∧ t.evr.fifo = s.evr.fifo ++ [r] ∧
        r.code = 0x8204) ∧
    (∀ i e, s.job? j.id = some j → j.oper = some (.kernel i e) → j.core = some v → j.phase = .bound →
      s.fget .VC_STATE_STATE v = 1 → (s.core v).job = some j.id → (s.core v).codeLen = 0 → 2048 ≤ (s.kernelAt i).code.length →
      ∃ t, exec (.ownerKernelCall j.id) s = .next t ∧ (t.core v).kernel = i ∧ (t.core v).entry = e ∧
        (t.core v).pc = leAt ((s.kernelAt i).entry e) 0 4 ∧ (t.core v).codeLen = (s.kernelAt i).code.length / 8 ∧
        (t.core v).sites = (s.kernelAt i).sites ∧ (∀ r, (t.core v).vreg r = 0 ∧ (t.core v).sreg r = 0) ∧
        (t.core v).params.take 3 = [j.in0.length, j.in1.length, j.outLen]) ∧
    (∀ f, Executing s v j → FieldsOk f [] [0] → (s.core v).unitHeld = false → s.yieldOver (s.core v).fenced = true →
      Fetched s v (.yieldOp v f) →
      exec (.yieldOp v f) s = .next (s.vcFault v j (s.core v).kernel (s.core v).pc 0x1A)) ∧
    (s.issuing v = some j → s.yieldOver (s.caught v) = true →
      exec (.yieldIntervalExceeded v) s = .next (s.vcFault v j (s.core v).kernel (s.core v).pc 0x1A)) ∧
    (s.issuing v = some j → s.runOver j (s.caught v) = true →
      exec (.runLimitReached v) s = .next (s.vcFault v j (s.core v).kernel (s.core v).pc 0x1F))

/-- R178, R194, R195, R208: an owner kernel's instruction with an unused field that is not zero or with a width that it
does not have, a reserved word, a jump beyond the last word, and a branch on a tagged scalar end in the fault of their
cause, which raises the core's counter of secrecy or kernel faults by one and, outside a CHECK entry, ends the job. -/
def Obligations.KernelFaults : Prop :=
  (∀ x ∈ integerForms ++ multiplyForms ++ permuteForms ++ modularForms, ∀ (s : State) (v : Nat) (j : Job) (f : VFields),
    Executing s v j → f.cut = f → Fetched s v (x.cmd v f) →
    (f.clean x.used = false → exec (x.cmd v f) s = .next (s.vcFault v j (s.core v).kernel (s.core v).pc 0x10)) ∧
    (f.clean x.used = true → x.ok f (s.core v) = true → VF.w ∈ x.used → f.w ∉ x.ws →
      exec (x.cmd v f) s = .next (s.vcFault v j (s.core v).kernel (s.core v).pc 0x11))) ∧
  (∀ x ∈ integerForms ++ multiplyForms ++ permuteForms ++ modularForms, ∀ (s : State) (v : Nat) (j : Job) (f : VFields),
    Executing s v j → WordsGood s v → kdecode (s.kernelWord v) = none →
    exec (x.cmd v f) s = .next (s.vcFault v j (s.core v).kernel (s.core v).pc 0x10)) ∧
  (∀ (s : State) (v : Nat) (j : Job) (f : VFields), Executing s v j → FieldsOk f [.imm] [0] → (s.core v).codeLen ≤ f.imm →
    Fetched s v (.branch v f) → exec (.branch v f) s = .next (s.vcFault v j (s.core v).kernel (s.core v).pc 0x19)) ∧
  (∀ (s : State) (v : Nat) (j : Job) (f : VFields), Executing s v j → FieldsOk f [.ss, .imm] [0] →
    ((s.core v).stag f.ss).t = true →
    ∀ i ∈ [Instr.beqz v f, .bnez v f, .bltz v f, .bgez v f, .loopOp v f],
      Fetched s v i → exec i s = .next (s.vcFault v j (s.core v).kernel (s.core v).pc 0x06)) ∧
  (∀ (s : State) (v : Nat) (j : Job) (kernel pc cause : Nat), kernel ≠ 0xFF → s.fget .VC_STATE_STATE v = 1 →
    s.job? j.id = some j → j.core = some v →
    (s.vcFault v j kernel pc cause).fget (if cause < 0x10 then .VC_FAULTS_SECRECY else .VC_FAULTS_KERNEL) v =
      min (2 ^ 16 - 1) (s.fget (if cause < 0x10 then .VC_FAULTS_SECRECY else .VC_FAULTS_KERNEL) v + 1) ∧
    ((s.core v).checking = false → (s.vcFault v j kernel pc cause).job? j.id = none))

/-! ## The mailbox -/

/-- R95, R96, R99: GO while BUSY is 0 and READY is 1 takes the buffer as the running command and checks its header in the
order opcode, flags with bytes 12 to 15, length, mode, authorisation; the first failure is the answer, and nothing else
changes but a nonce that the command carries. A GO while BUSY is 1 or READY is 0 sets OVERRUN and nothing else. -/
def Obligations.MailboxGoChecksHeader : Prop :=
  (∀ s : State, (s.fget .MBX_STATUS_BUSY 0 = 1 ∨ s.fget .MBX_STATUS_READY 0 = 0) →
    ∃ t, exec .mailboxGo s = .next t ∧ t.fget .MBX_STATUS_OVERRUN 0 = 1 ∧ t.fget .MBX_STATUS_BUSY 0 = s.fget .MBX_STATUS_BUSY 0 ∧
      t = { s with regs := t.regs } ∧ RegsKept s t [.MBX_STATUS]) ∧
  (∀ s : State, s.fget .MBX_STATUS_BUSY 0 = 0 → s.fget .MBX_STATUS_READY 0 = 1 → (∀ st, ¬ HeaderFails (submitted s) st) →
    ∃ t, exec .mailboxGo s = .next t ∧ t = { submitted s with auth := t.auth } ∧ NonceSpent (submitted s) t ∧
      t.fget .MBX_STATUS_BUSY 0 = 1 ∧ t.mbx.phase = .running ∧ RegsKept s t [.MBX_STATUS]) ∧
  ∀ (s : State) (st : Nat), s.fget .MBX_STATUS_BUSY 0 = 0 → s.fget .MBX_STATUS_READY 0 = 1 → HeaderFails (submitted s) st →
    ∃ t, exec .mailboxGo s = .next t ∧ Answered (submitted s) t st 0 [] ∧ NonceSpent (submitted s) t ∧
      OnlyAnswer { s with auth := t.auth } t

/-- R97: ABORT and the time limit abandon a command before its commit point, which is answered ABORTED or TIMEOUT with
event 0x6020 and no other effect, the decisions that its token awaits dropped with it; ABORT while BUSY is 0 has none; a
command past its commit point goes on. -/
def Obligations.MailboxAbortAndTimeout : Prop :=
  (∀ s : State, s.fget .MBX_STATUS_BUSY 0 = 0 → exec .mailboxAbort s = .next s) ∧
  (∀ s : State, s.fget .MBX_STATUS_BUSY 0 = 1 → s.mbx.phase = .running →
    ∃ t, exec .mailboxAbort s = .next t ∧ Answered s t 0x40 0 [] ∧ Raised s t 0x6020 s.cmdTi s.cmdOpcode 0x40 ∧
      OnlyRegs s.dropUnlock t []) ∧
  (∀ s : State, s.fget .MBX_STATUS_BUSY 0 = 1 → s.mbx.phase = .waiting →
    ∃ t, exec .mailboxAbort s = .next t ∧ t.fget .MBX_CTL_ABORT 0 = 1 ∧ t.mbx = s.mbx ∧ RegsKept s t [.MBX_CTL]) ∧
  (∀ (s : State) (dt : Nat), s.mbx.phase = .running →
    min 60000 (max 10 (s.fget .MBX_TIMEOUT_LIMIT_MS 0)) * 1000000 ≤ (s.elapse dt).since s.mbx.started →
    ∃ t, exec (.mailboxTimeout dt) s = .next t ∧ Answered s t 0x41 0 [] ∧ OnlyRegs (s.elapse dt).dropUnlock t [] ∧
      Raised (s.elapse dt) t 0x6020 s.cmdTi s.cmdOpcode 0x41) ∧
  ∀ (s : State) (dt : Nat), s.mbx.phase ≠ .running → exec (.mailboxTimeout dt) s = .next (s.elapse dt)

/-- The commands that return data and change nothing: each completes with the data that its table names, and only the answer
is written. -/
def Obligations.MailboxQueries : Prop := ∀ x ∈ deviceQueries ++ blockQueries, x.Completes

/-- The commands on tenant interfaces: each completes with its effect. -/
def Obligations.TenantCommands : Prop := ∀ x ∈ tenantChanges, x.Completes

/-- The commands on rings and on scheduling. -/
def Obligations.RingAndScheduleCommands : Prop := ∀ x ∈ ringChanges ++ schedChanges, x.Completes

/-- The commands on keys and on the root secret. -/
def Obligations.KeyCommands : Prop := ∀ x ∈ keyChanges, x.Completes

/-- The commands on kernels, on the recorder, and ACL_RECORD. -/
def Obligations.KernelAndRecorderCommands : Prop := ∀ x ∈ kernelChanges ++ recorderChanges, x.Completes

/-- The commands on owners, debug grants and protection. -/
def Obligations.OwnerAndProtectionCommands : Prop := ∀ x ∈ ownerChanges ++ protChanges ++ pulseChanges, x.Completes

/-- The commands on firmware, modes, resets, diagnostics and entropy. -/
def Obligations.FirmwareAndModeCommands : Prop :=
  (∀ x ∈ firmwareChanges ++ diagChanges ++ engineChanges, x.Completes) ∧
  (∀ fail, (BankCommand fail).Completes) ∧ ∀ bits fail, (CaptureCommand bits fail).Completes

/-- The commands on ports, stream contexts and the duplex pair. -/
def Obligations.FrameAndDuplexCommands : Prop := ∀ x ∈ portChanges ++ streamChanges ++ duplexChanges, x.Completes

/-- R96, R98, R99: a command whose payload is refused has no effect but its answer, which carries no payload and is counted
in REFUSED. -/
def Obligations.RefusedCommandsHaveNoEffect : Prop :=
  ∀ c ∈ refusable, ∀ s t : State, s.mbx.phase = .running → exec c s = .next t → t.mbx.phase = .idle → 0x10 ≤ leAt t.mbx.rsp 0 2 →
    OnlyAnswer s t ∧ leAt t.mbx.rsp 8 4 = 0 ∧
      t.fget .MBX_COUNT_REFUSED 0 = satAdd (2 ^ 16 - 1) (s.fget .MBX_COUNT_REFUSED 0) 1

/-! ## The operations of the catalogue -/

/-- R54 to R56, R67, R268 to R270, R291, R322 to R333: digests, message authentication, AES and key wrap, and the jobs on
keys and streams: each bound job gets the result that its key, its inputs and its random bytes give. KEY_INFORMATION,
INSTALL_NEXT_STREAM_KEY and REPLACE_CURRENT_STREAM_KEY complete, and their effect follows at the release point
(R50, R68). -/
def Obligations.SymmetricAndKeyJobs : Prop :=
  (∀ x ∈ digestJobs ++ aesJobs ++ keyJobs, x.Completes) ∧ KeyInfoTakesEffect ∧ StreamKeyTakesEffect true ∧ StreamKeyTakesEffect false

/-- R57 to R66, R71, R244: lattice, hash-based and code-based jobs, RSA and elliptic curves, and the hybrids. -/
def Obligations.PublicKeyJobs : Prop := ∀ x ∈ latticeJobs ++ classicalJobs ++ hybridJobs, x.Completes


/-! ## The host link, the rings and the scheduler -/

/-- R78, R79, R91, R94, R373: resets of the function, PERST_N, DMA opening and closing, unmasking and release of
interrupts. -/
def Obligations.HostLinkEvents : Prop := ∀ x ∈ linkRows, x.Completes

/-- R77, R83, R109 to R113, R118 to R120, R130 to R132: doorbells, writes outside the windows that take them, header
reads, fetches and their completions. -/
def Obligations.DoorbellsAndRings : Prop := ∀ x ∈ doorbellRows ++ ringRows, x.Completes

/-- R70, R114, R116, R123, R142 to R152: acceptance or refusal of a submission entry, and the bind pass of a die. -/
def Obligations.AcceptAndDispatch : Prop := ∀ x ∈ acceptRows ++ dispatchRows, x.Completes

/-- R72, R118, R126, R134 to R138, R153 to R161: release checks and completions, writes of held entries, time limits,
preemption and the scheduler's own events. -/
def Obligations.CompletionAndScheduling : Prop := ∀ x ∈ completionRows ++ schedRows, x.Completes


/-! ## Resets, time and entropy -/

/-- R25, R372 to R387, R393, R394, R397, R474, R479: resets, supplies, boot from flash, readiness, installation. -/
def Obligations.ResetsAndBoot : Prop := ∀ x ∈ resetRows ++ bootRows, x.Completes

/-- R35, R37, R168 to R171: the PHC set, stepped and slewed, captures, targets, pulses and replicas. -/
def Obligations.TimeBase : Prop := ∀ x ∈ timeRows, x.Completes

/-- R187, R188, R349 to R369: raw samples and their health tests, banks, conditioners, generators, mask generators. -/
def Obligations.EntropyAndGenerators : Prop := ∀ x ∈ entropyRows ++ drbgRows ++ mgenRows, x.Completes

/-! ## Control stores, engines and digest channels -/

/-- R212 to R220, R233, R242 to R253: the control-store checks, the engine's window and slots, and its direct
commands: which one a write to LIE_CMD starts, and how one ends. -/
def Obligations.ControlStoresAndEngines : Prop :=
  (∀ x ∈ storeRows ++ engineRows, x.Completes) ∧ (∀ x ∈ directCommands, DirectStarts x.1 x.2) ∧ DirectEnds

/-- R256, R259 to R266, R271 to R273: the digest channels: absorption, the end of a message, and comparison by two words. -/
def Obligations.DigestChannels : Prop := ∀ x ∈ digestRows, x.Completes


/-! ## Keys and the duplex link -/

/-- R320, R321, R337: the key store's own events, and the pairing of two devices. -/
def Obligations.KeyStoreAndPairing : Prop := ∀ x ∈ keyStoreRows ++ pairingRows, x.Completes

/-- R338 to R345: what the standby does with mirror messages, and what the active device does with their answers. -/
def Obligations.MirrorProtocol : Prop := ∀ x ∈ standbyRows ++ activeRows, x.Completes


/-! ## Frames -/

/-- R278 to R299, R305, R307: reception of frames, and the verdicts on them. -/
def Obligations.FrameReception : Prop := ∀ x ∈ receiveRows ++ verdictRows, x.Completes

/-- R300 to R304, R308 to R311: delivery to rings and ports, and transmission. -/
def Obligations.FrameDelivery : Prop := ∀ x ∈ deliveryRows ++ transmitRows, x.Completes


/-! ## Life cycle, protection and power -/

/-- R399 to R415, R470: life-cycle transitions, the test access port, debug tokens and debug accesses. -/
def Obligations.LifeCycleAndDebug : Prop := ∀ x ∈ lifeRows ++ tapRows ++ tokenRows ++ debugRows, x.Completes

/-- R416 to R431, R470: the monitors, the evaluation of alarms with its responses, ERASE, the built-in test, doubled decisions. -/
def Obligations.MonitorsAndAlarms : Prop := ∀ x ∈ monitorRows ++ alarmRows ++ secondRows, x.Completes

/-- R440 to R442: updates of a deckle's rules by those who may write them, and held accesses that time out. -/
def Obligations.DeckleUpdates : Prop := ∀ x ∈ deckleRows, x.Completes

/-- R471, R472, R475 to R480: the power cap, changes of a die's point, temperature, and the SMBus target's answers. -/
def Obligations.PowerAndSmbus : Prop := ∀ x ∈ powerRows ++ smbusRows, x.Completes
end

