-- ==== Sys2Proof/Laws/KWord.lean ====
section
/-! SUPPORT. A kernel word and what is read from it: the decoder reads each field of Table 06.2 where `kword` lays it. A
microword whose parity bit is inverted fails. -/

namespace Sys2Proof.Machine

theorem leNat_leBytes (k n : Nat) (h : n < 256 ^ k) : leNat (leBytes k n) = n := by
  induction k generalizing n with
  | zero => simp [leBytes, leNat]; omega
  | succ k ih =>
    have : n / 256 < 256 ^ k := Nat.div_lt_of_lt_mul (by rw [Nat.pow_succ] at h; omega)
    simp only [leBytes, leNat, ih _ this, BitVec.toNat_ofNat]
    omega

theorem leBytes_length (k n : Nat) : (leBytes k n).length = k := by
  induction k generalizing n with
  | zero => rfl
  | succ k ih => simp [leBytes, ih]

/-- A little-endian number is read from the place where it lies. -/
theorem leAt_leBytes (a b : Bytes) (k n : Nat) (h : n < 256 ^ k) : leAt (a ++ leBytes k n ++ b) a.length k = n := by
  have e : ((a ++ leBytes k n ++ b).drop a.length).take k = leBytes k n := by
    rw [List.append_assoc, List.drop_left]
    conv => lhs; arg 1; rw [← leBytes_length k n]
    rw [List.take_left]
  simp [leAt, sliceZ, leBytes_length, leNat_leBytes k n h]

theorem kword_lt (m n : Nat) (f : VFields) : kword m n f < 256 ^ 8 := by
  unfold kword; omega

/-- The decoder's fields of a word are those it was made from. -/
theorem kdecode_kword (m n : Nat) (f : VFields) (hm : m < 64) (hn : n < 64)
    (h : kernelRows.any (fun r => r.1 == m && r.2.contains n) = true) : kdecode (kword m n f) = some (m, n, f.cut) := by
  have e1 : kMajor (kword m n f) = m := by simp only [kMajor, natBits, kword]; omega
  have e2 : kFunc (kword m n f) = n := by simp only [kFunc, natBits, kword]; omega
  have e3 : kFields (kword m n f) = f.cut := by
    simp only [kFields, VFields.cut, natBits, kword, VFields.mk.injEq]
    refine ⟨?_, ?_, ?_, ?_, ?_, ?_, ?_, ?_, ?_, ?_, ?_, ?_⟩ <;> omega
  unfold kdecode
  rw [e1, e2, e3, if_pos h]

/-- The ones among the first `n` bits depend on those alone. -/
theorem popCount_mod (n : Nat) : ∀ v w : Nat, v % 2 ^ n = w % 2 ^ n → popCount n v = popCount n w := by
  induction n with
  | zero => intros; rfl
  | succ n ih =>
    intro v w h
    have hp : 2 ^ (n + 1) = 2 * 2 ^ n := by omega
    rw [hp, Nat.mod_mul, Nat.mod_mul] at h
    have h0 : v % 2 = w % 2 := by omega
    have h1 : v / 2 % 2 ^ n = w / 2 % 2 ^ n := by omega
    simp only [popCount, h0, ih _ _ h1]

/-- An even number of ones in the first group and its bit fails that group. -/
theorem bad_of_group (w : Nat) (h : (popCount 18 w + (w >>> 144) % 2) % 2 = 0) : badGroups w ≠ 0 := by
  have e : (if (popCount 18 (w >>> (18 * 0)) + (w >>> (144 + 0)) % 2) % 2 = 0 then 2 ^ 0 else 0) = 1 :=
    (if_pos (by simpa using h)).trans (by decide)
  have r : List.range 8 = 0 :: [1, 2, 3, 4, 5, 6, 7] := by decide
  unfold badGroups
  rw [r, List.map_cons, List.sum_cons, e]
  omega

theorem flip_low (w k : Nat) (hk : 18 ≤ k) : (w ^^^ 2 ^ k) % 2 ^ 18 = w % 2 ^ 18 := by
  apply Nat.eq_of_testBit_eq; intro i
  simp only [Nat.testBit_mod_two_pow, Nat.testBit_xor, Nat.testBit_two_pow]
  by_cases h : i < 18
  · have : k ≠ i := by omega
    simp [this]
  · simp [h]

/-- One of two parity bits inverted leaves the first group bad. -/
theorem flipped_bad (w : Nat) : badGroups (w ^^^ 2 ^ 144) ≠ 0 ∨ badGroups (w ^^^ 2 ^ 145) ≠ 0 := by
  have a := popCount_mod 18 _ _ (flip_low w 144 (by decide))
  have b := popCount_mod 18 _ _ (flip_low w 145 (by decide))
  have t : ∀ x : Nat, (x >>> 144) % 2 = (x.testBit 144).toNat := fun x => by
    rw [Nat.testBit, Nat.and_comm, Nat.and_one_is_mod]
    rcases Nat.mod_two_eq_zero_or_one (x >>> 144) with h | h <;> rw [h] <;> rfl
  have c : (w ^^^ 2 ^ 144).testBit 144 = !w.testBit 144 := by
    rw [Nat.testBit_xor, show Nat.testBit (2 ^ 144) 144 = true from by decide +kernel]; cases w.testBit 144 <;> rfl
  have d : (w ^^^ 2 ^ 145).testBit 144 = w.testBit 144 := by
    rw [Nat.testBit_xor, show Nat.testBit (2 ^ 145) 144 = false from by decide +kernel]; cases w.testBit 144 <;> rfl
  by_cases h : (popCount 18 w + (w >>> 144) % 2) % 2 = 0
  · right; apply bad_of_group; rw [b, t, d, ← t]; exact h
  · left; apply bad_of_group; rw [a, t, c]; rw [t] at h
    cases hb : w.testBit 144 <;> rw [hb] at h <;> simp at h ⊢ <;> omega

end Sys2Proof.Machine
end

