-- ==== Sys2Proof/Laws/Sparse.lean ====
section
/-!
SUPPORT. Laws of the sparse stores and of the byte memories: a read after a write, and that every operation keeps the
canonical form.
-/

namespace Sys2Proof.Machine

variable {α : Type}

@[simp] theorem sparseGet_nil (d : α) (k : Nat) : sparseGet d [] k = d := rfl

theorem sparseGet_del_same (d : α) (m : Sparse α) (k : Nat) : sparseGet d (sparseDel m k) k = d := by
  induction m with
  | nil => rfl
  | cons a t ih =>
    by_cases h : a.1 = k
    · simpa [sparseDel, h] using ih
    · simp only [sparseDel, List.filter_cons, bne_iff_ne, ne_eq, h, not_false_eq_true, if_true, sparseGet, if_false]
      exact ih

theorem sparseGet_del_other (d : α) (m : Sparse α) (k j : Nat) (h : j ≠ k) :
    sparseGet d (sparseDel m k) j = sparseGet d m j := by
  induction m with
  | nil => rfl
  | cons a t ih =>
    by_cases ha : a.1 = k
    · have hj : a.1 ≠ j := fun e => h (e ▸ ha)
      simp only [sparseDel, List.filter_cons, bne_iff_ne, ne_eq, ha, not_true_eq_false, if_false, sparseGet]
      simpa [sparseDel, ha ▸ hj] using ih
    · by_cases hj : a.1 = j
      · simp [sparseDel, hj, sparseGet, h]
      · simp only [sparseDel, List.filter_cons, bne_iff_ne, ne_eq, ha, not_false_eq_true, if_true, sparseGet, hj, if_false]
        exact ih

theorem sparseGet_insert_same (d : α) (m : Sparse α) (k : Nat) (v : α) (h : ∀ e ∈ m, e.1 ≠ k) :
    sparseGet d (sparseInsert m k v) k = v := by
  induction m with
  | nil => simp [sparseInsert, sparseGet]
  | cons a t ih =>
    have ha := h a (by simp)
    have ht := ih (fun e he => h e (by simp [he]))
    by_cases hk : k < a.1
    · simp [sparseInsert, hk, sparseGet]
    · simp [sparseInsert, hk, sparseGet, ha, ht]

theorem sparseGet_insert_other (d : α) (m : Sparse α) (k j : Nat) (v : α) (h : j ≠ k) :
    sparseGet d (sparseInsert m k v) j = sparseGet d m j := by
  induction m with
  | nil => simp [sparseInsert, sparseGet, h.symm]
  | cons a t ih =>
    by_cases hk : k < a.1
    · simp [sparseInsert, hk, sparseGet, h.symm]
    · simp [sparseInsert, hk, sparseGet, ih]

theorem sparseDel_ne (m : Sparse α) (k : Nat) : ∀ e ∈ sparseDel m k, e.1 ≠ k := by simp [sparseDel]

/-- A read after a write to the same key gives what was written. -/
@[simp] theorem sparseGet_set_same [DecidableEq α] (d : α) (m : Sparse α) (k : Nat) (v : α) :
    sparseGet d (sparseSet d m k v) k = v := by
  unfold sparseSet
  split
  · rename_i h
    rw [sparseGet_del_same, h]
  · exact sparseGet_insert_same d _ k v (sparseDel_ne m k)

/-- A write leaves every other key alone, whatever that key reads as where it is not listed. -/
theorem sparseGet_set_other [DecidableEq α] (d d' : α) (m : Sparse α) (k j : Nat) (v : α) (h : j ≠ k) :
    sparseGet d' (sparseSet d m k v) j = sparseGet d' m j := by
  unfold sparseSet
  split
  · exact sparseGet_del_other d' m k j h
  · rw [sparseGet_insert_other d' _ k j v h, sparseGet_del_other d' m k j h]

/-! ## The canonical form -/

/-- Rising keys, said of the head and the tail. -/
theorem sparseRising_cons (a : Nat × α) (t : Sparse α) :
    sparseRising (a :: t) = true ↔ (∀ e ∈ t, a.1 < e.1) ∧ sparseRising t = true := by
  induction t generalizing a with
  | nil => simp [sparseRising]
  | cons b t ih =>
    simp only [sparseRising, Bool.and_eq_true, decide_eq_true_eq, ih b, List.mem_cons, forall_eq_or_imp]
    constructor
    · rintro ⟨h, hb, ht⟩
      exact ⟨⟨h, fun e he => Nat.lt_trans h (hb e he)⟩, hb, ht⟩
    · rintro ⟨⟨h, _⟩, hb, ht⟩
      exact ⟨h, hb, ht⟩

theorem sparseRising_filter (p : Nat × α → Bool) (m : Sparse α) (h : sparseRising m = true) :
    sparseRising (m.filter p) = true := by
  induction m with
  | nil => rfl
  | cons a t ih =>
    rw [sparseRising_cons] at h
    by_cases hp : p a
    · rw [List.filter_cons, if_pos hp, sparseRising_cons]
      exact ⟨fun e he => h.1 e (List.mem_filter.1 he).1, ih h.2⟩
    · rw [List.filter_cons, if_neg hp]
      exact ih h.2

theorem mem_sparseInsert (m : Sparse α) (k : Nat) (v : α) (e : Nat × α) :
    e ∈ sparseInsert m k v ↔ e = (k, v) ∨ e ∈ m := by
  induction m with
  | nil => simp [sparseInsert]
  | cons a t ih =>
    by_cases hk : k < a.1
    · simp [sparseInsert, hk]
    · simp only [sparseInsert, hk, if_false, List.mem_cons, ih]
      constructor
      · rintro (h | h | h) <;> simp [h]
      · rintro (h | h | h) <;> simp [h]

theorem sparseRising_insert (m : Sparse α) (k : Nat) (v : α) (hk : ∀ e ∈ m, e.1 ≠ k) (h : sparseRising m = true) :
    sparseRising (sparseInsert m k v) = true := by
  induction m with
  | nil => rfl
  | cons a t ih =>
    have hc := (sparseRising_cons a t).1 h
    by_cases hlt : k < a.1
    · simp only [sparseInsert, hlt, if_true]
      rw [sparseRising_cons]
      refine ⟨fun e he => ?_, h⟩
      rcases List.mem_cons.1 he with rfl | he
      · exact hlt
      · exact Nat.lt_trans hlt (hc.1 e he)
    · simp only [sparseInsert, hlt, if_false]
      rw [sparseRising_cons]
      refine ⟨fun e he => ?_, ih (fun e he => hk e (by simp [he])) hc.2⟩
      rcases (mem_sparseInsert t k v e).1 he with rfl | he
      · have := hk a (by simp)
        show a.1 < k
        omega
      · exact hc.1 e he

/-- A write keeps the canonical form. -/
theorem sparseSet_wf [DecidableEq α] (d : Nat → α) (m : Sparse α) (k : Nat) (v : α) (h : sparseWf d m = true) :
    sparseWf d (sparseSet (d k) m k v) = true := by
  simp only [sparseWf, Bool.and_eq_true, List.all_eq_true] at h ⊢
  unfold sparseSet
  split
  · exact ⟨sparseRising_filter _ m h.1, fun e he => h.2 e (List.mem_filter.1 he).1⟩
  · rename_i hv
    refine ⟨sparseRising_insert _ k v (sparseDel_ne m k) (sparseRising_filter _ m h.1), fun e he => ?_⟩
    rcases (mem_sparseInsert _ k v e).1 he with rfl | he
    · simpa using hv
    · exact h.2 e (List.mem_filter.1 he).1

/-- Dropping entries keeps the canonical form. -/
theorem sparseFilter_wf [DecidableEq α] (d : Nat → α) (p : Nat × α → Bool) (m : Sparse α) (h : sparseWf d m = true) :
    sparseWf d (m.filter p) = true := by
  simp only [sparseWf, Bool.and_eq_true, List.all_eq_true] at h ⊢
  exact ⟨sparseRising_filter _ m h.1, fun e he => h.2 e (List.mem_filter.1 he).1⟩

/-! ## Byte memories -/

@[simp] theorem memByte_memSet_same (d : Byte) (m : Memory) (a : Nat) (b : Byte) : memByte d (memSet d m a b) a = b :=
  sparseGet_set_same d m a b

theorem memByte_memSet_other (d : Byte) (m : Memory) (a j : Nat) (b : Byte) (h : j ≠ a) :
    memByte d (memSet d m a b) j = memByte d m j :=
  sparseGet_set_other d d m a j b h

/-- A write of a string changes no byte outside it. -/
theorem memByte_memWrite_outside (d : Byte) (bs : Bytes) (m : Memory) (a j : Nat) (h : j < a ∨ a + bs.length ≤ j) :
    memByte d (memWrite d m a bs) j = memByte d m j := by
  induction bs generalizing m a with
  | nil => rfl
  | cons b t ih =>
    simp only [List.length_cons] at h
    simp only [memWrite]
    rw [ih _ _ (by omega), memByte_memSet_other d m a j b (by omega)]

/-- A write of a string leaves the string. -/
theorem memByte_memWrite_inside (d : Byte) (bs : Bytes) (m : Memory) (a i : Nat) (h : i < bs.length) :
    memByte d (memWrite d m a bs) (a + i) = bs[i] := by
  induction bs generalizing m a i with
  | nil => simp at h
  | cons b t ih =>
    simp only [memWrite]
    cases i with
    | zero => simp [memByte_memWrite_outside d t _ (a + 1) a (by omega)]
    | succ n =>
      have := ih (memSet d m a b) (a + 1) n (by simpa using h)
      simpa [Nat.add_assoc, Nat.add_comm 1 n] using this

theorem memSet_wf (d : Byte) (m : Memory) (a : Nat) (b : Byte) (h : Memory.wf d m = true) : Memory.wf d (memSet d m a b) = true :=
  sparseSet_wf (fun _ => d) m a b h

theorem memWrite_wf (d : Byte) (bs : Bytes) (m : Memory) (a : Nat) (h : Memory.wf d m = true) :
    Memory.wf d (memWrite d m a bs) = true := by
  induction bs generalizing m a with
  | nil => exact h
  | cons b t ih => exact ih _ _ (memSet_wf d m a b h)

theorem memClear_wf (d : Byte) (m : Memory) (a n : Nat) (h : Memory.wf d m = true) : Memory.wf d (memClear m a n) = true :=
  sparseFilter_wf (fun _ => d) _ m h

end Sys2Proof.Machine
end

