-- ==== Sys2Proof/Laws/Regs.lean ====
section
/-!
SUPPORT. Laws of registers and their fields: a read after a write, other fields and other registers.
-/

namespace Sys2Proof.Machine

/-! ## Fields of a word -/

/-- The bits of a word into which a field has been put. -/
theorem getLsbD_withField (w : RegWord) (hi lo v j : Nat) (hj : j < 64) (hl : lo ≤ hi) :
    (withField w hi lo v).getLsbD j = if lo ≤ j ∧ j ≤ hi then v.testBit (j - lo) else w.getLsbD j := by
  simp only [withField, BitVec.getLsbD_or, BitVec.getLsbD_and, BitVec.getLsbD_not, BitVec.getLsbD_ofNat, Nat.testBit_shiftLeft,
    Nat.testBit_two_pow_sub_one, Nat.testBit_mod_two_pow, hj, decide_true, Bool.true_and]
  by_cases h1 : lo ≤ j
  · by_cases h2 : j ≤ hi
    · have : j - lo < hi + 1 - lo := by omega
      simp [h1, h2, this]
    · have : ¬ j - lo < hi + 1 - lo := by omega
      simp [h1, h2, this]
  · simp [h1]

/-- The bits of a field. -/
theorem testBit_fieldOf (w : RegWord) (hi lo i : Nat) :
    (fieldOf w hi lo).testBit i = (decide (i < hi + 1 - lo) && w.getLsbD (lo + i)) := by
  simp [fieldOf, Nat.testBit_mod_two_pow, Nat.testBit_shiftRight, BitVec.getLsbD]

/-- A field that was put into a word, read back. -/
theorem fieldOf_withField_same (w : RegWord) (hi lo v : Nat) (hh : hi < 64) (hl : lo ≤ hi) :
    fieldOf (withField w hi lo v) hi lo = v % 2 ^ (hi + 1 - lo) := by
  apply Nat.eq_of_testBit_eq
  intro i
  rw [testBit_fieldOf, Nat.testBit_mod_two_pow]
  by_cases h : i < hi + 1 - lo
  · rw [getLsbD_withField w hi lo v (lo + i) (by omega) hl, if_pos ⟨by omega, by omega⟩]
    simp [h]
  · simp [h]

/-- A field beside the one that was put into a word. -/
theorem fieldOf_withField_other (w : RegWord) (hi lo hi' lo' v : Nat) (hh : hi' < 64) (hl : lo ≤ hi)
    (hd : hi < lo' ∨ hi' < lo) : fieldOf (withField w hi lo v) hi' lo' = fieldOf w hi' lo' := by
  apply Nat.eq_of_testBit_eq
  intro i
  rw [testBit_fieldOf, testBit_fieldOf]
  by_cases h : i < hi' + 1 - lo'
  · rw [getLsbD_withField w hi lo v (lo' + i) (by omega) hl, if_neg (by omega)]
  · simp [h]

/-- A field is smaller than its width allows. -/
theorem fieldOf_lt (w : RegWord) (hi lo : Nat) : fieldOf w hi lo < 2 ^ (hi + 1 - lo) := Nat.mod_lt _ (Nat.two_pow_pos _)

/-! ## Registers -/

theorem RegKind.ctorIdx_lt (k : RegKind) : k.ctorIdx < 256 := by cases k <;> decide

theorem RegKind.ctorIdx_inj (k l : RegKind) (h : k.ctorIdx = l.ctorIdx) : k = l := by
  have := congrArg RegKind.ofNat h
  simpa [RegKind.ofNat_ctorIdx] using this

/-- Two registers share a key only where they are one. -/
theorem regKey_inj (k l : RegKind) (i j : Nat) (h : regKey k i = regKey l j) : k = l ∧ i = j := by
  have hk := k.ctorIdx_lt
  have hl := l.ctorIdx_lt
  simp only [regKey] at h
  exact ⟨RegKind.ctorIdx_inj k l (by omega), by omega⟩

theorem sparseGet_unlisted {α : Type} (d : α) (m : Sparse α) (k : Nat) (h : ∀ e ∈ m, e.1 ≠ k) : sparseGet d m k = d := by
  induction m with
  | nil => rfl
  | cons a t ih =>
    have ha := h a (by simp)
    simp only [sparseGet, if_neg ha]
    exact ih (fun e he => h e (by simp [he]))

/-- A register that is not listed holds its reset value; the listed indices of a register name those that are. -/
theorem State.reg_unlisted (s : State) (k : RegKind) (i : Nat) (is : List Nat)
    (h : ∀ e ∈ s.regs, e.1 % 256 = k.ctorIdx → e.1 / 256 ∈ is) (hi : i ∉ is) : s.reg k i = s.regDefault k i := by
  refine sparseGet_unlisted _ _ _ (fun e he heq => hi ?_)
  have hk := k.ctorIdx_lt
  have := h e he (by rw [heq, regKey]; omega)
  rw [heq, regKey] at this
  rwa [show (k.ctorIdx + 256 * i) / 256 = i by omega] at this

@[simp] theorem State.reg_setReg_same (s : State) (k : RegKind) (i : Nat) (v : RegWord) : (s.setReg k i v).reg k i = v :=
  sparseGet_set_same _ _ _ _

theorem State.reg_setReg_other (s : State) (k l : RegKind) (i j : Nat) (v : RegWord) (h : ¬ (l = k ∧ j = i)) :
    (s.setReg k i v).reg l j = s.reg l j :=
  sparseGet_set_other _ _ _ _ _ _ (fun e => h (regKey_inj l k j i e))

/-- A field read back after it was set. -/
theorem State.fget_fset_same (s : State) (f : Fld) (i v : Nat) (hh : f.hi < 64) (hl : f.lo ≤ f.hi) :
    (s.fset f i v).fget f i = v % 2 ^ (f.hi + 1 - f.lo) := by
  simp only [State.fset, State.fget, State.reg_setReg_same, fieldOf_withField_same _ _ _ _ hh hl]

/-- A field of another register, or of another index, after a field was set. -/
theorem State.fget_fset_reg (s : State) (f g : Fld) (i j v : Nat) (h : ¬ (g.reg = f.reg ∧ j = i)) :
    (s.fset f i v).fget g j = s.fget g j := by
  simp only [State.fset, State.fget, State.reg_setReg_other _ _ _ _ _ _ h]

/-- A field beside the one that was set in the same register. -/
theorem State.fget_fset_beside (s : State) (f g : Fld) (i v : Nat) (hr : g.reg = f.reg) (hh : g.hi < 64) (hl : f.lo ≤ f.hi)
    (hd : f.hi < g.lo ∨ g.hi < f.lo) : (s.fset f i v).fget g i = s.fget g i := by
  simp only [State.fset, State.fget, hr, State.reg_setReg_same, fieldOf_withField_other _ _ _ _ _ _ hh hl hd]

/-- A register other than the field's after the field was set. -/
theorem State.reg_fset_other (s : State) (f : Fld) (k : RegKind) (i j v : Nat) (h : ¬ (k = f.reg ∧ j = i)) :
    (s.fset f i v).reg k j = s.reg k j := State.reg_setReg_other _ _ _ _ _ _ h

/-- A saturating counter read back after it has counted. -/
theorem State.fget_fadd_same (s : State) (f : Fld) (i n : Nat) (hh : f.hi < 64) (hl : f.lo ≤ f.hi) :
    (s.fadd f i n).fget f i = satAdd (2 ^ (f.hi + 1 - f.lo) - 1) (s.fget f i) n := by
  have hp := Nat.two_pow_pos (f.hi + 1 - f.lo)
  rw [State.fadd, State.fget_fset_same s f i _ hh hl, Nat.mod_eq_of_lt]
  simp only [satAdd]
  omega

theorem State.reg_fadd_other (s : State) (f : Fld) (k : RegKind) (i j n : Nat) (h : ¬ (k = f.reg ∧ j = i)) :
    (s.fadd f i n).reg k j = s.reg k j := State.reg_setReg_other _ _ _ _ _ _ h

end Sys2Proof.Machine
end

