-- ==== Sys2Proof/Laws/State.lean ====
section
/-!
SUPPORT. Every field of the state under every plain update of it: one lemma for each that the update leaves alone, and the
read of what it wrote.
-/

namespace Sys2Proof.Machine

/-! ## setReg -/

@[simp] theorem State.setReg_part (s : State) (k : RegKind) (i : Nat) (v : RegWord) : (s.setReg k i v).part = s.part := rfl
@[simp] theorem State.setReg_grade (s : State) (k : RegKind) (i : Nat) (v : RegWord) : (s.setReg k i v).grade = s.grade := rfl
@[simp] theorem State.setReg_host (s : State) (k : RegKind) (i : Nat) (v : RegWord) : (s.setReg k i v).host = s.host := rfl
@[simp] theorem State.setReg_pf0Half (s : State) (k : RegKind) (i : Nat) (v : RegWord) : (s.setReg k i v).pf0Half = s.pf0Half := rfl
@[simp] theorem State.setReg_mpHalf (s : State) (k : RegKind) (i : Nat) (v : RegWord) : (s.setReg k i v).mpHalf = s.mpHalf := rfl
@[simp] theorem State.setReg_dbgHalf (s : State) (k : RegKind) (i : Nat) (v : RegWord) : (s.setReg k i v).dbgHalf = s.dbgHalf := rfl
@[simp] theorem State.setReg_mbx (s : State) (k : RegKind) (i : Nat) (v : RegWord) : (s.setReg k i v).mbx = s.mbx := rfl
@[simp] theorem State.setReg_evr (s : State) (k : RegKind) (i : Nat) (v : RegWord) : (s.setReg k i v).evr = s.evr := rfl
@[simp] theorem State.setReg_time (s : State) (k : RegKind) (i : Nat) (v : RegWord) : (s.setReg k i v).time = s.time := rfl
@[simp] theorem State.setReg_rings (s : State) (k : RegKind) (i : Nat) (v : RegWord) : (s.setReg k i v).rings = s.rings := rfl
@[simp] theorem State.setReg_sched (s : State) (k : RegKind) (i : Nat) (v : RegWord) : (s.setReg k i v).sched = s.sched := rfl
@[simp] theorem State.setReg_slots (s : State) (k : RegKind) (i : Nat) (v : RegWord) : (s.setReg k i v).slots = s.slots := rfl
@[simp] theorem State.setReg_otp (s : State) (k : RegKind) (i : Nat) (v : RegWord) : (s.setReg k i v).otp = s.otp := rfl
@[simp] theorem State.setReg_bbks (s : State) (k : RegKind) (i : Nat) (v : RegWord) : (s.setReg k i v).bbks = s.bbks := rfl
@[simp] theorem State.setReg_auth (s : State) (k : RegKind) (i : Nat) (v : RegWord) : (s.setReg k i v).auth = s.auth := rfl
@[simp] theorem State.setReg_rng (s : State) (k : RegKind) (i : Nat) (v : RegWord) : (s.setReg k i v).rng = s.rng := rfl
@[simp] theorem State.setReg_mgen (s : State) (k : RegKind) (i : Nat) (v : RegWord) : (s.setReg k i v).mgen = s.mgen := rfl
@[simp] theorem State.setReg_cores (s : State) (k : RegKind) (i : Nat) (v : RegWord) : (s.setReg k i v).cores = s.cores := rfl
@[simp] theorem State.setReg_shared (s : State) (k : RegKind) (i : Nat) (v : RegWord) : (s.setReg k i v).shared = s.shared := rfl
@[simp] theorem State.setReg_saves (s : State) (k : RegKind) (i : Nat) (v : RegWord) : (s.setReg k i v).saves = s.saves := rfl
@[simp] theorem State.setReg_mcTimes (s : State) (k : RegKind) (i : Nat) (v : RegWord) : (s.setReg k i v).mcTimes = s.mcTimes := rfl
@[simp] theorem State.setReg_reloads (s : State) (k : RegKind) (i : Nat) (v : RegWord) : (s.setReg k i v).reloads = s.reloads := rfl
@[simp] theorem State.setReg_goldBad (s : State) (k : RegKind) (i : Nat) (v : RegWord) : (s.setReg k i v).goldBad = s.goldBad := rfl
@[simp] theorem State.setReg_seqs (s : State) (k : RegKind) (i : Nat) (v : RegWord) : (s.setReg k i v).seqs = s.seqs := rfl
@[simp] theorem State.setReg_gold (s : State) (k : RegKind) (i : Nat) (v : RegWord) : (s.setReg k i v).gold = s.gold := rfl
@[simp] theorem State.setReg_mgenAt (s : State) (k : RegKind) (i : Nat) (v : RegWord) : (s.setReg k i v).mgenAt = s.mgenAt := rfl
@[simp] theorem State.setReg_kernels (s : State) (k : RegKind) (i : Nat) (v : RegWord) : (s.setReg k i v).kernels = s.kernels := rfl
@[simp] theorem State.setReg_duplex (s : State) (k : RegKind) (i : Nat) (v : RegWord) : (s.setReg k i v).duplex = s.duplex := rfl
@[simp] theorem State.setReg_lies (s : State) (k : RegKind) (i : Nat) (v : RegWord) : (s.setReg k i v).lies = s.lies := rfl
@[simp] theorem State.setReg_kstage (s : State) (k : RegKind) (i : Nat) (v : RegWord) : (s.setReg k i v).kstage = s.kstage := rfl
@[simp] theorem State.setReg_dge (s : State) (k : RegKind) (i : Nat) (v : RegWord) : (s.setReg k i v).dge = s.dge := rfl
@[simp] theorem State.setReg_prot (s : State) (k : RegKind) (i : Nat) (v : RegWord) : (s.setReg k i v).prot = s.prot := rfl
@[simp] theorem State.setReg_power (s : State) (k : RegKind) (i : Nat) (v : RegWord) : (s.setReg k i v).power = s.power := rfl
@[simp] theorem State.setReg_boot (s : State) (k : RegKind) (i : Nat) (v : RegWord) : (s.setReg k i v).boot = s.boot := rfl
@[simp] theorem State.setReg_tap (s : State) (k : RegKind) (i : Nat) (v : RegWord) : (s.setReg k i v).tap = s.tap := rfl
@[simp] theorem State.setReg_dkl (s : State) (k : RegKind) (i : Nat) (v : RegWord) : (s.setReg k i v).dkl = s.dkl := rfl
@[simp] theorem State.setReg_streams (s : State) (k : RegKind) (i : Nat) (v : RegWord) : (s.setReg k i v).streams = s.streams := rfl
@[simp] theorem State.setReg_frames (s : State) (k : RegKind) (i : Nat) (v : RegWord) : (s.setReg k i v).frames = s.frames := rfl
@[simp] theorem State.setReg_imtTaint (s : State) (k : RegKind) (i : Nat) (v : RegWord) : (s.setReg k i v).imtTaint = s.imtTaint := rfl
@[simp] theorem State.setReg_out (s : State) (k : RegKind) (i : Nat) (v : RegWord) : (s.setReg k i v).out = s.out := rfl
@[simp] theorem State.setReg_free (s : State) (k : RegKind) (i : Nat) (v : RegWord) : (s.setReg k i v).free = s.free := rfl
@[simp] theorem State.setReg_pending (s : State) (k : RegKind) (i : Nat) (v : RegWord) : (s.setReg k i v).pending = s.pending := rfl

/-! ## fset -/

@[simp] theorem State.fset_part (s : State) (f : Fld) (i v : Nat) : (s.fset f i v).part = s.part := rfl
@[simp] theorem State.fset_grade (s : State) (f : Fld) (i v : Nat) : (s.fset f i v).grade = s.grade := rfl
@[simp] theorem State.fset_host (s : State) (f : Fld) (i v : Nat) : (s.fset f i v).host = s.host := rfl
@[simp] theorem State.fset_pf0Half (s : State) (f : Fld) (i v : Nat) : (s.fset f i v).pf0Half = s.pf0Half := rfl
@[simp] theorem State.fset_mpHalf (s : State) (f : Fld) (i v : Nat) : (s.fset f i v).mpHalf = s.mpHalf := rfl
@[simp] theorem State.fset_dbgHalf (s : State) (f : Fld) (i v : Nat) : (s.fset f i v).dbgHalf = s.dbgHalf := rfl
@[simp] theorem State.fset_mbx (s : State) (f : Fld) (i v : Nat) : (s.fset f i v).mbx = s.mbx := rfl
@[simp] theorem State.fset_evr (s : State) (f : Fld) (i v : Nat) : (s.fset f i v).evr = s.evr := rfl
@[simp] theorem State.fset_time (s : State) (f : Fld) (i v : Nat) : (s.fset f i v).time = s.time := rfl
@[simp] theorem State.fset_rings (s : State) (f : Fld) (i v : Nat) : (s.fset f i v).rings = s.rings := rfl
@[simp] theorem State.fset_sched (s : State) (f : Fld) (i v : Nat) : (s.fset f i v).sched = s.sched := rfl
@[simp] theorem State.fset_slots (s : State) (f : Fld) (i v : Nat) : (s.fset f i v).slots = s.slots := rfl
@[simp] theorem State.fset_otp (s : State) (f : Fld) (i v : Nat) : (s.fset f i v).otp = s.otp := rfl
@[simp] theorem State.fset_bbks (s : State) (f : Fld) (i v : Nat) : (s.fset f i v).bbks = s.bbks := rfl
@[simp] theorem State.fset_auth (s : State) (f : Fld) (i v : Nat) : (s.fset f i v).auth = s.auth := rfl
@[simp] theorem State.fset_rng (s : State) (f : Fld) (i v : Nat) : (s.fset f i v).rng = s.rng := rfl
@[simp] theorem State.fset_mgen (s : State) (f : Fld) (i v : Nat) : (s.fset f i v).mgen = s.mgen := rfl
@[simp] theorem State.fset_cores (s : State) (f : Fld) (i v : Nat) : (s.fset f i v).cores = s.cores := rfl
@[simp] theorem State.fset_shared (s : State) (f : Fld) (i v : Nat) : (s.fset f i v).shared = s.shared := rfl
@[simp] theorem State.fset_saves (s : State) (f : Fld) (i v : Nat) : (s.fset f i v).saves = s.saves := rfl
@[simp] theorem State.fset_mcTimes (s : State) (f : Fld) (i v : Nat) : (s.fset f i v).mcTimes = s.mcTimes := rfl
@[simp] theorem State.fset_reloads (s : State) (f : Fld) (i v : Nat) : (s.fset f i v).reloads = s.reloads := rfl
@[simp] theorem State.fset_goldBad (s : State) (f : Fld) (i v : Nat) : (s.fset f i v).goldBad = s.goldBad := rfl
@[simp] theorem State.fset_seqs (s : State) (f : Fld) (i v : Nat) : (s.fset f i v).seqs = s.seqs := rfl
@[simp] theorem State.fset_gold (s : State) (f : Fld) (i v : Nat) : (s.fset f i v).gold = s.gold := rfl
@[simp] theorem State.fset_mgenAt (s : State) (f : Fld) (i v : Nat) : (s.fset f i v).mgenAt = s.mgenAt := rfl
@[simp] theorem State.fset_kernels (s : State) (f : Fld) (i v : Nat) : (s.fset f i v).kernels = s.kernels := rfl
@[simp] theorem State.fset_duplex (s : State) (f : Fld) (i v : Nat) : (s.fset f i v).duplex = s.duplex := rfl
@[simp] theorem State.fset_lies (s : State) (f : Fld) (i v : Nat) : (s.fset f i v).lies = s.lies := rfl
@[simp] theorem State.fset_kstage (s : State) (f : Fld) (i v : Nat) : (s.fset f i v).kstage = s.kstage := rfl
@[simp] theorem State.fset_dge (s : State) (f : Fld) (i v : Nat) : (s.fset f i v).dge = s.dge := rfl
@[simp] theorem State.fset_prot (s : State) (f : Fld) (i v : Nat) : (s.fset f i v).prot = s.prot := rfl
@[simp] theorem State.fset_power (s : State) (f : Fld) (i v : Nat) : (s.fset f i v).power = s.power := rfl
@[simp] theorem State.fset_boot (s : State) (f : Fld) (i v : Nat) : (s.fset f i v).boot = s.boot := rfl
@[simp] theorem State.fset_tap (s : State) (f : Fld) (i v : Nat) : (s.fset f i v).tap = s.tap := rfl
@[simp] theorem State.fset_dkl (s : State) (f : Fld) (i v : Nat) : (s.fset f i v).dkl = s.dkl := rfl
@[simp] theorem State.fset_streams (s : State) (f : Fld) (i v : Nat) : (s.fset f i v).streams = s.streams := rfl
@[simp] theorem State.fset_frames (s : State) (f : Fld) (i v : Nat) : (s.fset f i v).frames = s.frames := rfl
@[simp] theorem State.fset_imtTaint (s : State) (f : Fld) (i v : Nat) : (s.fset f i v).imtTaint = s.imtTaint := rfl
@[simp] theorem State.fset_out (s : State) (f : Fld) (i v : Nat) : (s.fset f i v).out = s.out := rfl
@[simp] theorem State.fset_free (s : State) (f : Fld) (i v : Nat) : (s.fset f i v).free = s.free := rfl
@[simp] theorem State.fset_pending (s : State) (f : Fld) (i v : Nat) : (s.fset f i v).pending = s.pending := rfl

/-! ## fadd -/

@[simp] theorem State.fadd_part (s : State) (f : Fld) (i n : Nat) : (s.fadd f i n).part = s.part := rfl
@[simp] theorem State.fadd_grade (s : State) (f : Fld) (i n : Nat) : (s.fadd f i n).grade = s.grade := rfl
@[simp] theorem State.fadd_host (s : State) (f : Fld) (i n : Nat) : (s.fadd f i n).host = s.host := rfl
@[simp] theorem State.fadd_pf0Half (s : State) (f : Fld) (i n : Nat) : (s.fadd f i n).pf0Half = s.pf0Half := rfl
@[simp] theorem State.fadd_mpHalf (s : State) (f : Fld) (i n : Nat) : (s.fadd f i n).mpHalf = s.mpHalf := rfl
@[simp] theorem State.fadd_dbgHalf (s : State) (f : Fld) (i n : Nat) : (s.fadd f i n).dbgHalf = s.dbgHalf := rfl
@[simp] theorem State.fadd_mbx (s : State) (f : Fld) (i n : Nat) : (s.fadd f i n).mbx = s.mbx := rfl
@[simp] theorem State.fadd_evr (s : State) (f : Fld) (i n : Nat) : (s.fadd f i n).evr = s.evr := rfl
@[simp] theorem State.fadd_time (s : State) (f : Fld) (i n : Nat) : (s.fadd f i n).time = s.time := rfl
@[simp] theorem State.fadd_rings (s : State) (f : Fld) (i n : Nat) : (s.fadd f i n).rings = s.rings := rfl
@[simp] theorem State.fadd_sched (s : State) (f : Fld) (i n : Nat) : (s.fadd f i n).sched = s.sched := rfl
@[simp] theorem State.fadd_slots (s : State) (f : Fld) (i n : Nat) : (s.fadd f i n).slots = s.slots := rfl
@[simp] theorem State.fadd_otp (s : State) (f : Fld) (i n : Nat) : (s.fadd f i n).otp = s.otp := rfl
@[simp] theorem State.fadd_bbks (s : State) (f : Fld) (i n : Nat) : (s.fadd f i n).bbks = s.bbks := rfl
@[simp] theorem State.fadd_auth (s : State) (f : Fld) (i n : Nat) : (s.fadd f i n).auth = s.auth := rfl
@[simp] theorem State.fadd_rng (s : State) (f : Fld) (i n : Nat) : (s.fadd f i n).rng = s.rng := rfl
@[simp] theorem State.fadd_mgen (s : State) (f : Fld) (i n : Nat) : (s.fadd f i n).mgen = s.mgen := rfl
@[simp] theorem State.fadd_cores (s : State) (f : Fld) (i n : Nat) : (s.fadd f i n).cores = s.cores := rfl
@[simp] theorem State.fadd_shared (s : State) (f : Fld) (i n : Nat) : (s.fadd f i n).shared = s.shared := rfl
@[simp] theorem State.fadd_saves (s : State) (f : Fld) (i n : Nat) : (s.fadd f i n).saves = s.saves := rfl
@[simp] theorem State.fadd_mcTimes (s : State) (f : Fld) (i n : Nat) : (s.fadd f i n).mcTimes = s.mcTimes := rfl
@[simp] theorem State.fadd_reloads (s : State) (f : Fld) (i n : Nat) : (s.fadd f i n).reloads = s.reloads := rfl
@[simp] theorem State.fadd_goldBad (s : State) (f : Fld) (i n : Nat) : (s.fadd f i n).goldBad = s.goldBad := rfl
@[simp] theorem State.fadd_seqs (s : State) (f : Fld) (i n : Nat) : (s.fadd f i n).seqs = s.seqs := rfl
@[simp] theorem State.fadd_gold (s : State) (f : Fld) (i n : Nat) : (s.fadd f i n).gold = s.gold := rfl
@[simp] theorem State.fadd_mgenAt (s : State) (f : Fld) (i n : Nat) : (s.fadd f i n).mgenAt = s.mgenAt := rfl
@[simp] theorem State.fadd_kernels (s : State) (f : Fld) (i n : Nat) : (s.fadd f i n).kernels = s.kernels := rfl
@[simp] theorem State.fadd_duplex (s : State) (f : Fld) (i n : Nat) : (s.fadd f i n).duplex = s.duplex := rfl
@[simp] theorem State.fadd_lies (s : State) (f : Fld) (i n : Nat) : (s.fadd f i n).lies = s.lies := rfl
@[simp] theorem State.fadd_kstage (s : State) (f : Fld) (i n : Nat) : (s.fadd f i n).kstage = s.kstage := rfl
@[simp] theorem State.fadd_dge (s : State) (f : Fld) (i n : Nat) : (s.fadd f i n).dge = s.dge := rfl
@[simp] theorem State.fadd_prot (s : State) (f : Fld) (i n : Nat) : (s.fadd f i n).prot = s.prot := rfl
@[simp] theorem State.fadd_power (s : State) (f : Fld) (i n : Nat) : (s.fadd f i n).power = s.power := rfl
@[simp] theorem State.fadd_boot (s : State) (f : Fld) (i n : Nat) : (s.fadd f i n).boot = s.boot := rfl
@[simp] theorem State.fadd_tap (s : State) (f : Fld) (i n : Nat) : (s.fadd f i n).tap = s.tap := rfl
@[simp] theorem State.fadd_dkl (s : State) (f : Fld) (i n : Nat) : (s.fadd f i n).dkl = s.dkl := rfl
@[simp] theorem State.fadd_streams (s : State) (f : Fld) (i n : Nat) : (s.fadd f i n).streams = s.streams := rfl
@[simp] theorem State.fadd_frames (s : State) (f : Fld) (i n : Nat) : (s.fadd f i n).frames = s.frames := rfl
@[simp] theorem State.fadd_imtTaint (s : State) (f : Fld) (i n : Nat) : (s.fadd f i n).imtTaint = s.imtTaint := rfl
@[simp] theorem State.fadd_out (s : State) (f : Fld) (i n : Nat) : (s.fadd f i n).out = s.out := rfl
@[simp] theorem State.fadd_free (s : State) (f : Fld) (i n : Nat) : (s.fadd f i n).free = s.free := rfl
@[simp] theorem State.fadd_pending (s : State) (f : Fld) (i n : Nat) : (s.fadd f i n).pending = s.pending := rfl

/-! ## fwrap -/

@[simp] theorem State.fwrap_part (s : State) (f : Fld) (i n : Nat) : (s.fwrap f i n).part = s.part := rfl
@[simp] theorem State.fwrap_grade (s : State) (f : Fld) (i n : Nat) : (s.fwrap f i n).grade = s.grade := rfl
@[simp] theorem State.fwrap_host (s : State) (f : Fld) (i n : Nat) : (s.fwrap f i n).host = s.host := rfl
@[simp] theorem State.fwrap_pf0Half (s : State) (f : Fld) (i n : Nat) : (s.fwrap f i n).pf0Half = s.pf0Half := rfl
@[simp] theorem State.fwrap_mpHalf (s : State) (f : Fld) (i n : Nat) : (s.fwrap f i n).mpHalf = s.mpHalf := rfl
@[simp] theorem State.fwrap_dbgHalf (s : State) (f : Fld) (i n : Nat) : (s.fwrap f i n).dbgHalf = s.dbgHalf := rfl
@[simp] theorem State.fwrap_mbx (s : State) (f : Fld) (i n : Nat) : (s.fwrap f i n).mbx = s.mbx := rfl
@[simp] theorem State.fwrap_evr (s : State) (f : Fld) (i n : Nat) : (s.fwrap f i n).evr = s.evr := rfl
@[simp] theorem State.fwrap_time (s : State) (f : Fld) (i n : Nat) : (s.fwrap f i n).time = s.time := rfl
@[simp] theorem State.fwrap_rings (s : State) (f : Fld) (i n : Nat) : (s.fwrap f i n).rings = s.rings := rfl
@[simp] theorem State.fwrap_sched (s : State) (f : Fld) (i n : Nat) : (s.fwrap f i n).sched = s.sched := rfl
@[simp] theorem State.fwrap_slots (s : State) (f : Fld) (i n : Nat) : (s.fwrap f i n).slots = s.slots := rfl
@[simp] theorem State.fwrap_otp (s : State) (f : Fld) (i n : Nat) : (s.fwrap f i n).otp = s.otp := rfl
@[simp] theorem State.fwrap_bbks (s : State) (f : Fld) (i n : Nat) : (s.fwrap f i n).bbks = s.bbks := rfl
@[simp] theorem State.fwrap_auth (s : State) (f : Fld) (i n : Nat) : (s.fwrap f i n).auth = s.auth := rfl
@[simp] theorem State.fwrap_rng (s : State) (f : Fld) (i n : Nat) : (s.fwrap f i n).rng = s.rng := rfl
@[simp] theorem State.fwrap_mgen (s : State) (f : Fld) (i n : Nat) : (s.fwrap f i n).mgen = s.mgen := rfl
@[simp] theorem State.fwrap_cores (s : State) (f : Fld) (i n : Nat) : (s.fwrap f i n).cores = s.cores := rfl
@[simp] theorem State.fwrap_shared (s : State) (f : Fld) (i n : Nat) : (s.fwrap f i n).shared = s.shared := rfl
@[simp] theorem State.fwrap_saves (s : State) (f : Fld) (i n : Nat) : (s.fwrap f i n).saves = s.saves := rfl
@[simp] theorem State.fwrap_mcTimes (s : State) (f : Fld) (i n : Nat) : (s.fwrap f i n).mcTimes = s.mcTimes := rfl
@[simp] theorem State.fwrap_reloads (s : State) (f : Fld) (i n : Nat) : (s.fwrap f i n).reloads = s.reloads := rfl
@[simp] theorem State.fwrap_goldBad (s : State) (f : Fld) (i n : Nat) : (s.fwrap f i n).goldBad = s.goldBad := rfl
@[simp] theorem State.fwrap_seqs (s : State) (f : Fld) (i n : Nat) : (s.fwrap f i n).seqs = s.seqs := rfl
@[simp] theorem State.fwrap_gold (s : State) (f : Fld) (i n : Nat) : (s.fwrap f i n).gold = s.gold := rfl
@[simp] theorem State.fwrap_mgenAt (s : State) (f : Fld) (i n : Nat) : (s.fwrap f i n).mgenAt = s.mgenAt := rfl
@[simp] theorem State.fwrap_kernels (s : State) (f : Fld) (i n : Nat) : (s.fwrap f i n).kernels = s.kernels := rfl
@[simp] theorem State.fwrap_duplex (s : State) (f : Fld) (i n : Nat) : (s.fwrap f i n).duplex = s.duplex := rfl
@[simp] theorem State.fwrap_lies (s : State) (f : Fld) (i n : Nat) : (s.fwrap f i n).lies = s.lies := rfl
@[simp] theorem State.fwrap_kstage (s : State) (f : Fld) (i n : Nat) : (s.fwrap f i n).kstage = s.kstage := rfl
@[simp] theorem State.fwrap_dge (s : State) (f : Fld) (i n : Nat) : (s.fwrap f i n).dge = s.dge := rfl
@[simp] theorem State.fwrap_prot (s : State) (f : Fld) (i n : Nat) : (s.fwrap f i n).prot = s.prot := rfl
@[simp] theorem State.fwrap_power (s : State) (f : Fld) (i n : Nat) : (s.fwrap f i n).power = s.power := rfl
@[simp] theorem State.fwrap_boot (s : State) (f : Fld) (i n : Nat) : (s.fwrap f i n).boot = s.boot := rfl
@[simp] theorem State.fwrap_tap (s : State) (f : Fld) (i n : Nat) : (s.fwrap f i n).tap = s.tap := rfl
@[simp] theorem State.fwrap_dkl (s : State) (f : Fld) (i n : Nat) : (s.fwrap f i n).dkl = s.dkl := rfl
@[simp] theorem State.fwrap_streams (s : State) (f : Fld) (i n : Nat) : (s.fwrap f i n).streams = s.streams := rfl
@[simp] theorem State.fwrap_frames (s : State) (f : Fld) (i n : Nat) : (s.fwrap f i n).frames = s.frames := rfl
@[simp] theorem State.fwrap_imtTaint (s : State) (f : Fld) (i n : Nat) : (s.fwrap f i n).imtTaint = s.imtTaint := rfl
@[simp] theorem State.fwrap_out (s : State) (f : Fld) (i n : Nat) : (s.fwrap f i n).out = s.out := rfl
@[simp] theorem State.fwrap_free (s : State) (f : Fld) (i n : Nat) : (s.fwrap f i n).free = s.free := rfl
@[simp] theorem State.fwrap_pending (s : State) (f : Fld) (i n : Nat) : (s.fwrap f i n).pending = s.pending := rfl

/-! ## clearRegs -/

@[simp] theorem State.clearRegs_part (s : State) (k : RegKind) (lo n : Nat) : (s.clearRegs k lo n).part = s.part := rfl
@[simp] theorem State.clearRegs_grade (s : State) (k : RegKind) (lo n : Nat) : (s.clearRegs k lo n).grade = s.grade := rfl
@[simp] theorem State.clearRegs_host (s : State) (k : RegKind) (lo n : Nat) : (s.clearRegs k lo n).host = s.host := rfl
@[simp] theorem State.clearRegs_pf0Half (s : State) (k : RegKind) (lo n : Nat) : (s.clearRegs k lo n).pf0Half = s.pf0Half := rfl
@[simp] theorem State.clearRegs_mpHalf (s : State) (k : RegKind) (lo n : Nat) : (s.clearRegs k lo n).mpHalf = s.mpHalf := rfl
@[simp] theorem State.clearRegs_dbgHalf (s : State) (k : RegKind) (lo n : Nat) : (s.clearRegs k lo n).dbgHalf = s.dbgHalf := rfl
@[simp] theorem State.clearRegs_mbx (s : State) (k : RegKind) (lo n : Nat) : (s.clearRegs k lo n).mbx = s.mbx := rfl
@[simp] theorem State.clearRegs_evr (s : State) (k : RegKind) (lo n : Nat) : (s.clearRegs k lo n).evr = s.evr := rfl
@[simp] theorem State.clearRegs_time (s : State) (k : RegKind) (lo n : Nat) : (s.clearRegs k lo n).time = s.time := rfl
@[simp] theorem State.clearRegs_rings (s : State) (k : RegKind) (lo n : Nat) : (s.clearRegs k lo n).rings = s.rings := rfl
@[simp] theorem State.clearRegs_sched (s : State) (k : RegKind) (lo n : Nat) : (s.clearRegs k lo n).sched = s.sched := rfl
@[simp] theorem State.clearRegs_slots (s : State) (k : RegKind) (lo n : Nat) : (s.clearRegs k lo n).slots = s.slots := rfl
@[simp] theorem State.clearRegs_otp (s : State) (k : RegKind) (lo n : Nat) : (s.clearRegs k lo n).otp = s.otp := rfl
@[simp] theorem State.clearRegs_bbks (s : State) (k : RegKind) (lo n : Nat) : (s.clearRegs k lo n).bbks = s.bbks := rfl
@[simp] theorem State.clearRegs_auth (s : State) (k : RegKind) (lo n : Nat) : (s.clearRegs k lo n).auth = s.auth := rfl
@[simp] theorem State.clearRegs_rng (s : State) (k : RegKind) (lo n : Nat) : (s.clearRegs k lo n).rng = s.rng := rfl
@[simp] theorem State.clearRegs_mgen (s : State) (k : RegKind) (lo n : Nat) : (s.clearRegs k lo n).mgen = s.mgen := rfl
@[simp] theorem State.clearRegs_cores (s : State) (k : RegKind) (lo n : Nat) : (s.clearRegs k lo n).cores = s.cores := rfl
@[simp] theorem State.clearRegs_shared (s : State) (k : RegKind) (lo n : Nat) : (s.clearRegs k lo n).shared = s.shared := rfl
@[simp] theorem State.clearRegs_saves (s : State) (k : RegKind) (lo n : Nat) : (s.clearRegs k lo n).saves = s.saves := rfl
@[simp] theorem State.clearRegs_mcTimes (s : State) (k : RegKind) (lo n : Nat) : (s.clearRegs k lo n).mcTimes = s.mcTimes := rfl
@[simp] theorem State.clearRegs_reloads (s : State) (k : RegKind) (lo n : Nat) : (s.clearRegs k lo n).reloads = s.reloads := rfl
@[simp] theorem State.clearRegs_goldBad (s : State) (k : RegKind) (lo n : Nat) : (s.clearRegs k lo n).goldBad = s.goldBad := rfl
@[simp] theorem State.clearRegs_seqs (s : State) (k : RegKind) (lo n : Nat) : (s.clearRegs k lo n).seqs = s.seqs := rfl
@[simp] theorem State.clearRegs_gold (s : State) (k : RegKind) (lo n : Nat) : (s.clearRegs k lo n).gold = s.gold := rfl
@[simp] theorem State.clearRegs_mgenAt (s : State) (k : RegKind) (lo n : Nat) : (s.clearRegs k lo n).mgenAt = s.mgenAt := rfl
@[simp] theorem State.clearRegs_kernels (s : State) (k : RegKind) (lo n : Nat) : (s.clearRegs k lo n).kernels = s.kernels := rfl
@[simp] theorem State.clearRegs_duplex (s : State) (k : RegKind) (lo n : Nat) : (s.clearRegs k lo n).duplex = s.duplex := rfl
@[simp] theorem State.clearRegs_lies (s : State) (k : RegKind) (lo n : Nat) : (s.clearRegs k lo n).lies = s.lies := rfl
@[simp] theorem State.clearRegs_kstage (s : State) (k : RegKind) (lo n : Nat) : (s.clearRegs k lo n).kstage = s.kstage := rfl
@[simp] theorem State.clearRegs_dge (s : State) (k : RegKind) (lo n : Nat) : (s.clearRegs k lo n).dge = s.dge := rfl
@[simp] theorem State.clearRegs_prot (s : State) (k : RegKind) (lo n : Nat) : (s.clearRegs k lo n).prot = s.prot := rfl
@[simp] theorem State.clearRegs_power (s : State) (k : RegKind) (lo n : Nat) : (s.clearRegs k lo n).power = s.power := rfl
@[simp] theorem State.clearRegs_boot (s : State) (k : RegKind) (lo n : Nat) : (s.clearRegs k lo n).boot = s.boot := rfl
@[simp] theorem State.clearRegs_tap (s : State) (k : RegKind) (lo n : Nat) : (s.clearRegs k lo n).tap = s.tap := rfl
@[simp] theorem State.clearRegs_dkl (s : State) (k : RegKind) (lo n : Nat) : (s.clearRegs k lo n).dkl = s.dkl := rfl
@[simp] theorem State.clearRegs_streams (s : State) (k : RegKind) (lo n : Nat) : (s.clearRegs k lo n).streams = s.streams := rfl
@[simp] theorem State.clearRegs_frames (s : State) (k : RegKind) (lo n : Nat) : (s.clearRegs k lo n).frames = s.frames := rfl
@[simp] theorem State.clearRegs_imtTaint (s : State) (k : RegKind) (lo n : Nat) : (s.clearRegs k lo n).imtTaint = s.imtTaint := rfl
@[simp] theorem State.clearRegs_out (s : State) (k : RegKind) (lo n : Nat) : (s.clearRegs k lo n).out = s.out := rfl
@[simp] theorem State.clearRegs_free (s : State) (k : RegKind) (lo n : Nat) : (s.clearRegs k lo n).free = s.free := rfl
@[simp] theorem State.clearRegs_pending (s : State) (k : RegKind) (lo n : Nat) : (s.clearRegs k lo n).pending = s.pending := rfl

/-! ## tick -/

@[simp] theorem State.tick_part (s : State) (n : Nat) : (s.tick n).part = s.part := rfl
@[simp] theorem State.tick_grade (s : State) (n : Nat) : (s.tick n).grade = s.grade := rfl
@[simp] theorem State.tick_regs (s : State) (n : Nat) : (s.tick n).regs = s.regs := rfl
@[simp] theorem State.tick_host (s : State) (n : Nat) : (s.tick n).host = s.host := rfl
@[simp] theorem State.tick_pf0Half (s : State) (n : Nat) : (s.tick n).pf0Half = s.pf0Half := rfl
@[simp] theorem State.tick_mpHalf (s : State) (n : Nat) : (s.tick n).mpHalf = s.mpHalf := rfl
@[simp] theorem State.tick_dbgHalf (s : State) (n : Nat) : (s.tick n).dbgHalf = s.dbgHalf := rfl
@[simp] theorem State.tick_mbx (s : State) (n : Nat) : (s.tick n).mbx = s.mbx := rfl
@[simp] theorem State.tick_evr (s : State) (n : Nat) : (s.tick n).evr = s.evr := rfl
@[simp] theorem State.tick_rings (s : State) (n : Nat) : (s.tick n).rings = s.rings := rfl
@[simp] theorem State.tick_sched (s : State) (n : Nat) : (s.tick n).sched = s.sched := rfl
@[simp] theorem State.tick_slots (s : State) (n : Nat) : (s.tick n).slots = s.slots := rfl
@[simp] theorem State.tick_otp (s : State) (n : Nat) : (s.tick n).otp = s.otp := rfl
@[simp] theorem State.tick_bbks (s : State) (n : Nat) : (s.tick n).bbks = s.bbks := rfl
@[simp] theorem State.tick_auth (s : State) (n : Nat) : (s.tick n).auth = s.auth := rfl
@[simp] theorem State.tick_rng (s : State) (n : Nat) : (s.tick n).rng = s.rng := rfl
@[simp] theorem State.tick_mgen (s : State) (n : Nat) : (s.tick n).mgen = s.mgen := rfl
@[simp] theorem State.tick_cores (s : State) (n : Nat) : (s.tick n).cores = s.cores := rfl
@[simp] theorem State.tick_shared (s : State) (n : Nat) : (s.tick n).shared = s.shared := rfl
@[simp] theorem State.tick_saves (s : State) (n : Nat) : (s.tick n).saves = s.saves := rfl
@[simp] theorem State.tick_mcTimes (s : State) (n : Nat) : (s.tick n).mcTimes = s.mcTimes := rfl
@[simp] theorem State.tick_reloads (s : State) (n : Nat) : (s.tick n).reloads = s.reloads := rfl
@[simp] theorem State.tick_goldBad (s : State) (n : Nat) : (s.tick n).goldBad = s.goldBad := rfl
@[simp] theorem State.tick_seqs (s : State) (n : Nat) : (s.tick n).seqs = s.seqs := rfl
@[simp] theorem State.tick_gold (s : State) (n : Nat) : (s.tick n).gold = s.gold := rfl
@[simp] theorem State.tick_mgenAt (s : State) (n : Nat) : (s.tick n).mgenAt = s.mgenAt := rfl
@[simp] theorem State.tick_kernels (s : State) (n : Nat) : (s.tick n).kernels = s.kernels := rfl
@[simp] theorem State.tick_duplex (s : State) (n : Nat) : (s.tick n).duplex = s.duplex := rfl
@[simp] theorem State.tick_lies (s : State) (n : Nat) : (s.tick n).lies = s.lies := rfl
@[simp] theorem State.tick_kstage (s : State) (n : Nat) : (s.tick n).kstage = s.kstage := rfl
@[simp] theorem State.tick_dge (s : State) (n : Nat) : (s.tick n).dge = s.dge := rfl
@[simp] theorem State.tick_prot (s : State) (n : Nat) : (s.tick n).prot = s.prot := rfl
@[simp] theorem State.tick_power (s : State) (n : Nat) : (s.tick n).power = s.power := rfl
@[simp] theorem State.tick_boot (s : State) (n : Nat) : (s.tick n).boot = s.boot := rfl
@[simp] theorem State.tick_tap (s : State) (n : Nat) : (s.tick n).tap = s.tap := rfl
@[simp] theorem State.tick_dkl (s : State) (n : Nat) : (s.tick n).dkl = s.dkl := rfl
@[simp] theorem State.tick_streams (s : State) (n : Nat) : (s.tick n).streams = s.streams := rfl
@[simp] theorem State.tick_frames (s : State) (n : Nat) : (s.tick n).frames = s.frames := rfl
@[simp] theorem State.tick_imtTaint (s : State) (n : Nat) : (s.tick n).imtTaint = s.imtTaint := rfl
@[simp] theorem State.tick_out (s : State) (n : Nat) : (s.tick n).out = s.out := rfl
@[simp] theorem State.tick_free (s : State) (n : Nat) : (s.tick n).free = s.free := rfl
@[simp] theorem State.tick_pending (s : State) (n : Nat) : (s.tick n).pending = s.pending := rfl

/-! ## elapse -/

@[simp] theorem State.elapse_part (s : State) (dt : Nat) : (s.elapse dt).part = s.part := rfl
@[simp] theorem State.elapse_grade (s : State) (dt : Nat) : (s.elapse dt).grade = s.grade := rfl
@[simp] theorem State.elapse_regs (s : State) (dt : Nat) : (s.elapse dt).regs = s.regs := rfl
@[simp] theorem State.elapse_host (s : State) (dt : Nat) : (s.elapse dt).host = s.host := rfl
@[simp] theorem State.elapse_pf0Half (s : State) (dt : Nat) : (s.elapse dt).pf0Half = s.pf0Half := rfl
@[simp] theorem State.elapse_mpHalf (s : State) (dt : Nat) : (s.elapse dt).mpHalf = s.mpHalf := rfl
@[simp] theorem State.elapse_dbgHalf (s : State) (dt : Nat) : (s.elapse dt).dbgHalf = s.dbgHalf := rfl
@[simp] theorem State.elapse_mbx (s : State) (dt : Nat) : (s.elapse dt).mbx = s.mbx := rfl
@[simp] theorem State.elapse_evr (s : State) (dt : Nat) : (s.elapse dt).evr = s.evr := rfl
@[simp] theorem State.elapse_rings (s : State) (dt : Nat) : (s.elapse dt).rings = s.rings := rfl
@[simp] theorem State.elapse_sched (s : State) (dt : Nat) : (s.elapse dt).sched = s.sched := rfl
@[simp] theorem State.elapse_slots (s : State) (dt : Nat) : (s.elapse dt).slots = s.slots := rfl
@[simp] theorem State.elapse_otp (s : State) (dt : Nat) : (s.elapse dt).otp = s.otp := rfl
@[simp] theorem State.elapse_bbks (s : State) (dt : Nat) : (s.elapse dt).bbks = s.bbks := rfl
@[simp] theorem State.elapse_auth (s : State) (dt : Nat) : (s.elapse dt).auth = s.auth := rfl
@[simp] theorem State.elapse_rng (s : State) (dt : Nat) : (s.elapse dt).rng = s.rng := rfl
@[simp] theorem State.elapse_mgen (s : State) (dt : Nat) : (s.elapse dt).mgen = s.mgen := rfl
@[simp] theorem State.elapse_cores (s : State) (dt : Nat) : (s.elapse dt).cores = s.cores := rfl
@[simp] theorem State.elapse_shared (s : State) (dt : Nat) : (s.elapse dt).shared = s.shared := rfl
@[simp] theorem State.elapse_saves (s : State) (dt : Nat) : (s.elapse dt).saves = s.saves := rfl
@[simp] theorem State.elapse_mcTimes (s : State) (dt : Nat) : (s.elapse dt).mcTimes = s.mcTimes := rfl
@[simp] theorem State.elapse_reloads (s : State) (dt : Nat) : (s.elapse dt).reloads = s.reloads := rfl
@[simp] theorem State.elapse_goldBad (s : State) (dt : Nat) : (s.elapse dt).goldBad = s.goldBad := rfl
@[simp] theorem State.elapse_seqs (s : State) (dt : Nat) : (s.elapse dt).seqs = s.seqs := rfl
@[simp] theorem State.elapse_gold (s : State) (dt : Nat) : (s.elapse dt).gold = s.gold := rfl
@[simp] theorem State.elapse_mgenAt (s : State) (dt : Nat) : (s.elapse dt).mgenAt = s.mgenAt := rfl
@[simp] theorem State.elapse_kernels (s : State) (dt : Nat) : (s.elapse dt).kernels = s.kernels := rfl
@[simp] theorem State.elapse_duplex (s : State) (dt : Nat) : (s.elapse dt).duplex = s.duplex := rfl
@[simp] theorem State.elapse_lies (s : State) (dt : Nat) : (s.elapse dt).lies = s.lies := rfl
@[simp] theorem State.elapse_kstage (s : State) (dt : Nat) : (s.elapse dt).kstage = s.kstage := rfl
@[simp] theorem State.elapse_dge (s : State) (dt : Nat) : (s.elapse dt).dge = s.dge := rfl
@[simp] theorem State.elapse_prot (s : State) (dt : Nat) : (s.elapse dt).prot = s.prot := rfl
@[simp] theorem State.elapse_power (s : State) (dt : Nat) : (s.elapse dt).power = s.power := rfl
@[simp] theorem State.elapse_boot (s : State) (dt : Nat) : (s.elapse dt).boot = s.boot := rfl
@[simp] theorem State.elapse_tap (s : State) (dt : Nat) : (s.elapse dt).tap = s.tap := rfl
@[simp] theorem State.elapse_dkl (s : State) (dt : Nat) : (s.elapse dt).dkl = s.dkl := rfl
@[simp] theorem State.elapse_streams (s : State) (dt : Nat) : (s.elapse dt).streams = s.streams := rfl
@[simp] theorem State.elapse_frames (s : State) (dt : Nat) : (s.elapse dt).frames = s.frames := rfl
@[simp] theorem State.elapse_imtTaint (s : State) (dt : Nat) : (s.elapse dt).imtTaint = s.imtTaint := rfl
@[simp] theorem State.elapse_out (s : State) (dt : Nat) : (s.elapse dt).out = s.out := rfl
@[simp] theorem State.elapse_free (s : State) (dt : Nat) : (s.elapse dt).free = s.free := rfl
@[simp] theorem State.elapse_pending (s : State) (dt : Nat) : (s.elapse dt).pending = s.pending := rfl

/-! ## emitLocal -/

@[simp] theorem State.emitLocal_part (s : State) (m : OutMsg) : (s.emitLocal m).part = s.part := rfl
@[simp] theorem State.emitLocal_grade (s : State) (m : OutMsg) : (s.emitLocal m).grade = s.grade := rfl
@[simp] theorem State.emitLocal_regs (s : State) (m : OutMsg) : (s.emitLocal m).regs = s.regs := rfl
@[simp] theorem State.emitLocal_host (s : State) (m : OutMsg) : (s.emitLocal m).host = s.host := rfl
@[simp] theorem State.emitLocal_pf0Half (s : State) (m : OutMsg) : (s.emitLocal m).pf0Half = s.pf0Half := rfl
@[simp] theorem State.emitLocal_mpHalf (s : State) (m : OutMsg) : (s.emitLocal m).mpHalf = s.mpHalf := rfl
@[simp] theorem State.emitLocal_dbgHalf (s : State) (m : OutMsg) : (s.emitLocal m).dbgHalf = s.dbgHalf := rfl
@[simp] theorem State.emitLocal_mbx (s : State) (m : OutMsg) : (s.emitLocal m).mbx = s.mbx := rfl
@[simp] theorem State.emitLocal_evr (s : State) (m : OutMsg) : (s.emitLocal m).evr = s.evr := rfl
@[simp] theorem State.emitLocal_time (s : State) (m : OutMsg) : (s.emitLocal m).time = s.time := rfl
@[simp] theorem State.emitLocal_rings (s : State) (m : OutMsg) : (s.emitLocal m).rings = s.rings := rfl
@[simp] theorem State.emitLocal_sched (s : State) (m : OutMsg) : (s.emitLocal m).sched = s.sched := rfl
@[simp] theorem State.emitLocal_slots (s : State) (m : OutMsg) : (s.emitLocal m).slots = s.slots := rfl
@[simp] theorem State.emitLocal_otp (s : State) (m : OutMsg) : (s.emitLocal m).otp = s.otp := rfl
@[simp] theorem State.emitLocal_bbks (s : State) (m : OutMsg) : (s.emitLocal m).bbks = s.bbks := rfl
@[simp] theorem State.emitLocal_auth (s : State) (m : OutMsg) : (s.emitLocal m).auth = s.auth := rfl
@[simp] theorem State.emitLocal_rng (s : State) (m : OutMsg) : (s.emitLocal m).rng = s.rng := rfl
@[simp] theorem State.emitLocal_mgen (s : State) (m : OutMsg) : (s.emitLocal m).mgen = s.mgen := rfl
@[simp] theorem State.emitLocal_cores (s : State) (m : OutMsg) : (s.emitLocal m).cores = s.cores := rfl
@[simp] theorem State.emitLocal_shared (s : State) (m : OutMsg) : (s.emitLocal m).shared = s.shared := rfl
@[simp] theorem State.emitLocal_saves (s : State) (m : OutMsg) : (s.emitLocal m).saves = s.saves := rfl
@[simp] theorem State.emitLocal_mcTimes (s : State) (m : OutMsg) : (s.emitLocal m).mcTimes = s.mcTimes := rfl
@[simp] theorem State.emitLocal_reloads (s : State) (m : OutMsg) : (s.emitLocal m).reloads = s.reloads := rfl
@[simp] theorem State.emitLocal_goldBad (s : State) (m : OutMsg) : (s.emitLocal m).goldBad = s.goldBad := rfl
@[simp] theorem State.emitLocal_seqs (s : State) (m : OutMsg) : (s.emitLocal m).seqs = s.seqs := rfl
@[simp] theorem State.emitLocal_gold (s : State) (m : OutMsg) : (s.emitLocal m).gold = s.gold := rfl
@[simp] theorem State.emitLocal_mgenAt (s : State) (m : OutMsg) : (s.emitLocal m).mgenAt = s.mgenAt := rfl
@[simp] theorem State.emitLocal_kernels (s : State) (m : OutMsg) : (s.emitLocal m).kernels = s.kernels := rfl
@[simp] theorem State.emitLocal_duplex (s : State) (m : OutMsg) : (s.emitLocal m).duplex = s.duplex := rfl
@[simp] theorem State.emitLocal_lies (s : State) (m : OutMsg) : (s.emitLocal m).lies = s.lies := rfl
@[simp] theorem State.emitLocal_kstage (s : State) (m : OutMsg) : (s.emitLocal m).kstage = s.kstage := rfl
@[simp] theorem State.emitLocal_dge (s : State) (m : OutMsg) : (s.emitLocal m).dge = s.dge := rfl
@[simp] theorem State.emitLocal_prot (s : State) (m : OutMsg) : (s.emitLocal m).prot = s.prot := rfl
@[simp] theorem State.emitLocal_power (s : State) (m : OutMsg) : (s.emitLocal m).power = s.power := rfl
@[simp] theorem State.emitLocal_boot (s : State) (m : OutMsg) : (s.emitLocal m).boot = s.boot := rfl
@[simp] theorem State.emitLocal_tap (s : State) (m : OutMsg) : (s.emitLocal m).tap = s.tap := rfl
@[simp] theorem State.emitLocal_dkl (s : State) (m : OutMsg) : (s.emitLocal m).dkl = s.dkl := rfl
@[simp] theorem State.emitLocal_streams (s : State) (m : OutMsg) : (s.emitLocal m).streams = s.streams := rfl
@[simp] theorem State.emitLocal_frames (s : State) (m : OutMsg) : (s.emitLocal m).frames = s.frames := rfl
@[simp] theorem State.emitLocal_imtTaint (s : State) (m : OutMsg) : (s.emitLocal m).imtTaint = s.imtTaint := rfl
@[simp] theorem State.emitLocal_free (s : State) (m : OutMsg) : (s.emitLocal m).free = s.free := rfl
@[simp] theorem State.emitLocal_pending (s : State) (m : OutMsg) : (s.emitLocal m).pending = s.pending := rfl

/-! ## setCore -/

@[simp] theorem State.setCore_part (s : State) (v : Nat) (c : VCore) : (s.setCore v c).part = s.part := rfl
@[simp] theorem State.setCore_grade (s : State) (v : Nat) (c : VCore) : (s.setCore v c).grade = s.grade := rfl
@[simp] theorem State.setCore_regs (s : State) (v : Nat) (c : VCore) : (s.setCore v c).regs = s.regs := rfl
@[simp] theorem State.setCore_host (s : State) (v : Nat) (c : VCore) : (s.setCore v c).host = s.host := rfl
@[simp] theorem State.setCore_pf0Half (s : State) (v : Nat) (c : VCore) : (s.setCore v c).pf0Half = s.pf0Half := rfl
@[simp] theorem State.setCore_mpHalf (s : State) (v : Nat) (c : VCore) : (s.setCore v c).mpHalf = s.mpHalf := rfl
@[simp] theorem State.setCore_dbgHalf (s : State) (v : Nat) (c : VCore) : (s.setCore v c).dbgHalf = s.dbgHalf := rfl
@[simp] theorem State.setCore_mbx (s : State) (v : Nat) (c : VCore) : (s.setCore v c).mbx = s.mbx := rfl
@[simp] theorem State.setCore_evr (s : State) (v : Nat) (c : VCore) : (s.setCore v c).evr = s.evr := rfl
@[simp] theorem State.setCore_time (s : State) (v : Nat) (c : VCore) : (s.setCore v c).time = s.time := rfl
@[simp] theorem State.setCore_rings (s : State) (v : Nat) (c : VCore) : (s.setCore v c).rings = s.rings := rfl
@[simp] theorem State.setCore_sched (s : State) (v : Nat) (c : VCore) : (s.setCore v c).sched = s.sched := rfl
@[simp] theorem State.setCore_slots (s : State) (v : Nat) (c : VCore) : (s.setCore v c).slots = s.slots := rfl
@[simp] theorem State.setCore_otp (s : State) (v : Nat) (c : VCore) : (s.setCore v c).otp = s.otp := rfl
@[simp] theorem State.setCore_bbks (s : State) (v : Nat) (c : VCore) : (s.setCore v c).bbks = s.bbks := rfl
@[simp] theorem State.setCore_auth (s : State) (v : Nat) (c : VCore) : (s.setCore v c).auth = s.auth := rfl
@[simp] theorem State.setCore_rng (s : State) (v : Nat) (c : VCore) : (s.setCore v c).rng = s.rng := rfl
@[simp] theorem State.setCore_mgen (s : State) (v : Nat) (c : VCore) : (s.setCore v c).mgen = s.mgen := rfl
@[simp] theorem State.setCore_shared (s : State) (v : Nat) (c : VCore) : (s.setCore v c).shared = s.shared := rfl
@[simp] theorem State.setCore_saves (s : State) (v : Nat) (c : VCore) : (s.setCore v c).saves = s.saves := rfl
@[simp] theorem State.setCore_mcTimes (s : State) (v : Nat) (c : VCore) : (s.setCore v c).mcTimes = s.mcTimes := rfl
@[simp] theorem State.setCore_reloads (s : State) (v : Nat) (c : VCore) : (s.setCore v c).reloads = s.reloads := rfl
@[simp] theorem State.setCore_goldBad (s : State) (v : Nat) (c : VCore) : (s.setCore v c).goldBad = s.goldBad := rfl
@[simp] theorem State.setCore_seqs (s : State) (v : Nat) (c : VCore) : (s.setCore v c).seqs = s.seqs := rfl
@[simp] theorem State.setCore_gold (s : State) (v : Nat) (c : VCore) : (s.setCore v c).gold = s.gold := rfl
@[simp] theorem State.setCore_mgenAt (s : State) (v : Nat) (c : VCore) : (s.setCore v c).mgenAt = s.mgenAt := rfl
@[simp] theorem State.setCore_kernels (s : State) (v : Nat) (c : VCore) : (s.setCore v c).kernels = s.kernels := rfl
@[simp] theorem State.setCore_duplex (s : State) (v : Nat) (c : VCore) : (s.setCore v c).duplex = s.duplex := rfl
@[simp] theorem State.setCore_lies (s : State) (v : Nat) (c : VCore) : (s.setCore v c).lies = s.lies := rfl
@[simp] theorem State.setCore_kstage (s : State) (v : Nat) (c : VCore) : (s.setCore v c).kstage = s.kstage := rfl
@[simp] theorem State.setCore_dge (s : State) (v : Nat) (c : VCore) : (s.setCore v c).dge = s.dge := rfl
@[simp] theorem State.setCore_prot (s : State) (v : Nat) (c : VCore) : (s.setCore v c).prot = s.prot := rfl
@[simp] theorem State.setCore_power (s : State) (v : Nat) (c : VCore) : (s.setCore v c).power = s.power := rfl
@[simp] theorem State.setCore_boot (s : State) (v : Nat) (c : VCore) : (s.setCore v c).boot = s.boot := rfl
@[simp] theorem State.setCore_tap (s : State) (v : Nat) (c : VCore) : (s.setCore v c).tap = s.tap := rfl
@[simp] theorem State.setCore_dkl (s : State) (v : Nat) (c : VCore) : (s.setCore v c).dkl = s.dkl := rfl
@[simp] theorem State.setCore_streams (s : State) (v : Nat) (c : VCore) : (s.setCore v c).streams = s.streams := rfl
@[simp] theorem State.setCore_frames (s : State) (v : Nat) (c : VCore) : (s.setCore v c).frames = s.frames := rfl
@[simp] theorem State.setCore_imtTaint (s : State) (v : Nat) (c : VCore) : (s.setCore v c).imtTaint = s.imtTaint := rfl
@[simp] theorem State.setCore_out (s : State) (v : Nat) (c : VCore) : (s.setCore v c).out = s.out := rfl
@[simp] theorem State.setCore_free (s : State) (v : Nat) (c : VCore) : (s.setCore v c).free = s.free := rfl
@[simp] theorem State.setCore_pending (s : State) (v : Nat) (c : VCore) : (s.setCore v c).pending = s.pending := rfl

/-! ## setSeq -/

@[simp] theorem State.setSeq_part (s : State) (v : Nat) (q : MicroSeq) : (s.setSeq v q).part = s.part := rfl
@[simp] theorem State.setSeq_grade (s : State) (v : Nat) (q : MicroSeq) : (s.setSeq v q).grade = s.grade := rfl
@[simp] theorem State.setSeq_regs (s : State) (v : Nat) (q : MicroSeq) : (s.setSeq v q).regs = s.regs := rfl
@[simp] theorem State.setSeq_host (s : State) (v : Nat) (q : MicroSeq) : (s.setSeq v q).host = s.host := rfl
@[simp] theorem State.setSeq_pf0Half (s : State) (v : Nat) (q : MicroSeq) : (s.setSeq v q).pf0Half = s.pf0Half := rfl
@[simp] theorem State.setSeq_mpHalf (s : State) (v : Nat) (q : MicroSeq) : (s.setSeq v q).mpHalf = s.mpHalf := rfl
@[simp] theorem State.setSeq_dbgHalf (s : State) (v : Nat) (q : MicroSeq) : (s.setSeq v q).dbgHalf = s.dbgHalf := rfl
@[simp] theorem State.setSeq_mbx (s : State) (v : Nat) (q : MicroSeq) : (s.setSeq v q).mbx = s.mbx := rfl
@[simp] theorem State.setSeq_evr (s : State) (v : Nat) (q : MicroSeq) : (s.setSeq v q).evr = s.evr := rfl
@[simp] theorem State.setSeq_time (s : State) (v : Nat) (q : MicroSeq) : (s.setSeq v q).time = s.time := rfl
@[simp] theorem State.setSeq_rings (s : State) (v : Nat) (q : MicroSeq) : (s.setSeq v q).rings = s.rings := rfl
@[simp] theorem State.setSeq_sched (s : State) (v : Nat) (q : MicroSeq) : (s.setSeq v q).sched = s.sched := rfl
@[simp] theorem State.setSeq_slots (s : State) (v : Nat) (q : MicroSeq) : (s.setSeq v q).slots = s.slots := rfl
@[simp] theorem State.setSeq_otp (s : State) (v : Nat) (q : MicroSeq) : (s.setSeq v q).otp = s.otp := rfl
@[simp] theorem State.setSeq_bbks (s : State) (v : Nat) (q : MicroSeq) : (s.setSeq v q).bbks = s.bbks := rfl
@[simp] theorem State.setSeq_auth (s : State) (v : Nat) (q : MicroSeq) : (s.setSeq v q).auth = s.auth := rfl
@[simp] theorem State.setSeq_rng (s : State) (v : Nat) (q : MicroSeq) : (s.setSeq v q).rng = s.rng := rfl
@[simp] theorem State.setSeq_mgen (s : State) (v : Nat) (q : MicroSeq) : (s.setSeq v q).mgen = s.mgen := rfl
@[simp] theorem State.setSeq_cores (s : State) (v : Nat) (q : MicroSeq) : (s.setSeq v q).cores = s.cores := rfl
@[simp] theorem State.setSeq_shared (s : State) (v : Nat) (q : MicroSeq) : (s.setSeq v q).shared = s.shared := rfl
@[simp] theorem State.setSeq_saves (s : State) (v : Nat) (q : MicroSeq) : (s.setSeq v q).saves = s.saves := rfl
@[simp] theorem State.setSeq_mcTimes (s : State) (v : Nat) (q : MicroSeq) : (s.setSeq v q).mcTimes = s.mcTimes := rfl
@[simp] theorem State.setSeq_reloads (s : State) (v : Nat) (q : MicroSeq) : (s.setSeq v q).reloads = s.reloads := rfl
@[simp] theorem State.setSeq_goldBad (s : State) (v : Nat) (q : MicroSeq) : (s.setSeq v q).goldBad = s.goldBad := rfl
@[simp] theorem State.setSeq_gold (s : State) (v : Nat) (q : MicroSeq) : (s.setSeq v q).gold = s.gold := rfl
@[simp] theorem State.setSeq_mgenAt (s : State) (v : Nat) (q : MicroSeq) : (s.setSeq v q).mgenAt = s.mgenAt := rfl
@[simp] theorem State.setSeq_kernels (s : State) (v : Nat) (q : MicroSeq) : (s.setSeq v q).kernels = s.kernels := rfl
@[simp] theorem State.setSeq_duplex (s : State) (v : Nat) (q : MicroSeq) : (s.setSeq v q).duplex = s.duplex := rfl
@[simp] theorem State.setSeq_lies (s : State) (v : Nat) (q : MicroSeq) : (s.setSeq v q).lies = s.lies := rfl
@[simp] theorem State.setSeq_kstage (s : State) (v : Nat) (q : MicroSeq) : (s.setSeq v q).kstage = s.kstage := rfl
@[simp] theorem State.setSeq_dge (s : State) (v : Nat) (q : MicroSeq) : (s.setSeq v q).dge = s.dge := rfl
@[simp] theorem State.setSeq_prot (s : State) (v : Nat) (q : MicroSeq) : (s.setSeq v q).prot = s.prot := rfl
@[simp] theorem State.setSeq_power (s : State) (v : Nat) (q : MicroSeq) : (s.setSeq v q).power = s.power := rfl
@[simp] theorem State.setSeq_boot (s : State) (v : Nat) (q : MicroSeq) : (s.setSeq v q).boot = s.boot := rfl
@[simp] theorem State.setSeq_tap (s : State) (v : Nat) (q : MicroSeq) : (s.setSeq v q).tap = s.tap := rfl
@[simp] theorem State.setSeq_dkl (s : State) (v : Nat) (q : MicroSeq) : (s.setSeq v q).dkl = s.dkl := rfl
@[simp] theorem State.setSeq_streams (s : State) (v : Nat) (q : MicroSeq) : (s.setSeq v q).streams = s.streams := rfl
@[simp] theorem State.setSeq_frames (s : State) (v : Nat) (q : MicroSeq) : (s.setSeq v q).frames = s.frames := rfl
@[simp] theorem State.setSeq_imtTaint (s : State) (v : Nat) (q : MicroSeq) : (s.setSeq v q).imtTaint = s.imtTaint := rfl
@[simp] theorem State.setSeq_out (s : State) (v : Nat) (q : MicroSeq) : (s.setSeq v q).out = s.out := rfl
@[simp] theorem State.setSeq_free (s : State) (v : Nat) (q : MicroSeq) : (s.setSeq v q).free = s.free := rfl
@[simp] theorem State.setSeq_pending (s : State) (v : Nat) (q : MicroSeq) : (s.setSeq v q).pending = s.pending := rfl

/-! ## setRingx -/

@[simp] theorem State.setRingx_part (s : State) (r : Nat) (x : RingX) : (s.setRingx r x).part = s.part := rfl
@[simp] theorem State.setRingx_grade (s : State) (r : Nat) (x : RingX) : (s.setRingx r x).grade = s.grade := rfl
@[simp] theorem State.setRingx_regs (s : State) (r : Nat) (x : RingX) : (s.setRingx r x).regs = s.regs := rfl
@[simp] theorem State.setRingx_host (s : State) (r : Nat) (x : RingX) : (s.setRingx r x).host = s.host := rfl
@[simp] theorem State.setRingx_pf0Half (s : State) (r : Nat) (x : RingX) : (s.setRingx r x).pf0Half = s.pf0Half := rfl
@[simp] theorem State.setRingx_mpHalf (s : State) (r : Nat) (x : RingX) : (s.setRingx r x).mpHalf = s.mpHalf := rfl
@[simp] theorem State.setRingx_dbgHalf (s : State) (r : Nat) (x : RingX) : (s.setRingx r x).dbgHalf = s.dbgHalf := rfl
@[simp] theorem State.setRingx_mbx (s : State) (r : Nat) (x : RingX) : (s.setRingx r x).mbx = s.mbx := rfl
@[simp] theorem State.setRingx_evr (s : State) (r : Nat) (x : RingX) : (s.setRingx r x).evr = s.evr := rfl
@[simp] theorem State.setRingx_time (s : State) (r : Nat) (x : RingX) : (s.setRingx r x).time = s.time := rfl
@[simp] theorem State.setRingx_sched (s : State) (r : Nat) (x : RingX) : (s.setRingx r x).sched = s.sched := rfl
@[simp] theorem State.setRingx_slots (s : State) (r : Nat) (x : RingX) : (s.setRingx r x).slots = s.slots := rfl
@[simp] theorem State.setRingx_otp (s : State) (r : Nat) (x : RingX) : (s.setRingx r x).otp = s.otp := rfl
@[simp] theorem State.setRingx_bbks (s : State) (r : Nat) (x : RingX) : (s.setRingx r x).bbks = s.bbks := rfl
@[simp] theorem State.setRingx_auth (s : State) (r : Nat) (x : RingX) : (s.setRingx r x).auth = s.auth := rfl
@[simp] theorem State.setRingx_rng (s : State) (r : Nat) (x : RingX) : (s.setRingx r x).rng = s.rng := rfl
@[simp] theorem State.setRingx_mgen (s : State) (r : Nat) (x : RingX) : (s.setRingx r x).mgen = s.mgen := rfl
@[simp] theorem State.setRingx_cores (s : State) (r : Nat) (x : RingX) : (s.setRingx r x).cores = s.cores := rfl
@[simp] theorem State.setRingx_shared (s : State) (r : Nat) (x : RingX) : (s.setRingx r x).shared = s.shared := rfl
@[simp] theorem State.setRingx_saves (s : State) (r : Nat) (x : RingX) : (s.setRingx r x).saves = s.saves := rfl
@[simp] theorem State.setRingx_mcTimes (s : State) (r : Nat) (x : RingX) : (s.setRingx r x).mcTimes = s.mcTimes := rfl
@[simp] theorem State.setRingx_reloads (s : State) (r : Nat) (x : RingX) : (s.setRingx r x).reloads = s.reloads := rfl
@[simp] theorem State.setRingx_goldBad (s : State) (r : Nat) (x : RingX) : (s.setRingx r x).goldBad = s.goldBad := rfl
@[simp] theorem State.setRingx_seqs (s : State) (r : Nat) (x : RingX) : (s.setRingx r x).seqs = s.seqs := rfl
@[simp] theorem State.setRingx_gold (s : State) (r : Nat) (x : RingX) : (s.setRingx r x).gold = s.gold := rfl
@[simp] theorem State.setRingx_mgenAt (s : State) (r : Nat) (x : RingX) : (s.setRingx r x).mgenAt = s.mgenAt := rfl
@[simp] theorem State.setRingx_kernels (s : State) (r : Nat) (x : RingX) : (s.setRingx r x).kernels = s.kernels := rfl
@[simp] theorem State.setRingx_duplex (s : State) (r : Nat) (x : RingX) : (s.setRingx r x).duplex = s.duplex := rfl
@[simp] theorem State.setRingx_lies (s : State) (r : Nat) (x : RingX) : (s.setRingx r x).lies = s.lies := rfl
@[simp] theorem State.setRingx_kstage (s : State) (r : Nat) (x : RingX) : (s.setRingx r x).kstage = s.kstage := rfl
@[simp] theorem State.setRingx_dge (s : State) (r : Nat) (x : RingX) : (s.setRingx r x).dge = s.dge := rfl
@[simp] theorem State.setRingx_prot (s : State) (r : Nat) (x : RingX) : (s.setRingx r x).prot = s.prot := rfl
@[simp] theorem State.setRingx_power (s : State) (r : Nat) (x : RingX) : (s.setRingx r x).power = s.power := rfl
@[simp] theorem State.setRingx_boot (s : State) (r : Nat) (x : RingX) : (s.setRingx r x).boot = s.boot := rfl
@[simp] theorem State.setRingx_tap (s : State) (r : Nat) (x : RingX) : (s.setRingx r x).tap = s.tap := rfl
@[simp] theorem State.setRingx_dkl (s : State) (r : Nat) (x : RingX) : (s.setRingx r x).dkl = s.dkl := rfl
@[simp] theorem State.setRingx_streams (s : State) (r : Nat) (x : RingX) : (s.setRingx r x).streams = s.streams := rfl
@[simp] theorem State.setRingx_frames (s : State) (r : Nat) (x : RingX) : (s.setRingx r x).frames = s.frames := rfl
@[simp] theorem State.setRingx_imtTaint (s : State) (r : Nat) (x : RingX) : (s.setRingx r x).imtTaint = s.imtTaint := rfl
@[simp] theorem State.setRingx_out (s : State) (r : Nat) (x : RingX) : (s.setRingx r x).out = s.out := rfl
@[simp] theorem State.setRingx_free (s : State) (r : Nat) (x : RingX) : (s.setRingx r x).free = s.free := rfl
@[simp] theorem State.setRingx_pending (s : State) (r : Nat) (x : RingX) : (s.setRingx r x).pending = s.pending := rfl

/-! ## setRng -/

@[simp] theorem State.setRng_part (s : State) (d : Nat) (r : RngDie) : (s.setRng d r).part = s.part := rfl
@[simp] theorem State.setRng_grade (s : State) (d : Nat) (r : RngDie) : (s.setRng d r).grade = s.grade := rfl
@[simp] theorem State.setRng_regs (s : State) (d : Nat) (r : RngDie) : (s.setRng d r).regs = s.regs := rfl
@[simp] theorem State.setRng_host (s : State) (d : Nat) (r : RngDie) : (s.setRng d r).host = s.host := rfl
@[simp] theorem State.setRng_pf0Half (s : State) (d : Nat) (r : RngDie) : (s.setRng d r).pf0Half = s.pf0Half := rfl
@[simp] theorem State.setRng_mpHalf (s : State) (d : Nat) (r : RngDie) : (s.setRng d r).mpHalf = s.mpHalf := rfl
@[simp] theorem State.setRng_dbgHalf (s : State) (d : Nat) (r : RngDie) : (s.setRng d r).dbgHalf = s.dbgHalf := rfl
@[simp] theorem State.setRng_mbx (s : State) (d : Nat) (r : RngDie) : (s.setRng d r).mbx = s.mbx := rfl
@[simp] theorem State.setRng_evr (s : State) (d : Nat) (r : RngDie) : (s.setRng d r).evr = s.evr := rfl
@[simp] theorem State.setRng_time (s : State) (d : Nat) (r : RngDie) : (s.setRng d r).time = s.time := rfl
@[simp] theorem State.setRng_rings (s : State) (d : Nat) (r : RngDie) : (s.setRng d r).rings = s.rings := rfl
@[simp] theorem State.setRng_sched (s : State) (d : Nat) (r : RngDie) : (s.setRng d r).sched = s.sched := rfl
@[simp] theorem State.setRng_slots (s : State) (d : Nat) (r : RngDie) : (s.setRng d r).slots = s.slots := rfl
@[simp] theorem State.setRng_otp (s : State) (d : Nat) (r : RngDie) : (s.setRng d r).otp = s.otp := rfl
@[simp] theorem State.setRng_bbks (s : State) (d : Nat) (r : RngDie) : (s.setRng d r).bbks = s.bbks := rfl
@[simp] theorem State.setRng_auth (s : State) (d : Nat) (r : RngDie) : (s.setRng d r).auth = s.auth := rfl
@[simp] theorem State.setRng_mgen (s : State) (d : Nat) (r : RngDie) : (s.setRng d r).mgen = s.mgen := rfl
@[simp] theorem State.setRng_cores (s : State) (d : Nat) (r : RngDie) : (s.setRng d r).cores = s.cores := rfl
@[simp] theorem State.setRng_shared (s : State) (d : Nat) (r : RngDie) : (s.setRng d r).shared = s.shared := rfl
@[simp] theorem State.setRng_saves (s : State) (d : Nat) (r : RngDie) : (s.setRng d r).saves = s.saves := rfl
@[simp] theorem State.setRng_mcTimes (s : State) (d : Nat) (r : RngDie) : (s.setRng d r).mcTimes = s.mcTimes := rfl
@[simp] theorem State.setRng_reloads (s : State) (d : Nat) (r : RngDie) : (s.setRng d r).reloads = s.reloads := rfl
@[simp] theorem State.setRng_goldBad (s : State) (d : Nat) (r : RngDie) : (s.setRng d r).goldBad = s.goldBad := rfl
@[simp] theorem State.setRng_seqs (s : State) (d : Nat) (r : RngDie) : (s.setRng d r).seqs = s.seqs := rfl
@[simp] theorem State.setRng_gold (s : State) (d : Nat) (r : RngDie) : (s.setRng d r).gold = s.gold := rfl
@[simp] theorem State.setRng_mgenAt (s : State) (d : Nat) (r : RngDie) : (s.setRng d r).mgenAt = s.mgenAt := rfl
@[simp] theorem State.setRng_kernels (s : State) (d : Nat) (r : RngDie) : (s.setRng d r).kernels = s.kernels := rfl
@[simp] theorem State.setRng_duplex (s : State) (d : Nat) (r : RngDie) : (s.setRng d r).duplex = s.duplex := rfl
@[simp] theorem State.setRng_lies (s : State) (d : Nat) (r : RngDie) : (s.setRng d r).lies = s.lies := rfl
@[simp] theorem State.setRng_kstage (s : State) (d : Nat) (r : RngDie) : (s.setRng d r).kstage = s.kstage := rfl
@[simp] theorem State.setRng_dge (s : State) (d : Nat) (r : RngDie) : (s.setRng d r).dge = s.dge := rfl
@[simp] theorem State.setRng_prot (s : State) (d : Nat) (r : RngDie) : (s.setRng d r).prot = s.prot := rfl
@[simp] theorem State.setRng_power (s : State) (d : Nat) (r : RngDie) : (s.setRng d r).power = s.power := rfl
@[simp] theorem State.setRng_boot (s : State) (d : Nat) (r : RngDie) : (s.setRng d r).boot = s.boot := rfl
@[simp] theorem State.setRng_tap (s : State) (d : Nat) (r : RngDie) : (s.setRng d r).tap = s.tap := rfl
@[simp] theorem State.setRng_dkl (s : State) (d : Nat) (r : RngDie) : (s.setRng d r).dkl = s.dkl := rfl
@[simp] theorem State.setRng_streams (s : State) (d : Nat) (r : RngDie) : (s.setRng d r).streams = s.streams := rfl
@[simp] theorem State.setRng_frames (s : State) (d : Nat) (r : RngDie) : (s.setRng d r).frames = s.frames := rfl
@[simp] theorem State.setRng_imtTaint (s : State) (d : Nat) (r : RngDie) : (s.setRng d r).imtTaint = s.imtTaint := rfl
@[simp] theorem State.setRng_out (s : State) (d : Nat) (r : RngDie) : (s.setRng d r).out = s.out := rfl
@[simp] theorem State.setRng_free (s : State) (d : Nat) (r : RngDie) : (s.setRng d r).free = s.free := rfl
@[simp] theorem State.setRng_pending (s : State) (d : Nat) (r : RngDie) : (s.setRng d r).pending = s.pending := rfl

/-! ## setDge -/

@[simp] theorem State.setDge_part (s : State) (c : Nat) (x : DgeChan) : (s.setDge c x).part = s.part := rfl
@[simp] theorem State.setDge_grade (s : State) (c : Nat) (x : DgeChan) : (s.setDge c x).grade = s.grade := rfl
@[simp] theorem State.setDge_regs (s : State) (c : Nat) (x : DgeChan) : (s.setDge c x).regs = s.regs := rfl
@[simp] theorem State.setDge_host (s : State) (c : Nat) (x : DgeChan) : (s.setDge c x).host = s.host := rfl
@[simp] theorem State.setDge_pf0Half (s : State) (c : Nat) (x : DgeChan) : (s.setDge c x).pf0Half = s.pf0Half := rfl
@[simp] theorem State.setDge_mpHalf (s : State) (c : Nat) (x : DgeChan) : (s.setDge c x).mpHalf = s.mpHalf := rfl
@[simp] theorem State.setDge_dbgHalf (s : State) (c : Nat) (x : DgeChan) : (s.setDge c x).dbgHalf = s.dbgHalf := rfl
@[simp] theorem State.setDge_mbx (s : State) (c : Nat) (x : DgeChan) : (s.setDge c x).mbx = s.mbx := rfl
@[simp] theorem State.setDge_evr (s : State) (c : Nat) (x : DgeChan) : (s.setDge c x).evr = s.evr := rfl
@[simp] theorem State.setDge_time (s : State) (c : Nat) (x : DgeChan) : (s.setDge c x).time = s.time := rfl
@[simp] theorem State.setDge_rings (s : State) (c : Nat) (x : DgeChan) : (s.setDge c x).rings = s.rings := rfl
@[simp] theorem State.setDge_sched (s : State) (c : Nat) (x : DgeChan) : (s.setDge c x).sched = s.sched := rfl
@[simp] theorem State.setDge_slots (s : State) (c : Nat) (x : DgeChan) : (s.setDge c x).slots = s.slots := rfl
@[simp] theorem State.setDge_otp (s : State) (c : Nat) (x : DgeChan) : (s.setDge c x).otp = s.otp := rfl
@[simp] theorem State.setDge_bbks (s : State) (c : Nat) (x : DgeChan) : (s.setDge c x).bbks = s.bbks := rfl
@[simp] theorem State.setDge_auth (s : State) (c : Nat) (x : DgeChan) : (s.setDge c x).auth = s.auth := rfl
@[simp] theorem State.setDge_rng (s : State) (c : Nat) (x : DgeChan) : (s.setDge c x).rng = s.rng := rfl
@[simp] theorem State.setDge_mgen (s : State) (c : Nat) (x : DgeChan) : (s.setDge c x).mgen = s.mgen := rfl
@[simp] theorem State.setDge_cores (s : State) (c : Nat) (x : DgeChan) : (s.setDge c x).cores = s.cores := rfl
@[simp] theorem State.setDge_shared (s : State) (c : Nat) (x : DgeChan) : (s.setDge c x).shared = s.shared := rfl
@[simp] theorem State.setDge_saves (s : State) (c : Nat) (x : DgeChan) : (s.setDge c x).saves = s.saves := rfl
@[simp] theorem State.setDge_mcTimes (s : State) (c : Nat) (x : DgeChan) : (s.setDge c x).mcTimes = s.mcTimes := rfl
@[simp] theorem State.setDge_reloads (s : State) (c : Nat) (x : DgeChan) : (s.setDge c x).reloads = s.reloads := rfl
@[simp] theorem State.setDge_goldBad (s : State) (c : Nat) (x : DgeChan) : (s.setDge c x).goldBad = s.goldBad := rfl
@[simp] theorem State.setDge_seqs (s : State) (c : Nat) (x : DgeChan) : (s.setDge c x).seqs = s.seqs := rfl
@[simp] theorem State.setDge_gold (s : State) (c : Nat) (x : DgeChan) : (s.setDge c x).gold = s.gold := rfl
@[simp] theorem State.setDge_mgenAt (s : State) (c : Nat) (x : DgeChan) : (s.setDge c x).mgenAt = s.mgenAt := rfl
@[simp] theorem State.setDge_kernels (s : State) (c : Nat) (x : DgeChan) : (s.setDge c x).kernels = s.kernels := rfl
@[simp] theorem State.setDge_duplex (s : State) (c : Nat) (x : DgeChan) : (s.setDge c x).duplex = s.duplex := rfl
@[simp] theorem State.setDge_lies (s : State) (c : Nat) (x : DgeChan) : (s.setDge c x).lies = s.lies := rfl
@[simp] theorem State.setDge_kstage (s : State) (c : Nat) (x : DgeChan) : (s.setDge c x).kstage = s.kstage := rfl
@[simp] theorem State.setDge_prot (s : State) (c : Nat) (x : DgeChan) : (s.setDge c x).prot = s.prot := rfl
@[simp] theorem State.setDge_power (s : State) (c : Nat) (x : DgeChan) : (s.setDge c x).power = s.power := rfl
@[simp] theorem State.setDge_boot (s : State) (c : Nat) (x : DgeChan) : (s.setDge c x).boot = s.boot := rfl
@[simp] theorem State.setDge_tap (s : State) (c : Nat) (x : DgeChan) : (s.setDge c x).tap = s.tap := rfl
@[simp] theorem State.setDge_dkl (s : State) (c : Nat) (x : DgeChan) : (s.setDge c x).dkl = s.dkl := rfl
@[simp] theorem State.setDge_streams (s : State) (c : Nat) (x : DgeChan) : (s.setDge c x).streams = s.streams := rfl
@[simp] theorem State.setDge_frames (s : State) (c : Nat) (x : DgeChan) : (s.setDge c x).frames = s.frames := rfl
@[simp] theorem State.setDge_imtTaint (s : State) (c : Nat) (x : DgeChan) : (s.setDge c x).imtTaint = s.imtTaint := rfl
@[simp] theorem State.setDge_out (s : State) (c : Nat) (x : DgeChan) : (s.setDge c x).out = s.out := rfl
@[simp] theorem State.setDge_free (s : State) (c : Nat) (x : DgeChan) : (s.setDge c x).free = s.free := rfl
@[simp] theorem State.setDge_pending (s : State) (c : Nat) (x : DgeChan) : (s.setDge c x).pending = s.pending := rfl

/-! ## setDkl -/

@[simp] theorem State.setDkl_part (s : State) (k : Nat) (x : Dkl) : (s.setDkl k x).part = s.part := rfl
@[simp] theorem State.setDkl_grade (s : State) (k : Nat) (x : Dkl) : (s.setDkl k x).grade = s.grade := rfl
@[simp] theorem State.setDkl_regs (s : State) (k : Nat) (x : Dkl) : (s.setDkl k x).regs = s.regs := rfl
@[simp] theorem State.setDkl_host (s : State) (k : Nat) (x : Dkl) : (s.setDkl k x).host = s.host := rfl
@[simp] theorem State.setDkl_pf0Half (s : State) (k : Nat) (x : Dkl) : (s.setDkl k x).pf0Half = s.pf0Half := rfl
@[simp] theorem State.setDkl_mpHalf (s : State) (k : Nat) (x : Dkl) : (s.setDkl k x).mpHalf = s.mpHalf := rfl
@[simp] theorem State.setDkl_dbgHalf (s : State) (k : Nat) (x : Dkl) : (s.setDkl k x).dbgHalf = s.dbgHalf := rfl
@[simp] theorem State.setDkl_mbx (s : State) (k : Nat) (x : Dkl) : (s.setDkl k x).mbx = s.mbx := rfl
@[simp] theorem State.setDkl_evr (s : State) (k : Nat) (x : Dkl) : (s.setDkl k x).evr = s.evr := rfl
@[simp] theorem State.setDkl_time (s : State) (k : Nat) (x : Dkl) : (s.setDkl k x).time = s.time := rfl
@[simp] theorem State.setDkl_rings (s : State) (k : Nat) (x : Dkl) : (s.setDkl k x).rings = s.rings := rfl
@[simp] theorem State.setDkl_sched (s : State) (k : Nat) (x : Dkl) : (s.setDkl k x).sched = s.sched := rfl
@[simp] theorem State.setDkl_slots (s : State) (k : Nat) (x : Dkl) : (s.setDkl k x).slots = s.slots := rfl
@[simp] theorem State.setDkl_otp (s : State) (k : Nat) (x : Dkl) : (s.setDkl k x).otp = s.otp := rfl
@[simp] theorem State.setDkl_bbks (s : State) (k : Nat) (x : Dkl) : (s.setDkl k x).bbks = s.bbks := rfl
@[simp] theorem State.setDkl_auth (s : State) (k : Nat) (x : Dkl) : (s.setDkl k x).auth = s.auth := rfl
@[simp] theorem State.setDkl_rng (s : State) (k : Nat) (x : Dkl) : (s.setDkl k x).rng = s.rng := rfl
@[simp] theorem State.setDkl_mgen (s : State) (k : Nat) (x : Dkl) : (s.setDkl k x).mgen = s.mgen := rfl
@[simp] theorem State.setDkl_cores (s : State) (k : Nat) (x : Dkl) : (s.setDkl k x).cores = s.cores := rfl
@[simp] theorem State.setDkl_shared (s : State) (k : Nat) (x : Dkl) : (s.setDkl k x).shared = s.shared := rfl
@[simp] theorem State.setDkl_saves (s : State) (k : Nat) (x : Dkl) : (s.setDkl k x).saves = s.saves := rfl
@[simp] theorem State.setDkl_mcTimes (s : State) (k : Nat) (x : Dkl) : (s.setDkl k x).mcTimes = s.mcTimes := rfl
@[simp] theorem State.setDkl_reloads (s : State) (k : Nat) (x : Dkl) : (s.setDkl k x).reloads = s.reloads := rfl
@[simp] theorem State.setDkl_goldBad (s : State) (k : Nat) (x : Dkl) : (s.setDkl k x).goldBad = s.goldBad := rfl
@[simp] theorem State.setDkl_seqs (s : State) (k : Nat) (x : Dkl) : (s.setDkl k x).seqs = s.seqs := rfl
@[simp] theorem State.setDkl_gold (s : State) (k : Nat) (x : Dkl) : (s.setDkl k x).gold = s.gold := rfl
@[simp] theorem State.setDkl_mgenAt (s : State) (k : Nat) (x : Dkl) : (s.setDkl k x).mgenAt = s.mgenAt := rfl
@[simp] theorem State.setDkl_kernels (s : State) (k : Nat) (x : Dkl) : (s.setDkl k x).kernels = s.kernels := rfl
@[simp] theorem State.setDkl_duplex (s : State) (k : Nat) (x : Dkl) : (s.setDkl k x).duplex = s.duplex := rfl
@[simp] theorem State.setDkl_lies (s : State) (k : Nat) (x : Dkl) : (s.setDkl k x).lies = s.lies := rfl
@[simp] theorem State.setDkl_kstage (s : State) (k : Nat) (x : Dkl) : (s.setDkl k x).kstage = s.kstage := rfl
@[simp] theorem State.setDkl_dge (s : State) (k : Nat) (x : Dkl) : (s.setDkl k x).dge = s.dge := rfl
@[simp] theorem State.setDkl_prot (s : State) (k : Nat) (x : Dkl) : (s.setDkl k x).prot = s.prot := rfl
@[simp] theorem State.setDkl_power (s : State) (k : Nat) (x : Dkl) : (s.setDkl k x).power = s.power := rfl
@[simp] theorem State.setDkl_boot (s : State) (k : Nat) (x : Dkl) : (s.setDkl k x).boot = s.boot := rfl
@[simp] theorem State.setDkl_tap (s : State) (k : Nat) (x : Dkl) : (s.setDkl k x).tap = s.tap := rfl
@[simp] theorem State.setDkl_streams (s : State) (k : Nat) (x : Dkl) : (s.setDkl k x).streams = s.streams := rfl
@[simp] theorem State.setDkl_frames (s : State) (k : Nat) (x : Dkl) : (s.setDkl k x).frames = s.frames := rfl
@[simp] theorem State.setDkl_imtTaint (s : State) (k : Nat) (x : Dkl) : (s.setDkl k x).imtTaint = s.imtTaint := rfl
@[simp] theorem State.setDkl_out (s : State) (k : Nat) (x : Dkl) : (s.setDkl k x).out = s.out := rfl
@[simp] theorem State.setDkl_free (s : State) (k : Nat) (x : Dkl) : (s.setDkl k x).free = s.free := rfl
@[simp] theorem State.setDkl_pending (s : State) (k : Nat) (x : Dkl) : (s.setDkl k x).pending = s.pending := rfl

/-! ## setKernel -/

@[simp] theorem State.setKernel_part (s : State) (i : Nat) (k : Kernel) : (s.setKernel i k).part = s.part := rfl
@[simp] theorem State.setKernel_grade (s : State) (i : Nat) (k : Kernel) : (s.setKernel i k).grade = s.grade := rfl
@[simp] theorem State.setKernel_regs (s : State) (i : Nat) (k : Kernel) : (s.setKernel i k).regs = s.regs := rfl
@[simp] theorem State.setKernel_host (s : State) (i : Nat) (k : Kernel) : (s.setKernel i k).host = s.host := rfl
@[simp] theorem State.setKernel_pf0Half (s : State) (i : Nat) (k : Kernel) : (s.setKernel i k).pf0Half = s.pf0Half := rfl
@[simp] theorem State.setKernel_mpHalf (s : State) (i : Nat) (k : Kernel) : (s.setKernel i k).mpHalf = s.mpHalf := rfl
@[simp] theorem State.setKernel_dbgHalf (s : State) (i : Nat) (k : Kernel) : (s.setKernel i k).dbgHalf = s.dbgHalf := rfl
@[simp] theorem State.setKernel_mbx (s : State) (i : Nat) (k : Kernel) : (s.setKernel i k).mbx = s.mbx := rfl
@[simp] theorem State.setKernel_evr (s : State) (i : Nat) (k : Kernel) : (s.setKernel i k).evr = s.evr := rfl
@[simp] theorem State.setKernel_time (s : State) (i : Nat) (k : Kernel) : (s.setKernel i k).time = s.time := rfl
@[simp] theorem State.setKernel_rings (s : State) (i : Nat) (k : Kernel) : (s.setKernel i k).rings = s.rings := rfl
@[simp] theorem State.setKernel_sched (s : State) (i : Nat) (k : Kernel) : (s.setKernel i k).sched = s.sched := rfl
@[simp] theorem State.setKernel_slots (s : State) (i : Nat) (k : Kernel) : (s.setKernel i k).slots = s.slots := rfl
@[simp] theorem State.setKernel_otp (s : State) (i : Nat) (k : Kernel) : (s.setKernel i k).otp = s.otp := rfl
@[simp] theorem State.setKernel_bbks (s : State) (i : Nat) (k : Kernel) : (s.setKernel i k).bbks = s.bbks := rfl
@[simp] theorem State.setKernel_auth (s : State) (i : Nat) (k : Kernel) : (s.setKernel i k).auth = s.auth := rfl
@[simp] theorem State.setKernel_rng (s : State) (i : Nat) (k : Kernel) : (s.setKernel i k).rng = s.rng := rfl
@[simp] theorem State.setKernel_mgen (s : State) (i : Nat) (k : Kernel) : (s.setKernel i k).mgen = s.mgen := rfl
@[simp] theorem State.setKernel_cores (s : State) (i : Nat) (k : Kernel) : (s.setKernel i k).cores = s.cores := rfl
@[simp] theorem State.setKernel_shared (s : State) (i : Nat) (k : Kernel) : (s.setKernel i k).shared = s.shared := rfl
@[simp] theorem State.setKernel_saves (s : State) (i : Nat) (k : Kernel) : (s.setKernel i k).saves = s.saves := rfl
@[simp] theorem State.setKernel_mcTimes (s : State) (i : Nat) (k : Kernel) : (s.setKernel i k).mcTimes = s.mcTimes := rfl
@[simp] theorem State.setKernel_reloads (s : State) (i : Nat) (k : Kernel) : (s.setKernel i k).reloads = s.reloads := rfl
@[simp] theorem State.setKernel_goldBad (s : State) (i : Nat) (k : Kernel) : (s.setKernel i k).goldBad = s.goldBad := rfl
@[simp] theorem State.setKernel_seqs (s : State) (i : Nat) (k : Kernel) : (s.setKernel i k).seqs = s.seqs := rfl
@[simp] theorem State.setKernel_gold (s : State) (i : Nat) (k : Kernel) : (s.setKernel i k).gold = s.gold := rfl
@[simp] theorem State.setKernel_mgenAt (s : State) (i : Nat) (k : Kernel) : (s.setKernel i k).mgenAt = s.mgenAt := rfl
@[simp] theorem State.setKernel_duplex (s : State) (i : Nat) (k : Kernel) : (s.setKernel i k).duplex = s.duplex := rfl
@[simp] theorem State.setKernel_lies (s : State) (i : Nat) (k : Kernel) : (s.setKernel i k).lies = s.lies := rfl
@[simp] theorem State.setKernel_kstage (s : State) (i : Nat) (k : Kernel) : (s.setKernel i k).kstage = s.kstage := rfl
@[simp] theorem State.setKernel_dge (s : State) (i : Nat) (k : Kernel) : (s.setKernel i k).dge = s.dge := rfl
@[simp] theorem State.setKernel_prot (s : State) (i : Nat) (k : Kernel) : (s.setKernel i k).prot = s.prot := rfl
@[simp] theorem State.setKernel_power (s : State) (i : Nat) (k : Kernel) : (s.setKernel i k).power = s.power := rfl
@[simp] theorem State.setKernel_boot (s : State) (i : Nat) (k : Kernel) : (s.setKernel i k).boot = s.boot := rfl
@[simp] theorem State.setKernel_tap (s : State) (i : Nat) (k : Kernel) : (s.setKernel i k).tap = s.tap := rfl
@[simp] theorem State.setKernel_dkl (s : State) (i : Nat) (k : Kernel) : (s.setKernel i k).dkl = s.dkl := rfl
@[simp] theorem State.setKernel_streams (s : State) (i : Nat) (k : Kernel) : (s.setKernel i k).streams = s.streams := rfl
@[simp] theorem State.setKernel_frames (s : State) (i : Nat) (k : Kernel) : (s.setKernel i k).frames = s.frames := rfl
@[simp] theorem State.setKernel_imtTaint (s : State) (i : Nat) (k : Kernel) : (s.setKernel i k).imtTaint = s.imtTaint := rfl
@[simp] theorem State.setKernel_out (s : State) (i : Nat) (k : Kernel) : (s.setKernel i k).out = s.out := rfl
@[simp] theorem State.setKernel_free (s : State) (i : Nat) (k : Kernel) : (s.setKernel i k).free = s.free := rfl
@[simp] theorem State.setKernel_pending (s : State) (i : Nat) (k : Kernel) : (s.setKernel i k).pending = s.pending := rfl

/-! ## setLie -/

@[simp] theorem State.setLie_part (s : State) (k : Nat) (x : LieX) : (s.setLie k x).part = s.part := rfl
@[simp] theorem State.setLie_grade (s : State) (k : Nat) (x : LieX) : (s.setLie k x).grade = s.grade := rfl
@[simp] theorem State.setLie_regs (s : State) (k : Nat) (x : LieX) : (s.setLie k x).regs = s.regs := rfl
@[simp] theorem State.setLie_host (s : State) (k : Nat) (x : LieX) : (s.setLie k x).host = s.host := rfl
@[simp] theorem State.setLie_pf0Half (s : State) (k : Nat) (x : LieX) : (s.setLie k x).pf0Half = s.pf0Half := rfl
@[simp] theorem State.setLie_mpHalf (s : State) (k : Nat) (x : LieX) : (s.setLie k x).mpHalf = s.mpHalf := rfl
@[simp] theorem State.setLie_dbgHalf (s : State) (k : Nat) (x : LieX) : (s.setLie k x).dbgHalf = s.dbgHalf := rfl
@[simp] theorem State.setLie_mbx (s : State) (k : Nat) (x : LieX) : (s.setLie k x).mbx = s.mbx := rfl
@[simp] theorem State.setLie_evr (s : State) (k : Nat) (x : LieX) : (s.setLie k x).evr = s.evr := rfl
@[simp] theorem State.setLie_time (s : State) (k : Nat) (x : LieX) : (s.setLie k x).time = s.time := rfl
@[simp] theorem State.setLie_rings (s : State) (k : Nat) (x : LieX) : (s.setLie k x).rings = s.rings := rfl
@[simp] theorem State.setLie_sched (s : State) (k : Nat) (x : LieX) : (s.setLie k x).sched = s.sched := rfl
@[simp] theorem State.setLie_slots (s : State) (k : Nat) (x : LieX) : (s.setLie k x).slots = s.slots := rfl
@[simp] theorem State.setLie_otp (s : State) (k : Nat) (x : LieX) : (s.setLie k x).otp = s.otp := rfl
@[simp] theorem State.setLie_bbks (s : State) (k : Nat) (x : LieX) : (s.setLie k x).bbks = s.bbks := rfl
@[simp] theorem State.setLie_auth (s : State) (k : Nat) (x : LieX) : (s.setLie k x).auth = s.auth := rfl
@[simp] theorem State.setLie_rng (s : State) (k : Nat) (x : LieX) : (s.setLie k x).rng = s.rng := rfl
@[simp] theorem State.setLie_mgen (s : State) (k : Nat) (x : LieX) : (s.setLie k x).mgen = s.mgen := rfl
@[simp] theorem State.setLie_cores (s : State) (k : Nat) (x : LieX) : (s.setLie k x).cores = s.cores := rfl
@[simp] theorem State.setLie_shared (s : State) (k : Nat) (x : LieX) : (s.setLie k x).shared = s.shared := rfl
@[simp] theorem State.setLie_saves (s : State) (k : Nat) (x : LieX) : (s.setLie k x).saves = s.saves := rfl
@[simp] theorem State.setLie_mcTimes (s : State) (k : Nat) (x : LieX) : (s.setLie k x).mcTimes = s.mcTimes := rfl
@[simp] theorem State.setLie_reloads (s : State) (k : Nat) (x : LieX) : (s.setLie k x).reloads = s.reloads := rfl
@[simp] theorem State.setLie_goldBad (s : State) (k : Nat) (x : LieX) : (s.setLie k x).goldBad = s.goldBad := rfl
@[simp] theorem State.setLie_seqs (s : State) (k : Nat) (x : LieX) : (s.setLie k x).seqs = s.seqs := rfl
@[simp] theorem State.setLie_gold (s : State) (k : Nat) (x : LieX) : (s.setLie k x).gold = s.gold := rfl
@[simp] theorem State.setLie_mgenAt (s : State) (k : Nat) (x : LieX) : (s.setLie k x).mgenAt = s.mgenAt := rfl
@[simp] theorem State.setLie_kernels (s : State) (k : Nat) (x : LieX) : (s.setLie k x).kernels = s.kernels := rfl
@[simp] theorem State.setLie_duplex (s : State) (k : Nat) (x : LieX) : (s.setLie k x).duplex = s.duplex := rfl
@[simp] theorem State.setLie_kstage (s : State) (k : Nat) (x : LieX) : (s.setLie k x).kstage = s.kstage := rfl
@[simp] theorem State.setLie_dge (s : State) (k : Nat) (x : LieX) : (s.setLie k x).dge = s.dge := rfl
@[simp] theorem State.setLie_prot (s : State) (k : Nat) (x : LieX) : (s.setLie k x).prot = s.prot := rfl
@[simp] theorem State.setLie_power (s : State) (k : Nat) (x : LieX) : (s.setLie k x).power = s.power := rfl
@[simp] theorem State.setLie_boot (s : State) (k : Nat) (x : LieX) : (s.setLie k x).boot = s.boot := rfl
@[simp] theorem State.setLie_tap (s : State) (k : Nat) (x : LieX) : (s.setLie k x).tap = s.tap := rfl
@[simp] theorem State.setLie_dkl (s : State) (k : Nat) (x : LieX) : (s.setLie k x).dkl = s.dkl := rfl
@[simp] theorem State.setLie_streams (s : State) (k : Nat) (x : LieX) : (s.setLie k x).streams = s.streams := rfl
@[simp] theorem State.setLie_frames (s : State) (k : Nat) (x : LieX) : (s.setLie k x).frames = s.frames := rfl
@[simp] theorem State.setLie_imtTaint (s : State) (k : Nat) (x : LieX) : (s.setLie k x).imtTaint = s.imtTaint := rfl
@[simp] theorem State.setLie_out (s : State) (k : Nat) (x : LieX) : (s.setLie k x).out = s.out := rfl
@[simp] theorem State.setLie_free (s : State) (k : Nat) (x : LieX) : (s.setLie k x).free = s.free := rfl
@[simp] theorem State.setLie_pending (s : State) (k : Nat) (x : LieX) : (s.setLie k x).pending = s.pending := rfl

/-! ## setStream -/

@[simp] theorem State.setStream_part (s : State) (n : Nat) (x : Stream) : (s.setStream n x).part = s.part := rfl
@[simp] theorem State.setStream_grade (s : State) (n : Nat) (x : Stream) : (s.setStream n x).grade = s.grade := rfl
@[simp] theorem State.setStream_regs (s : State) (n : Nat) (x : Stream) : (s.setStream n x).regs = s.regs := rfl
@[simp] theorem State.setStream_host (s : State) (n : Nat) (x : Stream) : (s.setStream n x).host = s.host := rfl
@[simp] theorem State.setStream_pf0Half (s : State) (n : Nat) (x : Stream) : (s.setStream n x).pf0Half = s.pf0Half := rfl
@[simp] theorem State.setStream_mpHalf (s : State) (n : Nat) (x : Stream) : (s.setStream n x).mpHalf = s.mpHalf := rfl
@[simp] theorem State.setStream_dbgHalf (s : State) (n : Nat) (x : Stream) : (s.setStream n x).dbgHalf = s.dbgHalf := rfl
@[simp] theorem State.setStream_mbx (s : State) (n : Nat) (x : Stream) : (s.setStream n x).mbx = s.mbx := rfl
@[simp] theorem State.setStream_evr (s : State) (n : Nat) (x : Stream) : (s.setStream n x).evr = s.evr := rfl
@[simp] theorem State.setStream_time (s : State) (n : Nat) (x : Stream) : (s.setStream n x).time = s.time := rfl
@[simp] theorem State.setStream_rings (s : State) (n : Nat) (x : Stream) : (s.setStream n x).rings = s.rings := rfl
@[simp] theorem State.setStream_sched (s : State) (n : Nat) (x : Stream) : (s.setStream n x).sched = s.sched := rfl
@[simp] theorem State.setStream_slots (s : State) (n : Nat) (x : Stream) : (s.setStream n x).slots = s.slots := rfl
@[simp] theorem State.setStream_otp (s : State) (n : Nat) (x : Stream) : (s.setStream n x).otp = s.otp := rfl
@[simp] theorem State.setStream_bbks (s : State) (n : Nat) (x : Stream) : (s.setStream n x).bbks = s.bbks := rfl
@[simp] theorem State.setStream_auth (s : State) (n : Nat) (x : Stream) : (s.setStream n x).auth = s.auth := rfl
@[simp] theorem State.setStream_rng (s : State) (n : Nat) (x : Stream) : (s.setStream n x).rng = s.rng := rfl
@[simp] theorem State.setStream_mgen (s : State) (n : Nat) (x : Stream) : (s.setStream n x).mgen = s.mgen := rfl
@[simp] theorem State.setStream_cores (s : State) (n : Nat) (x : Stream) : (s.setStream n x).cores = s.cores := rfl
@[simp] theorem State.setStream_shared (s : State) (n : Nat) (x : Stream) : (s.setStream n x).shared = s.shared := rfl
@[simp] theorem State.setStream_saves (s : State) (n : Nat) (x : Stream) : (s.setStream n x).saves = s.saves := rfl
@[simp] theorem State.setStream_mcTimes (s : State) (n : Nat) (x : Stream) : (s.setStream n x).mcTimes = s.mcTimes := rfl
@[simp] theorem State.setStream_reloads (s : State) (n : Nat) (x : Stream) : (s.setStream n x).reloads = s.reloads := rfl
@[simp] theorem State.setStream_goldBad (s : State) (n : Nat) (x : Stream) : (s.setStream n x).goldBad = s.goldBad := rfl
@[simp] theorem State.setStream_seqs (s : State) (n : Nat) (x : Stream) : (s.setStream n x).seqs = s.seqs := rfl
@[simp] theorem State.setStream_gold (s : State) (n : Nat) (x : Stream) : (s.setStream n x).gold = s.gold := rfl
@[simp] theorem State.setStream_mgenAt (s : State) (n : Nat) (x : Stream) : (s.setStream n x).mgenAt = s.mgenAt := rfl
@[simp] theorem State.setStream_kernels (s : State) (n : Nat) (x : Stream) : (s.setStream n x).kernels = s.kernels := rfl
@[simp] theorem State.setStream_duplex (s : State) (n : Nat) (x : Stream) : (s.setStream n x).duplex = s.duplex := rfl
@[simp] theorem State.setStream_lies (s : State) (n : Nat) (x : Stream) : (s.setStream n x).lies = s.lies := rfl
@[simp] theorem State.setStream_kstage (s : State) (n : Nat) (x : Stream) : (s.setStream n x).kstage = s.kstage := rfl
@[simp] theorem State.setStream_dge (s : State) (n : Nat) (x : Stream) : (s.setStream n x).dge = s.dge := rfl
@[simp] theorem State.setStream_prot (s : State) (n : Nat) (x : Stream) : (s.setStream n x).prot = s.prot := rfl
@[simp] theorem State.setStream_power (s : State) (n : Nat) (x : Stream) : (s.setStream n x).power = s.power := rfl
@[simp] theorem State.setStream_boot (s : State) (n : Nat) (x : Stream) : (s.setStream n x).boot = s.boot := rfl
@[simp] theorem State.setStream_tap (s : State) (n : Nat) (x : Stream) : (s.setStream n x).tap = s.tap := rfl
@[simp] theorem State.setStream_dkl (s : State) (n : Nat) (x : Stream) : (s.setStream n x).dkl = s.dkl := rfl
@[simp] theorem State.setStream_frames (s : State) (n : Nat) (x : Stream) : (s.setStream n x).frames = s.frames := rfl
@[simp] theorem State.setStream_imtTaint (s : State) (n : Nat) (x : Stream) : (s.setStream n x).imtTaint = s.imtTaint := rfl
@[simp] theorem State.setStream_out (s : State) (n : Nat) (x : Stream) : (s.setStream n x).out = s.out := rfl
@[simp] theorem State.setStream_free (s : State) (n : Nat) (x : Stream) : (s.setStream n x).free = s.free := rfl
@[simp] theorem State.setStream_pending (s : State) (n : Nat) (x : Stream) : (s.setStream n x).pending = s.pending := rfl

/-! ## What the setters wrote -/

@[simp] theorem State.emitLocal_out (s : State) (m : OutMsg) : (s.emitLocal m).out = s.out ++ [m] := rfl
@[simp] theorem State.core_setCore_same (s : State) (v : Nat) (c : VCore) : (s.setCore v c).core v = c := sparseGet_set_same _ _ _ _
theorem State.core_setCore_other (s : State) (v w : Nat) (c : VCore) (h : w ≠ v) : (s.setCore v c).core w = s.core w :=
  sparseGet_set_other _ _ _ _ _ _ h
@[simp] theorem State.seqOf_setSeq_same (s : State) (v : Nat) (q : MicroSeq) : (s.setSeq v q).seqOf v = q :=
  sparseGet_set_same _ _ _ _
@[simp] theorem State.ringx_setRingx_same (s : State) (r : Nat) (x : RingX) : (s.setRingx r x).ringx r = x := sparseGet_set_same _ _ _ _
theorem State.ringx_setRingx_other (s : State) (r q : Nat) (x : RingX) (h : q ≠ r) : (s.setRingx r x).ringx q = s.ringx q :=
  sparseGet_set_other _ _ _ _ _ _ h
@[simp] theorem State.rngOf_setRng_same (s : State) (d : Nat) (r : RngDie) : (s.setRng d r).rngOf d = r := sparseGet_set_same _ _ _ _
theorem State.rngOf_setRng_other (s : State) (d e : Nat) (r : RngDie) (h : e ≠ d) : (s.setRng d r).rngOf e = s.rngOf e :=
  sparseGet_set_other _ _ _ _ _ _ h
@[simp] theorem State.dgeAt_setDge_same (s : State) (c : Nat) (x : DgeChan) : (s.setDge c x).dgeAt c = x := sparseGet_set_same _ _ _ _
@[simp] theorem State.dklAt_setDkl_same (s : State) (k : Nat) (x : Dkl) : (s.setDkl k x).dklAt k = x := sparseGet_set_same _ _ _ _
@[simp] theorem State.kernelAt_setKernel_same (s : State) (i : Nat) (k : Kernel) : (s.setKernel i k).kernelAt i = k :=
  sparseGet_set_same _ _ _ _
@[simp] theorem State.stream_setStream_same (s : State) (n : Nat) (x : Stream) : (s.setStream n x).stream n = x :=
  sparseGet_set_same _ _ _ _
theorem State.stream_setStream_other (s : State) (n m : Nat) (x : Stream) (h : m ≠ n) : (s.setStream n x).stream m = s.stream m :=
  sparseGet_set_other _ _ _ _ _ _ h

end Sys2Proof.Machine
end

