-- ==== Sys2Proof/Laws/Ops.lean ====
section
/-!
SUPPORT. What each shared operation can do, said once: messages, vectors, events, the passing of time, mailbox answers and
commands, and the step.
-/

namespace Sys2Proof.Machine

/-! ## Folds -/

/-- A property that every turn of a fold keeps holds at its end. -/
theorem foldl_keeps {σ α : Type} (P : σ → Prop) (f : σ → α → σ) (hf : ∀ s a, P s → P (f s a)) (l : List α) (s : σ) (h : P s) :
    P (l.foldl f s) := by
  induction l generalizing s with
  | nil => exact h
  | cons a t ih => exact ih _ (hf s a h)

/-- A part of the state that no turn of a fold touches is the same at its end. -/
theorem foldl_same {σ α β : Type} (g : σ → β) (f : σ → α → σ) (hf : ∀ s a, g (f s a) = g s) (l : List α) (s : σ) :
    g (l.foldl f s) = g s :=
  foldl_keeps (fun x => g x = g s) f (fun x a hx => (hf x a).trans hx) l s rfl

/-! ## Messages and vectors -/

/-- A message leaves the device, or waits while DMA is closed (R78). -/
theorem State.emit_cases (s : State) (m : OutMsg) :
    (s.dmaOpen = true ∧ s.emit m = { s with out := s.out ++ [m] }) ∨
      (s.dmaOpen = false ∧ s.emit m = { s with host := { s.host with waiting := s.host.waiting ++ [m] } }) := by
  unfold State.emit
  split
  · exact .inl ⟨‹_›, rfl⟩
  · rename_i h
    exact .inr ⟨by simpa using h, rfl⟩

theorem State.emit_frame (s : State) (m : OutMsg) : s.emit m = { s with out := (s.emit m).out, host := (s.emit m).host } := by
  rcases s.emit_cases m with ⟨_, h⟩ | ⟨_, h⟩ <;> rw [h]

/-- A vector changes what leaves the device and its pending bits, and nothing else. -/
theorem State.vector_frame (s : State) (v : Nat) :
    s.vector v = { s with out := (s.vector v).out, host := (s.vector v).host } := by
  unfold State.vector
  split
  · exact s.emit_frame _
  · rfl

@[simp] theorem State.vector_regs (s : State) (v : Nat) : (s.vector v).regs = s.regs := by rw [s.vector_frame v]
@[simp] theorem State.vector_evr (s : State) (v : Nat) : (s.vector v).evr = s.evr := by rw [s.vector_frame v]
@[simp] theorem State.vector_mbx (s : State) (v : Nat) : (s.vector v).mbx = s.mbx := by rw [s.vector_frame v]
@[simp] theorem State.vector_otp (s : State) (v : Nat) : (s.vector v).otp = s.otp := by rw [s.vector_frame v]
@[simp] theorem State.vector_part (s : State) (v : Nat) : (s.vector v).part = s.part := by rw [s.vector_frame v]
@[simp] theorem State.vector_grade (s : State) (v : Nat) : (s.vector v).grade = s.grade := by rw [s.vector_frame v]
@[simp] theorem State.vector_pending (s : State) (v : Nat) : (s.vector v).pending = s.pending := by rw [s.vector_frame v]

@[simp] theorem State.vector_reg (s : State) (v : Nat) (k : RegKind) (i : Nat) : (s.vector v).reg k i = s.reg k i := by
  simp [State.reg, State.regDefault]

/-! ## Events -/

/-- An event waits in the intake FIFO, or is counted as lost (R449, R453). -/
theorem State.event_cases (s : State) (code sev die unit d0 d1 d2 : Nat) :
    (s.evr.fifo.length < 64 ∧ ∃ e : EvRec, e.code = code ∧ e.chan = eventChannel code ∧ e.sev = sev ∧ e.d0 = d0 % 2 ^ 32 ∧
      e.d1 = d1 % 2 ^ 32 ∧ e.d2 = d2 % 2 ^ 32 ∧
      s.event code sev die unit d0 d1 d2 = { s with evr := { s.evr with fifo := s.evr.fifo ++ [e] } }) ∨
    (64 ≤ s.evr.fifo.length ∧ s.event code sev die unit d0 d1 d2 = s.fadd .EVR_LOST_COUNT (eventChannel code) 1) := by
  unfold State.event
  by_cases h : s.evr.fifo.length < 64
  · refine .inl ⟨h, { time := s.replicaNow die, seq := 0, code := code, chan := eventChannel code, sev := sev,
                      src := die * 32 + unit, d0 := d0 % 2 ^ 32, d1 := d1 % 2 ^ 32, d2 := d2 % 2 ^ 32, rep := 0, last := 0 },
      rfl, rfl, rfl, rfl, rfl, rfl, ?_⟩
    simp only [h, if_true]
  · exact .inr ⟨by omega, by simp only [h, if_false]⟩

/-- An event changes the recorder's intake, or the counter of lost events, and nothing else. -/
theorem State.event_frame (s : State) (code sev die unit d0 d1 d2 : Nat) :
    s.event code sev die unit d0 d1 d2 =
      { s with
        evr := (s.event code sev die unit d0 d1 d2).evr
        regs := (s.event code sev die unit d0 d1 d2).regs } := by
  rcases s.event_cases code sev die unit d0 d1 d2 with ⟨_, e, _, _, _, _, _, _, h⟩ | ⟨_, h⟩ <;> rw [h] <;> rfl

/-- Every register but the counters of lost events keeps its word through an event. -/
theorem State.reg_event_other (s : State) (code sev die unit d0 d1 d2 : Nat) (k : RegKind) (i : Nat) (hk : k ≠ .EVR_LOST) :
    (s.event code sev die unit d0 d1 d2).reg k i = s.reg k i := by
  rcases s.event_cases code sev die unit d0 d1 d2 with ⟨_, e, _, _, _, _, _, _, h⟩ | ⟨_, h⟩ <;> rw [h]
  · rfl
  · exact State.reg_fadd_other _ _ _ _ _ _ (fun e => hk e.1)

@[simp] theorem State.event_otp (s : State) (code sev die unit d0 d1 d2 : Nat) :
    (s.event code sev die unit d0 d1 d2).otp = s.otp := by rw [State.event_frame]
@[simp] theorem State.event_mbx (s : State) (code sev die unit d0 d1 d2 : Nat) :
    (s.event code sev die unit d0 d1 d2).mbx = s.mbx := by rw [State.event_frame]
@[simp] theorem State.event_out (s : State) (code sev die unit d0 d1 d2 : Nat) :
    (s.event code sev die unit d0 d1 d2).out = s.out := by rw [State.event_frame]
@[simp] theorem State.event_pending (s : State) (code sev die unit d0 d1 d2 : Nat) :
    (s.event code sev die unit d0 d1 d2).pending = s.pending := by rw [State.event_frame]

/-! ## Time -/

/-- Time moves only the clocks; a tick counts once for each 0.5 ns. -/
theorem State.tick_frame (s : State) (n : Nat) : s.tick n = { s with time := (s.tick n).time } := rfl

@[simp] theorem State.tick_ticks (s : State) (n : Nat) : (s.tick n).time.ticks = s.time.ticks + n := rfl

theorem State.elapse_frame (s : State) (dt : Nat) : s.elapse dt = { s with time := (s.elapse dt).time } := rfl

@[simp] theorem State.elapse_ticks (s : State) (dt : Nat) : (s.elapse dt).time.ticks = s.time.ticks + 2 * dt := rfl

@[simp] theorem State.reg_elapse (s : State) (dt : Nat) (k : RegKind) (i : Nat) : (s.elapse dt).reg k i = s.reg k i := rfl

/-! ## The mailbox -/

/-- An answer while no command runs has no effect. -/
theorem State.respond_idle (s : State) (st dt : Nat) (p : Bytes) (h : s.mbx.phase = .idle) : s.respond st dt p = s := by
  simp [State.respond, h]

/-- An answer changes the mailbox and its registers, and what leaves the device. -/
theorem State.respond_frame (s : State) (st dt : Nat) (p : Bytes) :
    s.respond st dt p = { s with
      regs := (s.respond st dt p).regs
      mbx := (s.respond st dt p).mbx
      host := (s.respond st dt p).host
      out := (s.respond st dt p).out } := by
  unfold State.respond
  split
  · rfl
  · dsimp only
    split <;> split <;> first | rfl | (rw [State.vector_frame]; rfl)

@[simp] theorem State.respond_otp (s : State) (st dt : Nat) (p : Bytes) : (s.respond st dt p).otp = s.otp := by
  rw [State.respond_frame]
@[simp] theorem State.respond_evr (s : State) (st dt : Nat) (p : Bytes) : (s.respond st dt p).evr = s.evr := by
  rw [State.respond_frame]
@[simp] theorem State.respond_pending (s : State) (st dt : Nat) (p : Bytes) : (s.respond st dt p).pending = s.pending := by
  rw [State.respond_frame]

/-- The work of a command that is not the one running has no effect. -/
theorem State.cmd_other (s : State) (op : Nat) (f : State → Bytes → State) (h : ¬ (s.mbx.phase = .running ∧ s.cmdOpcode = op)) :
    s.cmd op f = s := by
  unfold State.cmd
  rw [if_neg]
  simpa using h

/-- The work of the running command. -/
theorem State.cmd_runs (s : State) (op : Nat) (f : State → Bytes → State) (hp : s.mbx.phase = .running) (ho : s.cmdOpcode = op) :
    s.cmd op f = f s s.cmdPayload := by simp [State.cmd, hp, ho]

/-- A command with checks: not the one running, refused by the first check that fails, or done. -/
theorem State.cmdIf_cases (s : State) (op : Nat) (checks : State → Bytes → List (Bool × Nat × Nat)) (f : State → Bytes → State) :
    (¬ (s.mbx.phase = .running ∧ s.cmdOpcode = op) ∧ s.cmdIf op checks f = s) ∨
    (s.mbx.phase = .running ∧ s.cmdOpcode = op ∧
      ((∃ st d, firstFail (checks s s.cmdPayload) = some (st, d) ∧ s.cmdIf op checks f = s.respond st d []) ∨
        (firstFail (checks s s.cmdPayload) = none ∧ s.cmdIf op checks f = f s s.cmdPayload))) := by
  by_cases h : s.mbx.phase = .running ∧ s.cmdOpcode = op
  · refine .inr ⟨h.1, h.2, ?_⟩
    unfold State.cmdIf
    rw [State.cmd_runs s op _ h.1 h.2]
    cases hf : firstFail (checks s s.cmdPayload) with
    | none => exact .inr ⟨rfl, rfl⟩
    | some x => exact .inl ⟨x.1, x.2, rfl, rfl⟩
  · exact .inl ⟨h, State.cmd_other s op _ h⟩

/-! ## The step -/

/-- A step that answers a next state is a tick, or the command at the front. -/
theorem step_cases (s t : State) (h : step s = .next t) :
    (s.pending = [] ∧ t = s.tick 1) ∨ ∃ c rest, s.pending = c :: rest ∧ exec c { s with pending := rest } = .next t := by
  unfold step at h
  cases hp : s.pending with
  | nil =>
    rw [hp] at h
    exact .inl ⟨rfl, by injection h with h; exact h.symm⟩
  | cons c rest =>
    rw [hp] at h
    exact .inr ⟨c, rest, rfl, h⟩

end Sys2Proof.Machine
end

