-- ==== Sys2Proof/Laws/Total.lean ====
section
/-!
SUPPORT. Every command answers a next state, in every state: none stops.
-/

namespace Sys2Proof.Machine

theorem execResetPin_next (low : Bool) (dt : Nat) (s : State) : ∃ t, execResetPin low dt s = .next t := by
  unfold execResetPin
  repeat' (first | exact ⟨_, rfl⟩ | split | (dsimp only))

theorem execSupplyReset_next (rail : Nat) (die : Nat) (mv : Nat) (s : State) : ∃ t, execSupplyReset rail die mv s = .next t := by
  unfold execSupplyReset
  repeat' (first | exact ⟨_, rfl⟩ | split | (dsimp only))

theorem execResetRelease_next (sel : Nat) (s : State) : ∃ t, execResetRelease sel s = .next t := by
  unfold execResetRelease
  repeat' (first | exact ⟨_, rfl⟩ | split)

theorem execBootVerdict_next (dt : Nat) (s : State) : ∃ t, execBootVerdict dt s = .next t := by
  unfold execBootVerdict
  repeat' (first | exact ⟨_, rfl⟩ | split | (dsimp only))

theorem execLeaveBoot_next (dt : Nat) (s : State) : ∃ t, execLeaveBoot dt s = .next t := by
  unfold execLeaveBoot
  repeat' (first | exact ⟨_, rfl⟩ | split | (dsimp only))

theorem execMainPowerLoss_next  (s : State) : ∃ t, execMainPowerLoss  s = .next t := by
  unfold execMainPowerLoss
  repeat' (first | exact ⟨_, rfl⟩ | split)

theorem execPerstDeassert_next  (s : State) : ∃ t, execPerstDeassert  s = .next t := by
  unfold execPerstDeassert
  repeat' (first | exact ⟨_, rfl⟩ | split)

theorem execMsixRelease_next (vector : Nat) (s : State) : ∃ t, execMsixRelease vector s = .next t := by
  unfold execMsixRelease
  repeat' (first | exact ⟨_, rfl⟩ | split)

theorem execRegisterWrite_next (master : Master) (space : Space) (addr : Nat) (data : Bytes) (full : Bool) (code : Nat) (s : State) : ∃ t, execRegisterWrite master space addr data full code s = .next t := by
  unfold execRegisterWrite
  repeat' (first | exact ⟨_, rfl⟩ | split)

theorem execRcRegisterRead_next (master : Master) (space : Space) (addr : Nat) (size : Nat) (code : Nat) (s : State) : ∃ t, execRcRegisterRead master space addr size code s = .next t := by
  unfold execRcRegisterRead
  repeat' (first | exact ⟨_, rfl⟩ | split)

theorem execMailboxTimeout_next (dt : Nat) (s : State) : ∃ t, execMailboxTimeout dt s = .next t := by
  unfold execMailboxTimeout
  repeat' (first | exact ⟨_, rfl⟩ | split | (dsimp only))

theorem execHeaderReadComplete_next (ring : Nat) (tidx : Nat) (ctl : Nat) (s : State) : ∃ t, execHeaderReadComplete ring tidx ctl s = .next t := by
  unfold execHeaderReadComplete
  repeat' (first | exact ⟨_, rfl⟩ | split | (dsimp only))

theorem execTenantEnableRequest_next (ring : Nat) (ctl : Nat) (s : State) : ∃ t, execTenantEnableRequest ring ctl s = .next t := by
  unfold execTenantEnableRequest
  repeat' (first | exact ⟨_, rfl⟩ | split)

theorem execTenantDisableRequest_next (ring : Nat) (ctl : Nat) (s : State) : ∃ t, execTenantDisableRequest ring ctl s = .next t := by
  unfold execTenantDisableRequest
  repeat' (first | exact ⟨_, rfl⟩ | split)

theorem execTenantCtlRefused_next (ring : Nat) (ctl : Nat) (s : State) : ∃ t, execTenantCtlRefused ring ctl s = .next t := by
  unfold execTenantCtlRefused
  repeat' (first | exact ⟨_, rfl⟩ | split)

theorem execConsumerIndexPoll_next (ring : Nat) (tidx : Nat) (dt : Nat) (s : State) : ∃ t, execConsumerIndexPoll ring tidx dt s = .next t := by
  unfold execConsumerIndexPoll
  repeat' (first | exact ⟨_, rfl⟩ | split | (dsimp only))

theorem execSqFetch_next (entries : List Bytes) (s : State) : ∃ t, execSqFetch entries s = .next t := by
  unfold execSqFetch
  repeat' (first | exact ⟨_, rfl⟩ | split | (dsimp only))

theorem execSqeAccept_next (ring : Nat) (lead : LeadBytes) (readFault : Nat) (s : State) : ∃ t, execSqeAccept ring lead readFault s = .next t := by
  unfold execSqeAccept
  repeat' (first | exact ⟨_, rfl⟩ | split)

theorem execPublishedHeadWrite_next (ring : Nat) (dt : Nat) (s : State) : ∃ t, execPublishedHeadWrite ring dt s = .next t := by
  unfold execPublishedHeadWrite
  repeat' (first | exact ⟨_, rfl⟩ | split | (dsimp only))

theorem execDispatchPass_next (die : Nat) (reads : List JobRead) (s : State) : ∃ t, execDispatchPass die reads s = .next t := by
  unfold execDispatchPass
  repeat' (first | exact ⟨_, rfl⟩ | split)

theorem execKeyArrival_next (job : Nat) (dt : Nat) (s : State) : ∃ t, execKeyArrival job dt s = .next t := by
  unfold execKeyArrival
  repeat' (first | exact ⟨_, rfl⟩ | split | (dsimp only))

theorem execJobCompletion_next (job : Nat) (pass : Bool) (dt : Nat) (s : State) : ∃ t, execJobCompletion job pass dt s = .next t := by
  unfold execJobCompletion
  repeat' (first | exact ⟨_, rfl⟩ | split | (dsimp only))

theorem execHeldCqeWrite_next (ring : Nat) (s : State) : ∃ t, execHeldCqeWrite ring s = .next t := by
  unfold execHeldCqeWrite
  repeat' (first | exact ⟨_, rfl⟩ | split | (dsimp only))

theorem execCqFullTimeout_next (ring : Nat) (dt : Nat) (s : State) : ∃ t, execCqFullTimeout ring dt s = .next t := by
  unfold execCqFullTimeout
  repeat' (first | exact ⟨_, rfl⟩ | split | (dsimp only))

theorem execCoalesceTimer_next (ring : Nat) (dt : Nat) (s : State) : ∃ t, execCoalesceTimer ring dt s = .next t := by
  unfold execCoalesceTimer
  repeat' (first | exact ⟨_, rfl⟩ | split | (dsimp only))

theorem execImtUnmask_next (entry : Nat) (s : State) : ∃ t, execImtUnmask entry s = .next t := by
  unfold execImtUnmask
  repeat' (first | exact ⟨_, rfl⟩ | split)

theorem execRingDisableComplete_next (ring : Nat) (s : State) : ∃ t, execRingDisableComplete ring s = .next t := by
  unfold execRingDisableComplete
  repeat' (first | exact ⟨_, rfl⟩ | split)

theorem execDmaReadError_next (target : DmaTarget) (kind : Nat) (addr : Nat) (s : State) : ∃ t, execDmaReadError target kind addr s = .next t := by
  unfold execDmaReadError
  repeat' (first | exact ⟨_, rfl⟩ | split)

theorem execDmaCompletionTimeout_next (target : DmaTarget) (addr : Nat) (dt : Nat) (s : State) : ∃ t, execDmaCompletionTimeout target addr dt s = .next t := by
  unfold execDmaCompletionTimeout
  repeat' (first | exact ⟨_, rfl⟩ | split | (dsimp only))

theorem execBalancerPeriod_next (dt : Nat) (s : State) : ∃ t, execBalancerPeriod dt s = .next t := by
  unfold execBalancerPeriod
  repeat' (first | exact ⟨_, rfl⟩ | split | (dsimp only))

theorem execClockMeasurementWindow_next (vc : Nat) (mhz : Nat) (dt : Nat) (s : State) : ∃ t, execClockMeasurementWindow vc mhz dt s = .next t := by
  unfold execClockMeasurementWindow
  repeat' (first | exact ⟨_, rfl⟩ | split | (dsimp only))

theorem execJobPreemptSave_next (job : Nat) (dt : Nat) (s : State) : ∃ t, execJobPreemptSave job dt s = .next t := by
  unfold execJobPreemptSave
  repeat' (first | exact ⟨_, rfl⟩ | split | (dsimp only))

theorem execJobRestore_next (job : Nat) (vc : Nat) (dt : Nat) (s : State) : ∃ t, execJobRestore job vc dt s = .next t := by
  unfold execJobRestore
  repeat' (first | exact ⟨_, rfl⟩ | split | (dsimp only))

theorem execWaitTimeout_next (job : Nat) (dt : Nat) (s : State) : ∃ t, execWaitTimeout job dt s = .next t := by
  unfold execWaitTimeout
  repeat' (first | exact ⟨_, rfl⟩ | split | (dsimp only))

theorem execHoldEnd_next (dt : Nat) (s : State) : ∃ t, execHoldEnd dt s = .next t := by
  unfold execHoldEnd
  repeat' (first | exact ⟨_, rfl⟩ | split | (dsimp only))

theorem execStepTakesEffect_next (dt : Nat) (s : State) : ∃ t, execStepTakesEffect dt s = .next t := by
  unfold execStepTakesEffect
  repeat' (first | exact ⟨_, rfl⟩ | split | (dsimp only))

theorem execPpsOutEdge_next (dt : Nat) (s : State) : ∃ t, execPpsOutEdge dt s = .next t := by
  unfold execPpsOutEdge
  repeat' (first | exact ⟨_, rfl⟩ | split)

theorem execPpsInEdge_next (falling : Bool) (dt : Nat) (s : State) : ∃ t, execPpsInEdge falling dt s = .next t := by
  unfold execPpsInEdge
  repeat' (first | exact ⟨_, rfl⟩ | split | (dsimp only))

theorem execPpsInLost_next (dt : Nat) (s : State) : ∃ t, execPpsInLost dt s = .next t := by
  unfold execPpsInLost
  repeat' (first | exact ⟨_, rfl⟩ | split | (dsimp only))

theorem execIdlClockLoss_next (a : Nat) (b : Nat) (s : State) : ∃ t, execIdlClockLoss a b s = .next t := by
  unfold execIdlClockLoss
  repeat' (first | exact ⟨_, rfl⟩ | split | (dsimp only))

theorem execOwnerKernelCall_next (job : Nat) (s : State) : ∃ t, execOwnerKernelCall job s = .next t := by
  unfold execOwnerKernelCall
  repeat' (first | exact ⟨_, rfl⟩ | split)

theorem execHashUnitComplete_next (vc : Nat) (unit : Nat) (s : State) : ∃ t, execHashUnitComplete vc unit s = .next t := by
  unfold execHashUnitComplete
  repeat' (first | exact ⟨_, rfl⟩ | split)

theorem execYieldIntervalExceeded_next (vc : Nat) (s : State) : ∃ t, execYieldIntervalExceeded vc s = .next t := by
  unfold execYieldIntervalExceeded
  repeat' (first | exact ⟨_, rfl⟩ | split)

theorem execDeclaredCountPassed_next (vc : Nat) (s : State) : ∃ t, execDeclaredCountPassed vc s = .next t := by
  unfold execDeclaredCountPassed
  repeat' (first | exact ⟨_, rfl⟩ | split | (dsimp only))

theorem execRunLimitReached_next (vc : Nat) (s : State) : ∃ t, execRunLimitReached vc s = .next t := by
  unfold execRunLimitReached
  repeat' (first | exact ⟨_, rfl⟩ | split)

theorem execMgenBlock_next (vc : Nat) (dt : Nat) (s : State) : ∃ t, execMgenBlock vc dt s = .next t := by
  unfold execMgenBlock
  repeat' (first | exact ⟨_, rfl⟩ | split | (dsimp only))

theorem execMgenReseedRequest_next (vc : Nat) (s : State) : ∃ t, execMgenReseedRequest vc s = .next t := by
  unfold execMgenReseedRequest
  repeat' (first | exact ⟨_, rfl⟩ | split)

theorem execMgenSeedApply_next (vc : Nat) (s : State) : ∃ t, execMgenSeedApply vc s = .next t := by
  unfold execMgenSeedApply
  repeat' (first | exact ⟨_, rfl⟩ | split)

theorem execMgenSeedArrival_next (vc : Nat) (s : State) : ∃ t, execMgenSeedArrival vc s = .next t := by
  unfold execMgenSeedArrival
  repeat' (first | exact ⟨_, rfl⟩ | split)

theorem execControlStoreScrub_next (vc : Nat) (cause : Nat) (groups : Nat) (addr : Nat) (s : State) : ∃ t, execControlStoreScrub vc cause groups addr s = .next t := by
  unfold execControlStoreScrub
  repeat' (first | exact ⟨_, rfl⟩ | split | (dsimp only))

theorem execControlStoreReloadDone_next (vc : Nat) (good : Bool) (corrected : Nat) (bad : Nat) (dt : Nat) (s : State) : ∃ t, execControlStoreReloadDone vc good corrected bad dt s = .next t := by
  unfold execControlStoreReloadDone
  repeat' (first | exact ⟨_, rfl⟩ | split | (dsimp only))

theorem execKernelStoreRewriteDone_next (vc : Nat) (dt : Nat) (s : State) : ∃ t, execKernelStoreRewriteDone vc dt s = .next t := by
  unfold execKernelStoreRewriteDone
  repeat' (first | exact ⟨_, rfl⟩ | split | (dsimp only))

theorem execGoldenCopyRewriteDone_next (cluster : Nat) (dt : Nat) (s : State) : ∃ t, execGoldenCopyRewriteDone cluster dt s = .next t := by
  unfold execGoldenCopyRewriteDone
  repeat' (first | exact ⟨_, rfl⟩ | split | (dsimp only))

theorem execLieCompletion_next (engine : Nat) (pass : Bool) (dt : Nat) (s : State) : ∃ t, execLieCompletion engine pass dt s = .next t := by
  unfold execLieCompletion
  repeat' (first | exact ⟨_, rfl⟩ | split | (dsimp only))

theorem execLieClearDone_next (engine : Nat) (dt : Nat) (s : State) : ∃ t, execLieClearDone engine dt s = .next t := by
  unfold execLieClearDone
  repeat' (first | exact ⟨_, rfl⟩ | split | (dsimp only))

theorem execLieEccUncorrectable_next (engine : Nat) (slot : Nat) (word : Nat) (single : Bool) (s : State) : ∃ t, execLieEccUncorrectable engine slot word single s = .next t := by
  unfold execLieEccUncorrectable
  repeat' (first | exact ⟨_, rfl⟩ | split | (dsimp only))

theorem execLieTablesRewritten_next (engine : Nat) (good : Bool) (dt : Nat) (s : State) : ∃ t, execLieTablesRewritten engine good dt s = .next t := by
  unfold execLieTablesRewritten
  repeat' (first | exact ⟨_, rfl⟩ | split | (dsimp only))

theorem execDirectCommandDone_next (engine : Nat) (dt : Nat) (s : State) : ∃ t, execDirectCommandDone engine dt s = .next t := by
  unfold execDirectCommandDone
  repeat' (first | exact ⟨_, rfl⟩ | split | (dsimp only))

theorem execDgeInit_next (chan : Nat) (func : Nat) (s : State) : ∃ t, execDgeInit chan func s = .next t := by
  unfold execDgeInit
  repeat' (first | exact ⟨_, rfl⟩ | split)

theorem execDgeData_next (chan : Nat) (word : Nat) (s : State) : ∃ t, execDgeData chan word s = .next t := by
  unfold execDgeData
  repeat' (first | exact ⟨_, rfl⟩ | split)

theorem execDgeFin_next (chan : Nat) (s : State) : ∃ t, execDgeFin chan s = .next t := by
  unfold execDgeFin
  repeat' (first | exact ⟨_, rfl⟩ | split)

theorem execDgeCompare_next (chan : Nat) (len : Nat) (s : State) : ∃ t, execDgeCompare chan len s = .next t := by
  unfold execDgeCompare
  repeat' (first | exact ⟨_, rfl⟩ | split)

theorem execDgeCompareDone_next (chan : Nat) (faultA : Nat) (faultB : Nat) (dt : Nat) (s : State) : ∃ t, execDgeCompareDone chan faultA faultB dt s = .next t := by
  unfold execDgeCompareDone
  repeat' (first | exact ⟨_, rfl⟩ | split | (dsimp only))

theorem execSnoopSelfFinish_next (chan : Nat) (s : State) : ∃ t, execSnoopSelfFinish chan s = .next t := by
  unfold execSnoopSelfFinish
  repeat' (first | exact ⟨_, rfl⟩ | split)

theorem execLinkChange_next (port : Nat) (up : Bool) (speed : Nat) (s : State) : ∃ t, execLinkChange port up speed s = .next t := by
  unfold execLinkChange
  repeat' (first | exact ⟨_, rfl⟩ | split | (dsimp only))

theorem execFrameReceived_next (port : Nat) (data : Bytes) (fcsOk : Bool) (lineNs : Nat) (parsed : Extension) (s : State) : ∃ t, execFrameReceived port data fcsOk lineNs parsed s = .next t := by
  unfold execFrameReceived
  repeat' (first | exact ⟨_, rfl⟩ | split | (dsimp only))

theorem execVerdictPost_next (frame : Nat) (disagree : Bool) (dt : Nat) (s : State) : ∃ t, execVerdictPost frame disagree dt s = .next t := by
  unfold execVerdictPost
  repeat' (first | exact ⟨_, rfl⟩ | split | (dsimp only))

theorem execFrameBudgetExpiry_next (frame : Nat) (dt : Nat) (s : State) : ∃ t, execFrameBudgetExpiry frame dt s = .next t := by
  unfold execFrameBudgetExpiry
  repeat' (first | exact ⟨_, rfl⟩ | split | (dsimp only))

theorem execFrxDelivery_next (frame : Nat) (ring : Nat) (dt : Nat) (s : State) : ∃ t, execFrxDelivery frame ring dt s = .next t := by
  unfold execFrxDelivery
  repeat' (first | exact ⟨_, rfl⟩ | split | (dsimp only))

theorem execFrxMaxWaitExpiry_next (frame : Nat) (ring : Nat) (dt : Nat) (s : State) : ∃ t, execFrxMaxWaitExpiry frame ring dt s = .next t := by
  unfold execFrxMaxWaitExpiry
  repeat' (first | exact ⟨_, rfl⟩ | split | (dsimp only))

theorem execFtxFetch_next (entries : List Bytes) (s : State) : ∃ t, execFtxFetch entries s = .next t := by
  unfold execFtxFetch
  repeat' (first | exact ⟨_, rfl⟩ | split | (dsimp only))

theorem execFtxFrameRead_next (frame : Nat) (data : Bytes) (fault : Nat) (dt : Nat) (s : State) : ∃ t, execFtxFrameRead frame data fault dt s = .next t := by
  unfold execFtxFrameRead
  repeat' (first | exact ⟨_, rfl⟩ | split | (dsimp only))

theorem execFtxLaunch_next (frame : Nat) (port : Nat) (dt : Nat) (s : State) : ∃ t, execFtxLaunch frame port dt s = .next t := by
  unfold execFtxLaunch
  repeat' (first | exact ⟨_, rfl⟩ | split | (dsimp only))

theorem execTxSlipExpiry_next (frame : Nat) (port : Nat) (dt : Nat) (s : State) : ∃ t, execTxSlipExpiry frame port dt s = .next t := by
  unfold execTxSlipExpiry
  repeat' (first | exact ⟨_, rfl⟩ | split | (dsimp only))

theorem execKeyRemaskPass_next (die : Nat) (dt : Nat) (s : State) : ∃ t, execKeyRemaskPass die dt s = .next t := by
  unfold execKeyRemaskPass
  repeat' (first | exact ⟨_, rfl⟩ | split | (dsimp only))

theorem execKeyStoreEccLoss_next (ti : Nat) (slot : Nat) (single : Bool) (s : State) : ∃ t, execKeyStoreEccLoss ti slot single s = .next t := by
  unfold execKeyStoreEccLoss
  repeat' (first | exact ⟨_, rfl⟩ | split | (dsimp only))

theorem execPair1_next (link : Nat) (mac : Bytes) (data : Bytes) (s : State) : ∃ t, execPair1 link mac data s = .next t := by
  unfold execPair1
  repeat' (first | split | exact ⟨_, rfl⟩)

theorem execPair2_next (link : Nat) (mac : Bytes) (data : Bytes) (s : State) : ∃ t, execPair2 link mac data s = .next t := by
  unfold execPair2
  repeat' (first | split | exact ⟨_, rfl⟩ | (dsimp only))

theorem execPair3_next (link : Nat) (mac : Bytes) (data : Bytes) (s : State) : ∃ t, execPair3 link mac data s = .next t := by
  unfold execPair3
  repeat' (first | split | exact ⟨_, rfl⟩)

theorem execPairingTimeout_next (dt : Nat) (s : State) : ∃ t, execPairingTimeout dt s = .next t := by
  unfold execPairingTimeout
  repeat' (first | exact ⟨_, rfl⟩ | split | (dsimp only))

theorem execMirrorAckTimeout_next (dt : Nat) (s : State) : ∃ t, execMirrorAckTimeout dt s = .next t := by
  unfold execMirrorAckTimeout
  repeat' (first | exact ⟨_, rfl⟩ | split | (dsimp only))

theorem execHeartbeat_next (dt : Nat) (s : State) : ∃ t, execHeartbeat dt s = .next t := by
  unfold execHeartbeat
  repeat' (first | exact ⟨_, rfl⟩ | split | (dsimp only))

theorem execMirrorLinkLost_next (dt : Nat) (s : State) : ∃ t, execMirrorLinkLost dt s = .next t := by
  unfold execMirrorLinkLost
  repeat' (first | exact ⟨_, rfl⟩ | split | (dsimp only))

theorem execPairRekey_next (dt : Nat) (s : State) : ∃ t, execPairRekey dt s = .next t := by
  unfold execPairRekey
  dsimp only
  repeat' (first | split | exact ⟨_, rfl⟩)

theorem execEntropyEnable_next (die : Nat) (s : State) : ∃ t, execEntropyEnable die s = .next t := by
  unfold execEntropyEnable
  repeat' (first | exact ⟨_, rfl⟩ | split)

theorem execStartupTestEnd_next (die : Nat) (failRct : Nat) (failApt : Nat) (s : State) : ∃ t, execStartupTestEnd die failRct failApt s = .next t := by
  unfold execStartupTestEnd
  repeat' (first | exact ⟨_, rfl⟩ | split)

theorem execBankHealthFailure_next (die : Nat) (bank : Nat) (test : Nat) (s : State) : ∃ t, execBankHealthFailure die bank test s = .next t := by
  unfold execBankHealthFailure
  repeat' (first | exact ⟨_, rfl⟩ | split)

theorem execBankRetry_next (die : Nat) (bank : Nat) (fail : Nat) (dt : Nat) (s : State) : ∃ t, execBankRetry die bank fail dt s = .next t := by
  unfold execBankRetry
  repeat' (first | exact ⟨_, rfl⟩ | split | (dsimp only))

theorem execIntakeRound_next (die : Nat) (arrived : List Nat) (dt : Nat) (s : State) : ∃ t, execIntakeRound die arrived dt s = .next t := by
  unfold execIntakeRound
  repeat' (first | exact ⟨_, rfl⟩ | split | (dsimp only))

theorem execDrbgGenerate_next (die : Nat) (s : State) : ∃ t, execDrbgGenerate die s = .next t := by
  unfold execDrbgGenerate
  repeat' (first | exact ⟨_, rfl⟩ | split | (dsimp only))

theorem execBorrowedSeedArrival_next (die : Nat) (s : State) : ∃ t, execBorrowedSeedArrival die s = .next t := by
  unfold execBorrowedSeedArrival
  repeat' (first | exact ⟨_, rfl⟩ | split | (dsimp only))

theorem execRandomWaitTimeout_next (die : Nat) (cls : Nat) (job : Nat) (dt : Nat) (s : State) : ∃ t, execRandomWaitTimeout die cls job dt s = .next t := by
  unfold execRandomWaitTimeout
  repeat' (first | exact ⟨_, rfl⟩ | split | (dsimp only))

theorem execFwInstallDone_next (dt : Nat) (s : State) : ∃ t, execFwInstallDone dt s = .next t := by
  unfold execFwInstallDone
  repeat' (first | exact ⟨_, rfl⟩ | split | (dsimp only))

theorem execDiagBistDone_next (bad : Option Nat) (dt : Nat) (s : State) : ∃ t, execDiagBistDone bad dt s = .next t := by
  unfold execDiagBistDone
  repeat' (first | exact ⟨_, rfl⟩ | split | (dsimp only))

theorem execWatermarkMismatch_next (loop : Nat) (dt : Nat) (s : State) : ∃ t, execWatermarkMismatch loop dt s = .next t := by
  unfold execWatermarkMismatch
  repeat' (first | exact ⟨_, rfl⟩ | split | (dsimp only))

theorem execTemperatureLimit_next (sensor : Nat) (c : Int) (s : State) : ∃ t, execTemperatureLimit sensor c s = .next t := by
  unfold execTemperatureLimit
  repeat' (first | exact ⟨_, rfl⟩ | split)

theorem execEraseComplete_next (dt : Nat) (s : State) : ∃ t, execEraseComplete dt s = .next t := by
  unfold execEraseComplete
  repeat' (first | exact ⟨_, rfl⟩ | split | (dsimp only))

theorem execBistChannelTest_next (pass : Bool) (dt : Nat) (s : State) : ∃ t, execBistChannelTest pass dt s = .next t := by
  unfold execBistChannelTest
  repeat' (first | exact ⟨_, rfl⟩ | split | (dsimp only))

theorem execF2SecondEvaluation_next (decision : Nat) (delay : Nat) (agree : Bool) (dt : Nat) (s : State) : ∃ t, execF2SecondEvaluation decision delay agree dt s = .next t := by
  unfold execF2SecondEvaluation
  repeat' (first | exact ⟨_, rfl⟩ | split | (dsimp only))

theorem execEventCommit_next  (s : State) : ∃ t, execEventCommit  s = .next t := by
  unfold execEventCommit
  repeat' (first | exact ⟨_, rfl⟩ | split)

theorem execEvrWindow0Read_next (master : Master) (s : State) : ∃ t, execEvrWindow0Read master s = .next t := by
  unfold execEvrWindow0Read
  repeat' (first | exact ⟨_, rfl⟩ | split)

theorem execEvrWindow7Read_next (master : Master) (s : State) : ∃ t, execEvrWindow7Read master s = .next t := by
  unfold execEvrWindow7Read
  repeat' (first | exact ⟨_, rfl⟩ | split)

theorem execThermalSample_next (temps : List Int) (dt : Nat) (s : State) : ∃ t, execThermalSample temps dt s = .next t := by
  unfold execThermalSample
  repeat' (first | exact ⟨_, rfl⟩ | split | (dsimp only))

theorem execRegulatorSettled_next (die : Nat) (dt : Nat) (s : State) : ∃ t, execRegulatorSettled die dt s = .next t := by
  unfold execRegulatorSettled
  repeat' (first | exact ⟨_, rfl⟩ | split | (dsimp only))

theorem execRegulatorTimeout_next (die : Nat) (kind : Nat) (dt : Nat) (s : State) : ∃ t, execRegulatorTimeout die kind dt s = .next t := by
  unfold execRegulatorTimeout
  repeat' (first | exact ⟨_, rfl⟩ | split | (dsimp only))

theorem execPwrgoodFall_next  (s : State) : ∃ t, execPwrgoodFall  s = .next t := by
  unfold execPwrgoodFall
  repeat' (first | exact ⟨_, rfl⟩ | split)

theorem execPpsOutPulseEnd_next (dt : Nat) (s : State) : ∃ t, execPpsOutPulseEnd dt s = .next t := by
  unfold execPpsOutPulseEnd
  repeat' (first | exact ⟨_, rfl⟩ | split | (dsimp only))

/-- Every command answers a next state. -/
theorem exec_next (c : Instr) (s : State) : ∃ t, exec c s = .next t := by
  cases c with
  | powerOnReset => exact ⟨_, rfl⟩
  | resetPin low dt => exact execResetPin_next low dt s
  | supplyReset rail die mv => exact execSupplyReset_next rail die mv s
  | thermalShutdown => exact ⟨_, rfl⟩
  | thermalShutdownRelease => exact ⟨_, rfl⟩
  | resetRelease sel => exact execResetRelease_next sel s
  | bootVerdict dt => exact execBootVerdict_next dt s
  | leaveBoot dt => exact execLeaveBoot_next dt s
  | unitReady => exact ⟨_, rfl⟩
  | mainPowerLoss  => exact execMainPowerLoss_next  s
  | vbatExhausted => exact ⟨_, rfl⟩
  | perstAssert => exact ⟨_, rfl⟩
  | perstDeassert  => exact execPerstDeassert_next  s
  | functionLevelReset => exact ⟨_, rfl⟩
  | busMasterDisable => exact ⟨_, rfl⟩
  | busMasterEnable => exact ⟨_, rfl⟩
  | msixRelease vector => exact execMsixRelease_next vector s
  | registerWrite master space addr data full code => exact execRegisterWrite_next master space addr data full code s
  | rcRegisterRead master space addr size code => exact execRcRegisterRead_next master space addr size code s
  | mailboxGo => exact ⟨_, rfl⟩
  | mailboxAbort => exact ⟨_, rfl⟩
  | mailboxTimeout dt => exact execMailboxTimeout_next dt s
  | devInfo => exact ⟨_, rfl⟩
  | devCaps => exact ⟨_, rfl⟩
  | devPools => exact ⟨_, rfl⟩
  | echo => exact ⟨_, rfl⟩
  | tiCreate => exact ⟨_, rfl⟩
  | tiBind => exact ⟨_, rfl⟩
  | tiSetQuota => exact ⟨_, rfl⟩
  | tiAddWindow => exact ⟨_, rfl⟩
  | tiRemoveWindow => exact ⟨_, rfl⟩
  | tiAssignImt => exact ⟨_, rfl⟩
  | tiReleaseImt => exact ⟨_, rfl⟩
  | tiQuiesce => exact ⟨_, rfl⟩
  | tiResume => exact ⟨_, rfl⟩
  | tiDestroy => exact ⟨_, rfl⟩
  | tiQuery => exact ⟨_, rfl⟩
  | doorbell => exact ⟨_, rfl⟩
  | headerReadComplete ring tidx ctl => exact execHeaderReadComplete_next ring tidx ctl s
  | tenantEnableRequest ring ctl => exact execTenantEnableRequest_next ring ctl s
  | tenantDisableRequest ring ctl => exact execTenantDisableRequest_next ring ctl s
  | tenantCtlRefused ring ctl => exact execTenantCtlRefused_next ring ctl s
  | consumerIndexPoll ring tidx dt => exact execConsumerIndexPoll_next ring tidx dt s
  | sqFetch entries => exact execSqFetch_next entries s
  | sqeAccept ring lead readFault => exact execSqeAccept_next ring lead readFault s
  | publishedHeadWrite ring dt => exact execPublishedHeadWrite_next ring dt s
  | dispatchPass die reads => exact execDispatchPass_next die reads s
  | keyArrival job dt => exact execKeyArrival_next job dt s
  | jobCompletion job pass dt => exact execJobCompletion_next job pass dt s
  | heldCqeWrite ring => exact execHeldCqeWrite_next ring s
  | cqFullTimeout ring dt => exact execCqFullTimeout_next ring dt s
  | coalesceTimer ring dt => exact execCoalesceTimer_next ring dt s
  | imtUnmask entry => exact execImtUnmask_next entry s
  | ringDisableComplete ring => exact execRingDisableComplete_next ring s
  | dmaReadError target kind addr => exact execDmaReadError_next target kind addr s
  | dmaCompletionTimeout target addr dt => exact execDmaCompletionTimeout_next target addr dt s
  | ringCreate => exact ⟨_, rfl⟩
  | ringDestroy => exact ⟨_, rfl⟩
  | ringEnable => exact ⟨_, rfl⟩
  | ringDisable => exact ⟨_, rfl⟩
  | ringSetArb => exact ⟨_, rfl⟩
  | ringSetInt => exact ⟨_, rfl⟩
  | ringQuery => exact ⟨_, rfl⟩
  | schedSetShare => exact ⟨_, rfl⟩
  | schedSetReserve => exact ⟨_, rfl⟩
  | schedSetBalance => exact ⟨_, rfl⟩
  | schedSetWait => exact ⟨_, rfl⟩
  | schedQuery => exact ⟨_, rfl⟩
  | balancerPeriod dt => exact execBalancerPeriod_next dt s
  | clockMeasurementWindow vc mhz dt => exact execClockMeasurementWindow_next vc mhz dt s
  | jobPreemptSave job dt => exact execJobPreemptSave_next job dt s
  | jobRestore job vc dt => exact execJobRestore_next job vc dt s
  | waitTimeout job dt => exact execWaitTimeout_next job dt s
  | holdEnd dt => exact execHoldEnd_next dt s
  | timeSet => exact ⟨_, rfl⟩
  | timeStep => exact ⟨_, rfl⟩
  | stepTakesEffect dt => exact execStepTakesEffect_next dt s
  | timeSlew => exact ⟨_, rfl⟩
  | timeNowCaptureRead => exact ⟨_, rfl⟩
  | timeTarget => exact ⟨_, rfl⟩
  | targetReached => exact ⟨_, rfl⟩
  | ppsOutEdge dt => exact execPpsOutEdge_next dt s
  | ppsInEdge falling dt => exact execPpsInEdge_next falling dt s
  | ppsInLost dt => exact execPpsInLost_next dt s
  | replicaCorrection => exact ⟨_, rfl⟩
  | idlClockLoss a b => exact execIdlClockLoss_next a b s
  | sha2Digest => exact ⟨_, rfl⟩
  | sha3Digest => exact ⟨_, rfl⟩
  | shakeOutput => exact ⟨_, rfl⟩
  | cshakeOutput => exact ⟨_, rfl⟩
  | hmacTag => exact ⟨_, rfl⟩
  | hmacVerify => exact ⟨_, rfl⟩
  | kmacTag => exact ⟨_, rfl⟩
  | kmacVerify => exact ⟨_, rfl⟩
  | gcmEncrypt => exact ⟨_, rfl⟩
  | gcmDecrypt => exact ⟨_, rfl⟩
  | gmacGenerate => exact ⟨_, rfl⟩
  | gmacVerify => exact ⟨_, rfl⟩
  | keyWrap => exact ⟨_, rfl⟩
  | keyUnwrap => exact ⟨_, rfl⟩
  | keyWrapPad => exact ⟨_, rfl⟩
  | keyUnwrapPad => exact ⟨_, rfl⟩
  | mlKemKeygen => exact ⟨_, rfl⟩
  | mlKemEncaps => exact ⟨_, rfl⟩
  | mlKemDecaps => exact ⟨_, rfl⟩
  | mlDsaKeygen => exact ⟨_, rfl⟩
  | mlDsaSign => exact ⟨_, rfl⟩
  | mlDsaVerify => exact ⟨_, rfl⟩
  | mlDsaPrehashSign => exact ⟨_, rfl⟩
  | mlDsaPrehashVerify => exact ⟨_, rfl⟩
  | slhDsaKeygen => exact ⟨_, rfl⟩
  | slhDsaSign => exact ⟨_, rfl⟩
  | slhDsaVerify => exact ⟨_, rfl⟩
  | slhDsaPrehashSign => exact ⟨_, rfl⟩
  | slhDsaPrehashVerify => exact ⟨_, rfl⟩
  | lmsVerify => exact ⟨_, rfl⟩
  | hssVerify => exact ⟨_, rfl⟩
  | xmssVerify => exact ⟨_, rfl⟩
  | xmssMtVerify => exact ⟨_, rfl⟩
  | hqcKeygen => exact ⟨_, rfl⟩
  | hqcEncaps => exact ⟨_, rfl⟩
  | hqcDecaps => exact ⟨_, rfl⟩
  | mcelieceKeygen => exact ⟨_, rfl⟩
  | mcelieceEncaps => exact ⟨_, rfl⟩
  | mcelieceDecaps => exact ⟨_, rfl⟩
  | rsaPssSign => exact ⟨_, rfl⟩
  | rsaPssVerify => exact ⟨_, rfl⟩
  | rsaPkcs1Sign => exact ⟨_, rfl⟩
  | rsaPkcs1Verify => exact ⟨_, rfl⟩
  | rsaOaepDecrypt => exact ⟨_, rfl⟩
  | rsaOaepEncrypt => exact ⟨_, rfl⟩
  | ecKeygen => exact ⟨_, rfl⟩
  | ecSign => exact ⟨_, rfl⟩
  | ecVerify => exact ⟨_, rfl⟩
  | ecDerive => exact ⟨_, rfl⟩
  | hybridKeygen => exact ⟨_, rfl⟩
  | hybridEncapsOrSign => exact ⟨_, rfl⟩
  | hybridDecapsOrVerify => exact ⟨_, rfl⟩
  | generateSecretKey => exact ⟨_, rfl⟩
  | keyImport => exact ⟨_, rfl⟩
  | exportWrapped => exact ⟨_, rfl⟩
  | kmacDerive => exact ⟨_, rfl⟩
  | deleteAndZeroise => exact ⟨_, rfl⟩
  | readPublicKey => exact ⟨_, rfl⟩
  | makePublicKeyResident => exact ⟨_, rfl⟩
  | keyInformation => exact ⟨_, rfl⟩
  | randomBytes => exact ⟨_, rfl⟩
  | randomBytesPr => exact ⟨_, rfl⟩
  | attestationQuote => exact ⟨_, rfl⟩
  | installNextStreamKey => exact ⟨_, rfl⟩
  | replaceCurrentStreamKey => exact ⟨_, rfl⟩
  | ownerKernelCall job => exact execOwnerKernelCall_next job s
  | vadd => exact ⟨_, rfl⟩
  | vsub => exact ⟨_, rfl⟩
  | vand => exact ⟨_, rfl⟩
  | vor => exact ⟨_, rfl⟩
  | vxor => exact ⟨_, rfl⟩
  | vandn => exact ⟨_, rfl⟩
  | vminu => exact ⟨_, rfl⟩
  | vmaxu => exact ⟨_, rfl⟩
  | vmin => exact ⟨_, rfl⟩
  | vmax => exact ⟨_, rfl⟩
  | vneg => exact ⟨_, rfl⟩
  | vsel => exact ⟨_, rfl⟩
  | vaddi => exact ⟨_, rfl⟩
  | vsll => exact ⟨_, rfl⟩
  | vsrl => exact ⟨_, rfl⟩
  | vsra => exact ⟨_, rfl⟩
  | vrol => exact ⟨_, rfl⟩
  | vsllv => exact ⟨_, rfl⟩
  | vsrlv => exact ⟨_, rfl⟩
  | vsrav => exact ⟨_, rfl⟩
  | vrolv => exact ⟨_, rfl⟩
  | vceq => exact ⟨_, rfl⟩
  | vcne => exact ⟨_, rfl⟩
  | vcltu => exact ⟨_, rfl⟩
  | vcgeu => exact ⟨_, rfl⟩
  | vclt => exact ⟨_, rfl⟩
  | vcge => exact ⟨_, rfl⟩
  | vmull => exact ⟨_, rfl⟩
  | vmulhu => exact ⟨_, rfl⟩
  | vmulhs => exact ⟨_, rfl⟩
  | vmulweu => exact ⟨_, rfl⟩
  | vmulwou => exact ⟨_, rfl⟩
  | vmulwes => exact ⟨_, rfl⟩
  | vmulwos => exact ⟨_, rfl⟩
  | vmacl => exact ⟨_, rfl⟩
  | vdot4b => exact ⟨_, rfl⟩
  | vdot4bs => exact ⟨_, rfl⟩
  | vdot2h => exact ⟨_, rfl⟩
  | vdot2hs => exact ⟨_, rfl⟩
  | vdot4h => exact ⟨_, rfl⟩
  | vdot4hs => exact ⟨_, rfl⟩
  | vclmul => exact ⟨_, rfl⟩
  | vclmulx => exact ⟨_, rfl⟩
  | vpermv => exact ⟨_, rfl⟩
  | vslideup => exact ⟨_, rfl⟩
  | vslideups => exact ⟨_, rfl⟩
  | vslidedn => exact ⟨_, rfl⟩
  | vslidedns => exact ⟨_, rfl⟩
  | vbcast => exact ⟨_, rfl⟩
  | vziplo => exact ⟨_, rfl⟩
  | vziphi => exact ⟨_, rfl⟩
  | vunzipe => exact ⟨_, rfl⟩
  | vunzipo => exact ⟨_, rfl⟩
  | vtr32 => exact ⟨_, rfl⟩
  | vtr8 => exact ⟨_, rfl⟩
  | vpopc => exact ⟨_, rfl⟩
  | vbrev => exact ⟨_, rfl⟩
  | vbitsel => exact ⟨_, rfl⟩
  | vmov => exact ⟨_, rfl⟩
  | vmovi => exact ⟨_, rfl⟩
  | vmovs => exact ⟨_, rfl⟩
  | vext => exact ⟨_, rfl⟩
  | vins => exact ⟨_, rfl⟩
  | vzero => exact ⟨_, rfl⟩
  | pand => exact ⟨_, rfl⟩
  | por => exact ⟨_, rfl⟩
  | pxor => exact ⟨_, rfl⟩
  | pnot => exact ⟨_, rfl⟩
  | pset => exact ⟨_, rfl⟩
  | pcnt => exact ⟨_, rfl⟩
  | qset => exact ⟨_, rfl⟩
  | qrd => exact ⟨_, rfl⟩
  | madd => exact ⟨_, rfl⟩
  | msub => exact ⟨_, rfl⟩
  | mneg => exact ⟨_, rfl⟩
  | mred => exact ⟨_, rfl⟩
  | mmulm => exact ⟨_, rfl⟩
  | mmulb => exact ⟨_, rfl⟩
  | mtom => exact ⟨_, rfl⟩
  | mfromm => exact ⟨_, rfl⟩
  | mcsub => exact ⟨_, rfl⟩
  | mcenter => exact ⟨_, rfl⟩
  | bfct => exact ⟨_, rfl⟩
  | bfgs => exact ⟨_, rfl⟩
  | bfcti => exact ⟨_, rfl⟩
  | bfgsi => exact ⟨_, rfl⟩
  | s2init => exact ⟨_, rfl⟩
  | s2abs => exact ⟨_, rfl⟩
  | s2fin => exact ⟨_, rfl⟩
  | s2lds => exact ⟨_, rfl⟩
  | s2sts => exact ⟨_, rfl⟩
  | kinit => exact ⟨_, rfl⟩
  | kabs => exact ⟨_, rfl⟩
  | kfin => exact ⟨_, rfl⟩
  | ksqz => exact ⟨_, rfl⟩
  | kperm => exact ⟨_, rfl⟩
  | klds => exact ⟨_, rfl⟩
  | ksts => exact ⟨_, rfl⟩
  | akey => exact ⟨_, rfl⟩
  | aenc => exact ⟨_, rfl⟩
  | adec => exact ⟨_, rfl⟩
  | actr => exact ⟨_, rfl⟩
  | mrd => exact ⟨_, rfl⟩
  | mstat => exact ⟨_, rfl⟩
  | hashUnitComplete vc unit => exact execHashUnitComplete_next vc unit s
  | tagv => exact ⟨_, rfl⟩
  | tags => exact ⟨_, rfl⟩
  | tagrd => exact ⟨_, rfl⟩
  | split => exact ⟨_, rfl⟩
  | refresh => exact ⟨_, rfl⟩
  | gmulq => exact ⟨_, rfl⟩
  | gand => exact ⟨_, rfl⟩
  | ga2b => exact ⟨_, rfl⟩
  | gb2a => exact ⟨_, rfl⟩
  | declv => exact ⟨_, rfl⟩
  | decls => exact ⟨_, rfl⟩
  | vld => exact ⟨_, rfl⟩
  | vlds => exact ⟨_, rfl⟩
  | vldff => exact ⟨_, rfl⟩
  | vldsh => exact ⟨_, rfl⟩
  | vst => exact ⟨_, rfl⟩
  | vsts => exact ⟨_, rfl⟩
  | vstsh => exact ⟨_, rfl⟩
  | vgather => exact ⟨_, rfl⟩
  | vscatter => exact ⟨_, rfl⟩
  | keyload => exact ⟨_, rfl⟩
  | sld => exact ⟨_, rfl⟩
  | sst => exact ⟨_, rfl⟩
  | sadd => exact ⟨_, rfl⟩
  | ssub => exact ⟨_, rfl⟩
  | sand => exact ⟨_, rfl⟩
  | sor => exact ⟨_, rfl⟩
  | sxor => exact ⟨_, rfl⟩
  | ssll => exact ⟨_, rfl⟩
  | ssrl => exact ⟨_, rfl⟩
  | ssra => exact ⟨_, rfl⟩
  | smul => exact ⟨_, rfl⟩
  | saddi => exact ⟨_, rfl⟩
  | slui => exact ⟨_, rfl⟩
  | sltu => exact ⟨_, rfl⟩
  | slt => exact ⟨_, rfl⟩
  | branch => exact ⟨_, rfl⟩
  | beqz => exact ⟨_, rfl⟩
  | bnez => exact ⟨_, rfl⟩
  | bltz => exact ⟨_, rfl⟩
  | bgez => exact ⟨_, rfl⟩
  | loopOp => exact ⟨_, rfl⟩
  | callOp => exact ⟨_, rfl⟩
  | retOp => exact ⟨_, rfl⟩
  | yieldOp => exact ⟨_, rfl⟩
  | endOp => exact ⟨_, rfl⟩
  | fence => exact ⟨_, rfl⟩
  | nop => exact ⟨_, rfl⟩
  | sparam => exact ⟨_, rfl⟩
  | yieldIntervalExceeded vc => exact execYieldIntervalExceeded_next vc s
  | declaredCountPassed vc => exact execDeclaredCountPassed_next vc s
  | runLimitReached vc => exact execRunLimitReached_next vc s
  | mgenBlock vc dt => exact execMgenBlock_next vc dt s
  | mgenReseedRequest vc => exact execMgenReseedRequest_next vc s
  | mgenSeedApply vc => exact execMgenSeedApply_next vc s
  | mgenSeedArrival vc => exact execMgenSeedArrival_next vc s
  | controlStoreScrub vc cause groups addr => exact execControlStoreScrub_next vc cause groups addr s
  | controlStoreReloadDone vc good corrected bad dt => exact execControlStoreReloadDone_next vc good corrected bad dt s
  | kernelStoreRewriteDone vc dt => exact execKernelStoreRewriteDone_next vc dt s
  | goldenCopyRewriteDone cluster dt => exact execGoldenCopyRewriteDone_next cluster dt s
  | kernelStageOpen => exact ⟨_, rfl⟩
  | kernelStageData => exact ⟨_, rfl⟩
  | kernelCommit => exact ⟨_, rfl⟩
  | kernelRemove => exact ⟨_, rfl⟩
  | kernelQuery => exact ⟨_, rfl⟩
  | lieCompletion engine pass dt => exact execLieCompletion_next engine pass dt s
  | lieClearDone engine dt => exact execLieClearDone_next engine dt s
  | lieEccUncorrectable engine slot word single => exact execLieEccUncorrectable_next engine slot word single s
  | lieTablesRewritten engine good dt => exact execLieTablesRewritten_next engine good dt s
  | lieSlotWordsWrite => exact ⟨_, rfl⟩
  | directRsaPrivate => exact ⟨_, rfl⟩
  | directRsaPublic => exact ⟨_, rfl⟩
  | directEcdsaKeygen => exact ⟨_, rfl⟩
  | directEcdsaSign => exact ⟨_, rfl⟩
  | directEcdsaVerify => exact ⟨_, rfl⟩
  | directEcdh => exact ⟨_, rfl⟩
  | directEddsaKeygen => exact ⟨_, rfl⟩
  | directEddsaSign => exact ⟨_, rfl⟩
  | directEddsaVerify => exact ⟨_, rfl⟩
  | directXKeygen => exact ⟨_, rfl⟩
  | directXDerive => exact ⟨_, rfl⟩
  | directCommandDone engine dt => exact execDirectCommandDone_next engine dt s
  | dgeInit chan func => exact execDgeInit_next chan func s
  | dgeData chan word => exact execDgeData_next chan word s
  | dgeFin chan => exact execDgeFin_next chan s
  | dgeCompare chan len => exact execDgeCompare_next chan len s
  | dgeCompareDone chan faultA faultB dt => exact execDgeCompareDone_next chan faultA faultB dt s
  | snoopSelfFinish chan => exact execSnoopSelfFinish_next chan s
  | portConfig => exact ⟨_, rfl⟩
  | prpPair => exact ⟨_, rfl⟩
  | streamCreate => exact ⟨_, rfl⟩
  | streamModify => exact ⟨_, rfl⟩
  | streamSubscribe => exact ⟨_, rfl⟩
  | streamDestroy => exact ⟨_, rfl⟩
  | streamResetState => exact ⟨_, rfl⟩
  | streamClearKeys => exact ⟨_, rfl⟩
  | fpSetGlobal => exact ⟨_, rfl⟩
  | streamQuery => exact ⟨_, rfl⟩
  | portQuery => exact ⟨_, rfl⟩
  | linkChange port up speed => exact execLinkChange_next port up speed s
  | frameReceived port data fcsOk lineNs parsed => exact execFrameReceived_next port data fcsOk lineNs parsed s
  | verdictPost frame disagree dt => exact execVerdictPost_next frame disagree dt s
  | frameBudgetExpiry frame dt => exact execFrameBudgetExpiry_next frame dt s
  | frxDelivery frame ring dt => exact execFrxDelivery_next frame ring dt s
  | frxMaxWaitExpiry frame ring dt => exact execFrxMaxWaitExpiry_next frame ring dt s
  | promotionTimeReached => exact ⟨_, rfl⟩
  | ftxFetch entries => exact execFtxFetch_next entries s
  | ftxFrameRead frame data fault dt => exact execFtxFrameRead_next frame data fault dt s
  | ftxLaunch frame port dt => exact execFtxLaunch_next frame port dt s
  | txSlipExpiry frame port dt => exact execTxSlipExpiry_next frame port dt s
  | keyInfo => exact ⟨_, rfl⟩
  | keyDelete => exact ⟨_, rfl⟩
  | keyMoveHome => exact ⟨_, rfl⟩
  | keyPlaceCopy => exact ⟨_, rfl⟩
  | keySeal => exact ⟨_, rfl⟩
  | keyUnseal => exact ⟨_, rfl⟩
  | importKeyRotate => exact ⟨_, rfl⟩
  | rootProvision => exact ⟨_, rfl⟩
  | identityRead => exact ⟨_, rfl⟩
  | ksQuery => exact ⟨_, rfl⟩
  | keyRemaskPass die dt => exact execKeyRemaskPass_next die dt s
  | keyStoreEccLoss ti slot single => exact execKeyStoreEccLoss_next ti slot single s
  | duplexConfig => exact ⟨_, rfl⟩
  | duplexPair => exact ⟨_, rfl⟩
  | duplexUnpair => exact ⟨_, rfl⟩
  | duplexMirrorTi => exact ⟨_, rfl⟩
  | duplexPromote => exact ⟨_, rfl⟩
  | duplexDemote => exact ⟨_, rfl⟩
  | duplexQuery => exact ⟨_, rfl⟩
  | pair1 link mac data => exact execPair1_next link mac data s
  | pair2 link mac data => exact execPair2_next link mac data s
  | pair3 link mac data => exact execPair3_next link mac data s
  | pairingTimeout dt => exact execPairingTimeout_next dt s
  | mirrorMessage => exact ⟨_, rfl⟩
  | keyPut => exact ⟨_, rfl⟩
  | mirrorAck => exact ⟨_, rfl⟩
  | mirrorAckTimeout dt => exact execMirrorAckTimeout_next dt s
  | syncBegin => exact ⟨_, rfl⟩
  | syncEnd => exact ⟨_, rfl⟩
  | heartbeat dt => exact execHeartbeat_next dt s
  | heartbeatReceived => exact ⟨_, rfl⟩
  | mirrorLinkLost dt => exact execMirrorLinkLost_next dt s
  | pairRekey dt => exact execPairRekey_next dt s
  | rngQuery => exact ⟨_, rfl⟩
  | rngSet => exact ⟨_, rfl⟩
  | rngBank => exact ⟨_, rfl⟩
  | entropyEnable die => exact execEntropyEnable_next die s
  | startupTestEnd die failRct failApt => exact execStartupTestEnd_next die failRct failApt s
  | bankHealthFailure die bank test => exact execBankHealthFailure_next die bank test s
  | bankRetry die bank fail dt => exact execBankRetry_next die bank fail dt s
  | intakeRound die arrived dt => exact execIntakeRound_next die arrived dt s
  | drbgGenerate die => exact execDrbgGenerate_next die s
  | drbgReseed => exact ⟨_, rfl⟩
  | borrowedSeedArrival die => exact execBorrowedSeedArrival_next die s
  | randomWaitTimeout die cls job dt => exact execRandomWaitTimeout_next die cls job dt s
  | fwStageOpen => exact ⟨_, rfl⟩
  | fwStageData => exact ⟨_, rfl⟩
  | fwInstall => exact ⟨_, rfl⟩
  | fwInstallDone dt => exact execFwInstallDone_next dt s
  | fwActivate => exact ⟨_, rfl⟩
  | fwConfirm => exact ⟨_, rfl⟩
  | fwAdvanceSvn => exact ⟨_, rfl⟩
  | fwQuery => exact ⟨_, rfl⟩
  | modeEnter => exact ⟨_, rfl⟩
  | devReset => exact ⟨_, rfl⟩
  | diagLie => exact ⟨_, rfl⟩
  | diagRngCapture => exact ⟨_, rfl⟩
  | diagBist => exact ⟨_, rfl⟩
  | diagBistDone bad dt => exact execDiagBistDone_next bad dt s
  | diagResult => exact ⟨_, rfl⟩
  | lcsQuery => exact ⟨_, rfl⟩
  | authNonce => exact ⟨_, rfl⟩
  | ownerClaim => exact ⟨_, rfl⟩
  | ownerSetKeys => exact ⟨_, rfl⟩
  | ownerTransfer => exact ⟨_, rfl⟩
  | returnAuthorise => exact ⟨_, rfl⟩
  | dbgChallenge => exact ⟨_, rfl⟩
  | dbgUnlock => exact ⟨_, rfl⟩
  | dbgRelock => exact ⟨_, rfl⟩
  | lcsToTest => exact ⟨_, rfl⟩
  | lcsToSealed => exact ⟨_, rfl⟩
  | lcsToOwned => exact ⟨_, rfl⟩
  | lcsToReturned => exact ⟨_, rfl⟩
  | lcsToScrap => exact ⟨_, rfl⟩
  | tapReset => exact ⟨_, rfl⟩
  | idcode => exact ⟨_, rfl⟩
  | samplePreload => exact ⟨_, rfl⟩
  | bypass => exact ⟨_, rfl⟩
  | extest => exact ⟨_, rfl⟩
  | tapDbgChal => exact ⟨_, rfl⟩
  | tapDbgToken => exact ⟨_, rfl⟩
  | tapDbgStatus => exact ⟨_, rfl⟩
  | dbgAccess => exact ⟨_, rfl⟩
  | tapDbgRelock => exact ⟨_, rfl⟩
  | debugGrantExpiry => exact ⟨_, rfl⟩
  | caseSwitchOpen => exact ⟨_, rfl⟩
  | loopOpen => exact ⟨_, rfl⟩
  | watermarkMismatch loop dt => exact execWatermarkMismatch_next loop dt s
  | supplyWarning => exact ⟨_, rfl⟩
  | overvoltage => exact ⟨_, rfl⟩
  | vbatLow => exact ⟨_, rfl⟩
  | temperatureLimit sensor c => exact execTemperatureLimit_next sensor c s
  | refclockFault => exact ⟨_, rfl⟩
  | aoXtalStop => exact ⟨_, rfl⟩
  | alarmEvaluation => exact ⟨_, rfl⟩
  | eraseComplete dt => exact execEraseComplete_next dt s
  | protAlarmClear => exact ⟨_, rfl⟩
  | bistChannelTest pass dt => exact execBistChannelTest_next pass dt s
  | f2SecondEvaluation decision delay agree dt => exact execF2SecondEvaluation_next decision delay agree dt s
  | protQuery => exact ⟨_, rfl⟩
  | protSetMap => exact ⟨_, rfl⟩
  | protArm => exact ⟨_, rfl⟩
  | protBist => exact ⟨_, rfl⟩
  | protF2Set => exact ⟨_, rfl⟩
  | dklDisable => exact ⟨_, rfl⟩
  | dklEnable => exact ⟨_, rfl⟩
  | dklRegionWrite => exact ⟨_, rfl⟩
  | heldAccessTimeout => exact ⟨_, rfl⟩
  | aclQuery => exact ⟨_, rfl⟩
  | aclTest => exact ⟨_, rfl⟩
  | aclRecord => exact ⟨_, rfl⟩
  | eventCommit  => exact execEventCommit_next  s
  | evrWindow0Read master => exact execEvrWindow0Read_next master s
  | evrWindow7Read master => exact execEvrWindow7Read_next master s
  | evrQuery => exact ⟨_, rfl⟩
  | evrRead => exact ⟨_, rfl⟩
  | evrClear => exact ⟨_, rfl⟩
  | evrSet => exact ⟨_, rfl⟩
  | powerCapEvaluation => exact ⟨_, rfl⟩
  | thermalSample temps dt => exact execThermalSample_next temps dt s
  | regulatorSettled die dt => exact execRegulatorSettled_next die dt s
  | regulatorTimeout die kind dt => exact execRegulatorTimeout_next die kind dt s
  | smbusMode => exact ⟨_, rfl⟩
  | smbusReady => exact ⟨_, rfl⟩
  | smbusTemperature => exact ⟨_, rfl⟩
  | smbusPower => exact ⟨_, rfl⟩
  | smbusAlarmSummary => exact ⟨_, rfl⟩
  | smbusLifecycle => exact ⟨_, rfl⟩
  | smbusFirmware => exact ⟨_, rfl⟩
  | smbusAlertResponse => exact ⟨_, rfl⟩
  | vbatApplied => exact ⟨_, rfl⟩
  | pwrgoodFall  => exact execPwrgoodFall_next  s
  | ppsOutPulseEnd dt => exact execPpsOutPulseEnd_next dt s

/-- Every step answers a next state. -/
theorem step_next (s : State) : ∃ t, step s = .next t := by
  unfold step
  split
  · exact ⟨_, rfl⟩
  · exact exec_next _ _

end Sys2Proof.Machine
end

