-- ==== Sys2Proof/Machine/Pins.lean ====
section
/-! DEFINITION. The pins: where each ball of the package lies (R482 to R488, with R19 and R21), and what the board sees on
the outputs that the block drives (R389, R419, R425, R460, R461, R478, R480). No command reads these. -/

namespace Sys2Proof.Machine

/-! ## Outputs (R461) -/

/-- An output that nobody drives is high-impedance: `none`. A device reset is held until T0. -/
def State.driven (s : State) (from_ : Nat) (level : Bool) : Option Bool := if from_ ≤ s.boot.phase then some level else none

/-- ALARM_N and FAULT_N, which the AO logic drives from T0, and PPS_OUT. -/
def State.alarmN (s : State) : Option Bool := s.driven 1 (!s.alarmLow)
def State.faultPin (s : State) : Option Bool := s.driven 1 s.faultN
def State.ppsOutPin (s : State) : Option Bool := s.driven 1 s.time.ppsOut

/-- READY, which the boot ROM drives low from step 2 of Table 13.5, a step of RESET_RELEASE. -/
def State.readyOut (s : State) : Option Bool := s.driven 1 s.readyPin

/-- THERM_N and SMB_ALERT_N, which the MP firmware drives from step 6. -/
def State.thermN (s : State) : Option Bool := s.driven 2 (!s.flag .THM_STAT_THERM 0)
def State.smbAlertN (s : State) : Option Bool := s.driven 2 (!s.boot.alert)

/-! ## Wire loops (R419) -/

/-- One period of a watermark's LFSR, x³² + x²² + x² + x + 1 (R419). DESIGN CHOICE: it shifts towards the most significant
bit, whose bits 32, 22, 2 and 1, counted from 1, feed the new bit 0 (log entry 94). -/
def lfsrStep (x : Nat) : Nat := (2 * x + bit (x.testBit 31 ^^ (x.testBit 21 ^^ (x.testBit 1 ^^ x.testBit 0)))) % 2 ^ 32

/-- The register after `n` periods. -/
def lfsrAfter : Nat → Nat → Nat
  | 0, x => x
  | n + 1, x => lfsrAfter n (lfsrStep x)

/-- What TLOOP_OUT[n] carries in bit period `k` after the arming: an armed static loop is high, an armed watermark loop
carries its LFSR's bits, and a loop that is not armed is not driven. -/
def State.loopOut (s : State) (n k : Nat) : Option Bool :=
  if !(s.fget .PROT_TAMPER_CFG_LOOP_ARMED 0).testBit n then none
  else if s.watermark n then some ((lfsrAfter k (sparseGet 0 s.prot.seeds n)).testBit 31)
  else some true

/-! ## The ball map (R482 to R488) -/

/-- A signal or a supply of Table 18.1 and Table 18.6; a pair's ball says whether it is the _P one. -/
inductive Pin
  | netTx (port : Nat) (p : Bool)
  | netRx (port : Nat) (p : Bool)
  | netRefclk (die : Nat) (p : Bool)
  | pcieTx (lane : Nat) (p : Bool)
  | pcieRx (lane : Nat) (p : Bool)
  | pcieRefclk (p : Bool)
  | sysRefclk (p : Bool)
  | fspiIo (n : Nat) | fspiClk | fspiDqs | fspiCsN (n : Nat)
  | bootSel (n : Nat)
  | tck | tms | tdi | tdo | trstN
  | perstN | ppsIn | ppsOut | pwrgood | resetN
  | smbScl | smbSda | smbAlertN | pmbScl | pmbSda
  | alarmN | faultN | ready | thermN
  | aoXtalIn | aoXtalOut
  | tloopOut (n : Nat) | tloopIn (n : Nat) | caseSw (n : Nat)
  | vss | vddIo | vddOtp | vbat | vddSram | vddSerdesL | vddSerdesH
  | vddCore (die : Nat)
  | noConnect
deriving DecidableEq, Repr

/-- The global block of the spine, row after row (Table 18.14). -/
def globalBlock : List (List Pin) :=
  [(List.range 8).map .fspiIo,
   [.fspiClk, .fspiDqs, .fspiCsN 0, .fspiCsN 1, .vss, .vddIo, .bootSel 0, .bootSel 1],
   [.tck, .tms, .tdi, .tdo, .trstN, .vss, .perstN, .vddIo],
   [.sysRefclk true, .sysRefclk false, .vss, .ppsIn, .ppsOut, .vss, .pwrgood, .resetN],
   [.smbScl, .smbSda, .smbAlertN, .pmbScl, .pmbSda, .vddIo, .alarmN, .faultN],
   [.ready, .thermN, .vss, .vddOtp, .vss, .aoXtalIn, .aoXtalOut, .vbat],
   (List.range 8).map .tloopOut,
   (List.range 8).map .tloopIn,
   [.caseSw 0, .caseSw 1, .caseSw 2, .caseSw 3, .vss, .vss, .vss, .vss]]

/-- Slot `s` of a group of a die's sector: 0 NET_TX, 1 NET_RX, 2 PCIE_TX, 3 PCIE_RX (R485). -/
def slotPin (die group s : Nat) (p : Bool) : Pin :=
  match group with
  | 0 => if s < 16 then .netTx (16 * die + s) p else if s = 16 then .netRefclk die p else .vss
  | 1 => if s < 16 then .netRx (16 * die + s) p else .vss
  | 2 => if die ≠ 0 then .vss else if s < 16 then .pcieTx s p else if s = 16 then .pcieRefclk p else .vss
  | _ => if die = 0 && s < 16 then .pcieRx s p else .vss

/-- The sector template (Table 18.13). -/
def sectorPin (die r c : Nat) : Pin :=
  if r % 2 = 1 && r ≤ 25 then .vss
  else if r ≤ 24 then
    if c % 3 = 1 then .vss else slotPin die ((r - 2) / 6) (6 * ((r - 2) % 6 / 2) + (c - 2) / 3) (c % 3 == 2)
  else if r = 26 then (if c % 2 = 1 then .vddSerdesL else .vss)
  else if r = 27 then (if c % 2 = 1 then .vddSerdesH else .vss)
  else if c % 2 = 1 then .vddCore die else .vddSram

/-- A spine ball outside the global block (R487). -/
def spinePin (die y x : Nat) : Pin :=
  if (y + x) % 2 = 0 then .vss else if x % 6 = 0 then .vddSram else .vddCore die

/-- Rows and columns of the array of a part (R482). -/
def ballRows : Part → Nat
  | .zv8800 => 76
  | _ => 56

/-- The ball at a row index and column of the package, both from 1 (R484 to R487), as on a part with every die. -/
def mapPin (big : Bool) (y x : Nat) : Pin :=
  if big then
    let k := (x - 1) / 19
    let c := (x - 1) % 19 + 1
    if y ≤ 28 then sectorPin (2 * k) y c
    else if 49 ≤ y then sectorPin (2 * k + 1) (77 - y) c
    else if 30 ≤ y && y ≤ 38 && 2 ≤ x && x ≤ 9 then (globalBlock.getD (y - 30) []).getD (x - 2) .vss
    else spinePin (2 * k + (if y ≤ 38 then 0 else 1)) y x
  else
    let b := if y ≤ 28 then 0 else 1
    let r := if y ≤ 28 then y else 57 - y
    if x ≤ 19 then sectorPin b r x
    else if 38 ≤ x then sectorPin (2 + b) r (x - 37)
    else if 2 ≤ y && y ≤ 10 && 21 ≤ x && x ≤ 28 then (globalBlock.getD (y - 2) []).getD (x - 21) .vss
    else spinePin ((if x ≤ 28 then 0 else 2) + b) y x

/-- On a ZV2800 the NET_, NET_REFCLK and VDD_CORE balls of dies 2 and 3 are no-connects (R488). -/
def Pin.onDies (n : Nat) : Pin → Pin
  | .netTx q p => if q < 16 * n then .netTx q p else .noConnect
  | .netRx q p => if q < 16 * n then .netRx q p else .noConnect
  | .netRefclk d p => if d < n then .netRefclk d p else .noConnect
  | .vddCore d => if d < n then .vddCore d else .noConnect
  | x => x

/-- The ball of a part at a row index and column. -/
def ballAt (part : Part) (y x : Nat) : Option Pin :=
  if 1 ≤ y && y ≤ ballRows part && 1 ≤ x && x ≤ ballRows part then
    some (match part with
      | .zv8800 => mapPin true y x
      | .zv4800 => mapPin false y x
      | .zv2800 => (mapPin false y x).onDies 2)
  else none

/-- The letters of the rows (R483). -/
def rowLetters : List Char :=
  ['A', 'B', 'C', 'D', 'E', 'F', 'G', 'H', 'J', 'K', 'L', 'M', 'N', 'P', 'T', 'U', 'V', 'W', 'Y']

/-- The name of the row of an index from 1 (R483). -/
def rowName (y : Nat) : List Char :=
  let l := rowLetters.getD ((y - 1) % 19) 'A'
  match (y - 1) / 19 with
  | 0 => [l]
  | n => [rowLetters.getD (n - 1) 'A', l]

end Sys2Proof.Machine
end

