-- ==== Sys2Proof/Tests/Build.lean ====
section
/-!
SUPPORT. What the tests build their states from.
-/

namespace Sys2Proof.Tests

set_option Elab.async false

open Sys2Proof.Machine Sys2Proof.Claims

/-- Fields of registers put to values. -/
def put (s : State) (l : List (Fld × Nat × Nat)) : State := l.foldl (fun s x => s.fset x.1 x.2.1 x.2.2) s

/-- Some state and operands meet the condition of every row. -/
def Met : List Row → Prop
  | [] => True
  | x :: r => (∃ s a, x.ok s a) ∧ Met r

/-- The package in SERVICE with the host link open. -/
def up : State :=
  { put State.reset [(.DEV_MODE_MODE, 0, 3), (.MBX_STATUS_READY, 0, 1)] with
    host := { State.reset.host with busMaster := true, perst := false, msixEnable := true, stoppedAt := none }
    boot := { State.reset.boot with phase := 3 } }

/-- TI 5 bound to PASID 77, with CQ 2, SQ 3, FRX 4 and FTX 6 enabled, 64 entries each; SQ 3 reports to CQ 2. -/
def tenant : State := put { up with part := .zv2800 }
  ([(.DEV_READY_FETCH, 0, 1), (.TI_STATUS_STATE, 5, 2), (.TI_STATUS_PASID_VALID, 5, 1), (.TI_STATUS_PASID, 5, 77),
    (.TI_SCHED_READY_LIMIT, 5, 64)] ++
   ([(2, 1), (3, 0), (4, 2), (6, 3)].flatMap (fun x =>
    [(.RING_CFG_OWNER, x.1, 5), (.RING_CFG_LOG2_SIZE, x.1, 6), (.RING_CFG_TYPE, x.1, x.2), (.RING_CFG_ALLOCATED, x.1, 1),
     (.RING_CFG_CLASS_MASK, x.1, 15), (.RING_STATE_STATE, x.1, 1), (.RING_ARB_CREDIT, x.1, 8), (.RING_ARB_BURST, x.1, 8),
     (.RING_ARB_WEIGHT, x.1, 8), (.RING_BIND_CQ0, x.1, 2), (.RING_BIND_CQ1, x.1, 65535), (.RING_BIND_CQ2, x.1, 65535),
     (.RING_BIND_CQ3, x.1, 65535)])))

/-- A submission entry (Table 04.4): opcode, flags, CQ, usage, key handle, the three addresses, the three lengths, the tag and
the deadline. -/
def mkSqe (op flags cq usage key : Nat) (addr len : List Nat) (tag deadline : Nat) : Bytes :=
  leBytes 2 op ++ leBytes 2 flags ++ leBytes 2 cq ++ leBytes 2 usage ++ leBytes 8 key ++ addr.flatMap (leBytes 8) ++
    len.flatMap (leBytes 4) ++ leBytes 4 tag ++ leBytes 8 deadline

/-- Die 0 with its cores and engines in service, a window of two pages at 0x1000 and a key quota. -/
def running : State :=
  put tenant [(.DEV_READY_MAP_DIE, 0, 1), (.DEV_READY_VC_VC, 0, 0xFFFF), (.DEV_READY_MAP_LIE, 0, 3), (.TI_WIN_BASE_BASE, 80, 1),
    (.TI_WIN_CTL_PAGES, 80, 2), (.TI_WIN_CTL_READ, 80, 1), (.TI_WIN_CTL_WRITE, 80, 1), (.TI_KEY_QUOTA_VALUE, 5, 64)]

/-- The deckles of registers enabled with the vendor's rules, and debug level 3. -/
def guarded : State :=
  { put running [(.DKL_CTL_EN, 6, 1), (.DKL_CTL_BOOT_RULE, 6, 0), (.DKL_CTL_EN, 5, 1), (.DKL_CTL_BOOT_RULE, 5, 0),
      (.DBG_STATE_LEVEL, 0, 3), (.PROT_BIST_STAT_RUNS, 0, 7)] with
    dkl := [(5, { Dkl.boot with loaded := true }), (6, { Dkl.boot with loaded := true })] }

/-- A SHA-256 job of 3 bytes in class NORMAL, with its result to CQ 2. -/
def shaSqe (deadline : Nat) : Bytes := mkSqe 0x0102 0x200 2 0 0 [0x1000, 0, 0x2000] [3, 0, 32] 9 deadline

/-- A job of TI 5 from SQ 3. -/
def shaJob : Job := newJob 7 5 3 0 (shaSqe 0)

/-- Jobs in the table. -/
def withJobs (s : State) (l : List Job) : State := { s with sched := { s.sched with jobs := l } }

/-- A bound job of an opcode, its key there and `n` random bytes served. -/
def jobOf (op n : Nat) : Job :=
  { newJob 7 5 3 0 (mkSqe op 0x200 2 0 0 [0, 0, 0] [0, 0, 0] 9 0) with
    phase := .bound
    due := []
    rand := List.replicate n 0 }

/-- Random bytes that an earlier draw has brought. -/
def drawn (s : State) (n : Nat) : State := { s with rng := [(0, { RngDie.off with mpRand := List.replicate n 3 })] }

theorem drawn_draws (s : State) (n m : Nat) (h : m ≤ n) : ∃ r, Draws (drawn s n) m r := by
  refine ⟨_, Or.inl ⟨?_, rfl⟩⟩
  simp only [drawn, State.rngOf, sparseGet]
  simpa using h

/-- A mailbox command that runs, without trailer. -/
def command (s : State) (op : Nat) (p : Bytes) : State :=
  { s with mbx := { s.mbx with
      phase := .running
      snap := leBytes 2 op ++ leBytes 2 0 ++ leBytes 4 0 ++ leBytes 4 p.length ++ leBytes 4 0 ++ p } }

/-- A payload from its fields: widths and values. -/
def pay (l : List (Nat × Nat)) : Bytes := l.flatMap (fun x => leBytes x.1 x.2)

/-- Some state and payload meet the condition of every query, of every change. -/
def Asked : List Query → Prop
  | [] => True
  | x :: r => (∃ s p, Runs s x.op p ∧ x.ok s p) ∧ Asked r

def Changed : List Change → Prop
  | [] => True
  | x :: r => (∃ s p, Runs s x.op p ∧ x.ok s p) ∧ Changed r

end Sys2Proof.Tests
end

