-- ==== Sys2Proof/Tests/WitnessForms.lean ====
section
/-!
SUPPORT. A core that executes an owner kernel, and words that meet what the tables of kernel instructions ask.
-/

namespace Sys2Proof.Tests

set_option Elab.async false

open Sys2Proof.Machine Sys2Proof.Claims

/-- Kernel 2 of 1,024 words with one segment of a page: entry 0 declares 1,000,000 cycles and has no check. -/
def kernelTwo : Kernel :=
  { header := List.replicate 40 0 ++ leBytes 2 1 ++ List.replicate 26 0 ++ leBytes 4 1000000 ++ List.replicate 12 0 ++ [0xFF] ++
      List.replicate 427 0
    sites := [3], code := List.replicate 2400 0, measure := [], block := 0, callable := true }

/-- A job that calls entry 0 of kernel 2, bound to core 5. -/
def kernelJob : Job :=
  { jobOf 0x0F10 0 with
    core := some 5
    outLen := 64
    krefs := [(4, List.replicate 24 0x5A)] }

/-- Core 5 at word 3 of kernel 2, with a SECRET segment at 0 and a public one at 0x10000, and a modulus in Q0. -/
def coreFive : VCore :=
  { VCore.idle with
    kernel := 2, job := some 7, codeLen := 300, pc := 3, params := [1, 2, 3, 4, 5, 6, 7, 8], sites := [3]
    q := [(0, modulusOf 3329)]
    segs := [⟨0, 4096, true, true⟩, ⟨0x10000, 4096, true, false⟩] }

/-- Core 5 runs with its mask buffer full. -/
def onCore (c : VCore) (j : Job) : State :=
  { put running [(.VC_STATE_STATE, 5, 1), (.VC_MGEN_STAT_FILL, 5, 65536)] with
    cores := [(5, c)]
    kernels := [(2, kernelTwo)]
    sched := { running.sched with jobs := [j] } }

/-- A word with each used field not zero: masked by predicate 1 with merging, VD even. -/
def wordOf (used : List VF) (w : Nat) : VFields :=
  let u := fun x n => if used.contains x then n else 0
  { w := u .w w, pred := u .pred 1, pen := u .pred 1, zm := 0, vd := u .vd 2, va := u .va 3, vb := u .vb 4, vc := u .vc 5,
    qs := 0, fn := 0, ss := u .ss 6, imm := u .imm 1 }

/-- VSEL takes its predicate as a source and is not predicated. -/
def plainly (f : VFields) : VFields := { f with pen := 0 }

/-- The 64-bit word of a kernel instruction. -/
def wordFor (i : Instr) : Nat :=
  match kernelCode i with
  | some (m, n, f) => kword m n f
  | none => 0

/-- Core 5 runs with a word at its place in kernel 2. -/
def onWord (c : VCore) (j : Job) (w : Nat) : State :=
  { onCore c j with
    kernels := [(2, { kernelTwo with code := List.replicate (8 * c.pc) 0 ++ leBytes 8 w ++ List.replicate 2400 0 })] }

theorem word_read (c : VCore) (j : Job) (w : Nat) (hk : c.kernel = 2) (hw : w < 256 ^ 8) : (onWord c j w).kernelWord 5 = w := by
  have e : (onWord c j w).core 5 = c := rfl
  have k : ((onWord c j w).kernelAt 2).code = List.replicate (8 * c.pc) 0 ++ leBytes 8 w ++ List.replicate 2400 0 := rfl
  have h := leAt_leBytes (List.replicate (8 * c.pc) 0) (List.replicate 2400 0) 8 w hw
  rw [List.length_replicate] at h
  rw [State.kernelWord, e, hk, k, h]

theorem wordFor_lt (i : Instr) : wordFor i < 256 ^ 8 := by
  unfold wordFor; split
  · exact kword_lt _ _ _
  · decide

/-- The core fetches the word that stands there, unchanged. -/
theorem word_fetched (c : VCore) (j : Job) (i : Instr) (hk : c.kernel = 2) (hi : kdecode (wordFor i) = kernelCode i) :
    Fetched (onWord c j (wordFor i)) 5 i :=
  ⟨by rw [word_read c j _ hk (wordFor_lt i)]; exact hi, rfl, rfl⟩

theorem witness_executing : Executing (onCore coreFive kernelJob) 5 kernelJob := by unfold Executing; decide +kernel

/-- A word of the form meets its conditions on `coreFive`. -/
def VectorMet (x : VectorForm) : Prop :=
  ∃ f ∈ x.ws.flatMap (fun w => [wordOf x.used w, plainly (wordOf x.used w)]),
    (f.cut = f ∧ f.clean x.used = true ∧ (VF.w ∈ x.used → f.w ∈ x.ws)) ∧ x.ok f coreFive = true ∧
      (x.outs.length = 2 → f.vd % 2 = 0) ∧ clash (x.allSrcs f coreFive) = false ∧
      kdecode (wordFor (x.cmd 5 f)) = kernelCode (x.cmd 5 f)

theorem witness_integer_forms : ∀ x ∈ integerForms, VectorMet x := by unfold VectorMet; decide +kernel

theorem witness_multiply_forms : ∀ x ∈ multiplyForms, VectorMet x := by unfold VectorMet; decide +kernel

theorem witness_permute_forms : ∀ x ∈ permuteForms, VectorMet x := by unfold VectorMet; decide +kernel

theorem witness_modular_forms : ∀ x ∈ modularForms, VectorMet x := by unfold VectorMet; decide +kernel

theorem witness_predicate_forms : ∀ x ∈ predicateForms, ∃ f ∈ x.ws.map (wordOf x.used),
    (f.cut = f ∧ f.clean x.used = true ∧ (VF.w ∈ x.used → f.w ∈ x.ws)) ∧ x.ok f coreFive = true ∧ f.vd < 8 ∧
      clash (x.allSrcs f coreFive) = false ∧ kdecode (wordFor (x.cmd 5 f)) = kernelCode (x.cmd 5 f) := by decide +kernel

theorem witness_scalar_forms : ∀ x ∈ scalarForms, ∃ f ∈ x.ws.map (wordOf x.used),
    (f.cut = f ∧ f.clean x.used = true ∧ (VF.w ∈ x.used → f.w ∈ x.ws)) ∧ x.ok f coreFive = true ∧
      clash (x.srcs f coreFive) = false ∧ kdecode (wordFor (x.cmd 5 f)) = kernelCode (x.cmd 5 f) := by decide +kernel

theorem witness_core (w : Nat) : (onWord coreFive kernelJob w).core 5 = coreFive := rfl

theorem word_declared (c : VCore) (w : Nat) : (onWord c kernelJob w).declaredOf kernelJob = 1000000 := by
  have o : kernelJob.oper = some (.kernel 2 0) := by decide +kernel
  have d : declaredCycles (sliceZ kernelTwo.header 64 24) (kernelJob.in0.length + kernelJob.in1.length) = 1000000 := by decide +kernel
  simpa only [State.declaredOf, o, Kernel.entry, State.kernelAt, onWord, sparseGet, if_true] using d

/-- Other kernels change nothing of what makes a core execute but the limits. -/
theorem executing_with (s : State) (v : Nat) (j : Job) (k : Sparse Kernel) (h : Executing s v j) (hy : (s.core v).sinceYield < 3000)
    (hc : (s.core v).cycles < 4 * { s with kernels := k }.declaredOf j) : Executing { s with kernels := k } v j :=
  ⟨h.1, h.2.1, h.2.2.1, h.2.2.2.1, h.2.2.2.2.1, h.2.2.2.2.2.1, fun _ => hy, hc, h.2.2.2.2.2.2.2.2⟩

/-- The word that stands there changes nothing of what makes the core execute. -/
theorem witness_executing_word (w : Nat) : Executing (onWord coreFive kernelJob w) 5 kernelJob :=
  executing_with _ _ _ _ witness_executing (by decide) (by
    have d := word_declared coreFive w
    unfold onWord at d
    rw [d]; decide)

/-- All hypotheses of `VectorForm.Completes` together. -/
theorem witness_vector_form (x : VectorForm) (h : VectorMet x) :
    ∃ s v j f, Executing s v j ∧ FieldsOk f x.used x.ws ∧ x.ok f (s.core v) = true ∧ (x.outs.length = 2 → f.vd % 2 = 0) ∧
      clash (x.allSrcs f (s.core v)) = false ∧ Fetched s v (x.cmd v f) := by
  obtain ⟨f, -, hf, ho, hv, hc, hw⟩ := h
  exact ⟨onWord coreFive kernelJob (wordFor (x.cmd 5 f)), 5, kernelJob, f, witness_executing_word _, hf,
    by rw [witness_core]; exact ho, hv, by rw [witness_core]; exact hc, word_fetched coreFive kernelJob (x.cmd 5 f) rfl hw⟩

/-- All hypotheses of `KernelFaults` on a field that is unused and not zero. -/
theorem witness_bad_field : ∀ x ∈ integerForms ++ multiplyForms ++ permuteForms ++ modularForms,
    ∃ f : VFields, f.cut = f ∧ f.clean x.used = false :=
  fun x hx => ⟨{ wordOf x.used 0 with fn := 3 }, (by decide +kernel : ∀ x ∈ integerForms ++ multiplyForms ++ permuteForms ++
    modularForms, ({ wordOf x.used 0 with fn := 3 } : VFields).cut = { wordOf x.used 0 with fn := 3 } ∧
      ({ wordOf x.used 0 with fn := 3 } : VFields).clean x.used = false) x hx⟩

end Sys2Proof.Tests
end

