-- ==== Sys2Proof/WellFormed.lean ====
section
/-!
DEFINITION. Which commands are well formed: operands that name units stay within the largest variant's counts (R2, R19) and
fields within their widths (R177). The meanings are total all the same, and judge the part's own counts themselves.
-/

namespace Sys2Proof

/-- The fields of an instruction word within their widths (Table 06.2). -/
def fieldsWf (f : VFields) : Bool :=
  decide (f.w < 4) && decide (f.pred < 8) && decide (f.pen < 2) && decide (f.zm < 2) && decide (f.vd < 32) &&
    decide (f.va < 32) && decide (f.vb < 32) && decide (f.vc < 32) && decide (f.qs < 4) && decide (f.fn < 256) &&
    decide (f.ss < 32) && decide (f.imm < 65536)

/-- A debug target within the largest variant. -/
def targetWf : DbgTarget → Bool
  | .register a => decide (a < 2 ^ 26)
  | .denied => true
  | .shared cl a => decide (cl < 16) && decide (a < 2 ^ 22)
  | .store v a => decide (v < 128) && decide (a < 2 ^ 18)
  | .otp n _ => decide (n < 4)
  | .core v => decide (v < 128)
  | .engine k => decide (k < 16)
  | .agent d => decide (d < 8)

/-- A unit within the largest variant. -/
def unitWf : ReadyUnit → Bool
  | .pcie | .phc | .recorder | .fetch => true
  | .die d => decide (d < 8)
  | .golden k => decide (k < 16)
  | .core v => decide (v < 128)
  | .engine k => decide (k < 16)
  | .calender d c => decide (d < 8) && decide (c < 4)
  | .port p => decide (p < 128)
  | .keyStore d => decide (d < 8)

/-- A well-formed command. -/
def Instr.wf : Instr → Bool
  | .powerOnReset | .resetPin _ _ | .thermalShutdownRelease _ | .resetRelease _ | .bootVerdict _ | .leaveBoot _
  | .mainPowerLoss | .vbatExhausted | .perstAssert | .perstDeassert | .functionLevelReset | .busMasterDisable _
  | .busMasterEnable _ | .rcRegisterRead _ _ _ _ _ | .mailboxGo | .mailboxAbort | .mailboxTimeout _ | .devInfo
  | .devCaps | .devPools | .echo | .tiCreate | .tiBind | .tiSetQuota | .tiAddWindow | .tiRemoveWindow | .tiAssignImt
  | .tiReleaseImt | .tiQuiesce | .tiResume | .tiDestroy | .tiQuery | .doorbell _ _ | .keyArrival _ _
  | .jobCompletion _ _ _ | .dmaReadError _ _ _ | .dmaCompletionTimeout _ _ _ | .ringCreate | .ringDestroy
  | .ringEnable | .ringDisable | .ringSetArb | .ringSetInt | .ringQuery | .schedSetShare | .schedSetReserve
  | .schedSetBalance | .schedSetWait | .schedQuery | .balancerPeriod _ | .jobPreemptSave _ _ | .waitTimeout _ _
  | .holdEnd _ | .timeSet _ | .timeStep _ | .stepTakesEffect _ | .timeSlew _ | .timeNowCaptureRead _ _ | .timeTarget _
  | .targetReached _ | .ppsOutEdge _ | .ppsInEdge _ _ | .ppsInLost _ | .replicaCorrection _ | .sha2Digest _
  | .sha3Digest _ | .shakeOutput _ | .cshakeOutput _ | .hmacTag _ | .hmacVerify _ | .kmacTag _ | .kmacVerify _
  | .gcmEncrypt _ | .gcmDecrypt _ | .gmacGenerate _ | .gmacVerify _ | .keyWrap _ | .keyUnwrap _ | .keyWrapPad _
  | .keyUnwrapPad _ | .mlKemKeygen _ | .mlKemEncaps _ | .mlKemDecaps _ | .mlDsaKeygen _ | .mlDsaSign _
  | .mlDsaVerify _ | .mlDsaPrehashSign _ | .mlDsaPrehashVerify _ | .slhDsaKeygen _ | .slhDsaSign _ | .slhDsaVerify _
  | .slhDsaPrehashSign _ | .slhDsaPrehashVerify _ | .lmsVerify _ | .hssVerify _ | .xmssVerify _ | .xmssMtVerify _
  | .hqcKeygen _ | .hqcEncaps _ | .hqcDecaps _ | .mcelieceKeygen _ | .mcelieceEncaps _ | .mcelieceDecaps _
  | .rsaPssSign _ | .rsaPssVerify _ | .rsaPkcs1Sign _ | .rsaPkcs1Verify _ | .rsaOaepDecrypt _ | .rsaOaepEncrypt _
  | .ecKeygen _ | .ecSign _ | .ecVerify _ | .ecDerive _ | .hybridKeygen _ | .hybridEncapsOrSign _
  | .hybridDecapsOrVerify _ | .generateSecretKey _ | .keyImport _ | .exportWrapped _ | .kmacDerive _
  | .deleteAndZeroise _ | .readPublicKey _ | .makePublicKeyResident _ | .keyInformation _ | .randomBytes _
  | .randomBytesPr _ | .attestationQuote _ | .installNextStreamKey _ | .replaceCurrentStreamKey _ | .ownerKernelCall _
  | .kernelStageOpen | .kernelStageData | .kernelCommit | .kernelRemove | .kernelQuery | .portConfig | .prpPair
  | .streamCreate | .streamModify | .streamSubscribe | .streamDestroy | .streamResetState | .streamClearKeys
  | .fpSetGlobal | .streamQuery | .portQuery | .verdictPost _ _ _ | .frameBudgetExpiry _ _ | .promotionTimeReached _ _
  | .ftxFetch _ | .ftxFrameRead _ _ _ _ | .keyInfo | .keyDelete | .keyMoveHome | .keyPlaceCopy | .keySeal | .keyUnseal
  | .importKeyRotate | .rootProvision | .identityRead | .ksQuery | .duplexConfig | .duplexPair | .duplexUnpair
  | .duplexMirrorTi | .duplexPromote | .duplexDemote | .duplexQuery | .pairingTimeout _ | .mirrorAckTimeout _
  | .heartbeat _ | .mirrorLinkLost _ | .pairRekey _ | .rngQuery | .rngSet | .rngBank _ | .fwStageOpen | .fwStageData
  | .fwInstall | .fwInstallDone _ | .fwActivate | .fwConfirm | .fwAdvanceSvn | .fwQuery | .modeEnter | .devReset
  | .diagLie | .diagRngCapture _ _ | .diagBist | .diagBistDone _ _ | .diagResult | .lcsQuery | .authNonce
  | .ownerClaim | .ownerSetKeys | .ownerTransfer | .returnAuthorise | .dbgChallenge | .dbgUnlock | .dbgRelock
  | .lcsToTest _ | .lcsToSealed _ | .lcsToOwned _ | .lcsToReturned _ | .lcsToScrap _ | .tapReset | .idcode
  | .samplePreload _ _ _ | .bypass _ _ | .extest _ _ _ | .tapDbgChal | .tapDbgToken _ | .tapDbgStatus | .tapDbgRelock
  | .debugGrantExpiry _ | .vbatLow _ | .aoXtalStop _ | .alarmEvaluation _ | .eraseComplete _ | .protAlarmClear _
  | .bistChannelTest _ _ | .f2SecondEvaluation _ _ _ _ | .protQuery | .protSetMap | .protArm | .protBist | .protF2Set
  | .aclQuery | .aclTest | .aclRecord | .eventCommit | .evrWindow0Read _ | .evrWindow7Read _ | .evrQuery | .evrRead
  | .evrClear | .evrSet | .powerCapEvaluation _ _ _ | .thermalSample _ _ | .smbusMode _ | .smbusReady _
  | .smbusTemperature _ | .smbusPower _ | .smbusAlarmSummary _ | .smbusLifecycle _ | .smbusFirmware _
  | .smbusAlertResponse | .vbatApplied | .pwrgoodFall | .ppsOutPulseEnd _ => true
  | .supplyReset rail die _ | .supplyWarning rail die _ | .overvoltage rail die _ => decide (rail < 3) && decide (die < 8)
  | .thermalShutdown sensor _ _ | .temperatureLimit sensor _ => decide (sensor < 9)
  | .unitReady unit => unitWf unit
  | .msixRelease vector => decide (vector < 8)
  | .registerWrite _ _ _ data _ _ => decide (data.length ≤ 64)
  | .headerReadComplete ring _ _ | .tenantEnableRequest ring _ | .tenantDisableRequest ring _
  | .tenantCtlRefused ring _ | .consumerIndexPoll ring _ _ | .sqeAccept ring _ _ | .publishedHeadWrite ring _
  | .heldCqeWrite ring | .cqFullTimeout ring _ | .coalesceTimer ring _ | .ringDisableComplete ring
  | .frxDelivery _ ring _ | .frxMaxWaitExpiry _ ring _ => decide (ring < 16384)
  | .sqFetch entries => entries.all (fun e => e.length == 64)
  | .dispatchPass die _ | .keyRemaskPass die _ | .entropyEnable die | .startupTestEnd die _ _ | .intakeRound die _ _
  | .drbgGenerate die | .drbgReseed die | .borrowedSeedArrival die | .randomWaitTimeout die _ _ _
  | .regulatorSettled die _ | .regulatorTimeout die _ _ => decide (die < 8)
  | .imtUnmask entry => decide (entry < 4096)
  | .clockMeasurementWindow vc _ _ | .jobRestore _ vc _ | .hashUnitComplete vc _ | .yieldIntervalExceeded vc
  | .declaredCountPassed vc | .runLimitReached vc | .mgenBlock vc _ | .mgenReseedRequest vc | .mgenSeedApply vc
  | .mgenSeedArrival vc | .controlStoreScrub vc _ _ _ | .controlStoreReloadDone vc _ _ _ _
  | .kernelStoreRewriteDone vc _ => decide (vc < 128)
  | .idlClockLoss a b => decide (a < 8) && decide (b < 8)
  | .vadd vc f | .vsub vc f | .vand vc f | .vor vc f | .vxor vc f | .vandn vc f | .vminu vc f | .vmaxu vc f
  | .vmin vc f | .vmax vc f | .vneg vc f | .vsel vc f | .vaddi vc f | .vsll vc f | .vsrl vc f | .vsra vc f
  | .vrol vc f | .vsllv vc f | .vsrlv vc f | .vsrav vc f | .vrolv vc f | .vceq vc f | .vcne vc f | .vcltu vc f
  | .vcgeu vc f | .vclt vc f | .vcge vc f | .vmull vc f | .vmulhu vc f | .vmulhs vc f | .vmulweu vc f | .vmulwou vc f
  | .vmulwes vc f | .vmulwos vc f | .vmacl vc f | .vdot4b vc f | .vdot4bs vc f | .vdot2h vc f | .vdot2hs vc f
  | .vdot4h vc f | .vdot4hs vc f | .vclmul vc f | .vclmulx vc f | .vpermv vc f | .vslideup vc f | .vslideups vc f
  | .vslidedn vc f | .vslidedns vc f | .vbcast vc f | .vziplo vc f | .vziphi vc f | .vunzipe vc f | .vunzipo vc f
  | .vtr32 vc f | .vtr8 vc f | .vpopc vc f | .vbrev vc f | .vbitsel vc f | .vmov vc f | .vmovi vc f | .vmovs vc f
  | .vext vc f | .vins vc f | .vzero vc f | .pand vc f | .por vc f | .pxor vc f | .pnot vc f | .pset vc f | .pcnt vc f
  | .qset vc f | .qrd vc f | .madd vc f | .msub vc f | .mneg vc f | .mred vc f | .mmulm vc f | .mmulb vc f
  | .mtom vc f | .mfromm vc f | .mcsub vc f | .mcenter vc f | .bfct vc f | .bfgs vc f | .bfcti vc f | .bfgsi vc f
  | .s2init vc f | .s2abs vc f | .s2fin vc f | .s2lds vc f | .s2sts vc f | .kinit vc f | .kabs vc f | .kfin vc f
  | .ksqz vc f | .kperm vc f | .klds vc f | .ksts vc f | .akey vc f | .aenc vc f | .adec vc f | .actr vc f | .mrd vc f
  | .mstat vc f | .tagv vc f | .tags vc f | .tagrd vc f | .split vc f | .refresh vc f | .gmulq vc f | .gand vc f
  | .ga2b vc f | .gb2a vc f | .declv vc f | .decls vc f | .vld vc f | .vlds vc f | .vldff vc f | .vldsh vc f
  | .vst vc f | .vsts vc f | .vstsh vc f | .vgather vc f | .vscatter vc f | .keyload vc f | .sld vc f | .sst vc f
  | .sadd vc f | .ssub vc f | .sand vc f | .sor vc f | .sxor vc f | .ssll vc f | .ssrl vc f | .ssra vc f | .smul vc f
  | .saddi vc f | .slui vc f | .sltu vc f | .slt vc f | .branch vc f | .beqz vc f | .bnez vc f | .bltz vc f
  | .bgez vc f | .loopOp vc f | .callOp vc f | .retOp vc f | .yieldOp vc f | .endOp vc f | .fence vc f | .nop vc f
  | .sparam vc f => decide (vc < 128) && fieldsWf f
  | .goldenCopyRewriteDone cluster _ => decide (cluster < 16)
  | .lieCompletion engine _ _ | .lieClearDone engine _ | .lieEccUncorrectable engine _ _ _
  | .lieTablesRewritten engine _ _ | .lieSlotWordsWrite _ engine _ | .directRsaPrivate _ engine _ _
  | .directRsaPublic _ engine _ _ | .directEcdsaKeygen _ engine _ _ | .directEcdsaSign _ engine _ _
  | .directEcdsaVerify _ engine _ _ | .directEcdh _ engine _ _ | .directEddsaKeygen _ engine _ _
  | .directEddsaSign _ engine _ _ | .directEddsaVerify _ engine _ _ | .directXKeygen _ engine _ _
  | .directXDerive _ engine _ _ | .directCommandDone engine _ => decide (engine < 16)
  | .dgeInit chan func => decide (chan < 32) && decide (func < 16)
  | .dgeData chan _ | .dgeFin chan | .dgeCompare chan _ | .dgeCompareDone chan _ _ _ | .snoopSelfFinish chan => decide (chan < 32)
  | .linkChange port _ _ | .frameReceived port _ _ _ _ | .ftxLaunch _ port _ | .txSlipExpiry _ port _ => decide (port < 128)
  | .keyStoreEccLoss ti _ _ => decide (ti < 1024)
  | .pair1 link mac _ | .pair2 link mac _ | .pair3 link mac _ => decide (link < 2) && mac.length == 6
  | .mirrorMessage link _ _ _ | .mirrorAck link _ _ _ | .syncBegin link _ | .syncEnd link _
  | .heartbeatReceived link _ _ _ _ => decide (link < 2)
  | .keyPut link _ ti _ _ _ _ _ => decide (link < 2) && decide (ti < 1024)
  | .bankHealthFailure die bank _ | .bankRetry die bank _ _ => decide (die < 8) && decide (bank < 7)
  | .dbgAccess _ target _ _ => targetWf target
  | .caseSwitchOpen sw _ => decide (sw < 4)
  | .loopOpen loop _ | .watermarkMismatch loop _ => decide (loop < 8)
  | .refclockFault clock die _ => decide (clock < 3) && decide (die < 8)
  | .dklDisable deckle _ | .dklEnable deckle _ | .heldAccessTimeout deckle _ => decide (deckle < 64)
  | .dklRegionWrite deckle region _ _ _ => decide (deckle < 64) && decide (region < 16)

end Sys2Proof
end

