-- ==== Sys2Proof/Tests/Slice0.lean ====
section
/-! SUPPORT. Ill-formed commands that WellFormed refuses, one for each check, with well-formed ones at the limits; and
single steps on the spec's own worked examples. -/

namespace Sys2Proof.Tests

set_option Elab.async false

open Sys2Proof.Machine Sys2Proof.Claims

/-! ## Well-formed commands -/

/-- One command beyond the limit for each check on a place of the package. -/
noncomputable def illPlaces : List Instr :=
  [.supplyReset 3 0 0, .overvoltage 0 8 0, .thermalShutdown 9 0 0, .msixRelease 8, .registerWrite .pf0 .bar0 0 (List.replicate 65 0) true 0,
   .headerReadComplete 16384 0 0, .sqFetch [List.replicate 63 0], .dispatchPass 8 [], .imtUnmask 4096, .mgenBlock 128 0,
   .idlClockLoss 8 0, .idlClockLoss 0 8, .goldenCopyRewriteDone 16 0, .lieCompletion 16 true 0] ++
  [.dgeInit 32 0, .dgeInit 0 16, .dgeData 32 0, .linkChange 128 true 0, .keyStoreEccLoss 1024 0 true,
   .pair1 2 (List.replicate 6 0) [], .pair1 0 (List.replicate 5 0) [], .syncBegin 2 0, .bankRetry 8 0 0 0, .bankRetry 0 7 0 0,
   .caseSwitchOpen 4 true, .loopOpen 8 true, .refclockFault 3 0 0, .refclockFault 0 8 0, .dklEnable 64 0,
   .dklRegionWrite 64 0 0 0 0, .dklRegionWrite 0 16 0 0 0]

/-- One unit of each kind beyond the limit. -/
def illUnits : List ReadyUnit := [.die 8, .golden 16, .core 128, .engine 16, .calender 8 0, .calender 0 4, .port 128, .keyStore 8]

/-- One debug target of each kind beyond the limit. -/
def illTargets : List DbgTarget :=
  [.register (2 ^ 26), .shared 16 0, .shared 0 (2 ^ 22), .store 128 0, .store 0 (2 ^ 18), .otp 4 [], .core 128, .engine 16, .agent 8]

/-- One field of a word beyond its width (Table 06.2). -/
def illFields : List VFields :=
  let z : VFields := ⟨0, 0, 0, 0, 0, 0, 0, 0, 0, 0, 0, 0⟩
  [{ z with w := 4 }, { z with pred := 8 }, { z with pen := 2 }, { z with zm := 2 }, { z with vd := 32 }, { z with va := 32 },
   { z with vb := 32 }, { z with vc := 32 }, { z with qs := 4 }, { z with fn := 256 }, { z with ss := 32 }, { z with imm := 65536 }]

theorem test_ill_places : ∀ i ∈ illPlaces, i.wf = false := by decide

theorem test_ill_units : ∀ u ∈ illUnits, (Instr.unitReady u).wf = false := by decide

theorem test_ill_targets : ∀ x ∈ illTargets, (Instr.dbgAccess 0 x false 0).wf = false := by decide

theorem test_ill_fields : ∀ f ∈ illFields, (Instr.vadd 0 f).wf = false := by decide

theorem test_ill_core : (Instr.nop 128 ⟨0, 0, 0, 0, 0, 0, 0, 0, 0, 0, 0, 0⟩).wf = false := by decide

theorem test_well_formed_at_the_limits : ∀ i ∈ [Instr.supplyReset 2 7 0, .thermalShutdown 8 0 0, .msixRelease 7,
    .registerWrite .pf0 .bar0 0 (List.replicate 64 0) true 0, .headerReadComplete 16383 0 0, .sqFetch [List.replicate 64 0],
    .imtUnmask 4095, .mgenBlock 127 0, .dgeInit 31 15, .linkChange 127 true 0, .bankRetry 7 6 0 0, .dklRegionWrite 63 15 0 0 0,
    .unitReady (.calender 7 3), .dbgAccess 0 (.store 127 (2 ^ 18 - 1)) false 0,
    .vadd 127 ⟨3, 7, 1, 1, 31, 31, 31, 31, 3, 255, 31, 65535⟩], i.wf = true := by decide

/-! ## The worked examples of the spec -/

/-- Locating three registers on a ZV8800 (19): VC 117, ring 4,100 and TI 37. -/
theorem test_three_registers : let s := { State.reset with part := .zv8800 }
    s.regAt 0x810540 = some (.VC_MGEN_STAT, 117, 0) ∧ s.regAt 0x81054C = some (.VC_FAULTS, 117, 0) ∧
    s.regAt 0x1401040 = some (.RING_DL_FAULTS, 4100, 0) ∧ s.regAt 0x1401044 = some (.RING_DROPS, 4100, 0) ∧
    s.regAt 0x2025038 = some (.TI_DL_FAULTS, 37, 0) ∧ s.deckleOf 0x2025038 = some (6, 0x2025038) ∧
    s.regAt 0x163008 = some (.DKL_REFUSED, 6, 0) := by decide +kernel

/-- The opcodes and the cost that 02 gives as examples: ML-DSA-65 verification, RSA-3072 PSS signing with SHA-384, and 1.2
µs for HMAC-SHA256 of 64 bytes. -/
theorem test_opcodes : operOf 0x0413 = some (.sigVerify 4 1 0) ∧ operOf 0x0951 = some (.rsaSign 1 1 true) := by decide

theorem test_hmac_cost : (Oper.hmac .sha256 false).cost ⟨64, 0, 32, 1, 0, 0, 0, false, 0, 0⟩ = 1200000 := by decide

/-- The fragment of 06: three shares of s and of e, the public a, and q = 3,329 in Q0. -/
def fragment (pc : Nat) : VCore :=
  { coreFive with
    order := 2
    pc := pc
    sites := [0x107]
    v := [(4, 11), (5, 22), (6, 33), (8, 1), (9, 2), (10, 3), (12, 5), (16, 7), (17, 3328), (18, 9)]
    vt := [(4, ⟨true, 1, 3⟩), (5, ⟨true, 2, 3⟩), (6, ⟨true, 3, 3⟩), (8, ⟨true, 1, 5⟩), (9, ⟨true, 2, 5⟩), (10, ⟨true, 3, 5⟩),
           (16, ⟨true, 1, 3⟩), (17, ⟨true, 2, 3⟩), (18, ⟨true, 3, 3⟩)] }

/-- Core 5 on the word of an instruction, which comes next. -/
noncomputable def before (i : Instr) (c : VCore) : State :=
  { onWord { c with codeLen := 0x200 } kernelJob (wordFor i) with pending := [i] }

/-- Core 5 after a step. -/
noncomputable def after (i : Instr) (c : VCore) : VCore :=
  match step (before i c) with
  | .next t => t.core 5
  | _ => VCore.idle

/-- Step 5: MADD V17, V17, V9 keeps SI 2 and GID 3 and takes one cycle; 3,328 + 2 is 1 modulo 3,329. -/
theorem test_madd : let d := after (.madd 5 ⟨1, 0, 0, 0, 17, 17, 9, 0, 0, 0, 0, 0⟩) (fragment 0x104)
    d.vtag 17 = ⟨true, 2, 3⟩ ∧ elem 1 (d.vreg 17) 0 = 1 ∧ d.cycles = 1 ∧ d.pc = 0x105 := by decide +kernel

/-- Step 1: MMULM V16, V4, V12 takes two cycles. -/
theorem test_mmulm : let d := after (.mmulm 5 ⟨1, 0, 0, 0, 16, 4, 12, 0, 0, 0, 0, 0⟩) (fragment 0x100)
    d.vtag 16 = ⟨true, 1, 3⟩ ∧ elem 1 (d.vreg 16) 0 * 2 ^ 16 % 3329 = 55 ∧ d.cycles = 2 := by decide +kernel

/-- Step 8: DECLV V20, V16 in domain 2 takes two cycles and gives the sum of the shares, untagged. -/
theorem test_declv : let d := after (.declv 5 ⟨1, 0, 0, 0, 20, 16, 0, 0, 0, 3, 0, 2⟩) (fragment 0x107)
    d.vtag 20 = VTag.clear ∧ elem 1 (d.vreg 20) 0 = (7 + 3328 + 9) % 3329 ∧ d.cycles = 2 := by decide +kernel

/-- The kernel instead: MADD V20, V16, V17 names SI 1 and SI 2 of one group, and the job ends in a secrecy fault. -/
theorem test_secrecy_fault : (match step (before (.madd 5 ⟨1, 0, 0, 0, 20, 16, 17, 0, 0, 0, 0, 0⟩) (fragment 0x107)) with
    | .next t => t.fget .VC_FAULTS_SECRECY 5 == 1 && (t.job? 7).isNone
    | _ => false) = true := by decide +kernel

/-- MADD V16, V16, V8 with W 1 encodes as 0x2104_2080_0000_0000 (06), BFCTI V16, V4, V12 with IMM 7 as
0x2504_08C0_0040_0007 (07). -/
theorem test_words : kdecode 0x2104208000000000 = kernelCode (.madd 5 ⟨1, 0, 0, 0, 16, 16, 8, 0, 0, 0, 0, 0⟩) ∧
    kdecode 0x250408C000400007 = kernelCode (.bfcti 5 ⟨1, 0, 0, 0, 16, 4, 12, 0, 0, 0, 0, 7⟩) := by decide +kernel

/-- VADD wraps at the element's width. -/
theorem test_vadd_wraps : let d := after (.vadd 5 ⟨0, 0, 0, 0, 2, 3, 4, 0, 0, 0, 0, 0⟩) { coreFive with v := [(3, 0x1FF), (4, 0x101)] }
    elem 0 (d.vreg 2) 0 = 0 ∧ elem 0 (d.vreg 2) 1 = 2 := by decide +kernel

/-- VSRA fills with the sign. -/
theorem test_vsra : let d := after (.vsra 5 ⟨1, 0, 0, 0, 2, 3, 0, 0, 0, 0, 0, 4⟩) { coreFive with v := [(3, 0x8000)] }
    elem 1 (d.vreg 2) 0 = 0xF800 := by decide +kernel

/-- SHA-256 of "abc" (FIPS 180-4). -/
theorem test_sha256 : (sha2 .sha256 [0x61, 0x62, 0x63]).take 4 = [0xBA, 0x78, 0x16, 0xBF] := by decide +kernel

/-- SHA3-256 of the empty message (FIPS 202). -/
theorem test_sha3 : (sha3 32 []).take 4 = [0xA7, 0xFF, 0xC6, 0xF8] := by decide +kernel

/-- AES-128 of the example of FIPS 197, appendix B. -/
theorem test_aes : (aesEnc [0x2B, 0x7E, 0x15, 0x16, 0x28, 0xAE, 0xD2, 0xA6, 0xAB, 0xF7, 0x15, 0x88, 0x09, 0xCF, 0x4F, 0x3C]
    [0x32, 0x43, 0xF6, 0xA8, 0x88, 0x5A, 0x30, 0x8D, 0x31, 0x31, 0x98, 0xA2, 0xE0, 0x37, 0x07, 0x34]).take 4 =
      [0x39, 0x25, 0x84, 0x1D] := by decide +kernel

/-- Balls of the ZV8800 that 18 locates: port 93, and die 5's network reference clock. -/
theorem test_balls : rowName 71 = ['C', 'P'] ∧ ballAt .zv8800 71 43 = some (.netTx 93 true) ∧ ballAt .zv8800 65 43 = some (.netRx 93 true) ∧
    ballAt .zv8800 71 52 = some (.netRefclk 5 true) ∧ ballAt .zv8800 32 8 = some .perstN ∧ ballAt .zv4800 4 27 = some .perstN ∧
    ballAt .zv4800 51 5 = some (.netTx 29 true) := by decide

/-- A queue runs its first command first, and an empty queue passes one tick. -/
theorem test_first_in_first_out : (match step { State.reset with pending := [.mailboxAbort, .devInfo] } with
    | .next t => t.pending == [.devInfo]
    | _ => false) = true := by decide +kernel

theorem test_idle_tick : (match step State.reset with
    | .next t => t.time.ticks == State.reset.time.ticks + 1 && t.pending == []
    | _ => false) = true := by decide +kernel

end Sys2Proof.Tests
end

