-- ==== Sys2Proof/Tests/WitnessDuplex.lean ====
section
/-!
SUPPORT. States and operands that meet the conditions of the rows of the key store, the handshake and the mirror protocol.
-/

namespace Sys2Proof.Tests

set_option Elab.async false

open Sys2Proof.Machine Sys2Proof.Claims

/-- An occupied key slot 2 of TI 5: an AES-256 key of type 1. -/
def keySlot : KeySlot := { KeySlot.blank with state := .occupied, typ := 1, gen := 3, stored := List.replicate 32 1, granules := 1 }

def oneSlot (s : State) (k : KeySlot) : State := { s with slots := [(slotKey 5 2, k)] }

/-- Die 0's key store is ready. -/
def keyReady : State := put running [(.KS_STATE_READY, 0, 1)]

theorem witness_key_store : Met keyStoreRows :=
  ⟨⟨keyReady, (0, 1000000000), by decide +kernel⟩, ⟨oneSlot running keySlot, (5, 2), by decide +kernel⟩,
   ⟨oneSlot running keySlot, (5, 2), by decide +kernel⟩, trivial⟩

/-- A handshake. -/
def pairing (initiator : Bool) (hash t2 : Bytes) : Pairing := ⟨initiator, 0, true, hash, [], t2, []⟩

def inPairing (p : Pairing) (n : Nat) : State := drawn { running with duplex := { Duplex.off with pairing := some p } } n

/-- A message of the handshake: an ML-KEM key of zeros and the X448 value 5. -/
def pairMessage : Bytes := List.replicate (2689 + 1568) 0 ++ [5] ++ List.replicate 87 0
def pairHash : Bytes := sha3 48 (List.replicate 2689 0)

theorem pair_message_ok (kem : Bool) : pairOk pairHash pairMessage kem = true := by
  have hi : pairId pairMessage = List.replicate 2689 0 := by decide +kernel
  have hx : (uCheck .x448 (pairX pairMessage)).isNone = true := by decide +kernel
  have hk : (pqPubCheck 3 2 (pairKem pairMessage)).isNone = true := by decide +kernel
  unfold pairOk pairHash
  rw [hi, hx, hk]
  simp only [BEq.rfl, Bool.and_true, Bool.or_true]

/-- A pair held by its initiator, whose keys are a day old. -/
def oldPair : State :=
  { put running [(.DUPLEX_STATUS_ROLE, 0, 1), (.KS_ROOT_VALID, 0, 1)] with
    bbks := { Bbks.zero with paired := true, initiator := true }
    time := { up.time with ticks := 200000000000000 } }

theorem responder_waits (p : Pairing) (n : Nat) (h : p.initiator = false) : (inPairing p n).responderSide = some p := by
  simp [inPairing, drawn, State.responderSide, h]

theorem pair_message_length : pairMessage.length = pairMsgLen := by
  unfold pairMessage
  rw [List.length_append, List.length_append, List.length_replicate, List.length_replicate]
  rfl

theorem responder_may (h m : Bytes) (n : Nat) (hl : m.length = pairMsgLen) (hk : pairOk h m true = true) (hn : pairDraw2 ≤ n) :
    (inPairing (pairing false h []) n).responderSide = some (pairing false h []) ∧ (pairing false h []).t2 = [] ∧ m.length = pairMsgLen ∧
      pairOk (pairing false h []).hash m true = true ∧ ∃ r, Draws (inPairing (pairing false h []) n) pairDraw2 r :=
  ⟨responder_waits _ _ rfl, rfl, hl, hk, drawn_draws _ _ _ hn⟩

theorem initiator_may (h m z : Bytes) (n : Nat) (hl : m.length = pairMsgLen) (hz : z.length = 4723) (hk : pairOk h m false = true)
    (hn : idSignDraw ≤ n) :
    (inPairing (pairing true h []) n).duplex.pairing = some (pairing true h []) ∧ (pairing true h []).initiator = true ∧
      (m ++ z).length = pairMsgLen + 4723 ∧ pairOk (pairing true h []).hash ((m ++ z).take pairMsgLen) false = true ∧
      ∃ r, Draws (inPairing (pairing true h []) n) idSignDraw r := by
  refine ⟨rfl, rfl, ?_, ?_, drawn_draws _ _ _ hn⟩
  · rw [List.length_append, hl, hz]
  · rw [List.take_left' hl]
    exact hk

theorem drawn_paired (s : State) (n : Nat) : (drawn s n).paired = s.paired := rfl
theorem drawn_flag (s : State) (n : Nat) (f : Fld) (i : Nat) : (drawn s n).flag f i = s.flag f i := rfl
theorem drawn_since (s : State) (n k : Nat) (h : k ≤ (s.elapse 0).since s.duplex.keyTick) :
    k ≤ ((drawn s n).elapse 0).since (drawn s n).duplex.keyTick := h

theorem old_pair_may (n : Nat) (h : pairDraw1 ≤ n) :
    (drawn oldPair n).paired = true ∧ (drawn oldPair n).bbks.initiator = true ∧ (drawn oldPair n).flag .KS_ROOT_VALID 0 = true ∧
      (drawn oldPair n).duplex.pairing = none ∧
      86400000000000 ≤ ((drawn oldPair n).elapse 0).since (drawn oldPair n).duplex.keyTick ∧ ∃ r, Draws (drawn oldPair n) pairDraw1 r :=
  ⟨(drawn_paired oldPair n).trans (by decide +kernel), rfl, (drawn_flag oldPair n .KS_ROOT_VALID 0).trans (by decide +kernel), rfl,
   drawn_since oldPair n _ (by decide +kernel), drawn_draws _ _ _ h⟩

theorem witness_pairing : Met pairingRows :=
  ⟨⟨inPairing (pairing false pairHash []) pairDraw2, ((0, [], pairMessage), pairing false pairHash []),
     responder_may pairHash pairMessage _ pair_message_length (pair_message_ok true) (Nat.le_refl _)⟩,
   ⟨inPairing (pairing true pairHash []) idSignDraw, ((0, [], pairMessage ++ List.replicate 4723 0), pairing true pairHash []),
     initiator_may pairHash pairMessage (List.replicate 4723 0) _ pair_message_length List.length_replicate (pair_message_ok false)
       (Nat.le_refl _)⟩,
   ⟨inPairing (pairing false [] [1]) 0, ((0, [], []), pairing false [] [1]), rfl, rfl, nofun⟩,
   ⟨inPairing (pairing true [] []) 0, (10000000000, pairing true [] []), by decide +kernel⟩,
   ⟨drawn oldPair pairDraw1, 0, old_pair_may _ (Nat.le_refl _)⟩, trivial⟩

/-- A pair in a role and a state, its peer in the other role; TI 5 is mirrored. -/
def mirror (role st : Nat) : State :=
  { put running [(.DUPLEX_STATUS_ROLE, 0, role), (.DUPLEX_STATUS_STATE, 0, st), (.TI_KEY_HOME_MIRRORED, 5, 1)] with
    bbks := { Bbks.zero with paired := true }
    duplex := { Duplex.off with peerRole := 3 - role } }

theorem witness_standby : Met standbyRows :=
  ⟨⟨mirror 2 5, (0, 1, .syncBegin), by decide +kernel⟩, ⟨mirror 2 5, (0, 0, .syncBegin), by decide +kernel⟩,
   ⟨mirror 2 5, (0, 1, 5, 2), by unfold NewMessage OnStandby MirrorTi LiveTi; decide +kernel⟩,
   ⟨mirror 2 5, ((0, 1), (5, 2, 3), 1, 0, List.replicate 32 1), by unfold NewMessage OnStandby MirrorTi LiveTi; decide +kernel⟩,
   ⟨mirror 2 5, ((0, 1), (6, 2, 3), 1, 0, []), by unfold NewMessage OnStandby MirrorTi LiveTi; decide +kernel⟩,
   ⟨mirror 2 3, (0, 1), by unfold NewMessage; decide +kernel⟩, ⟨mirror 2 4, (0, 1), by unfold NewMessage; decide +kernel⟩, trivial⟩

/-- Message 9 waits for its acknowledgement, for job `j` or for none. -/
def unacked (j : Option Nat) : State :=
  let s := mirror 1 5
  { s with duplex := { s.duplex with unacked := [(9, 0, j, 5)] } }

theorem witness_active : Met activeRows :=
  ⟨⟨unacked none, ((0, 1, 9), (9, 0, none, 5)), by unfold NewMessage OnActive Unacked; decide +kernel⟩,
   ⟨unacked none, ((0, 1, 9), (9, 0, none, 5)), by unfold NewMessage OnActive Unacked; decide +kernel⟩,
   ⟨withJobs (unacked (some 7)) [shaJob], ((0, 1, 9), (9, 0, some 7, 5), shaJob), by
     unfold NewMessage OnActive CqFits; decide +kernel⟩,
   ⟨unacked none, (2000000, (9, 0, none, 5)), by decide +kernel⟩, ⟨mirror 1 5, 10000000, by decide +kernel⟩,
   ⟨mirror 1 5, (0, 1, 2, 0, 5), by unfold NewMessage; decide +kernel⟩, ⟨mirror 2 5, 30000000, by decide +kernel⟩, trivial⟩

end Sys2Proof.Tests
end

