-- ==== Sys2Proof/Tests/WitnessFrames.lean ====
section
/-!
SUPPORT. States and operands that meet the conditions of the rows of the frame path.
-/

namespace Sys2Proof.Tests

set_option Elab.async false

open Sys2Proof.Machine Sys2Proof.Claims

/-- A context of TI 5 on port 0: GOOSE, HMAC-SHA-256 with a 16-byte tag, subscriber ring 4. -/
def goose (dir : Nat) : Stream :=
  { Stream.blank with
    live := true
    owner := 5
    dir := dir
    mac := [1, 0x0C, 0xCD, 1, 0, 1]
    appid := 7
    vid := 0x8000
    alg := 1
    tagLen := 16
    cur := some (1, List.replicate 64 0)
    subs := [4]
    counts := List.replicate 12 0 }

/-- Port 0 up as a frame port at 1 Gbit/s. -/
def ported (l : List (Fld × Nat × Nat)) : State :=
  put running ([(.PORT_CFG_MODE, 0, 1), (.PORT_STATUS_LINK, 0, 1), (.PORT_STATUS_SPEED, 0, 3), (.PORT_RINGS_PTP_RING, 0, 0xFFFF),
    (.PORT_RINGS_DEFAULT_RING, 0, 0xFFFF)] ++ l)

/-- Port 0 with context 0. -/
def routed (dir : Nat) : State := { ported [] with streams := [(0, goose dir)] }

/-- Frames without FCS: GOOSE for the context, and a pause of 5 quanta. -/
def gooseFrame : Bytes := [1, 0x0C, 0xCD, 1, 0, 1, 2, 0, 0, 0, 0, 0, 0x88, 0xB8, 0, 7] ++ List.replicate 44 0
def pauseFrame : Bytes := [1, 0x80, 0xC2, 0, 0, 1, 2, 0, 0, 0, 0, 0, 0x88, 0x08, 0, 1, 0, 5] ++ List.replicate 42 0

/-- What the parser reports. -/
def sec (located : Bool) : SecFields := ⟨located, 1, 16, 1, 0, 0, 0, [], [], [], true, some (1, 0)⟩

/-- The security extension as it is decoded: a tag of 16 bytes ends the frame. -/
def ext : Extension := ⟨true, 1, 16, 1, 0, 0, 0, 44, true⟩

theorem witness_receive : Met receiveRows :=
  ⟨⟨put running [(.PORT_CFG_MODE, 0, 1)], (0, true, 0), by decide +kernel⟩, ⟨ported [], (0, [], 0, ext), by decide +kernel⟩,
   ⟨ported [], (0, [], 0, ext), by unfold LengthOk; decide +kernel⟩,
   ⟨ported [], (0, gooseFrame, 0, ext), by unfold LengthOk; decide +kernel⟩,
   ⟨ported [], ((0, pauseFrame, 0, ext), 5), by unfold LengthOk; decide +kernel⟩,
   ⟨routed 0, ((0, gooseFrame, 0, ext), 0), by unfold FrameArrives LengthOk; decide +kernel⟩,
   ⟨ported [], (0, gooseFrame, 0, ext), by unfold FrameArrives LengthOk; decide +kernel⟩, trivial⟩

/-- A received frame. -/
def received (x : Stream) (f : SecFields) (verdict : Option Nat) : RxFrame :=
  { id := 3, port := 0, data := gooseFrame, ingress := 0, lastByte := 0, ctx := some 0, seen := x, sec := f, flags := 0, own := 60,
    shared := 0, kept := true, verdict := verdict, postedAt := 0, rings := if verdict = none then [] else [4] }

/-- The same frame has come on LAN A already. -/
def paired : Stream := { goose 0 with pair := true, hist := [((goose 0).histKey (1, 0), true), ((goose 0).histKey (1, 0), false)] }

/-- A tag that fits. -/
def goodSec : SecFields := { sec true with tag := streamTag 1 16 (List.replicate 64 0) [] [] }

def withFrame (x : Stream) (f : RxFrame) : State := { ported [] with streams := [(0, x)], frames := { Frames.idle with rx := [f] } }

/-- The frame is not located: verdict 0x2B. -/
theorem judged_unlocated (u : State) (x : Stream) : Judged u (received x (sec false) none) x false (some 0x2B) :=
  ⟨fun _ => rfl, nofun, nofun, nofun, nofun⟩

/-- The frame repeats one of the other LAN: no verdict. -/
theorem judged_duplicate (u : State) : Judged u (received paired goodSec none) paired false none := by
  have hd : paired.duplicate (received paired goodSec none) = true := by decide +kernel
  refine ⟨nofun, fun _ h => absurd h (by decide +kernel), fun _ _ h => ?_, fun _ _ _ _ => rfl, fun _ _ _ h => absurd h (by rw [hd]; nofun)⟩
  exact absurd h (by decide +kernel)

/-- The tag fits and the counter is new: verdict 0x96. -/
theorem judged_accepted : Judged (withFrame (goose 0) (received (goose 0) { goodSec with secs := 0 } none))
    (received { goose 0 with window := 100000000000 } goodSec none) { goose 0 with window := 100000000000 } false (some 0x96) := by
  refine ⟨nofun, fun _ h => absurd h (by decide +kernel), fun _ _ h => absurd h (by dsimp only; decide +kernel),
    fun _ _ _ h => absurd h (by decide +kernel), fun _ _ _ _ => ⟨fun _ => rfl, fun h => ?_⟩⟩
  exact absurd (h (1, 0) rfl (by decide +kernel)) (by decide +kernel)

theorem witness_verdicts : Met verdictRows :=
  ⟨⟨withFrame (goose 0) (received (goose 0) (sec false) none), ((3, 0), received (goose 0) (sec false) none, 0, 0x2B),
     by decide +kernel, by decide +kernel, by unfold LiveContext; decide +kernel, by decide +kernel, judged_unlocated _ _⟩,
   ⟨withFrame paired (received paired goodSec none), ((3, 0), received paired goodSec none, 0), by decide +kernel, by decide +kernel,
     by unfold LiveContext; decide +kernel, by decide +kernel, judged_duplicate _⟩,
   ⟨withFrame (goose 0) (received (goose 0) (sec true) none), ((3, 0), received (goose 0) (sec true) none, 0), by decide +kernel⟩,
   ⟨withFrame (goose 0) (received (goose 0) (sec true) none), ((3, 1000), received (goose 0) (sec true) none, 0),
     by unfold LiveContext; decide +kernel⟩,
   ⟨put (withFrame (goose 0) (received (goose 0) (sec true) none)) [(.DEV_MODE_MODE, 0, 2)],
     ((3, 1000), received (goose 0) (sec true) none, 0), by decide +kernel⟩, trivial⟩

/-- A frame with its verdict, whose ring has slots of 2048 bytes, or of 16, in a window or not. -/
def posted (slotLog data : Nat) : State :=
  let s := put (withFrame (goose 0) (received (goose 0) (sec true) (some 0x96)))
    [(.TI_WIN_BASE_BASE, 80, 1), (.TI_WIN_CTL_PAGES, 80, 2), (.TI_WIN_CTL_WRITE, 80, 1)]
  { s with rings := [(4, { s.ringx 4 with slotLog := slotLog, data := data })] }

def postedFrame : RxFrame := received (goose 0) (sec true) (some 0x96)

theorem witness_deliveries : Met deliveryRows :=
  ⟨⟨posted 11 0x1000, ((3, 4, 0), postedFrame, 77), by unfold RingTakes; decide +kernel⟩,
   ⟨posted 4 0x1000, ((3, 4, 0), postedFrame), by unfold RingTakes; decide +kernel⟩,
   ⟨posted 11 0x1000, ((3, 4, 1000000), postedFrame), by decide +kernel⟩,
   ⟨{ ported [] with streams := [(0, { goose 0 with next := some (2, [], 5) })], time := { up.time with ns := 10 } }, ((0, 0), (2, [], 5)),
     by decide +kernel⟩,
   ⟨posted 11 0x9000, ((3, 4, 0), postedFrame), by unfold RingTakes; decide +kernel⟩, trivial⟩

/-- An FTX entry: address, length, flags, target, launch time. -/
def ftxEntry (flags target at' : Nat) : Bytes :=
  leBytes 8 0x1000 ++ leBytes 2 60 ++ leBytes 2 flags ++ leBytes 4 target ++ leBytes 8 at' ++ leBytes 4 0 ++ List.replicate 36 0

/-- A frame on its way out of ring 6. -/
def sending (entry : Bytes) (tagged : Bool) : TxFrame :=
  { id := 3, ring := 6, idx := 0, entry := entry, data := gooseFrame, tagged := tagged, launch := 0, seq := 0,
    waits := if tagged then [0] else [], sent := 0, failed := none, time := 0 }

def withSend (f : TxFrame) : State :=
  { put (routed 1) [(.PORT_RINGS_RAW_TI, 0, 5)] with frames := { Frames.idle with tx := [f] } }

/-- Ring 6 has an entry to fetch; no other ring is an FTX ring. -/
def ftxPending : State := put running [(.RING_TIDX_INDEX, 6, 1)]

theorem ftx_only (q : Nat) (h : q ≠ 6) : ¬ (ftxPending.ringLive q = true ∧ ftxPending.ringType q = typeFtx) := by
  by_cases hq : q ∈ [2, 3, 4, 6]
  · have : ∀ q ∈ [2, 3, 4, 6], q ≠ 6 → ¬ (ftxPending.ringLive q = true ∧ ftxPending.ringType q = typeFtx) := by decide +kernel
    exact this q hq h
  · have hr := State.reg_unlisted ftxPending .RING_CFG q [2, 3, 4, 6] (by decide +kernel) hq
    have hl : ftxPending.ringLive q = false := by
      simp only [State.ringLive, State.flag, State.fget, hr, State.regDefault]
      rfl
    simp [hl]

theorem witness_transmit : Met transmitRows :=
  ⟨⟨ftxPending, (List.replicate 64 [], 6), by
     refine ⟨by decide +kernel, fun q h1 h2 => ?_, by decide +kernel⟩
     exact absurd ⟨h1.2.1, h1.2.2.1⟩ (ftx_only q h2)⟩,
   ⟨withSend (sending (ftxEntry 8 0 0) false), ((3, gooseFrame, 0), sending (ftxEntry 8 0 0) false), by
     unfold TxReads TxAdmitted; decide +kernel⟩,
   ⟨withSend (sending (ftxEntry 0 0 0) false), ((3, gooseFrame, 0), sending (ftxEntry 0 0 0) false, 1, List.replicate 64 0), by
     unfold TxReads TxAdmitted; decide +kernel⟩,
   ⟨withSend (sending (ftxEntry 16 0 0) false), ((3, gooseFrame, 0, 0), sending (ftxEntry 16 0 0) false), by
     unfold TxReads TxAdmitted; decide +kernel⟩,
   ⟨withSend (sending (ftxEntry 8 0 0) true), ((3, 0, 0), sending (ftxEntry 8 0 0) true), by unfold TxStarts; decide +kernel⟩,
   ⟨{ withSend (sending (ftxEntry 8 0 5) true) with time := { up.time with ns := 1000000000 } }, ((3, 0, 0), sending (ftxEntry 8 0 5) true),
     by decide +kernel⟩, trivial⟩

end Sys2Proof.Tests
end

