-- ==== Sys2Proof/Tests/WitnessHost.lean ====
section
/-!
SUPPORT. States and operands that meet the conditions of the rows of the host link and the rings.
-/

namespace Sys2Proof.Tests

set_option Elab.async false

open Sys2Proof.Machine Sys2Proof.Claims

theorem witness_link : Met linkRows :=
  ⟨⟨up, (), trivial⟩, ⟨up, (), trivial⟩, ⟨up, (), by decide +kernel⟩, ⟨up, true, trivial⟩,
   ⟨{ up with host := { up.host with busMaster := false } }, false, by decide +kernel⟩, ⟨up, 4095, by decide +kernel⟩,
   ⟨{ up with host := { up.host with pba := 128, vecMask := 0 } }, 7, by decide +kernel⟩, trivial⟩

/-- A doorbell word for ring 3. -/
def db3 : Bytes := [3, 0, 0, 0]

theorem witness_doorbell : Met doorbellRows :=
  ⟨⟨tenant, (0x5000, db3), by unfold DoorbellValid; decide +kernel⟩,
   ⟨put tenant [(.TI_STATUS_STATE, 5, 3)], (0x5000, db3), by unfold DoorbellValid; decide +kernel⟩,
   ⟨tenant, (0x5004, db3), by unfold DoorbellValid; decide +kernel⟩,
   ⟨tenant.setRingx 3 { RingX.blank with hdrBusy := true }, (3, 64, 0), by unfold IndexFits; decide +kernel⟩,
   ⟨tenant.setRingx 3 { RingX.blank with hdrBusy := true }, (3, 65, 0), by unfold IndexFits; decide +kernel⟩,
   ⟨(put tenant [(.RING_DIDX_INDEX, 2, 64)]).setRingx 2 { RingX.blank with held := [⟨[], 3, false⟩] }, (2, 60, 0),
     by unfold IndexFits; decide +kernel⟩,
   ⟨tenant, (3, 0x104), by decide +kernel⟩, ⟨tenant, (3, 0x101), by decide +kernel⟩, ⟨tenant, (3, 5), by decide +kernel⟩,
   ⟨tenant.setRingx 3 { RingX.blank with disabling := 1 }, 3, by decide +kernel⟩, trivial⟩

/-- Four entries wait in SQ 3. -/
def fetchable : State := put tenant [(.RING_TIDX_INDEX, 3, 4)]

theorem fetchable_only (q : Nat) (h : fetchable.sqEligible q = true) : q = 3 := by
  by_cases hq : q ∈ [2, 3, 4, 6]
  · have : ∀ q ∈ [2, 3, 4, 6], fetchable.sqEligible q = true → q = 3 := by decide +kernel
    exact this q hq h
  · have hr := State.reg_unlisted fetchable .RING_CFG q [2, 3, 4, 6] (by decide +kernel) hq
    have hl : fetchable.ringLive q = false := by
      simp only [State.ringLive, State.flag, State.fget, hr, State.regDefault]
      rfl
    simp [State.sqEligible, State.ringBound, hl] at h

theorem witness_ring : Met ringRows :=
  ⟨⟨tenant.setRingx 2 { RingX.blank with held := [⟨[], 3, false⟩] }, 2, by decide +kernel⟩,
   ⟨(put tenant [(.RING_DIDX_INDEX, 2, 64), (.RING_TIME_FULL_MS, 2, 1)]).setRingx 2 { RingX.blank with fullFrom := some 0 },
     (2, 1000000), by decide +kernel⟩,
   ⟨(put tenant [(.RING_TIME_COAL_US, 2, 1)]).setRingx 2 { RingX.blank with unsignalled := some 0 }, (2, 1000), by decide +kernel⟩,
   ⟨tenant.setRingx 3 { RingX.blank with head := 5 }, (3, 0), by decide +kernel⟩,
   ⟨tenant, (.header 3, 3, 0), by unfold ReadLive; decide +kernel⟩,
   ⟨tenant, (.header 3, 0, 50000000), by unfold ReadLive; decide +kernel⟩,
   ⟨fetchable, (List.replicate 64 [], 3), true,
     ⟨by decide +kernel, fun q h hq => absurd (fetchable_only q h.2.2.1) hq⟩, nofun, by decide +kernel⟩, trivial⟩

end Sys2Proof.Tests
end

