-- ==== Sys2Proof/Tests/WitnessJobs.lean ====
section
/-!
SUPPORT. For every row of the catalogue a state and a bound job that meet its conditions.
-/

namespace Sys2Proof.Tests

set_option Elab.async false

open Sys2Proof.Machine Sys2Proof.Claims

/-- A row's operation is that of a job whose units run and whose draw is served. -/
def JobMet (x : JobRow) : Prop :=
  ∃ (a : x.Arg) (s : State) (id : Nat) (j : Job), s.job? id = some j ∧ s.mayRun j = true ∧ j.oper = some (x.op a) ∧
    x.draw a s j ≤ j.rand.length

/-- Every row of a list. -/
def JobsMet : List JobRow → Prop
  | [] => True
  | x :: r => JobMet x ∧ JobsMet r

theorem jobMet (x : JobRow) (a : x.Arg) (op n : Nat) (hj : (withJobs running [jobOf op n]).job? 7 = some (jobOf op n))
    (hm : (withJobs running [jobOf op n]).mayRun (jobOf op n) = true) (ho : (jobOf op n).oper = some (x.op a))
    (hd : x.draw a (withJobs running [jobOf op n]) (jobOf op n) ≤ n) : JobMet x :=
  ⟨a, _, 7, _, hj, hm, ho, by rw [jobOf, List.length_replicate]; exact hd⟩

theorem witness_digest_jobs : JobsMet digestJobs :=
  ⟨jobMet _ .sha256 258 0 rfl (by decide +kernel) (by decide +kernel) (by decide +kernel),
   jobMet _ (32 : Nat) 274 0 rfl (by decide +kernel) (by decide +kernel) (by decide +kernel),
   jobMet _ (128 : Nat) 280 0 rfl (by decide +kernel) (by decide +kernel) (by decide +kernel),
   jobMet _ (256 : Nat) 283 0 rfl (by decide +kernel) (by decide +kernel) (by decide +kernel),
   jobMet _ .sha256 290 0 rfl (by decide +kernel) (by decide +kernel) (by decide +kernel),
   jobMet _ .sha256 298 0 rfl (by decide +kernel) (by decide +kernel) (by decide +kernel),
   jobMet _ (128 : Nat) 305 0 rfl (by decide +kernel) (by decide +kernel) (by decide +kernel),
   jobMet _ (256 : Nat) 314 0 rfl (by decide +kernel) (by decide +kernel) (by decide +kernel), trivial⟩

theorem witness_aes_jobs : JobsMet aesJobs :=
  ⟨jobMet _ () 513 0 rfl (by decide +kernel) (by decide +kernel) (by decide +kernel),
   jobMet _ () 514 0 rfl (by decide +kernel) (by decide +kernel) (by decide +kernel),
   jobMet _ () 515 0 rfl (by decide +kernel) (by decide +kernel) (by decide +kernel),
   jobMet _ () 516 0 rfl (by decide +kernel) (by decide +kernel) (by decide +kernel),
   jobMet _ () 529 0 rfl (by decide +kernel) (by decide +kernel) (by decide +kernel),
   jobMet _ () 530 0 rfl (by decide +kernel) (by decide +kernel) (by decide +kernel),
   jobMet _ () 531 0 rfl (by decide +kernel) (by decide +kernel) (by decide +kernel),
   jobMet _ () 532 0 rfl (by decide +kernel) (by decide +kernel) (by decide +kernel), trivial⟩

theorem witness_key_jobs : JobsMet keyJobs :=
  ⟨jobMet _ () 3329 0 rfl (by decide +kernel) (by decide +kernel) (by decide +kernel),
   jobMet _ () 3330 0 rfl (by decide +kernel) (by decide +kernel) (by decide +kernel),
   jobMet _ () 3073 64 rfl (by decide +kernel) (by decide +kernel) (by decide +kernel),
   jobMet _ () 3074 4096 rfl (by decide +kernel) (by decide +kernel) (by decide +kernel),
   jobMet _ () 3075 0 rfl (by decide +kernel) (by decide +kernel) (by decide +kernel),
   jobMet _ () 3076 0 rfl (by decide +kernel) (by decide +kernel) (by decide +kernel),
   jobMet _ () 3077 0 rfl (by decide +kernel) (by decide +kernel) (by decide +kernel),
   jobMet _ () 3080 0 rfl (by decide +kernel) (by decide +kernel) (by decide +kernel),
   jobMet _ () 3078 512 rfl (by decide +kernel) (by decide +kernel) (by decide +kernel),
   jobMet _ () 3079 0 rfl (by decide +kernel) (by decide +kernel) (by decide +kernel),
   jobMet _ () 3585 160 rfl (by decide +kernel) (by decide +kernel) (by decide +kernel),
   jobMet _ () 4097 0 rfl (by decide +kernel) (by decide +kernel) (by decide +kernel),
   jobMet _ () 4098 0 rfl (by decide +kernel) (by decide +kernel) (by decide +kernel), trivial⟩

theorem witness_lattice_jobs : JobsMet latticeJobs :=
  ⟨jobMet _ (0 : Nat) 769 64 rfl (by decide +kernel) (by decide +kernel) (by decide +kernel),
   jobMet _ (0 : Nat) 770 32 rfl (by decide +kernel) (by decide +kernel) (by decide +kernel),
   jobMet _ (0 : Nat) 771 0 rfl (by decide +kernel) (by decide +kernel) (by decide +kernel),
   jobMet _ (0 : Nat) 1025 32 rfl (by decide +kernel) (by decide +kernel) (by decide +kernel),
   jobMet _ (0, ()) 1026 32 rfl (by decide +kernel) (by decide +kernel) (by decide +kernel),
   jobMet _ (0, ()) 1027 0 rfl (by decide +kernel) (by decide +kernel) (by decide +kernel),
   jobMet _ ((0, 0) : Nat × Nat) 1028 32 rfl (by decide +kernel) (by decide +kernel) (by decide +kernel),
   jobMet _ ((0, 0) : Nat × Nat) 1029 0 rfl (by decide +kernel) (by decide +kernel) (by decide +kernel),
   jobMet _ (0 : Nat) 1281 4096 rfl (by decide +kernel) (by decide +kernel) (by decide +kernel),
   jobMet _ (0, ()) 1282 16 rfl (by decide +kernel) (by decide +kernel) (by decide +kernel),
   jobMet _ (0, ()) 1283 0 rfl (by decide +kernel) (by decide +kernel) (by decide +kernel),
   jobMet _ ((0, 0) : Nat × Nat) 1284 16 rfl (by decide +kernel) (by decide +kernel) (by decide +kernel),
   jobMet _ ((0, 0) : Nat × Nat) 1285 0 rfl (by decide +kernel) (by decide +kernel) (by decide +kernel),
   jobMet _ () 1537 0 rfl (by decide +kernel) (by decide +kernel) (by decide +kernel),
   jobMet _ () 1538 0 rfl (by decide +kernel) (by decide +kernel) (by decide +kernel),
   jobMet _ () 1553 0 rfl (by decide +kernel) (by decide +kernel) (by decide +kernel),
   jobMet _ () 1554 0 rfl (by decide +kernel) (by decide +kernel) (by decide +kernel),
   jobMet _ (0 : Nat) 1793 64 rfl (by decide +kernel) (by decide +kernel) (by decide +kernel),
   jobMet _ (0 : Nat) 1794 64 rfl (by decide +kernel) (by decide +kernel) (by decide +kernel),
   jobMet _ (0 : Nat) 1795 0 rfl (by decide +kernel) (by decide +kernel) (by decide +kernel),
   jobMet _ (0 : Nat) 2049 64 rfl (by decide +kernel) (by decide +kernel) (by decide +kernel),
   jobMet _ (0 : Nat) 2050 64 rfl (by decide +kernel) (by decide +kernel) (by decide +kernel),
   jobMet _ (0 : Nat) 2051 0 rfl (by decide +kernel) (by decide +kernel) (by decide +kernel), trivial⟩

theorem witness_classical_jobs : JobsMet classicalJobs :=
  ⟨jobMet _ ((0, 0) : Nat × Nat) 2305 312 rfl (by decide +kernel) (by decide +kernel) (by decide +kernel),
   jobMet _ ((0, 0) : Nat × Nat) 2306 0 rfl (by decide +kernel) (by decide +kernel) (by decide +kernel),
   jobMet _ ((0, 0) : Nat × Nat) 2307 280 rfl (by decide +kernel) (by decide +kernel) (by decide +kernel),
   jobMet _ ((0, 0) : Nat × Nat) 2308 0 rfl (by decide +kernel) (by decide +kernel) (by decide +kernel),
   jobMet _ ((0, 0) : Nat × Nat) 2309 4096 rfl (by decide +kernel) (by decide +kernel) (by decide +kernel),
   jobMet _ ((0, 0) : Nat × Nat) 2310 32 rfl (by decide +kernel) (by decide +kernel) (by decide +kernel),
   jobMet _ (0 : Nat) 2561 88 rfl (by decide +kernel) (by decide +kernel) (by decide +kernel),
   jobMet _ (0 : Nat) 2562 96 rfl (by decide +kernel) (by decide +kernel) (by decide +kernel),
   jobMet _ (0 : Nat) 2563 0 rfl (by decide +kernel) (by decide +kernel) (by decide +kernel),
   jobMet _ (0 : Nat) 2564 96 rfl (by decide +kernel) (by decide +kernel) (by decide +kernel), trivial⟩

theorem witness_hybrid_jobs : JobsMet hybridJobs :=
  ⟨jobMet _ (0 : Nat) 2817 512 rfl (by decide +kernel) (by decide +kernel) (by decide +kernel),
   jobMet _ (0 : Nat) 2818 512 rfl (by decide +kernel) (by decide +kernel) (by decide +kernel),
   jobMet _ (0 : Nat) 2819 512 rfl (by decide +kernel) (by decide +kernel) (by decide +kernel), trivial⟩

end Sys2Proof.Tests
end

