-- ==== Sys2Proof/Tests/WitnessLife.lean ====
section
/-!
SUPPORT. States and operands that meet the conditions of the rows of the life cycle, debug, protection, power and SMBus.
-/

namespace Sys2Proof.Tests

set_option Elab.async false

open Sys2Proof.Machine Sys2Proof.Claims

/-- A mode and a life-cycle state. -/
def living (mode lcs : Nat) (l : List (Fld × Nat × Nat)) : State :=
  put running ([(.DEV_MODE_MODE, 0, mode), (.LCS_STATE_STATE, 0, lcs)] ++ l)

/-- Everything that SEALED needs is in the OTP, and an owner. -/
def provisioned (lcs : Nat) : State :=
  let s := living 2 lcs [(.LCS_PERMIT_RETURN, 0, 1)]
  { s with otp := { s.otp with deviceId := [1], imageHash := [1], vendorDebug := [1], floor := [(1, 1)],
                               owners := [⟨[1], [], [], false⟩, ⟨[], [], [], false⟩, ⟨[], [], [], false⟩, ⟨[], [], [], false⟩] } }

/-- A transition whose decision is doubled, so that it is held. -/
def doubling (s : State) : State := { s with otp := { s.otp with f2 := true } }

theorem witness_life : Met lifeRows :=
  ⟨⟨living 1 0 [(.DBG_STATE_LEVEL, 0, 3)], .dbg, by unfold plainTransition LcsWriter Pulses; decide +kernel⟩,
   ⟨provisioned 1, .pf0, by unfold plainTransition LcsWriter Pulses; decide +kernel⟩,
   ⟨provisioned 2, .pf0, by unfold plainTransition LcsWriter Pulses; decide +kernel⟩,
   ⟨provisioned 3, .pf0, by unfold LcsWriter Pulses; decide +kernel⟩, ⟨running, .pf0, by unfold LcsWriter Pulses; decide +kernel⟩,
   ⟨doubling (living 1 0 [(.DBG_STATE_LEVEL, 0, 3)]), .dbg, by unfold heldTransition LcsWriter Pulses; decide +kernel⟩,
   ⟨doubling (provisioned 1), .pf0, by unfold heldTransition LcsWriter Pulses; decide +kernel⟩,
   ⟨doubling (provisioned 2), .pf0, by unfold heldTransition LcsWriter Pulses; decide +kernel⟩,
   ⟨doubling (provisioned 3), .pf0, by unfold heldTransition LcsWriter Pulses; decide +kernel⟩,
   ⟨doubling running, .pf0, by unfold heldTransition LcsWriter Pulses; decide +kernel⟩,
   ⟨running, .pf0, by unfold refusedTransition LcsWriter; decide +kernel⟩, ⟨running, .pf0, by unfold refusedTransition LcsWriter; decide +kernel⟩,
   ⟨running, .pf0, by unfold refusedTransition LcsWriter; decide +kernel⟩, ⟨running, .pf0, by unfold refusedTransition LcsWriter; decide +kernel⟩,
   ⟨put running [(.LCS_STATUS_BUSY, 0, 1)], .pf0, by unfold LcsWriter; decide +kernel⟩, trivial⟩

theorem witness_tap : Met tapRows :=
  ⟨⟨up, (), by decide +kernel⟩, ⟨up, (), by decide +kernel⟩, ⟨up, (8, 3, 5), by decide +kernel⟩, ⟨up, (8, 3), by decide +kernel⟩,
   ⟨living 2 1 [], (8, 3, 5), by decide +kernel⟩, ⟨living 3 3 [], (8, 3, 5), by decide +kernel⟩, ⟨up, (), by decide +kernel⟩,
   ⟨up, (), by decide +kernel⟩, ⟨up.setReg .DBG_EXPIRY 0 1000, 1000, by decide +kernel⟩, ⟨up, 0, by decide +kernel⟩, trivial⟩

theorem witness_tokens : Met tokenRows :=
  ⟨⟨living 3 3 [], (), by unfold TapDebug; decide +kernel⟩,
   ⟨living 3 3 [], List.replicate 5518 0, by unfold TapDebug; decide +kernel⟩,
   ⟨living 1 0 [], [], by unfold TapDebug; decide +kernel⟩, trivial⟩

/-- A debug level granted. -/
def debugAt (level lcs : Nat) : State := living 3 lcs [(.DBG_STATE_LEVEL, 0, level), (.DKL_CTL_EN, 6, 1)]

/-- A debug address that names DEV_MODE. -/
def devModeAddr : Nat := 0x100

theorem witness_debug : Met debugRows :=
  ⟨⟨up, (0, .denied, false, 0), by decide +kernel⟩, ⟨debugAt 1 3, (0, false, 0), by unfold DebugOn; decide +kernel⟩,
   ⟨debugAt 3 1, ((devModeAddr, devModeAddr, 0), (.DEV_MODE, 0)), by unfold DebugOn; decide +kernel⟩,
   ⟨debugAt 2 1, ((0, 5, 64), true, 7), by unfold DebugOn; decide +kernel⟩,
   ⟨debugAt 1 1, ((0, 5, 64), true, 7), by unfold DebugOn; decide +kernel⟩,
   ⟨debugAt 2 1, ((0, 5), true, 1), by unfold DebugOn; decide +kernel⟩,
   ⟨debugAt 3 1, (0, [1, 2], 0), by unfold DebugOn; decide +kernel⟩,
   ⟨debugAt 2 1, (0, 0, [], 0), by unfold DebugOn; decide +kernel⟩, trivial⟩

theorem witness_monitors : Met monitorRows :=
  ⟨⟨running, (2, true), by decide +kernel⟩, ⟨running, (3, true), by decide +kernel⟩,
   ⟨{ put running [(.PROT_TAMPER_CFG_WATERMARK, 0, 8), (.PROT_TAMPER_CFG_LOOP_ARMED, 0, 8)] with
      time := { up.time with aoTicks := 100 } }, (3, 0), by decide +kernel⟩,
   ⟨running, (1, 0, 500), by decide +kernel⟩, ⟨running, (0, 1700), by decide +kernel⟩,
   ⟨{ running with boot := { running.boot with waitOtp := some 2 } }, (0, 1800, 2), by decide +kernel⟩, ⟨running, (1, 0, 5000), by decide +kernel⟩, ⟨running, 2000, trivial⟩,
   ⟨running, (8, 130), by decide +kernel⟩, ⟨running, (1, 0, 2), by decide +kernel⟩, ⟨running, true, trivial⟩, trivial⟩

/-- A built-in test at a channel, and an erase that runs. -/
def testing (i : Nat) : State := { running with prot := { Prot.idle with bist := some (i, 0, 0, 0) } }
def erasing : State := { running with prot := { Prot.idle with eraseAt := some 0 } }

theorem witness_alarms : Met alarmRows :=
  ⟨⟨running, 0, by decide +kernel⟩, ⟨put running [(.DEV_MODE_MODE, 0, 0)], 0, by decide +kernel⟩, ⟨erasing, 0, by decide +kernel⟩,
   ⟨running, 0, by decide +kernel⟩, ⟨running, 7, trivial⟩, ⟨testing 4, ((true, 50000), (4, 0, 0, 0)), by decide +kernel⟩,
   ⟨testing 51, ((false, 50000), (0, 0, 0)), by decide +kernel⟩,
   ⟨{ running with prot := { Prot.idle with wires := [(1, 2)] } }, (1, 10), by decide +kernel⟩, trivial⟩

/-- A decision that awaits its second evaluation. -/
def deciding (s : State) (d : Doubled) : State := { s with prot := { s.prot with doubled := [d] } }

/-- A token for debug level 1. -/
def levelOne : Bytes := List.replicate 6 0 ++ [1]

theorem witness_second : Met secondRows :=
  ⟨⟨deciding running (.commit 2), ((2, 16, 0), .commit 2), by unfold Evaluates; decide +kernel⟩,
   ⟨deciding running (.unlock levelOne 2), ((16, 0), levelOne), by unfold Evaluates; decide +kernel⟩,
   ⟨command (deciding running (.unlock levelOne 1)) 0x0808 [], ((16, 0), levelOne), by unfold Evaluates; decide +kernel⟩,
   ⟨deciding running (.commit 2), ((16, 0), 2), by unfold Evaluates; decide +kernel⟩,
   ⟨deciding (withJobs running [shaJob]) (.key 7 0), ((16, 0), (7, 0), shaJob), by unfold Evaluates; decide +kernel⟩,
   ⟨deciding running (.load 5), ((16, 0), 5), by unfold Evaluates; decide +kernel⟩,
   ⟨deciding { put running [(.DEV_MODE_MODE, 0, 1)] with boot := { running.boot with phase := 1 } } (.verdict 0 false), ((16, 0), 0, false), by
     unfold Evaluates; decide +kernel⟩,
   ⟨running, (1, 16, true, 0), by decide +kernel⟩, trivial⟩

/-- An access that deckle 3 holds. -/
def held : HeldAccess := ⟨0x2000, true, 0x100000, 0, [], 4, 0, 0⟩

theorem witness_deckles : Met deckleRows :=
  ⟨⟨running, (3, 0x2000), by unfold DklWriter; decide +kernel⟩, ⟨running, (3, 0x1000), by unfold DklWriter; decide +kernel⟩,
   ⟨put running [(.DKL_CTL_EN, 3, 0)], (3, 0x3000), by unfold DklWriter InOrder; decide +kernel⟩,
   ⟨put running [(.DKL_CTL_EN, 3, 1)], (3, 0x2000), by unfold DklWriter; decide +kernel⟩,
   ⟨put running [(.DKL_CTL_EN, 3, 0)], (3, 15, 9, 7, 0x2000), by unfold DklWriter; decide +kernel⟩,
   ⟨put running [(.DKL_CTL_EN, 3, 1)], (3, 0, 0, 7, 0x2000), by unfold DklWriter; decide +kernel⟩,
   ⟨{ running with dkl := [(3, { Dkl.boot with held := [held] })] }, (3, 2000), ⟨held, by decide +kernel, by decide +kernel⟩, by unfold InOrder; decide +kernel⟩, trivial⟩

/-- A cap in watts, and points of the dies. -/
def powered (cap : Nat) (points : List Nat) (below : Nat) : State :=
  { put running ((.PWR_CAP_CAP_W, 0, cap) :: points.zipIdx.map (fun x => (.PWR_DIE_POINT, x.2, x.1))) with
    part := .zv2800
    power := { Power.idle with below := below } }

/-- A change from point 1 to point 2, or back. -/
def changing (old new : Nat) : State := { running with power := { Power.idle with changes := [⟨0, old, new, 0, 1⟩] } }

/-- A condition over the dies of the smallest part holds when it holds for its dies. -/
theorem witness_power : Met powerRows := by
  refine ⟨⟨powered 10 [1, 0] 0, (8000, [], 0, 1), ?_⟩, ⟨powered 100 [] 0, (10, [], 0), by decide +kernel⟩,
    ⟨powered 100 [] 0, (1560, [], 0), by unfold Cool; decide +kernel⟩, ⟨powered 100 [1, 2] 9, (10, [], 0, 1), ?_⟩,
    ⟨put running [(.DEV_MODE_MODE, 0, 0)], (0, [], 0), by decide +kernel⟩,
    ⟨changing 1 2, (0, 0, ⟨0, 1, 2, 0, 1⟩), by decide +kernel⟩, ⟨running, (0, 0), Or.inl (by decide +kernel)⟩,
    ⟨changing 1 2, (0, 1, 0, ⟨0, 1, 2, 0, 1⟩), by decide +kernel⟩, ⟨running, (0, 1, 0), by decide +kernel⟩,
    ⟨running, ([], 0), by decide +kernel, fun k => by simp⟩, ⟨{ running with power := { Power.idle with hot := 256 } }, (List.replicate 9 2000, 0, 8),
      by decide +kernel, by decide +kernel, by decide +kernel, by decide +kernel, fun k => ?_⟩,
    ⟨put running [(.DEV_MODE_MODE, 0, 0)], ([], 0), by decide +kernel⟩, trivial⟩
  · refine ⟨by decide +kernel, by decide +kernel, by unfold Cool; decide +kernel, by unfold MayFall; decide +kernel, fun e he => ?_⟩
    have : ∀ e, e < (powered 10 [1, 0] 0).dies → (powered 10 [1, 0] 0).fget .PWR_DIE_POINT 1 < (powered 10 [1, 0] 0).fget .PWR_DIE_POINT e ∨
        ((powered 10 [1, 0] 0).fget .PWR_DIE_POINT 1 = (powered 10 [1, 0] 0).fget .PWR_DIE_POINT e ∧ e ≤ 1) := by decide +kernel
    exact this e he.1
  · refine ⟨by decide +kernel, by decide +kernel, by unfold Cool; decide +kernel, rfl, by decide +kernel, by unfold MayRise; decide +kernel,
      fun e he => ?_⟩
    have : ∀ e, e < (powered 100 [1, 2] 9).dies → (powered 100 [1, 2] 9).fget .PWR_DIE_POINT e < (powered 100 [1, 2] 9).fget .PWR_DIE_POINT 1 ∨
        ((powered 100 [1, 2] 9).fget .PWR_DIE_POINT 1 = (powered 100 [1, 2] 9).fget .PWR_DIE_POINT e ∧ 1 ≤ e) := by decide +kernel
    exact this e he.1
  · by_cases h : k < 9
    · have : ∀ k, k < 9 → -32768 ≤ (List.replicate 9 (2000 : Int)).getD k 0 ∧ (List.replicate 9 (2000 : Int)).getD k 0 < 32768 := by
        decide +kernel
      exact this k h
    · have : (List.replicate 9 (2000 : Int)).getD k 0 = 0 := by
        rw [List.getD_eq_getElem?_getD, List.getElem?_eq_none (by simpa using h)]
        rfl
      rw [show ((List.replicate 9 2000, 0, 8) : List Int × Nat × Nat).1 = List.replicate 9 2000 from rfl, this]
      decide

/-- SMB_ALERT_N is low after start-up. -/
def alerting : State := { up with boot := { up.boot with alert := true } }

theorem witness_smbus : Met smbusRows :=
  ⟨⟨up, true, trivial⟩, ⟨up, true, trivial⟩, ⟨{ up with part := .zv2800 }, (true, 8), by decide +kernel⟩, ⟨up, true, trivial⟩,
   ⟨up, true, trivial⟩, ⟨up, true, trivial⟩, ⟨up, true, trivial⟩, ⟨alerting, (), by decide +kernel⟩, ⟨up, (), by decide +kernel⟩, trivial⟩

end Sys2Proof.Tests
end

