-- ==== Sys2Proof/Tests/WitnessMail.lean ====
section
/-!
SUPPORT. States and payloads that meet the conditions of the mailbox commands on tenants, rings, scheduling, keys, kernels and
the recorder, and of those that only return data.
-/

namespace Sys2Proof.Tests

set_option Elab.async false

open Sys2Proof.Machine Sys2Proof.Claims

/-- A kernel header in slot 3. -/
def withKernel : State := { running with kernels := [(3, { Kernel.none with header := List.replicate 64 1, callable := true })] }

theorem witness_device_queries : Asked deviceQueries :=
  ⟨⟨command up 0x0101 [], [], by unfold Runs free; decide +kernel⟩, ⟨command up 0x0102 [], [], by unfold Runs free; decide +kernel⟩,
   ⟨command up 0x0103 [], [], by unfold Runs free; decide +kernel⟩, ⟨command up 0x0110 [1, 2], [1, 2], by unfold Runs free; decide +kernel⟩,
   ⟨command up 0x020B (pay [(2, 5), (2, 0)]), pay [(2, 5), (2, 0)], by unfold Runs ZeroAt; decide +kernel⟩,
   ⟨command running 0x0307 (pay [(4, 3)]), pay [(4, 3)], by unfold Runs LiveRing LiveTi; decide +kernel⟩,
   ⟨command up 0x0405 (pay [(4, 1)]), pay [(4, 1)], by unfold Runs dieAt ZeroAt; decide +kernel⟩,
   ⟨command up 0x060B (pay [(4, 9)]), pay [(4, 9)], by unfold Runs ZeroAt; decide +kernel⟩,
   ⟨command withKernel 0x0B14 (pay [(4, 3)]), pay [(4, 3)], by unfold Runs ZeroAt; decide +kernel⟩, trivial⟩

/-- TI 5 with an AES-256 key of 32 bytes in slot 2, exportable. -/
def keyFive : State :=
  { running with slots := [(slotKey 5 2, ⟨.occupied, 5, 2 ^ uExport, 3, List.replicate 32 1, [], 1, 0, []⟩)] }

/-- The root is provisioned in epoch 1. -/
def rooted : State :=
  let s := put keyFive [(.KS_ROOT_VALID, 0, 1), (.KS_ROOT_EPOCH, 0, 1)]
  { s with
    otp := { s.otp with epochs := s.otp.epochs.set 0 ⟨List.replicate 32 1, [], true, 0⟩ }
    bbks := { Bbks.zero with share := List.replicate 32 2 } }

theorem witness_block_queries : Asked blockQueries :=
  ⟨⟨command up 0x0A01 [], [], by unfold Runs free; decide +kernel⟩,
   ⟨command up 0x0A02 (pay [(4, 6), (4, 0), (4, 511)]), pay [(4, 6), (4, 0), (4, 511)], by unfold Runs ZeroAt; decide +kernel⟩,
   ⟨command rooted 0x0501 (pay [(4, 5), (4, 2)]), pay [(4, 5), (4, 2)], by unfold Runs LiveTi ZeroAt; decide +kernel⟩,
   ⟨command rooted 0x0509 [], [], by unfold Runs; decide +kernel⟩,
   ⟨command up 0x050A (pay [(4, 1)]), pay [(4, 1)], by unfold Runs dieAt ZeroAt; decide +kernel⟩,
   ⟨command up 0x0D07 [], [], by unfold Runs free; decide +kernel⟩,
   ⟨command up 0x0701 (pay [(4, 1)]), pay [(4, 1)], by unfold Runs dieAt ZeroAt; decide +kernel⟩,
   ⟨command up 0x0B07 [], [], by unfold Runs free; decide +kernel⟩, ⟨command up 0x0C13 [], [], by unfold Runs free; decide +kernel⟩,
   ⟨command up 0x0801 [], [], by unfold Runs free; decide +kernel⟩, ⟨command up 0x0901 [], [], by unfold Runs free; decide +kernel⟩,
   ⟨command up 0x0E01 (pay [(4, 3)]), pay [(4, 3)], by unfold Runs ZeroAt; decide +kernel⟩,
   ⟨command up 0x0E02 (pay [(2, 3), (2, 0x2000), (4, 1), (8, 0), (4, 16), (4, 0)]), pay [(2, 3), (2, 0x2000), (4, 1), (8, 0), (4, 16), (4, 0)],
     by unfold Runs ZeroAt; decide +kernel⟩, trivial⟩

/-- TI 5 in another state. -/
def tiAt (st : Nat) (l : List (Fld × Nat × Nat)) : State := put running ([(.TI_STATUS_STATE, 5, st)] ++ l)

/-- The rings of a state that lists RING_CFG at 2, 3, 4 and 6 only are among these. -/
theorem rings_listed (s : State) (n r : Nat) (h : ∀ e ∈ s.regs, e.1 % 256 = RegKind.RING_CFG.ctorIdx → e.1 / 256 ∈ [2, 3, 4, 6])
    (hr : r ∈ s.ringsOf n) : r ∈ [2, 3, 4, 6] := by
  by_cases hq : r ∈ [2, 3, 4, 6]
  · exact hq
  · have hd := State.reg_unlisted s .RING_CFG r [2, 3, 4, 6] h hq
    have hl : s.ringLive r = false := by
      simp only [State.ringLive, State.flag, State.fget, hd, State.regDefault]
      cases s.part <;> cases s.grade <;> rfl
    simp [State.ringsOf, hl] at hr

theorem create_may : let p := pay [(4, 6), (4, 8), (4, 8), (4, 8), (4, 8), (4, 0)]
    let s := drawn (command running 0x0201 p) importPairDraw
    Runs s 0x0201 p ∧ (leAt p 0 2 ≠ 0xFFFF → leAt p 0 2 < s.part.tenants ∧ s.fget .TI_STATUS_STATE (leAt p 0 2) = 0) ∧
       (leAt p 0 2 = 0xFFFF → ∃ m, m < s.part.tenants ∧ s.fget .TI_STATUS_STATE m = 0) ∧ ZeroAt p 2 2 ∧ ZeroAt p 20 4 ∧
       tiSum s .TI_RING_QUOTA + leAt p 4 4 ≤ s.part.rings ∧ (∃ d, d < s.dies ∧ leAt p 8 4 ≤ s.freeGranules d) ∧
       tiSum s .TI_STREAM_QUOTA + leAt p 12 4 ≤ 4096 * s.dies ∧ tiSum s .TI_IMT_QUOTA + leAt p 16 4 ≤ 4096 ∧
       ∃ r, Draws s importPairDraw r := by
  refine ⟨by unfold Runs; decide +kernel, by decide +kernel, fun h => absurd h (by decide +kernel), by unfold ZeroAt; decide +kernel,
    by unfold ZeroAt; decide +kernel, by decide +kernel, ⟨0, by decide +kernel⟩, by decide +kernel, by decide +kernel, drawn_draws _ _ _ (Nat.le_refl _)⟩

theorem witness_tenant_changes : Changed tenantChanges :=
  ⟨⟨_, _, create_may⟩,
   ⟨command { tiAt 1 [] with host := { up.host with pasidEnable := true } } 0x0202 (pay [(4, 5), (4, 9)]), pay [(4, 5), (4, 9)], by
     unfold Runs; decide +kernel⟩,
   ⟨command running 0x0203 (pay [(2, 5), (2, 1), (4, 8), (4, 0), (4, 0), (4, 0), (4, 0)]),
     pay [(2, 5), (2, 1), (4, 8), (4, 0), (4, 0), (4, 0), (4, 0)], by unfold Runs LiveTi ZeroAt; decide +kernel⟩,
   ⟨command running 0x0204 (pay [(2, 5), (1, 1), (1, 3), (4, 0), (8, 0x10000), (4, 2), (4, 0)]),
     pay [(2, 5), (1, 1), (1, 3), (4, 0), (8, 0x10000), (4, 2), (4, 0)], by unfold Runs LiveTi WindowUsed ZeroAt Apart; decide +kernel⟩,
   ⟨command (put running [(.RING_STATE_STATE, 2, 0), (.RING_STATE_STATE, 3, 0), (.RING_STATE_STATE, 4, 0), (.RING_STATE_STATE, 6, 0)]) 0x0205
     (pay [(4, 5)]), pay [(4, 5)], by
     refine ⟨by unfold Runs; decide +kernel, by unfold LiveTi; decide +kernel, by decide +kernel, by unfold WindowUsed; decide +kernel,
       by decide +kernel, List.any_eq_false.mpr (fun r hr => ?_)⟩
     have := rings_listed _ _ _ (by decide +kernel) hr
     clear hr
     revert r
     decide +kernel⟩,
   ⟨command (put running [(.TI_IMT_QUOTA, 5, 4)]) 0x0206 (pay [(4, 5), (2, 7), (2, 1)]), pay [(4, 5), (2, 7), (2, 1)], by
     refine ⟨by unfold Runs; decide +kernel, by unfold ImtField LiveTi ZeroAt; decide +kernel, fun e _ h => ?_, by decide +kernel⟩
     have : e = 7 := by simp only [InImt, show leAt (pay [(4, 5), (2, 7), (2, 1)]) 4 2 = 7 by decide +kernel,
       show leAt (pay [(4, 5), (2, 7), (2, 1)]) 6 2 = 1 by decide +kernel] at h; omega
     subst this; decide +kernel⟩,
   ⟨command (put running [(.TI_IMT_QUOTA, 5, 4), (.IMT_CTL_ASSIGNED, 7, 1), (.IMT_CTL_OWNER, 7, 5)]) 0x0207 (pay [(4, 5), (2, 7), (2, 1)]),
     pay [(4, 5), (2, 7), (2, 1)], by
     refine ⟨by unfold Runs; decide +kernel, by unfold ImtField LiveTi ZeroAt; decide +kernel, fun e _ h => ?_⟩
     have : e = 7 := by simp only [InImt, show leAt (pay [(4, 5), (2, 7), (2, 1)]) 4 2 = 7 by decide +kernel,
       show leAt (pay [(4, 5), (2, 7), (2, 1)]) 6 2 = 1 by decide +kernel] at h; omega
     subst this
     refine ⟨by decide +kernel, by decide +kernel, List.any_eq_false.mpr (fun r hr => ?_)⟩
     have := rings_listed _ _ _ (by decide +kernel) hr
     clear hr
     revert r
     decide +kernel⟩,
   ⟨command running 0x0208 (pay [(4, 5)]), pay [(4, 5)], by unfold Runs; decide +kernel⟩,
   ⟨command (tiAt 3 []) 0x0209 (pay [(4, 5)]), pay [(4, 5)], by unfold Runs ZeroAt; decide +kernel⟩,
   ⟨command running 0x020A (pay [(4, 5)]), pay [(4, 5)], by unfold Runs LiveTi ZeroAt; decide +kernel⟩, trivial⟩

/-- A CQ of 64 entries at 0x2000 with its header at 0x1000, for TI 5, ring 9. -/
def newRing : Bytes := pay [(2, 5), (1, 1), (1, 6), (4, 9), (8, 0x1000), (8, 0x2000), (2, 0xFFFF), (2, 0), (4, 0), (16, 0)]

/-- Ring 3 and its CQ in the window. -/
def windowed (st : Nat) : State :=
  (((put running [(.RING_STATE_STATE, 3, st)]).setReg .RING_HDR_ADDR 3 0x1000).setReg .RING_BASE 3 0x1000)

theorem witness_ring_changes : Changed ringChanges :=
  ⟨⟨command (put running [(.TI_RING_QUOTA, 5, 9)]) 0x0301 newRing, newRing, by unfold Runs LiveTi Passes; decide +kernel⟩,
   ⟨command (windowed 0) 0x0302 (pay [(4, 3)]), pay [(4, 3)], by unfold Runs LiveRing LiveTi; decide +kernel⟩,
   ⟨command (windowed 0) 0x0303 (pay [(4, 3)]), pay [(4, 3)], by unfold Runs LiveRing LiveTi; decide +kernel⟩,
   ⟨command (windowed 1) 0x0304 (pay [(4, 3), (4, 0)]), pay [(4, 3), (4, 0)], by unfold Runs LiveRing LiveTi ZeroAt; decide +kernel⟩,
   ⟨command (windowed 1) 0x0305 (pay [(4, 3), (4, 0x0110)]), pay [(4, 3), (4, 0x0110)], by unfold Runs LiveRing LiveTi ZeroAt; decide +kernel⟩,
   ⟨command running 0x0306 (pay [(4, 2), (2, 0xFFFF), (2, 0), (4, 0)]), pay [(4, 2), (2, 0xFFFF), (2, 0), (4, 0)], by
     unfold Runs LiveRing LiveTi Passes; decide +kernel⟩, trivial⟩

theorem witness_sched_changes : Changed schedChanges :=
  ⟨⟨command running 0x0401 (pay [(2, 5), (2, 7), (4, 0)]), pay [(2, 5), (2, 7), (4, 0)], by unfold Runs LiveTi; decide +kernel⟩,
   ⟨command running 0x0402 (pay [(2, 5), (1, 0), (1, 3), (4, 0)]), pay [(2, 5), (1, 0), (1, 3), (4, 0)], by
     unfold Runs LiveTi ZeroAt; decide +kernel⟩,
   ⟨command up 0x0403 (pay [(4, 2), (4, 5), (2, 1), (2, 1)]), pay [(4, 2), (4, 5), (2, 1), (2, 1)], by unfold Runs; decide +kernel⟩,
   ⟨command up 0x0404 (pay [(4, 1), (4, 1), (4, 12), (4, 1)]), pay [(4, 1), (4, 1), (4, 12), (4, 1)], by unfold Runs; decide +kernel⟩, trivial⟩

end Sys2Proof.Tests
end

