-- ==== Sys2Proof/Tests/WitnessRegs.lean ====
section
/-!
SUPPORT. States and accesses that meet the conditions of the statements on registers, the recorder, the mailbox and the block
as a whole.
-/

namespace Sys2Proof.Tests

set_option Elab.async false

open Sys2Proof.Machine Sys2Proof.Claims

/-! ## Register accesses -/

theorem granted_by (s : State) (m : Master) (write : Bool) (a : Nat) (data : Bytes) (n code k off : Nat)
    (h : s.mode ≠ 0 ∧ (m = .pf0 → s.host.perst = false ∧ s.host.d3hot = false) ∧ codesOk (masterId m) a n data code = true ∧
      s.deckleOf a = some (k, off) ∧ (s.flag .DKL_CTL_EN k = true ∨ inDkl a = true) ∧ s.decision k (masterId m) write off = 1 ∧
      ∀ e ∈ s.dkl, e.2.held = [] ∧ e.2.behind = []) :
    Granted s m write a data n code :=
  ⟨h.1, h.2.1, h.2.2.1, k, off, h.2.2.2⟩

/-- PROT_BIST_STAT, whose counter a read clears. -/
def bistAddr : Nat := 0x40220

theorem witness_register_reads : ∀ m ∈ [Master.pf0, .dbg],
    Granted guarded m false bistAddr [] 4 (laneCode (masterId m) bistAddr (laneBytes bistAddr [] bistAddr)) := by
  intro m hm
  apply granted_by _ _ _ _ _ _ _ 6 bistAddr
  simp only [List.mem_cons, List.not_mem_nil, or_false] at hm
  rcases hm with rfl | rfl <;> decide +kernel

theorem witness_register_read : bistAddr % 4 = 0 ∧ guarded.regAt bistAddr = some (.PROT_BIST_STAT, 0, 0) ∧
    (regRow .PROT_BIST_STAT).width = 32 ∧ (regRow .PROT_BIST_STAT).rc ≠ 0 ∧ RegKind.PROT_BIST_STAT ∉ specialReads := by
  decide +kernel

/-- TIME_INT, whose bits a write of one clears. -/
def timeIntAddr : Nat := 0x30050

theorem witness_register_write : ∃ code, Granted guarded .pf0 true timeIntAddr [1, 0, 0, 0] 4 code ∧ timeIntAddr % 4 = 0 ∧
    guarded.regAt timeIntAddr = some (.TIME_INT, 0, 0) ∧ (regRow .TIME_INT).width = 32 ∧ RegKind.TIME_INT ∉ specialWrites :=
  ⟨laneCode 0x1000 timeIntAddr (laneBytes timeIntAddr [1, 0, 0, 0] timeIntAddr),
   granted_by _ _ _ _ _ _ _ 6 timeIntAddr (by decide +kernel), by decide +kernel⟩

/-- TIME_SET. -/
def setAddr : Nat := 0x30018

theorem witness_wide_register : guarded.regAt setAddr = some (.TIME_SET, 0, 0) ∧ guarded.regAt (setAddr + 4) = some (.TIME_SET, 0, 4) ∧
    (regRow .TIME_SET).width = 64 ∧ RegKind.TIME_SET ∉ specialReads ∧ RegKind.TIME_SET ≠ .TIME_NOW ∧ (regRow .TIME_SET).rc = 0 ∧
    setAddr % 8 = 0 := by decide +kernel

theorem witness_wide_reads : ∀ x ∈ [(setAddr, 4), (setAddr + 4, 4), (setAddr, 8)],
    Granted guarded .pf0 false x.1 [] x.2 (laneCode 0x1000 setAddr (laneBytes x.1 [] setAddr)) := by
  intro x hx
  refine granted_by _ _ _ _ _ _ _ 6 x.1 ?_
  revert x
  decide +kernel

theorem witness_wide_writes : ∀ a ∈ [setAddr, setAddr + 4],
    Granted guarded .pf0 true a [1, 2, 3, 4] 4 (laneCode 0x1000 setAddr (laneBytes a [1, 2, 3, 4] setAddr)) := by
  intro a ha
  refine granted_by _ _ _ _ _ _ _ 6 a ?_
  revert a
  decide +kernel

/-- A shadow and a staged half are there, or not. -/
theorem witness_halves : ((guarded.setHalf .pf0 ⟨some (regKey .TIME_SET 0, 5), some (regKey .TIME_SET 0, 6)⟩).half .pf0).shadow =
      some (regKey .TIME_SET 0, 5) ∧
    ((guarded.setHalf .pf0 ⟨some (regKey .TIME_SET 0, 5), some (regKey .TIME_SET 0, 6)⟩).half .pf0).staged =
      some (regKey .TIME_SET 0, 6) ∧ (guarded.half .pf0).staged = none := by decide +kernel

/-- No register stands at this offset of the mailbox block. -/
def emptyAddr : Nat := 0x10FFC

theorem witness_unallocated : guarded.regAt emptyAddr = none ∧ emptyAddr % 4 = 0 := by decide +kernel

theorem witness_unallocated_read : ∃ code, Granted guarded .pf0 false emptyAddr [] 4 code :=
  ⟨_, granted_by _ _ _ _ _ _ (laneCode 0x1000 0x10FF8 (laneBytes emptyAddr [] 0x10FF8)) 6 emptyAddr (by decide +kernel)⟩

theorem witness_unallocated_write : ∃ code, Granted guarded .mp true emptyAddr [1, 2, 3, 4] 4 code :=
  ⟨_, granted_by _ _ _ _ _ _ (laneCode 0x2000 0x10FF8 (laneBytes emptyAddr [1, 2, 3, 4] 0x10FF8)) 6 emptyAddr (by decide +kernel)⟩

/-! ## The recorder -/

/-- An event of a code, a channel and a severity. -/
def eventOf (code chan sev : Nat) : EvRec := ⟨100, 0, code, chan, sev, 0, 1, 2, 3, 0, 0⟩

/-- An event waits before channels that hold records, channel 5 of quota 2 and channel 30 of quota 1. -/
def recording (e : EvRec) : State :=
  { put running [(.EVR_COUNT_QUOTA, 5, 2), (.EVR_COUNT_QUOTA, 30, 1)] with
    evr := { running.evr with
      fifo := [e]
      chans := [(5, [eventOf 0x6001 5 1, eventOf 0x6002 5 1]), (6, [eventOf 0x6001 6 1]), (30, [eventOf 0x3010 30 1])] } }

/-- What every commit asks. -/
def Commits (e : EvRec) (P : List EvRec → Nat → Prop) : Prop :=
  ∃ (s : State) (rest : List EvRec), s.evr.fifo = e :: rest ∧ retained e.code = false ∧ e.chan ≠ 31 ∧
    P (s.chan e.chan) (s.fget .EVR_COUNT_QUOTA e.chan)

theorem witness_commit_repeats : Commits (eventOf 0x6002 5 1) fun l _ => ∃ r, l.getLast? = some r ∧ repeats r (eventOf 0x6002 5 1) = true :=
  ⟨recording _, [], rfl, rfl, by decide, eventOf 0x6002 5 1, by decide +kernel⟩

theorem witness_commit_appends : Commits (eventOf 0x6002 6 1) fun l q =>
    (∀ r, l.getLast? = some r → repeats r (eventOf 0x6002 6 1) = false) ∧ l.length < q :=
  ⟨recording _, [], rfl, rfl, by decide, by
    refine ⟨fun r h => ?_, by decide +kernel⟩
    rw [show (recording (eventOf 0x6002 6 1)).chan (eventOf 0x6002 6 1).chan = [eventOf 0x6001 6 1] from rfl] at h
    cases h
    decide +kernel⟩

theorem witness_commit_drops : Commits (eventOf 0x6003 5 1) fun l q =>
    (∀ r, l.getLast? = some r → repeats r (eventOf 0x6003 5 1) = false) ∧ q = l.length :=
  ⟨recording _, [], rfl, rfl, by decide, by
    refine ⟨fun r h => ?_, by decide +kernel⟩
    rw [show (recording (eventOf 0x6003 5 1)).chan (eventOf 0x6003 5 1).chan = [eventOf 0x6001 5 1, eventOf 0x6002 5 1] from rfl] at h
    cases h
    decide +kernel⟩

theorem witness_commit_security (sev : Nat) (h : sev ∈ [1, 2]) : Commits (eventOf 0x3020 30 sev) fun l q =>
    (∀ r, l.getLast? = some r → repeats r (eventOf 0x3020 30 sev) = false) ∧ q = l.length ∧
    (sev = 1 → ∀ r ∈ l, sev ≤ r.sev) ∧ (sev = 2 → lowerPlace sev l = some 0) := by
  simp only [List.mem_cons, List.not_mem_nil, or_false] at h
  rcases h with rfl | rfl
  all_goals
    refine ⟨recording _, [], rfl, rfl, by decide, fun r h => ?_, by decide +kernel, ?_, ?_⟩
    · rw [show State.chan (recording _) (eventOf 0x3020 30 _).chan = [eventOf 0x3010 30 1] from rfl] at h
      cases h
      decide +kernel
  · exact fun _ => by decide +kernel
  · exact fun h => absurd h (by decide)
  · exact fun h => absurd h (by decide)
  · exact fun _ => by decide +kernel

/-- A cursor on channel 5. -/
def cursorAt (i : Nat) : State := put (recording (eventOf 0x6002 5 1)) [(.EVR_CURSOR_CHANNEL, 0, 5), (.EVR_CURSOR_INDEX, 0, i)]

theorem witness_window_record : ∃ s : State, s.readsRecorder .pf0 = true ∧
    (s.chan (s.cursor .pf0).1)[(s.cursor .pf0).2]? = some (eventOf 0x6002 5 1) ∧ (s.cursor .pf0).2 < 8191 ∧ (s.cursor .pf0).1 < 32 :=
  ⟨cursorAt 1, by decide +kernel⟩

theorem witness_window_past : ∃ s : State, s.readsRecorder .pf0 = true ∧ (s.chan (s.cursor .pf0).1).length = (s.cursor .pf0).2 :=
  ⟨cursorAt 2, by decide +kernel⟩

/-! ## The mailbox -/

theorem witness_go_refused : (put running [(.MBX_STATUS_BUSY, 0, 1)]).fget .MBX_STATUS_BUSY 0 = 1 ∧
    (put running [(.MBX_STATUS_READY, 0, 0)]).fget .MBX_STATUS_READY 0 = 0 := by decide +kernel

/-- A command's header in the buffer: opcode, flags, length. -/
def asked (op flags len : Nat) : State :=
  ((running.setReg .MBX_CMD 0 (BitVec.ofNat 64 (op + flags * 65536))).setReg .MBX_CMD 2 (BitVec.ofNat 64 len))

/-- A GO may be taken. -/
def Goes (s : State) : Prop := s.fget .MBX_STATUS_BUSY 0 = 0 ∧ s.fget .MBX_STATUS_READY 0 = 1

theorem witness_go_unknown : Goes (asked 0x0FFF 0 0) ∧ HeaderFails (submitted (asked 0x0FFF 0 0)) 0x10 :=
  ⟨by unfold Goes; decide +kernel, Or.inl (by decide +kernel)⟩

/-- A header whose row is known and whose later check fails. -/
theorem header_fails (u : State) (r : MbxRow) (st : Nat) (h : mbxRow u.cmdOpcode = some r)
    (hp : let extra := if u.cmdAuthed then 5486 else 0
      let flags := 4 ≤ u.cmdFlags ∨ leAt u.mbx.snap 12 4 ≠ 0 ∨ (u.cmdAuthed = true ∧ r.auth = 0)
      let length := u.cmdLength < r.lo + extra ∨ min 16368 (r.hi + extra) < u.cmdLength
      (flags ∧ st = 0x12) ∨ (¬ flags ∧ length ∧ st = 0x11) ∨
      (¬ flags ∧ ¬ length ∧ u.mode ∉ r.modes ∧ st = (if u.mode = 5 then 0x60 else 0x20)) ∨
      (¬ flags ∧ ¬ length ∧ u.mode ∈ r.modes ∧ (r.auth = 2 ∧ u.cmdAuthed = false) ∧ st = 0x21)) : HeaderFails u st :=
  Or.inr ⟨r, h, hp.imp_right (Or.imp_right (Or.imp_right fun ⟨a, b, c, d, e⟩ => ⟨a, b, c, Or.inl d, e⟩))⟩

theorem witness_go_flags : Goes (asked 0x0101 4 0) ∧ HeaderFails (submitted (asked 0x0101 4 0)) 0x12 :=
  ⟨by unfold Goes; decide +kernel, header_fails _ ⟨0, 0, anyMode, 0⟩ _ (by decide +kernel) (by dsimp only; decide +kernel)⟩

theorem witness_go_length : Goes (asked 0x0202 0 9) ∧ HeaderFails (submitted (asked 0x0202 0 9)) 0x11 :=
  ⟨by unfold Goes; decide +kernel, header_fails _ ⟨8, 8, serviceModes, 0⟩ _ (by decide +kernel) (by dsimp only; decide +kernel)⟩

/-- The same in mode DIAG. -/
def askedIn (mode : Nat) (op flags len : Nat) : State := (asked op flags len).fset .DEV_MODE_MODE 0 mode

theorem witness_go_mode : ∀ x ∈ [(1, 0x20), (5, 0x60)],
    Goes (askedIn x.1 0x0202 0 8) ∧ HeaderFails (submitted (askedIn x.1 0x0202 0 8)) x.2 := by
  intro x hx
  refine ⟨?_, header_fails _ ⟨8, 8, serviceModes, 0⟩ _ ?_ ?_⟩
  · unfold Goes; revert x; decide +kernel
  · revert x; decide +kernel
  · dsimp only; revert x; decide +kernel

theorem witness_go_passes : Goes (asked 0x0202 0 8) ∧ ∀ st, ¬ HeaderFails (submitted (asked 0x0202 0 8)) st := by
  refine ⟨by unfold Goes; decide +kernel, ?_⟩
  have hr : mbxRow (submitted (asked 0x0202 0 8)).cmdOpcode = some ⟨8, 8, serviceModes, 0⟩ := by decide +kernel
  rintro st (⟨h, _⟩ | ⟨r, h, hp⟩)
  · rw [hr] at h; cases h
  · rw [hr] at h
    cases h
    have ha : (submitted (asked 0x0202 0 8)).cmdAuthed = false := by decide +kernel
    have hf : (submitted (asked 0x0202 0 8)).cmdFlags = 0 ∧ leAt (submitted (asked 0x0202 0 8)).mbx.snap 12 4 = 0 ∧
        (submitted (asked 0x0202 0 8)).cmdLength = 8 ∧ (submitted (asked 0x0202 0 8)).mode = 3 := by decide +kernel
    obtain ⟨h1, h2, h3, h4⟩ := hf
    simp [ha, h1, h2, h3, h4, serviceModes] at hp

/-- A command that runs or waits with BUSY set. -/
def busy (p : MbxPhase) : State :=
  { put running [(.MBX_STATUS_BUSY, 0, 1), (.MBX_TIMEOUT_LIMIT_MS, 0, 10)] with mbx := { running.mbx with phase := p } }

theorem witness_abort : (running.fget .MBX_STATUS_BUSY 0 = 0) ∧
    ((busy .running).fget .MBX_STATUS_BUSY 0 = 1 ∧ (busy .running).mbx.phase = .running) ∧
    ((busy .waiting).fget .MBX_STATUS_BUSY 0 = 1 ∧ (busy .waiting).mbx.phase = .waiting) := by decide +kernel

theorem witness_timeout : (busy .running).mbx.phase = .running ∧
    min 60000 (max 10 ((busy .running).fget .MBX_TIMEOUT_LIMIT_MS 0)) * 1000000 = 10000000 ∧
    10000000 ≤ ((busy .running).elapse 10000000).since (busy .running).mbx.started ∧ running.mbx.phase ≠ .running := by decide +kernel

/-! ## The block as a whole -/

theorem witness_idle : State.reset.pending = [] ∧ State.reset.time.slew = 0 := by decide +kernel

theorem witness_f2_programmed : F2Set { running with otp := { running.otp with f2 := true } } := by unfold F2Set; decide +kernel

theorem witness_f2_set : ∃ s : State, s.pending = [.protF2Set] ∧ s.mbx.phase = .running ∧ s.cmdOpcode = 0x0905 ∧ s.otp.f2 = false :=
  ⟨{ command running 0x0905 [] with pending := [.protF2Set] }, by decide +kernel⟩

end Sys2Proof.Tests
end

