-- ==== Sys2Proof/Tests/WitnessSched.lean ====
section
/-!
SUPPORT. States and operands that meet the conditions of the rows of acceptance, dispatch, completion and scheduling.
-/

namespace Sys2Proof.Tests

set_option Elab.async false

open Sys2Proof.Machine Sys2Proof.Claims

/-- One prefetched entry of SQ 3. -/
def prefetchedOne (b : Bytes) : State := { running with sched := { running.sched with prefetch := [⟨3, 0, b⟩] } }

/-- An entry of class PROTECTION without a deadline, and one of class DEADLINE whose deadline cannot be met. -/
def noDeadline : Bytes := mkSqe 0x0102 0 2 0 0 [0x1000, 0, 0x2000] [3, 0, 32] 9 0
def tooLate : Bytes := mkSqe 0x0102 0x100 2 0 0 [0x1000, 0, 0x2000] [3, 0, 32] 9 1

/-- An HSS verification with its public key in In1; `flag` may say that In1 is a list of one segment. -/
def lmsSqe (flag addr : Nat) : Bytes :=
  mkSqe 0x0602 (0x200 + flag) 2 0 0 [0x1000, addr, 0x2000] [3, if flag = 0 then 1500 else 1, 0] 9 0

theorem witness_accept : Met acceptRows :=
  ⟨⟨prefetchedOne noDeadline, (3, ⟨[], []⟩, 0, ⟨3, 0, noDeadline⟩), by unfold CqFits; decide +kernel⟩,
   ⟨prefetchedOne tooLate, (3, ⟨[], []⟩, 0, ⟨3, 0, tooLate⟩, none), by unfold CqFits; decide +kernel⟩,
   ⟨prefetchedOne (shaSqe 0), ((3, ⟨[], []⟩, 0, ⟨3, 0, shaSqe 0⟩, none), 0), by decide +kernel⟩,
   ⟨prefetchedOne (lmsSqe 0 0x9000), ((3, ⟨[], []⟩, 0, ⟨3, 0, lmsSqe 0 0x9000⟩), .window 2 0x9000),
     by unfold CqFits; refine ⟨by decide +kernel, by decide +kernel, by decide +kernel, by decide +kernel, by decide +kernel, nofun⟩⟩,
   trivial⟩

/-- The first entry of SQ 3 passes the checks, and the reads of R495 answer otherwise than with all that they need. -/
def LeadMet (b : Bytes) (l : LeadBytes) (fault : Nat) (r : LeadRead) : Prop :=
  let s := prefetchedOne b
  let j := accepted s 3 ⟨3, 0, b⟩
  s.prefetched 3 = some ⟨3, 0, b⟩ ∧ s.mayAccept 3 = true ∧ s.acceptChecks 3 b = none ∧ CqFits s j ∧ s.leadRead j l.list l.front fault = r

/-- An HSS verification whose list has a segment of no length, one that waits for its bytes, and one whose read fails. -/
theorem witness_lead_refused : LeadMet (lmsSqe 8 0x1000) ⟨List.replicate 16 0, []⟩ 0 (.refuse jInvalidParam 0) := by
  unfold LeadMet CqFits; decide +kernel
theorem witness_lead_waits : LeadMet (lmsSqe 0 0x1000) ⟨[], []⟩ 0 .wait := by unfold LeadMet CqFits; decide +kernel
theorem witness_lead_fails : LeadMet (lmsSqe 0 0x1000) ⟨[], []⟩ 1 (.failed 2 0x1000) := by unfold LeadMet CqFits; decide +kernel

/-- The job of `tooLate`, ready on die 0. -/
def lateJob : Job := { newJob 7 5 3 0 tooLate with cost := 2000000 }

theorem witness_dispatch : Met dispatchRows :=
  ⟨⟨withJobs running [shaJob], (0, shaJob, .digest .sha256, ([0], none), [1, 2, 3], []),
     by unfold OneReady ChecksPass; refine ⟨by decide +kernel, by decide +kernel, by decide +kernel, by decide +kernel, nofun, ?_⟩; decide +kernel⟩,
   ⟨withJobs running [lateJob], (0, lateJob, ([0], none)), by unfold OneReady CqFits; decide +kernel⟩, trivial⟩

/-- The SHA-256 job with its result, and jobs that make a key, delete one, and run on an engine. -/
def doneJob : Job := { shaJob with phase := .computed, result := List.replicate 32 0 }
def genJob : Job :=
  { newJob 7 5 3 0 (mkSqe 0x0C01 0x200 2 1 0 [0, 0x1000, 0x2000] [0, 16, 8] 9 0) with
    phase := .computed
    in1 := leBytes 8 (mkHandle 5 1 3 0) ++ leBytes 8 32
    newKey := some [1, 2, 3] }
def deleteJob : Job := { newJob 7 5 3 0 (mkSqe 0x0C05 0x200 2 0 (mkHandle 5 1 3 0) [0, 0, 0] [0, 0, 0] 9 0) with phase := .computed }
def engineJob : Job :=
  { newJob 7 5 3 0 (mkSqe 0x0902 0x200 2 0 (mkHandle 5 1 3 0) [0, 0, 0] [0, 0, 0] 9 0) with phase := .computed, lie := some 0 }

def infoJob : Job := { newJob 7 5 3 0 (mkSqe 0x0C08 0x200 2 0 (mkHandle 5 7 3 1) [0, 0, 0x2000] [0, 0, 16] 9 0) with phase := .computed }
def boundInfo : Job := { infoJob with phase := .bound, due := [] }
def streamJob (op : Nat) : Job :=
  { newJob 7 5 3 0 (mkSqe op 0x200 2 0 (mkHandle 5 7 3 1) [0x1000, 0, 0] [16, 0, 0] 9 0) with phase := .computed, in0 := leBytes 4 9 ++ leBytes 4 1 ++ leBytes 8 0 }

/-- A stream-key job bound to no core, with its key and its masks. -/
def installJob (next : Bool) : Job :=
  { streamJob (if next then 0x1001 else 0x1002) with
    phase := .bound, due := [], keyBytes := List.replicate 32 9, keyType := 7, rand := List.replicate 64 0 }

theorem witness_completion : Met completionRows :=
  ⟨⟨withJobs running [doneJob], ((7, true, 0), doneJob, .digest .sha256), by unfold Ready NoEffect CqFits; decide +kernel⟩,
   ⟨withJobs running [genJob], ((7, 0), genJob, .generate, [1, 2, 3]), by unfold Ready CqFits; decide +kernel⟩,
   ⟨withJobs running [deleteJob], ((7, true, 0), deleteJob), by unfold Ready CqFits; decide +kernel⟩,
   ⟨withJobs running [infoJob], ((7, true, 0), infoJob), by unfold Ready CqFits; decide +kernel⟩,
   ⟨withJobs running [streamJob 0x1001], ((7, true, 0), streamJob 0x1001, true), by unfold Ready CqFits; decide +kernel⟩,
   ⟨withJobs running [engineJob], ((0, true, 0), engineJob, .rsaVerify 0 0 true), by unfold NoEffect CqFits; decide +kernel⟩,
   trivial⟩

/-- TI 5 holds a stream key of 32 bytes in slot 3 and owns receive context 9. -/
def keyed : State :=
  { running with
    slots := [(5 * 2 ^ 24 + 3, { KeySlot.blank with state := .occupied, typ := 7, gen := 1, granules := 1, stored := List.replicate 32 9 })]
    streams := [(9, { Stream.blank with live := true, owner := 5, alg := 1, tagLen := 16 })] }

/-- KEY_INFORMATION of that key takes effect. -/
theorem witness_key_information : ∃ (s : State) (id : Nat) (j : Job), s.job? id = some j ∧ s.mayRun j = true ∧ j.oper = some .keyInfo ∧
    j.lie = none ∧ CqFits s j ∧ s.handleOk j.ti (sqeKey j.sqe) = true :=
  ⟨withJobs keyed [boundInfo], 7, boundInfo, by unfold CqFits; decide +kernel⟩

/-- The two stream-key operations take effect. -/
theorem witness_stream_keys : ∀ next, ∃ (s : State) (id : Nat) (j : Job), s.job? id = some j ∧ s.mayRun j = true ∧
    j.oper = some (if next then .streamNext else .streamNow) ∧ j.lie = none ∧ CqFits s j ∧ s.mirrors = false ∧ s.blockOk j next = true ∧
    streamMaskLen j ≤ j.rand.length := by
  intro next
  refine ⟨withJobs keyed [installJob next], 7, installJob next, ?_⟩
  unfold CqFits
  revert next; decide +kernel

/-- The SHA-256 job on core 0, and a heavy one that waits. -/
def boundJob : Job := { shaJob with phase := .bound, core := some 0, due := [0] }
def heavyJob : Job := { shaJob with cost := 1600000000 }

/-- Core 0 runs job 7, at a yield point. -/
def atYield (st : Nat) (saves : Sparse VCore) : State :=
  { (put (withJobs running [boundJob]) [(.VC_STATE_STATE, 0, st)]).setCore 0 { VCore.idle with job := some 7, preempt := true } with
    saves := saves }

/-- Two dies in service, die 0 loaded. -/
def loaded : State :=
  let s := put running [(.DEV_READY_MAP_DIE, 1, 1), (.DEV_READY_VC_VC, 1, 0xFFFF)]
  { s with sched := { s.sched with jobs := [heavyJob], balMax := 1 } }

theorem witness_sched : Met schedRows :=
  ⟨⟨withJobs running [boundJob], ((7, 0), boundJob), by decide +kernel⟩,
   ⟨atYield 2 [], ((7, 0), boundJob, 0, 0), by refine ⟨by decide +kernel, by decide +kernel, by decide +kernel, by decide +kernel,
     by decide +kernel, by decide +kernel, by decide +kernel, by decide +kernel, fun i hi => absurd hi (Nat.not_lt_zero i), by unfold MayRefresh; decide +kernel⟩⟩,
   ⟨atYield 3 [(0, { VCore.idle with job := some 7 })], ((7, 0, 0), boundJob, (0, { VCore.idle with job := some 7 })), by unfold MayRefresh; decide +kernel⟩,
   ⟨withJobs running [boundJob], ((7, 20001), boundJob, (1, 20000)), by unfold CqFits; decide +kernel⟩,
   ⟨loaded, (10000, 1, 0, heavyJob), by dsimp only; decide +kernel⟩,
   ⟨running, 10000, by
     have h : ∀ a, a < running.dies → ∀ b, b < running.dies → running.loadPs a ≤ running.loadPs b + running.sched.balThresh * 1000000 := by
       decide +kernel
     exact ⟨by decide +kernel, by decide +kernel, fun a b ha hb => h a ha b hb⟩⟩,
   ⟨running, (15, 100, 10000), by decide +kernel⟩, ⟨running, (1, 100, 10000), by decide +kernel⟩,
   ⟨{ put running [(.DEV_MODE_HOLD, 0, 1)] with prot := { running.prot with clearAt := some 0 } }, (100000, 0), by decide +kernel⟩,
   trivial⟩

end Sys2Proof.Tests
end

