-- ==== Sys2Proof/Tests/WitnessStore.lean ====
section
/-!
SUPPORT. States and payloads that meet the conditions of the mailbox commands on keys, kernels, the recorder, life cycle,
protection, firmware, diagnostics, entropy, ports, stream contexts and the duplex pair.
-/

namespace Sys2Proof.Tests

set_option Elab.async false

open Sys2Proof.Machine Sys2Proof.Claims

/-- A resident Classic McEliece public key in slot 2 of TI 5, with a copy in cluster 1. -/
def resident : State :=
  { put running [(.TI_KEY_USED_VALUE, 5, 1)] with slots := [(slotKey 5 2, ⟨.occupied, 0x51, 0, 3, [1], [], 1, 0, [1]⟩)] }

/-- A sealed blob of a 16-byte AES key of TI 5 with usage 0. -/
def sealedKey : Bytes :=
  leBytes 76
    0xa695f47827db341a62fc7fa24e72f926f9960ab1532a263b4bcccff590560064090909090909090909090909000000000000000000000000000000000000001000000003000501014253565a

def unsealFields : Bytes := pay [(4, 5), (4, 4)] ++ sealedKey


/-- One change may go ahead. -/
def May (x : Change) : Prop := ∃ s p, Runs s x.op p ∧ x.ok s p

theorem may_seal (x : Change) (h : keyChanges[3]? = some x) : May x := by
  cases h
  exact ⟨drawn (command rooted 0x0505 (pay [(4, 5), (4, 2)])) 12, pay [(4, 5), (4, 2)], by unfold Runs; decide +kernel, by decide +kernel,
    by unfold LiveTi; decide +kernel, by unfold ZeroAt; decide +kernel, by decide +kernel, by unfold named; decide +kernel,
    by unfold named; decide +kernel, by decide +kernel, by decide +kernel, drawn_draws _ _ _ (Nat.le_refl _)⟩

theorem may_unseal (x : Change) (h : keyChanges[4]? = some x) : May x := by
  cases h
  exact ⟨drawn (command rooted 0x0506 unsealFields) 0, unsealFields, by unfold Runs; decide +kernel, by decide +kernel,
    by unfold SlotField LiveTi ZeroAt; decide +kernel, by decide +kernel, by unfold named; decide +kernel, by decide +kernel,
    by decide +kernel, by decide +kernel, by decide +kernel, by decide +kernel, List.replicate 16 7, .aes 16, [], by decide +kernel, by decide +kernel,
    Or.inl ⟨by decide +kernel, by decide +kernel⟩, by decide +kernel⟩

theorem may_rotate (x : Change) (h : keyChanges[5]? = some x) : May x := by
  cases h
  exact ⟨drawn (command running 0x0507 (pay [(4, 5)])) importPairDraw, pay [(4, 5)], by unfold Runs; decide +kernel, by decide +kernel,
    by unfold LiveTi; decide +kernel, by unfold ZeroAt; decide +kernel, by decide +kernel, drawn_draws _ _ _ (Nat.le_refl _)⟩

theorem may_provision (x : Change) (h : keyChanges[6]? = some x) : May x := by
  cases h
  exact ⟨drawn (command running 0x0508 []) (64 + identityDraw), [], by unfold Runs; decide +kernel, by decide +kernel,
    by unfold ProvisionOk; decide +kernel, by decide +kernel, by decide +kernel⟩

theorem witness_key_changes : Changed keyChanges :=
  ⟨⟨command rooted 0x0502 (pay [(4, 5), (4, 2)]), pay [(4, 5), (4, 2)], by unfold Runs SlotField LiveTi ZeroAt named; decide +kernel⟩,
   ⟨command running 0x0503 (pay [(2, 5), (1, 1), (1, 0)]), pay [(2, 5), (1, 1), (1, 0)], by unfold Runs LiveTi; decide +kernel⟩,
   ⟨command resident 0x0504 (pay [(2, 5), (1, 0), (1, 0), (4, 2)]), pay [(2, 5), (1, 0), (1, 0), (4, 2)], by
     unfold Runs LiveTi; decide +kernel⟩,
   may_seal _ rfl, may_unseal _ rfl, may_rotate _ rfl, may_provision _ rfl, trivial⟩

/-- A stage for kernel 3, with room for four more bytes. -/
def staged : State := { running with kstage := ⟨some 3, 8, [1, 2, 3, 4]⟩ }

theorem witness_kernel_changes : Changed kernelChanges :=
  ⟨⟨command up 0x0B10 (pay [(4, 3), (4, 64)]), pay [(4, 3), (4, 64)], by unfold Runs ZeroAt; decide +kernel⟩,
   ⟨command staged 0x0B11 (pay [(4, 4), (4, 0), (4, 9)]), pay [(4, 4), (4, 0), (4, 9)], by unfold Runs; decide +kernel⟩,
   ⟨command staged 0x0B12 (pay [(4, 3)]), pay [(4, 3)], by unfold Runs ZeroAt; decide +kernel⟩,
   ⟨command withKernel 0x0B13 (pay [(4, 3)]), pay [(4, 3)], by unfold Runs ZeroAt; decide +kernel⟩, trivial⟩

theorem witness_recorder_changes : Changed recorderChanges :=
  ⟨⟨command up 0x0A03 (pay [(4, 6)]), pay [(4, 6)], by unfold Runs ZeroAt; decide +kernel⟩,
   ⟨command up 0x0A04 (pay [(1, 6), (1, 3), (2, 64), (2, 10), (2, 0)]), pay [(1, 6), (1, 3), (2, 64), (2, 10), (2, 0)], by
     unfold Runs ZeroAt; dsimp only; decide +kernel⟩,
   ⟨command up 0x0E03 (pay [(2, 3), (1, 1), (1, 0)]), pay [(2, 3), (1, 1), (1, 0)], by unfold Runs; decide +kernel⟩, trivial⟩

/-- A life-cycle state; in OWNED owner slot 0 is in use. -/
def owned (lcs : Nat) : State :=
  let s := put running [(.LCS_STATE_STATE, 0, lcs)]
  { s with otp := { s.otp with owners := (if lcs = 3 then ⟨[1], [], [], false⟩ else ⟨[], [], [], false⟩) :: s.otp.owners.drop 1 } }

theorem witness_owner_changes : Changed ownerChanges :=
  ⟨⟨drawn (command (owned 3) 0x0802 []) 32, [], by
     refine ⟨by unfold Runs; decide +kernel, by unfold life; decide +kernel, drawn_draws _ _ _ (Nat.le_refl _)⟩⟩,
   ⟨command (owned 2) 0x0803 [1], [1], by unfold Runs ClaimOk life; decide +kernel⟩,
   ⟨command (owned 3) 0x0804 (pay [(4, 3)]), pay [(4, 3)], by unfold Runs SetKeysOk life ZeroAt; decide +kernel⟩,
   ⟨command (owned 3) 0x0805 [1], [1], by unfold Runs; decide +kernel, by decide +kernel,
     ⟨by unfold life; decide +kernel, 0, by decide +kernel⟩, by decide +kernel⟩,
   ⟨command (owned 3) 0x0806 [], [], by unfold Runs life; decide +kernel⟩, ⟨command (owned 3) 0x0807 [], [], by unfold Runs life; decide +kernel⟩,
   ⟨command (owned 3) 0x0808 [], [], by unfold Runs; decide +kernel⟩,
   ⟨command { owned 3 with prot := { (owned 3).prot with doubled := [.unlock [] 1] } } 0x0808 [], [], by unfold Runs; decide +kernel⟩,
   ⟨command (owned 3) 0x0809 [], [], by unfold Runs; decide +kernel⟩, trivial⟩

theorem witness_prot_changes : Changed protChanges :=
  ⟨⟨command up 0x0902 (pay [(1, 25), (1, 31), (2, 0)]), pay [(1, 25), (1, 31), (2, 0)], by unfold Runs ZeroAt; decide +kernel⟩,
   ⟨command up 0x0903 (pay [(1, 15), (1, 255), (1, 0), (1, 0)]), pay [(1, 15), (1, 255), (1, 0), (1, 0)], by
     refine ⟨by unfold Runs; decide +kernel, by decide +kernel, by decide +kernel, Or.inl (by decide +kernel)⟩⟩,
   ⟨command up 0x0904 [], [], by unfold Runs; decide +kernel⟩, ⟨command up 0x0905 [], [], by unfold Runs; decide +kernel⟩, trivial⟩

/-- Slot 1 may be staged: the BOOT_SEL pins name the table, slot 0 runs. -/
def stageable : State :=
  { put running [(.DEV_BOOT_SLOT, 0, 0)] with
    boot := { running.boot with
      sel := 2
      stage := ⟨some 1, 64, []⟩
      installed := [true, true]
      head := List.replicate 256 5 } }

theorem witness_firmware_changes : Changed firmwareChanges :=
  ⟨⟨command stageable 0x0B01 (pay [(4, 1), (4, 64)]), pay [(4, 1), (4, 64)], by unfold Runs SlotFree ZeroAt; decide +kernel⟩,
   ⟨command stageable 0x0B02 (pay [(4, 0), (4, 0), (4, 7)]), pay [(4, 0), (4, 0), (4, 7)], by unfold Runs; decide +kernel, 1, by
     unfold ZeroAt; decide +kernel⟩,
   ⟨command stageable 0x0B03 (pay [(4, 1)]), pay [(4, 1)], by unfold Runs SlotFree ZeroAt; decide +kernel⟩,
   ⟨command stageable 0x0B04 (pay [(4, 1)]), pay [(4, 1)], by unfold Runs ZeroAt; decide +kernel⟩,
   ⟨command stageable 0x0B05 [], [], by unfold Runs; decide +kernel⟩, ⟨command stageable 0x0B06 [], [], by unfold Runs AdvanceOk; decide +kernel⟩,
   ⟨command running 0x0C01 (pay [(4, 4)]), pay [(4, 4)], by
     refine ⟨by unfold Runs; decide +kernel, by unfold ZeroAt; decide +kernel, Or.inr (Or.inl (by decide +kernel))⟩⟩,
   ⟨command running 0x0C02 (pay [(4, 0x52455345)]), pay [(4, 0x52455345)], by unfold Runs; decide +kernel⟩, trivial⟩

/-- VDD_OTP out of its range. -/
def browned (s : State) : State := { s with boot := { s.boot with otpMv := 1700 } }

theorem witness_pulse_changes : Changed pulseChanges :=
  ⟨⟨command (browned running) 0x0508 [], [], by unfold Runs; decide +kernel, by decide +kernel, by unfold ProvisionOk; decide +kernel⟩,
   ⟨command (browned (owned 2)) 0x0803 [1], [1], by unfold Runs; decide +kernel, by decide +kernel, by unfold ClaimOk life; decide +kernel⟩,
   ⟨command (browned (owned 3)) 0x0804 (pay [(4, 3)]), pay [(4, 3)], by unfold Runs; decide +kernel, by decide +kernel, by
     unfold SetKeysOk life ZeroAt; decide +kernel⟩,
   ⟨command (browned (owned 3)) 0x0805 [1], [1], by unfold Runs; decide +kernel, by decide +kernel, by unfold life; decide +kernel, 0,
     by decide +kernel⟩,
   ⟨command (browned (owned 3)) 0x0905 [], [], by unfold Runs; decide +kernel, by decide +kernel, by decide +kernel⟩,
   ⟨command (browned stageable) 0x0B06 [], [], by unfold Runs; decide +kernel, by decide +kernel, by unfold AdvanceOk; decide +kernel⟩, trivial⟩

theorem witness_diag_changes : Changed (diagChanges ++ engineChanges ++ [BankCommand 0, CaptureCommand [1] 0]) :=
  ⟨⟨command running 0x0C12 (pay [(1, 3), (1, 1), (2, 0)]), pay [(1, 3), (1, 1), (2, 0)], by unfold Runs ZeroAt; decide +kernel⟩,
   ⟨command running 0x0702 (pay [(1, 0), (1, 3), (2, 50), (4, 0), (4, 0), (4, 0)]), pay [(1, 0), (1, 3), (2, 50), (4, 0), (4, 0), (4, 0)], by
     unfold Runs; decide +kernel⟩,
   ⟨command running 0x0C10 (pay [(1, 1), (1, 1), (2, 0)]), pay [(1, 1), (1, 1), (2, 0)], by unfold Runs ZeroAt; decide +kernel⟩,
   ⟨command running 0x0703 (pay [(1, 0), (1, 6), (1, 1), (1, 0)]), pay [(1, 0), (1, 6), (1, 1), (1, 0)], by unfold BankCommand Runs; decide +kernel⟩,
   ⟨command (owned 1) 0x0C11 (pay [(1, 0), (1, 6), (2, 8)]), pay [(1, 0), (1, 6), (2, 8)], by unfold CaptureCommand Runs life; decide +kernel⟩, trivial⟩

/-- PORT_CONFIG of port 9 for 10 Gbit/s. -/
def portFields : Bytes := pay [(2, 9), (1, 2), (1, 0), (1, 0), (1, 7), (2, 0), (2, 0xFFFF), (2, 4), (2, 5), (2, 0)]

theorem witness_port_changes : Changed portChanges :=
  ⟨⟨command running 0x0601 portFields, portFields, by unfold Runs PortFields LiveTi ZeroAt; decide +kernel⟩,
   ⟨command running 0x0602 (pay [(2, 3), (2, 4), (4, 1)]), pay [(2, 3), (2, 4), (4, 1)], by unfold Runs Pairable ZeroAt; decide +kernel⟩,
   ⟨command running 0x0609 (pay [(4, 3), (4, 10), (4, 5)]), pay [(4, 3), (4, 10), (4, 5)], by unfold Runs ZeroAt; decide +kernel⟩, trivial⟩

/-- A GOOSE context of TI 5 on port 0: HMAC with a 16-byte tag, any VLAN. -/
def contextFields : Bytes :=
  pay [(2, 5), (1, 0), (1, 0), (6, 0x0100CD0C01), (2, 7), (2, 0x8000), (2, 0), (1, 1), (1, 16), (1, 0), (1, 0), (2, 0xFFFF), (2, 0), (4, 0),
    (4, 0), (4, 9), (4, 0)]

/-- Context 0 of TI 5. -/
def contexted : State := { put running [(.TI_STREAM_USED, 5, 1)] with streams := [(0, goose 0)] }

theorem witness_stream_changes : Changed streamChanges :=
  ⟨⟨command (put running [(.TI_STREAM_QUOTA, 5, 4)]) 0x0603 contextFields, contextFields, by
     unfold Runs LiveTi RxFields ZeroAt; dsimp only; decide +kernel⟩,
   ⟨command contexted 0x0604 (pay [(4, 0), (1, 1), (1, 2), (2, 4), (4, 20), (4, 0)]), pay [(4, 0), (1, 1), (1, 2), (2, 4), (4, 20), (4, 0)], by
     unfold Runs LiveCtx NotHeld ZeroAt; decide +kernel⟩,
   ⟨command contexted 0x0605 (pay [(4, 0), (2, 4), (1, 0), (1, 0)]), pay [(4, 0), (2, 4), (1, 0), (1, 0)], by
     unfold Runs LiveCtx; decide +kernel⟩,
   ⟨command contexted 0x0606 (pay [(4, 0)]), pay [(4, 0)], by unfold Runs LiveCtx NotHeld; decide +kernel⟩,
   ⟨command contexted 0x0607 (pay [(4, 0)]), pay [(4, 0)], by unfold Runs LiveCtx; decide +kernel⟩,
   ⟨command contexted 0x0608 (pay [(4, 0)]), pay [(4, 0)], by unfold Runs LiveCtx NotHeld; decide +kernel⟩,
   ⟨command contexted 0x060A (pay [(4, 0)]), pay [(4, 0)], by unfold Runs LiveCtx; decide +kernel⟩, trivial⟩

/-- Mirror ports 3 and 19 configured, the root valid, in a role and a state. -/
def duplexed (role st : Nat) : State :=
  let s := put running [(.KS_ROOT_VALID, 0, 1), (.DUPLEX_STATUS_ROLE, 0, role), (.DUPLEX_STATUS_STATE, 0, st)]
  { s with duplex := { s.duplex with
      portA := 3
      portB := 19
      fromSync := true } }

/-- Ports 3 and 19 in a mode for a mirror. -/
def mirrorable : State := put running [(.PORT_CFG_MODE, 3, 5), (.PORT_CFG_MODE, 19, 5)]

def dupFields : Bytes := pay [(2, 3), (2, 19), (2, 10), (1, 3), (1, 1), (2, 2), (2, 0)]

theorem witness_duplex_changes : Changed duplexChanges :=
  ⟨⟨command mirrorable 0x0D01 dupFields, dupFields, by unfold Runs newPortA newPortB ZeroOr ZeroAt; dsimp only; decide +kernel⟩,
   ⟨command (duplexed 0 0) 0x0D02 (pay [(4, 1)]), pay [(4, 1)], by
     refine ⟨by unfold Runs; decide +kernel, by decide +kernel, by unfold ZeroAt; decide +kernel, by decide +kernel, by decide +kernel,
       by decide +kernel, by decide +kernel, fun h => absurd h (by decide +kernel)⟩⟩,
   ⟨command (duplexed 1 5) 0x0D03 [], [], by unfold Runs; decide +kernel⟩,
   ⟨command running 0x0D04 (pay [(2, 5), (1, 1), (1, 0)]), pay [(2, 5), (1, 1), (1, 0)], by unfold Runs LiveTi; decide +kernel⟩,
   ⟨command (duplexed 2 2) 0x0D05 (pay [(4, 0)]), pay [(4, 0)], by unfold Runs ZeroAt; decide +kernel⟩,
   ⟨command (duplexed 1 5) 0x0D06 (pay [(4, 0)]), pay [(4, 0)], by unfold Runs ZeroAt; decide +kernel⟩, trivial⟩

/-- A command that is refused for its payload. -/
theorem witness_refused : .kernelQuery ∈ refusable ∧ ∃ t, (command up 0x0B14 (pay [(4, 32)])).mbx.phase = .running ∧
    exec .kernelQuery (command up 0x0B14 (pay [(4, 32)])) = .next t ∧ t.mbx.phase = .idle ∧ 0x10 ≤ leAt t.mbx.rsp 0 2 :=
  ⟨by decide +kernel, _, rfl, rfl, by decide +kernel⟩

end Sys2Proof.Tests
end

