-- ==== Sys2Proof/Tests/WitnessTime.lean ====
section
/-!
SUPPORT. States and operands that meet the conditions of the rows of resets, boot, the time base and entropy.
-/

namespace Sys2Proof.Tests

set_option Elab.async false

open Sys2Proof.Machine Sys2Proof.Claims

/-- On the backup cell. -/
def retained : State := put State.reset [(.DEV_MODE_MODE, 0, 0)]

/-- A rail below its reset threshold. -/
def lowRail : State := { up with boot := { up.boot with low := [9] } }

theorem witness_resets : Met resetRows :=
  ⟨⟨up, (), trivial⟩, ⟨up, 10000, by decide +kernel⟩, ⟨up, 0, trivial⟩, ⟨up, (1, 1, 0), by decide +kernel⟩,
   ⟨lowRail, (1, 1, 10000), by decide +kernel⟩, ⟨up, (8, 120, 120), by decide +kernel⟩, ⟨up, 1000000000, by decide +kernel⟩,
   ⟨up, (), by decide +kernel⟩, ⟨up, (), by decide +kernel⟩, ⟨up, (), trivial⟩, ⟨retained, (), by decide +kernel⟩, trivial⟩

/-- An owned device whose ROM has started, and one whose verdict has passed. -/
def inBoot (phase : Nat) : State :=
  { put State.reset [(.DEV_MODE_MODE, 0, 1), (.LCS_STATE_STATE, 0, lcOwned)] with
    boot := { Boot.blank with phase := phase, sel := 0, head := List.replicate 256 1 } }

/-- An installation, and a built-in test, in progress. -/
def inWork : State := { up with boot := { up.boot with install := some (1, 7), bist := some (4, 1, 7), head := List.replicate 256 1 } }

theorem witness_boot : Met bootRows :=
  ⟨⟨State.reset, 2, by decide +kernel⟩, ⟨inBoot 1, 0, by unfold Judges; decide +kernel⟩,
   ⟨{ inBoot 1 with otp := { (inBoot 1).otp with f2 := true } }, 0, by unfold Judges; decide +kernel⟩, ⟨inBoot 2, 0, by decide +kernel⟩,
   ⟨inWork, .die 1, by decide +kernel, by decide +kernel, show 1 < inWork.dies ∧ inWork.idlDown 1 = false by decide +kernel⟩, ⟨inWork, (0, (1, 7)), by decide +kernel⟩,
   ⟨inWork, ((some 3, 0), (4, 1, 7)), by decide +kernel⟩, ⟨up, (0, 1), by decide +kernel⟩, trivial⟩

/-- A time of the package. -/
def atTime (ticks ns : Nat) (l : List (Fld × Nat × Nat)) : State :=
  { put up l with time := { up.time with ticks := ticks, ns := ns } }

theorem witness_time : Met timeRows :=
  ⟨⟨up, 5, trivial⟩, ⟨up, 5, trivial⟩, ⟨up, 5, trivial⟩,
   ⟨{ up with time := { up.time with step := some (2, -1, 4000) } }, (2000, (2, -1, 4000)), by decide +kernel⟩,
   ⟨up, 0, by decide +kernel⟩, ⟨up, 9, trivial⟩,
   ⟨{ up.setReg .TIME_TARGET 0 1000 with time := { up.time with targetArmed := true } }, 2000, by decide +kernel⟩,
   ⟨atTime 0 999999999 [(.TIME_CTL_PPS_OUT_EN, 0, 1)], 1000000001, by decide +kernel⟩,
   ⟨{ put up [(.TIME_PPS_OUT_PPS_WIDTH_MS, 0, 1)] with time := { up.time with ppsOut := true, ppsOutAt := 0 } }, 1000000, by decide +kernel⟩,
   ⟨put up [(.TIME_CTL_PPS_IN_EN, 0, 1)], (false, 0), by decide +kernel⟩, ⟨up, (false, 0), by decide +kernel⟩,
   ⟨put up [(.TIME_CTL_PPS_IN_EN, 0, 1)], 1100000000, by decide +kernel⟩, ⟨up, 0, trivial⟩, ⟨guarded, (.mp, false), by decide +kernel⟩,
   trivial⟩

/-- The noise source of die 0 with three banks in its seeds. -/
def seeded (r : RngDie) (l : List (Fld × Nat × Nat)) : State :=
  { put running ([(.RNG_CTL_EN, 0, 1), (.RNG_STATUS_STATE, 0, 2), (.RNG_BANKS_ACTIVE, 0, 7)] ++ l) with rng := [(0, r)] }

/-- A noise source with two seeds and a DRBG. -/
def noise : RngDie := { RngDie.off with fifo := [List.replicate 48 1, List.replicate 48 2], drbg := some ⟨List.replicate 32 1, List.replicate 16 0⟩ }
def noiseDrbg : Drbg := ⟨List.replicate 32 1, List.replicate 16 0⟩

/-- Die 1 borrows from die 0, which has three seeds. -/
def borrower : State :=
  { put running [(.RNG_BORROW_BORROWING, 1, 1), (.RNG_BORROW_DONOR, 1, 0)] with
    rng := [(0, { noise with fifo := List.replicate 3 (List.replicate 48 1) }), (1, { noise with fifo := [] })] }

theorem witness_entropy : Met entropyRows :=
  ⟨⟨put running [(.RNG_CTL_EN, 0, 0)], 0, by decide +kernel⟩, ⟨put running [(.RNG_STATUS_STATE, 0, 1)], (0, 1, 2), by decide +kernel⟩,
   ⟨seeded noise [], (0, 1, 1), by decide +kernel⟩,
   ⟨seeded { noise with exTimes := [(1, [0])] } [(.RNG_BANKS_EXCLUDED, 0, 2), (.RNG_RETRY_RETRY_MS, 0, 1)], (0, 1, 0, 1000000),
     by decide +kernel⟩,
   ⟨seeded noise [], (0, [64, 64, 64], 3500), by decide +kernel⟩,
   ⟨borrower, (1, List.replicate 48 1, noiseDrbg), by dsimp only; decide +kernel⟩, trivial⟩

theorem witness_drbg : Met drbgRows :=
  ⟨⟨seeded { noise with mgenQ := [4] } [], (0, noiseDrbg, 4, []), by unfold DrbgReady; decide +kernel⟩,
   ⟨withJobs (seeded { noise with jobQ := [(7, 16)] } []) [shaJob], (0, noiseDrbg, (7, 16), shaJob), by unfold DrbgReady; decide +kernel⟩,
   ⟨seeded { noise with mpQ := 12 } [], (0, noiseDrbg), by unfold DrbgReady; decide +kernel⟩,
   ⟨seeded noise [], (0, noiseDrbg), by decide +kernel⟩,
   ⟨seeded { noise with since := [(0, 1)] } [(.RNG_WAIT_LIMIT_US, 1, 1)], (0, 1, 0, 1000), by decide +kernel⟩,
   ⟨withJobs (seeded { noise with since := [(9, 1)] } [(.RNG_WAIT_LIMIT_US, 0, 1)]) [shaJob], ((0, 7, 1000), shaJob),
     by unfold CqFits; decide +kernel⟩,
   ⟨seeded { noise with since := [(1, 1)] } [(.RNG_WAIT_LIMIT_US, 2, 1)], (0, 0, 1000), by decide +kernel⟩, trivial⟩

theorem witness_mgen : Met mgenRows :=
  ⟨⟨put running [(.VC_MGEN_STAT_SEEDED, 3, 1)], (3, 48000), by decide +kernel⟩,
   ⟨put running [(.VC_MGEN_BLOCKS_BLOCKS, 3, 64512)], 3, by decide +kernel⟩, ⟨{ running with mgen := [(3, 2)] }, 3, by decide +kernel⟩,
   ⟨put running [(.VC_MGEN_BLOCKS_BLOCKS, 3, 65536)], 3, by decide +kernel⟩, trivial⟩

end Sys2Proof.Tests
end

