-- ==== Sys2Proof/Tests/WitnessUnits.lean ====
section
/-!
SUPPORT. States and operands that meet the conditions of the rows of the control stores, the engines and the digest channels.
-/

namespace Sys2Proof.Tests

set_option Elab.async false

open Sys2Proof.Machine Sys2Proof.Claims

/-- Core 5 is scrubbed, and reads word 9 next. -/
def scrubbing : State := put running [(.VC_CS_SCRUB_EN, 5, 1), (.VC_CS_SCRUB_NEXT, 5, 9)]

/-- The scrubber reads a word whose first parity bit, or whose second, does not hold. -/
theorem scrub_detects : ∃ m, badGroups ((scrubbing.upset 5 1 m 9).ctlWord 5 9) ≠ 0 ∧ (scrubbing.upset 5 1 m 9).ctlBits 5 9 ≠ 0 := by
  have w : ∀ m, (scrubbing.upset 5 1 m 9).ctlWord 5 9 =
      withParity (microData scrubbing.boot.micro 9) ^^^ (scrubbing.upset 5 1 m 9).ctlBits 5 9 := fun _ => rfl
  have a : (scrubbing.upset 5 1 (2 ^ 144) 9).ctlBits 5 9 = 2 ^ 144 := by decide +kernel
  have b : (scrubbing.upset 5 1 (2 ^ 145) 9).ctlBits 5 9 = 2 ^ 145 := by decide +kernel
  rcases flipped_bad (withParity (microData scrubbing.boot.micro 9)) with h | h
  · exact ⟨2 ^ 144, by rw [w, a]; exact h, by rw [a]; decide⟩
  · exact ⟨2 ^ 145, by rw [w, b]; exact h, by rw [b]; decide⟩

theorem witness_scrub (h : storeRows[1]? = some x) : ∃ s a, x.ok s a := by
  cases h
  obtain ⟨m, bad, changed⟩ := scrub_detects
  have n : scrubbing.fget .VC_CS_SCRUB_NEXT 5 = 9 := by decide +kernel
  have r : 5 < 16 * scrubbing.dies ∧ scrubbing.fget .VC_STATE_STATE 5 < 2 ∧ scrubbing.flag .VC_CS_SCRUB_EN 5 = true := by decide +kernel
  exact ⟨scrubbing, (5, 1, m, 9), r.1, r.2.1, r.2.2, by rw [n]; exact bad, by rw [n]; exact changed⟩

/-- Core 5 on a word whose bits in the kernel store have changed. -/
def onBits (c : VCore) (w bits : Nat) : State :=
  { onWord c kernelJob w with seqs := [(5, { MicroSeq.idle with krn := [(c.pc, bits)] })] }

theorem witness_fetch (h : storeRows[3]? = some x) : ∃ s a, x.ok s a := by
  cases h
  exact ⟨onBits coreFive 0 3, ((5, ⟨0, 0, 0, 0, 0, 0, 0, 0, 0, 0, 0, 0⟩), 3, 0, 3), by decide +kernel,
    Or.inr (Or.inr ⟨rfl, rfl, by decide +kernel, by decide +kernel, by decide +kernel, rfl, by decide +kernel⟩)⟩

/-- The bits that have changed in the stores change nothing of what makes a core execute. -/
theorem executing_bits (s : State) (v : Nat) (j : Job) (q : Sparse MicroSeq) (h : Executing s v j) : Executing { s with seqs := q } v j := h

/-- Nor of the word that it asks for. -/
theorem word_bits (s : State) (v : Nat) (q : Sparse MicroSeq) : { s with seqs := q }.kernelWord v = s.kernelWord v := rfl

theorem witness_corrected (h : storeRows[4]? = some x) : ∃ s a, x.ok s a := by
  cases h
  let f : VFields := ⟨0, 0, 0, 0, 0, 0, 0, 0, 0, 0, 0, 0⟩
  exact ⟨onBits coreFive (wordFor (.nop 5 f)) 1, (5, f, kernelJob), executing_bits _ _ _ _ (witness_executing_word _), by unfold FieldsOk; decide +kernel,
    by rw [onBits, word_bits]; exact (word_fetched coreFive kernelJob (.nop 5 f) rfl (by decide +kernel)).1, rfl, by decide +kernel⟩

theorem witness_stores : Met storeRows :=
  ⟨⟨scrubbing, (5, 0, 0), by decide +kernel⟩, witness_scrub rfl, ⟨put running [(.VC_CS_SCRUB_EN, 5, 0)], (5, 1, 1, 9), by decide +kernel⟩, witness_fetch rfl,
   witness_corrected rfl, ⟨{ running with reloads := [5] }, (5, true, 0, 0, 120000000), by decide +kernel⟩,
   ⟨put running [(.VC_STATE_STATE, 5, 4)], (5, 0), by decide +kernel⟩,
   ⟨{ running with goldBad := [1] }, (1, 0), by decide +kernel⟩, trivial⟩

/-- Engine 0 in DIAG, its deckle open to the MP. -/
def inDiag (cmd : Option (Nat × Nat × Nat)) : State :=
  { put running [(.LIE_STATE_STATE, 0, 3), (.LIE_CFG_SLOT_WORDS, 0, 36), (.DKL_CTL_EN, 3, 1), (.DKL_CTL_BOOT_RULE, 3, 1)] with
    lies := [(0, { LieX.idle with cmd := cmd })] }

/-- Engine 0 whose tables are being rewritten. -/
def noTables : State := { running with lies := [(0, { LieX.idle with tables := false, why := 1 })] }

/-- DIAG_LIE waits for engine 0. -/
def waitingDiag (st : Nat) : State :=
  { put running [(.LIE_STATE_STATE, 0, st)] with
    lies := [(0, { LieX.idle with diagWait := true })]
    mbx := { running.mbx with phase := .waiting } }

theorem witness_engines : Met engineRows :=
  ⟨⟨put running [(.LIE_STATE_STATE, 0, 2)], (0, 0), by decide +kernel⟩, ⟨waitingDiag 0, (0, 0), by decide +kernel⟩,
   ⟨waitingDiag 4, (0, 0), by decide +kernel⟩, ⟨running, (0, 0, 0), by decide +kernel⟩,
   ⟨running, (0, 0, 0), by decide +kernel⟩, ⟨noTables, (0, true, 0), by decide +kernel⟩,
   ⟨inDiag none, (.mp, 0, 64), by unfold EngineAllows; decide +kernel⟩, trivial⟩

theorem witness_direct_starts : EngineAllows (inDiag none) .mp 0 0xC := by unfold EngineAllows; decide +kernel

/-- RSA-2048 with the public exponent, from slot 0. -/
def verifying : State := inDiag (some (2, 0, 0))

theorem witness_direct_ends : (verifying.lieAt 0).cmd = some (2, 0, 0) ∧ 256 + 0 ∉ verifying.tap.halted ∧
    (let w := directTimes 2 0
     scaled ((w.1 + w.2.1 + w.2.2) * 100000) (verifying.lieMhz 0) / 1000 ≤ (verifying.elapse 1000000000).since (verifying.lieAt 0).started) := by
  dsimp only; decide +kernel

/-- A channel in use by direct access, and one that is bound. -/
def channel (st : Nat) (x : DgeChan) : State := { put running [(.DGE_STAT_STATE, 0, st)] with dge := [(0, x)] }

/-- SHA-256 over "abc". -/
def absorbed : DgeChan := { DgeChan.start 1 with buf := [0x61, 0x62, 0x63] }

/-- The digest of `absorbed` when three bytes are counted. -/
def absorbedDigest : Bytes := sha2Finish .sha256 (dgeInit 1) 0 [0x61, 0x62, 0x63]

def counted (st : Nat) (x : DgeChan) : State := (channel st x).setReg .DGE_COUNT 0 3

theorem digest_counted (s : State) (hx : (s.dgeAt 0).fn = 1) (hh : (s.dgeAt 0).h = dgeInit 1) (hb : (s.dgeAt 0).buf = [0x61, 0x62, 0x63])
    (hn : (s.reg .DGE_COUNT 0).toNat = 3) : channelDigest s 0 absorbedDigest := by
  have hf : dgeSha2 1 = some .sha256 := by decide +kernel
  unfold channelDigest
  simp only [hx, hh, hb, hn, hf]
  refine ⟨fun f h => ?_, fun h => nomatch h⟩
  cases h
  rfl

/-- The channel is bound, to a transfer of its own or to a job. -/
def boundTo (job : Option Nat) : State :=
  let s := counted 2 { absorbed with bind := some ⟨1, 0, job, 0⟩ }
  { s with sched := { s.sched with jobs := [shaJob] } }

theorem witness_digests : Met digestRows :=
  ⟨⟨running, (0, 1), by decide +kernel⟩, ⟨running, (0, 0), by decide +kernel⟩, ⟨channel 3 absorbed, (0, 0), by decide +kernel⟩,
   ⟨counted 1 absorbed, (0, absorbedDigest), by decide +kernel, by decide +kernel, by decide +kernel, by decide +kernel,
     digest_counted _ rfl rfl rfl (by decide +kernel)⟩,
   ⟨running, 0, by decide +kernel⟩,
   ⟨boundTo none, (0, ⟨1, 0, none, 0⟩, absorbedDigest), by decide +kernel, by decide +kernel, rfl, rfl, by decide +kernel,
     digest_counted _ rfl rfl rfl (by decide +kernel)⟩,
   ⟨boundTo (some 7), ((0, ⟨1, 0, some 7, 0⟩, 7), shaJob, absorbedDigest), by decide +kernel, by decide +kernel, rfl, by decide +kernel,
     by decide +kernel, digest_counted _ (by decide +kernel) (by decide +kernel) (by decide +kernel) (by decide +kernel)⟩,
   ⟨running, (0, 4), by decide +kernel⟩,
   ⟨channel 1 { absorbed with cmpAt := some 0 }, ((0, 0, 0, 10), 0), by decide +kernel⟩, trivial⟩

end Sys2Proof.Tests
end

