-- ==== Sys2Proof/Tests/WitnessVec.lean ====
section
/-!
SUPPORT. Cores and words that meet the conditions of each clause on control flow, memory, shares, the units, the masked
operations, tags and the limits of an owner kernel.
-/

namespace Sys2Proof.Tests

set_option Elab.async false

open Sys2Proof.Machine Sys2Proof.Claims

/-- Some core that executes and fetches a word of this instruction meets a condition. -/
def At (cmd : Nat → VFields → Instr) (P : State → Nat → VCore → VFields → Prop) : Prop :=
  ∃ s v j f, Executing s v j ∧ Fetched s v (cmd v f) ∧ P s v (s.core v) f

/-- A core that goes on from `coreFive` executes. -/
theorem core_executes (c : VCore) (w : Nat)
    (h : c.job = some 7 ∧ c.kernel = 2 ∧ c.pc < c.codeLen ∧ c.sinceYield < 3000 ∧ c.cycles < 4000000 ∧ c.wait = none) :
    Executing (onWord c kernelJob w) 5 kernelJob := by
  obtain ⟨hj, hk, hl, hy, hc, hn⟩ := h
  have e : (onCore c kernelJob).core 5 = c := rfl
  have d : (onCore coreFive kernelJob).declaredOf kernelJob = 1000000 := by decide +kernel
  have d' : (onCore c kernelJob).declaredOf kernelJob = (onCore coreFive kernelJob).declaredOf kernelJob := rfl
  have x : Executing (onCore c kernelJob) 5 kernelJob := by
    unfold Executing
    simp only [e, hj, hk]
    obtain ⟨h1, h2, h3, h4, -⟩ := witness_executing
    refine ⟨h1, h2, h3, h4, by decide, hl, fun _ => hy, ?_, hn⟩
    omega
  refine executing_with _ _ _ _ x (by rw [e]; exact hy) ?_
  have d := word_declared c w
  unfold onWord at d
  rw [d, e]; omega

/-- It fetches the word that stands there. -/
theorem at_core {cmd : Nat → VFields → Instr} (c : VCore) (f : VFields) (P : State → Nat → VCore → VFields → Prop)
    (h : c.job = some 7 ∧ c.kernel = 2 ∧ c.pc < c.codeLen ∧ c.sinceYield < 3000 ∧ c.cycles < 4000000 ∧ c.wait = none)
    (hp : P (onWord c kernelJob (wordFor (cmd 5 f))) 5 c f)
    (hw : kdecode (wordFor (cmd 5 f)) = kernelCode (cmd 5 f) := by decide +kernel) : At cmd P :=
  ⟨onWord c kernelJob (wordFor (cmd 5 f)), 5, kernelJob, f, core_executes c _ h, word_fetched c kernelJob _ h.2.1 hw, hp⟩

/-- The word with fields at zero. -/
def zeroWord : VFields := ⟨0, 0, 0, 0, 0, 0, 0, 0, 0, 0, 0, 0⟩

/-- `coreFive` with values in the scalar registers. -/
def scalars (l : List (Nat × RegWord)) : VCore := { coreFive with sc := l }

/-! ## Moduli and control flow -/

theorem witness_qset_least : At .qset fun _ _ c f => FieldsOk f [.qs, .ss] [0] ∧ (c.stag f.ss).t = false ∧ (c.sreg f.ss).toNat = 3 :=
  at_core (scalars [(6, 3)]) { zeroWord with qs := 1, ss := 6 } _ (by decide) (by unfold FieldsOk; decide +kernel)

theorem witness_qset_greatest : At .qset fun _ _ c f => FieldsOk f [.qs, .ss] [0] ∧ (c.stag f.ss).t = false ∧
    (c.sreg f.ss).toNat = 2 ^ 31 - 1 :=
  at_core (scalars [(6, 0x7FFFFFFF)]) { zeroWord with qs := 1, ss := 6 } _ (by decide) (by unfold FieldsOk; decide +kernel)

theorem witness_montgomery : ∀ x ∈ [(16, 3), (16, 32767), (32, 3), (32, 2147483647)],
    (x.1 = 16 ∨ x.1 = 32) ∧ x.2 % 2 = 1 ∧ 3 ≤ x.2 ∧ x.2 < 2 ^ (x.1 - 1) := by decide

theorem witness_branch : At .branch fun _ _ c f => FieldsOk f [.imm] [0] ∧ f.imm < c.codeLen ∧ c.codeLen = f.imm + 1 :=
  at_core coreFive { zeroWord with imm := 299 } _ (by decide) (by unfold FieldsOk; decide +kernel)

theorem witness_conditional : ∀ x ∈ [0, 1, 0xFFFFFFFFFFFFFFFF], ∀ cmd ∈ [Instr.beqz, .bnez, .bltz, .bgez, .loopOp], At cmd fun _ _ c f =>
    FieldsOk f [.ss, .imm] [0] ∧ (c.stag f.ss).t = false ∧ f.imm < c.codeLen ∧ c.sreg f.ss = x := by
  intro x _ cmd h
  have hw : ∀ cmd ∈ [Instr.beqz, .bnez, .bltz, .bgez, .loopOp], kdecode (wordFor (cmd 5 { zeroWord with imm := 299, ss := 6 })) =
      kernelCode (cmd 5 { zeroWord with imm := 299, ss := 6 }) := by decide +kernel
  exact at_core (scalars [(6, x)]) { zeroWord with imm := 299, ss := 6 } _
    ⟨rfl, rfl, (by decide : 3 < 300), (by decide : 0 < 3000), (by decide : 0 < 4000000), rfl⟩
    ⟨by unfold FieldsOk; decide, rfl, (by decide : 299 < 300), rfl⟩ (hw cmd h)

theorem witness_call : At .callOp fun _ _ c f => FieldsOk f [.imm] [0] ∧ f.imm < c.codeLen ∧ c.stack.length = 15 :=
  at_core { coreFive with stack := List.replicate 15 9 } { zeroWord with imm := 299 } _ (by decide)
    (by unfold FieldsOk; decide +kernel)

theorem witness_return : At .retOp fun _ _ c f => FieldsOk f [] [0] ∧ ∃ a r, c.stack = a :: r ∧ a < c.codeLen :=
  at_core { coreFive with stack := [299] } zeroWord _ (by decide) ⟨by unfold FieldsOk; decide, 299, [], rfl, by decide⟩

theorem witness_branch_beyond : At .branch fun _ _ c f => FieldsOk f [.imm] [0] ∧ f.imm = c.codeLen :=
  at_core coreFive { zeroWord with imm := 300 } _ (by decide) (by unfold FieldsOk; decide +kernel)

theorem witness_branch_tagged : ∀ cmd ∈ [Instr.beqz, .bnez, .bltz, .bgez, .loopOp], At cmd fun _ _ c f =>
    FieldsOk f [.ss, .imm] [0] ∧ (c.stag f.ss).t = true := fun cmd h =>
  at_core { coreFive with st := [(6, ⟨true, 0, 0⟩)] } { zeroWord with ss := 6 } _ (by decide) (by unfold FieldsOk; decide +kernel)
    ((by decide +kernel : ∀ cmd ∈ [Instr.beqz, .bnez, .bltz, .bgez, .loopOp], kdecode (wordFor (cmd 5 { zeroWord with ss := 6 })) =
      kernelCode (cmd 5 { zeroWord with ss := 6 })) cmd h)

theorem witness_plain_flow : ∀ cmd ∈ [Instr.nop, .fence], At cmd fun _ _ _ f => FieldsOk f [] [0] := fun cmd h =>
  at_core coreFive zeroWord _ (by decide) (by unfold FieldsOk; decide)
    ((by decide +kernel : ∀ cmd ∈ [Instr.nop, .fence], kdecode (wordFor (cmd 5 zeroWord)) = kernelCode (cmd 5 zeroWord)) cmd h)

/-! ## Loads and stores -/

theorem plain_of (f : VFields) (c : VCore) (addr : Nat → Nat) (g : VSeg)
    (h : ∀ e, e < eCount f.w → addr e % eBytes f.w = 0 ∧ c.place (addr e) (eBytes f.w) = .seg g ∧ c.hasRec (addr e) = false) :
    PlainAccess f c addr := fun e he _ => ⟨(h e he).1, ⟨g, (h e he).2.1⟩, (h e he).2.2⟩

theorem allowed_of (f : VFields) (c : VCore) (idx : Bool) (addr : Nat → Nat) (g : VSeg) (hs : (c.vtag f.va).si = 0)
    (h : ∀ e, e < eCount f.w → addr e % eBytes f.w = 0 ∧ c.place (addr e) (eBytes f.w) = .seg g) (hw : g.wr = true)
    (hg : g.secret = true) : StoreAllowed f c idx addr :=
  ⟨hs, fun e he _ => ⟨(h e he).1, g, (h e he).2, hw, fun _ => hg⟩⟩

/-- The SECRET segment of `coreFive`. -/
def secretSeg : VSeg := ⟨0, 4096, true, true⟩

/-- A base, a stride and an index register. -/
def pointed (tag : Bool) : VCore :=
  { coreFive with
    sc := [(4, 16), (6, 16)]
    v := [(3, 7), (4, packV 3 (fun e => 63 - e))]
    vt := if tag then [(3, ⟨true, 0, 0⟩), (4, ⟨true, 0, 0⟩)] else [] }

def loadWord : VFields := { zeroWord with w := 3, vd := 2, vb := 4, ss := 6, imm := 3 }
def storeWord : VFields := { zeroWord with w := 3, va := 3, vb := 4, ss := 6, imm := 3 }

theorem witness_vld : At .vld fun _ _ c f => (c.stag f.ss).t = false ∧ FieldsOk f [.w, .pred, .vd, .ss, .imm] allW ∧
    PlainAccess f c (unitAddr f c) :=
  at_core (pointed false) { loadWord with vb := 0, imm := 8 } _ (by decide)
    ⟨by decide, by unfold FieldsOk; decide, plain_of _ _ _ secretSeg (by decide +kernel)⟩

theorem witness_vlds : At .vlds fun _ _ c f => (c.stag f.ss).t = false ∧ FieldsOk f [.w, .pred, .vd, .vb, .ss, .imm] allW ∧
    (c.stag f.vb).t = false ∧ PlainAccess f c (strideAddr f c) :=
  at_core (pointed false) { loadWord with imm := 8 } _ (by decide)
    ⟨by decide, by unfold FieldsOk; decide, by decide, plain_of _ _ _ secretSeg (by decide +kernel)⟩

theorem witness_vgather : At .vgather fun _ _ c f => (c.stag f.ss).t = false ∧ FieldsOk f [.w, .pred, .vd, .vb, .ss, .imm] allW ∧
    f.imm = 3 ∧ (c.vtag f.vb).t = false ∧ PlainAccess f c (indexAddr f c) :=
  at_core (pointed false) loadWord _ (by decide)
    ⟨by decide, by unfold FieldsOk; decide, rfl, by decide, plain_of _ _ _ secretSeg (by decide +kernel)⟩

theorem witness_vgather_tagged : At .vgather fun _ _ c f => (c.stag f.ss).t = false ∧ FieldsOk f [.w, .pred, .vd, .vb, .ss, .imm] allW ∧
    f.imm = 3 ∧ (c.vtag f.vb).t = true ∧ (c.sreg f.ss).toNat < 0x40000 ∧ PlainAccess f c (indexAddr f c) :=
  at_core (pointed true) loadWord _ (by decide)
    ⟨by decide, by unfold FieldsOk; decide, rfl, by decide, by decide, plain_of _ _ _ secretSeg (by decide +kernel)⟩

/-- Two elements before the end of the SECRET segment. -/
def atEnd : VCore := scalars [(6, 4080)]

theorem witness_vldff_stops : At .vldff fun _ _ c f => (c.stag f.ss).t = false ∧
    FieldsOk f [.w, .pred, .vd, .vb, .vc, .ss, .imm] allW ∧ f.vc < 8 ∧
    (∀ e, e < 2 → c.active f f.w e = true → unitAddr f c e % eBytes f.w = 0 ∧
      (∃ g, c.place (unitAddr f c e) (eBytes f.w) = .seg g) ∧ c.hasRec (unitAddr f c e) = false) ∧
    2 < eCount f.w ∧ c.active f f.w 2 = true ∧ (∃ x, c.place (unitAddr f c 2) (eBytes f.w) = .bad x) ∧
    ∃ e, e < 2 ∧ c.active f f.w e = true :=
  at_core atEnd { loadWord with vc := 7, imm := 0 } _ (by decide)
    ⟨by decide, by unfold FieldsOk; decide, by decide,
     fun e he _ => (by decide +kernel : ∀ e, e < 2 → unitAddr { loadWord with vc := 7, imm := 0 } atEnd e % eBytes 3 = 0 ∧
       (∃ g ∈ atEnd.segs, atEnd.place (unitAddr { loadWord with vc := 7, imm := 0 } atEnd e) (eBytes 3) = .seg g) ∧
       atEnd.hasRec (unitAddr { loadWord with vc := 7, imm := 0 } atEnd e) = false) e he |>.imp_right
         (And.imp_left fun ⟨g, _, h⟩ => ⟨g, h⟩),
     by decide, by decide, ⟨cAddress, by decide +kernel⟩, 1, by decide, by decide⟩

theorem witness_vldff_whole : At .vldff fun _ _ c f => (c.stag f.ss).t = false ∧
    FieldsOk f [.w, .pred, .vd, .vb, .vc, .ss, .imm] allW ∧ f.vc < 8 ∧ PlainAccess f c (unitAddr f c) :=
  at_core (pointed false) { loadWord with vc := 7, imm := 0 } _ (by decide)
    ⟨by decide, by unfold FieldsOk; decide, by decide, plain_of _ _ _ secretSeg (by decide +kernel)⟩

theorem witness_sld : At .sld fun _ _ c f => (c.stag f.ss).t = false ∧ FieldsOk f [.vd, .ss, .imm] [0] ∧
    ∃ g, c.base f % 8 = 0 ∧ c.place (c.base f) 8 = .seg g ∧ c.hasRec (c.base f) = false :=
  at_core (scalars [(6, 4088)]) { zeroWord with vd := 2, ss := 6 } _ (by decide)
    ⟨by decide, by unfold FieldsOk; decide, secretSeg, by decide +kernel⟩

theorem witness_vst : At .vst fun _ _ c f => (c.stag f.ss).t = false ∧ FieldsOk f [.w, .pred, .va, .ss, .imm] allW ∧
    StoreAllowed f c false (unitAddr f c) :=
  at_core (pointed false) { storeWord with vb := 0, imm := 8 } _ (by decide)
    ⟨by decide, by unfold FieldsOk; decide, allowed_of _ _ _ _ secretSeg (by decide) (by decide +kernel) rfl rfl⟩

theorem witness_vsts : At .vsts fun _ _ c f => (c.stag f.ss).t = false ∧ FieldsOk f [.w, .pred, .va, .vb, .ss, .imm] allW ∧
    (c.stag f.vb).t = false ∧ StoreAllowed f c false (strideAddr f c) :=
  at_core (pointed false) { storeWord with imm := 8 } _ (by decide)
    ⟨by decide, by unfold FieldsOk; decide, by decide, allowed_of _ _ _ _ secretSeg (by decide) (by decide +kernel) rfl rfl⟩

theorem witness_vscatter : At .vscatter fun _ _ c f => (c.stag f.ss).t = false ∧ FieldsOk f [.w, .pred, .va, .vb, .ss, .imm] allW ∧
    f.imm < 4 ∧ (c.vtag f.vb).t = false ∧ StoreAllowed f c false (indexAddr f c) :=
  at_core (pointed false) storeWord _ (by decide)
    ⟨by decide, by unfold FieldsOk; decide, by decide, by decide,
     allowed_of _ _ _ _ secretSeg (by decide) (by decide +kernel) rfl rfl⟩

theorem witness_vscatter_tagged : At .vscatter fun _ _ c f => (c.stag f.ss).t = false ∧ FieldsOk f [.w, .pred, .va, .vb, .ss, .imm] allW ∧
    f.imm < 4 ∧ (c.vtag f.vb).t = true ∧ (c.sreg f.ss).toNat < 0x40000 ∧ c.inSecret (c.sreg f.ss).toNat = true ∧
    StoreAllowed f c true (indexAddr f c) :=
  at_core (pointed true) storeWord _ (by decide)
    ⟨by decide, by unfold FieldsOk; decide, by decide, by decide, by decide, by decide,
     allowed_of _ _ _ _ secretSeg (by decide) (by decide +kernel) rfl rfl⟩

theorem witness_sst : At .sst fun _ _ c f => (c.stag f.ss).t = false ∧ FieldsOk f [.va, .ss, .imm] [0] ∧
    ∃ g, c.base f % 8 = 0 ∧ c.place (c.base f) 8 = .seg g ∧ g.wr = true ∧ (c.stag f.va).si = 0 ∧
      ((c.stag f.va).t = true → g.secret = true) :=
  at_core { scalars [(6, 4088)] with st := [(3, ⟨true, 0, 0⟩)] } { zeroWord with va := 3, ss := 6 } _ (by decide)
    ⟨by decide, by unfold FieldsOk; decide, secretSeg, by decide +kernel⟩

/-! ## Shares in memory -/

/-- A well-formed set of three shares at vector register 3 and one of two at 8, and a group in memory. -/
def sharing : VCore :=
  { coreFive with
    v := [(3, 5), (4, 6), (5, 7), (8, 9)]
    vt := [(3, ⟨true, 1, 9⟩), (4, ⟨true, 2, 9⟩), (5, ⟨true, 3, 9⟩), (8, ⟨true, 1, 4⟩), (9, ⟨true, 2, 4⟩)]
    recs := [(0, (6, 1)), (1, (6, 2)), (2, (6, 3))] }

theorem witness_vstsh : At .vstsh fun _ _ c f => FieldsOk f [.w, .va, .ord, .ss, .imm] allW ∧ (c.stag f.ss).t = false ∧
    f.va + f.shares ≤ 32 ∧ c.base f % 512 = 0 ∧
    (∀ k, k < f.shares → ∃ g, c.place (c.base f + 512 * k) 512 = .seg g ∧ g.wr = true ∧ g.secret = true) ∧
    setOk (c.vtags f.va f.shares) = true ∧ c.nextGroup = 65535 :=
  at_core { sharing with nextGroup := 65535 } { zeroWord with va := 3, fn := 1, imm := 512 } _ (by decide)
    ⟨by unfold FieldsOk; decide, by decide, by decide, by decide +kernel,
     fun k hk => ⟨secretSeg, (by decide +kernel : ∀ k, k < 3 → VCore.place { sharing with nextGroup := 65535 }
       (VCore.base { sharing with nextGroup := 65535 } { zeroWord with va := 3, fn := 1, imm := 512 } + 512 * k) 512 =
         .seg secretSeg) k hk, rfl, rfl⟩, by decide +kernel⟩

theorem witness_vldsh : At .vldsh fun _ _ c f => FieldsOk f [.w, .vd, .ord, .ss, .imm] allW ∧ (c.stag f.ss).t = false ∧
    f.vd + f.shares = 32 ∧ c.base f % 512 = 0 ∧ (∀ k, k < f.shares → ∃ g, c.place (c.base f + 512 * k) 512 = .seg g) ∧
    c.groupAt (c.base f) f.shares = true :=
  at_core sharing { zeroWord with vd := 29, fn := 1 } _ (by decide)
    ⟨by unfold FieldsOk; decide, by decide, by decide, by decide +kernel,
     fun k hk => ⟨secretSeg, (by decide +kernel : ∀ k, k < 3 → sharing.place
       (sharing.base { zeroWord with vd := 29, fn := 1 } + 512 * k) 512 = .seg secretSeg) k hk⟩, by decide +kernel⟩

/-- KEYLOAD of a job that refers to one key, with the F2 bit and the key's release as given. -/
def KeyAt (ty imm : Nat) (secret f2 released : Bool) : Prop :=
  ∃ s v j, ∃ f : VFields, Executing s v j ∧ Fetched s v (.keyload v f) ∧ FieldsOk f [.vd, .imm] [0] ∧ f.imm = imm ∧ f.imm / 2 % 8 = 0 ∧
    f.imm / 64 % 4 = 0 ∧ s.keysLocked = false ∧ j.due.contains (f.imm / 16 % 4) = false ∧ s.otp.f2 = f2 ∧ (s.core v).released = released ∧
    ∃ b kt, j.krefs.getD (f.imm / 16 % 4) (0, []) = (ty, b) ∧ keyTypeOf ty = some kt ∧ kt.secret = secret ∧
      f.vd + (f.imm % 2 + 2) ≤ 32 ∧ ¬ ((s.core v).order = 2 ∧ f.imm % 2 + 2 = 2)

/-- The word of KEYLOAD into V29 to V31. -/
def keyWord : VFields := { zeroWord with vd := 29, imm := 1 }

theorem witness_keyload_secret : KeyAt 4 1 true false false :=
  ⟨onWord coreFive kernelJob (wordFor (.keyload 5 keyWord)), 5, kernelJob, keyWord, witness_executing_word _,
   word_fetched _ _ _ rfl (by decide +kernel), by unfold FieldsOk; decide, by decide +kernel, by decide, by decide, by decide +kernel,
   by decide +kernel, by decide +kernel, by decide +kernel, _, .aes 24, rfl, by decide +kernel⟩

/-- The package with its F2 bit programmed. -/
def withF2 (s : State) : State := { s with otp := { s.otp with f2 := true } }

theorem executing_f2 (s : State) (v : Nat) (j : Job) (h : Executing s v j) : Executing (withF2 s) v j := h

theorem fetched_f2 (s : State) (v : Nat) (i : Instr) (h : Fetched s v i) : Fetched (withF2 s) v i := h

theorem witness_keyload_doubled : ∀ r, KeyAt 4 1 true true r := fun r =>
  ⟨withF2 (onWord { coreFive with released := r } kernelJob (wordFor (.keyload 5 keyWord))), 5, kernelJob, keyWord,
   executing_f2 _ _ _ (core_executes _ _ ⟨rfl, rfl, (by decide : 3 < 300), (by decide : 0 < 3000), (by decide : 0 < 4000000), rfl⟩),
   fetched_f2 _ _ _ (word_fetched _ _ _ rfl (by decide +kernel)), by unfold FieldsOk; decide, rfl, by decide, by decide,
   by cases r <;> decide +kernel, by decide +kernel, rfl, rfl, _, .aes 24, rfl, by decide, by decide, by decide,
   fun h => absurd h.2 (by decide)⟩

/-- The job with a public key in its first place. -/
def publicJob : Job := { kernelJob with krefs := [(0x11, List.replicate 1184 1)] }

theorem witness_keyload_public : KeyAt 0x11 256 false false false :=
  ⟨onWord coreFive publicJob (wordFor (.keyload 5 { zeroWord with vd := 2, imm := 256 })), 5, publicJob,
   { zeroWord with vd := 2, imm := 256 }, by unfold Executing; decide +kernel, word_fetched _ _ _ rfl (by decide +kernel),
   by unfold FieldsOk; decide, by decide +kernel, by decide, by decide, by decide +kernel, by decide +kernel, by decide +kernel,
   by decide +kernel, _, .pq 3 0 true, rfl, by decide +kernel⟩

/-! ## The units -/

/-- Units that hold the first three bytes of a message, and an AES key. -/
def hashing : VCore :=
  { sharing with
    sc := [(6, 512)]
    s2 := [(1, { s2Start 1 with buf := [0x61, 0x62, 0x63], count := 3 })]
    kk := [(1, { HashUnit.empty with
      live := true, fn := 2, count := 3, h := (kAbsorbAt (kRate 2) 0 keccakZero [0x61, 0x62, 0x63]).1 })]
    aes := ⟨true, List.replicate 24 3, true, 0⟩ }

theorem witness_s2init : At .s2init fun _ _ _ f => FieldsOk f [.imm] [0] ∧ f.imm / 4 % 8 = 4 :=
  at_core hashing { zeroWord with imm := 17 } _ (by decide) (by unfold FieldsOk; decide)

/-- What S2ABS and S2LDS ask of a word and a core. -/
def s2Input (s : State) (v : Nat) (c : VCore) (f : VFields) : Prop :=
  let u := c.s2u (f.imm % 4)
  FieldsOk f (unitFields f [.va, .ss, .imm]) [0] ∧ u.live = true ∧ (c.stag f.ss).t = false ∧
    (∃ x tg, unitValue f c = .ok (x, tg)) ∧ (unitDraw f = 0 ∨ MasksFor s v (unitDraw f)) ∧
    (∃ m, Sha2Holds u u.fn m) ∧ (c.sreg f.ss).toNat = 512

theorem holds_abc : Sha2Holds (hashing.s2u 1) (hashing.s2u 1).fn [0x61, 0x62, 0x63] := by
  unfold Sha2Holds; dsimp only; decide +kernel

/-- A well-formed set as a unit's input. -/
theorem set_value (f : VFields) (c : VCore) (h : f.msk = true ∧ c.order = 0 ∧ c.setFault f.va f.shares = none) :
    unitValue f c = .ok (c.xorSet f.va f.shares, true) := by
  obtain ⟨h1, h2, h3⟩ := h
  simp [unitValue, h1, h2, h3]

theorem witness_s2abs : ∀ cmd ∈ [Instr.s2abs, .s2lds], At cmd s2Input := fun cmd h =>
  at_core hashing { zeroWord with va := 3, ss := 6, imm := 1 } _ (by decide)
    ⟨by unfold FieldsOk; decide, by decide, by decide, ⟨_, _, rfl⟩, Or.inl (by decide), ⟨_, holds_abc⟩, by decide⟩
    ((by decide +kernel : ∀ cmd ∈ [Instr.s2abs, .s2lds], kdecode (wordFor (cmd 5 { zeroWord with va := 3, ss := 6, imm := 1 })) =
      kernelCode (cmd 5 { zeroWord with va := 3, ss := 6, imm := 1 })) cmd h)

theorem witness_s2abs_shares : At .s2abs s2Input :=
  at_core hashing { zeroWord with va := 3, ss := 6, imm := 1, fn := 3 } _ (by decide)
    ⟨by unfold FieldsOk; decide, by decide, by decide, ⟨hashing.xorSet 3 3, true, set_value _ _ (by decide +kernel)⟩,
     Or.inr (by unfold MasksFor; decide +kernel), ⟨_, holds_abc⟩, by decide⟩

theorem witness_s2fin : ∀ k, k < 2 → ∀ cmd ∈ [Instr.s2fin, .s2sts], At cmd fun _ _ c f => FieldsOk f [.vd, .imm, .msk] [0] ∧ (f.msk = true → f.vd + 2 ≤ 32) ∧
    f.fn = 2 * k ∧ (c.s2u (f.imm % 4)).live = true ∧ ∃ m, Sha2Holds (c.s2u (f.imm % 4)) (c.s2u (f.imm % 4)).fn m ∧ m.length < 2 ^ 61 := by
  intro k hk cmd h
  refine at_core hashing { zeroWord with vd := 30, imm := 1, fn := 2 * k } _ (by decide)
    ⟨?_, fun _ => (by decide : 30 + 2 ≤ 32), rfl, rfl, _, holds_abc, (by decide : 3 < 2 ^ 61)⟩
    ((by decide +kernel : ∀ k, k < 2 → ∀ cmd ∈ [Instr.s2fin, .s2sts],
      kdecode (wordFor (cmd 5 { zeroWord with vd := 30, imm := 1, fn := 2 * k })) =
        kernelCode (cmd 5 { zeroWord with vd := 30, imm := 1, fn := 2 * k })) k hk cmd h)
  unfold FieldsOk
  revert k; decide

theorem witness_kinit : At .kinit fun _ _ _ f => FieldsOk f [.imm] [0] ∧ f.imm / 2 % 16 = 7 :=
  at_core hashing { zeroWord with imm := 15 } _ (by decide) (by unfold FieldsOk; decide)

theorem keccak_holds : KeccakHolds (hashing.kku 1) (hashing.kku 1).fn [0x61, 0x62, 0x63] := by
  unfold KeccakHolds; decide +kernel

theorem witness_kfin : At .kfin fun _ _ c f => FieldsOk f [.imm] [0] ∧ (c.kku (f.imm % 2)).live = true ∧ (c.kku (f.imm % 2)).fn < 8 ∧
    ∃ m, KeccakHolds (c.kku (f.imm % 2)) (c.kku (f.imm % 2)).fn m ∧ m.length < 2 ^ 64 :=
  at_core hashing { zeroWord with imm := 1 } _ (by decide)
    ⟨by unfold FieldsOk; decide, by decide, by decide, _, keccak_holds, by decide⟩

/-- What KABS and KLDS ask of a word and a core. -/
def kInput (s : State) (v : Nat) (c : VCore) (f : VFields) : Prop :=
  let u := c.kku (f.imm % 2)
  FieldsOk f (unitFields f [.va, .ss, .imm]) [0] ∧ u.live = true ∧ (c.stag f.ss).t = false ∧
    (∃ x tg, unitValue f c = .ok (x, tg)) ∧ (unitDraw f = 0 ∨ MasksFor s v (unitDraw f)) ∧
    (∃ m, KeccakHolds u u.fn m) ∧ u.fn < 8 ∧ (c.sreg f.ss).toNat = 512

theorem witness_kabs : ∀ cmd ∈ [Instr.kabs, .klds], At cmd kInput := fun cmd h =>
  at_core hashing { zeroWord with va := 3, ss := 6, imm := 1 } _ (by decide)
    ⟨by unfold FieldsOk; decide, by decide, by decide, ⟨_, _, rfl⟩, Or.inl (by decide), ⟨_, keccak_holds⟩, by decide, by decide⟩
    ((by decide +kernel : ∀ cmd ∈ [Instr.kabs, .klds], kdecode (wordFor (cmd 5 { zeroWord with va := 3, ss := 6, imm := 1 })) =
      kernelCode (cmd 5 { zeroWord with va := 3, ss := 6, imm := 1 })) cmd h)

theorem witness_kperm : At .kperm fun _ _ c f => FieldsOk f [.imm] [0] ∧ (c.kku (f.imm % 2)).live = true :=
  at_core hashing { zeroWord with imm := 1 } _ (by decide) (by unfold FieldsOk; decide)

theorem witness_kabs_shares : At .kabs kInput :=
  at_core hashing { zeroWord with va := 8, ss := 6, imm := 1, fn := 2 } _ (by decide)
    ⟨by unfold FieldsOk; decide, by decide, by decide, ⟨hashing.xorSet 8 2, true, set_value _ _ (by decide +kernel)⟩,
     Or.inr (by unfold MasksFor; decide +kernel), ⟨_, keccak_holds⟩, by decide, by decide⟩

theorem witness_ksqz : At .ksqz fun _ _ c f => let u := c.kku (f.imm % 2)
    FieldsOk f [.vd, .ss, .imm, .msk] [0] ∧ (f.msk = true → f.vd + 2 ≤ 32) ∧ u.live = true ∧ u.fn < 8 ∧ u.h.length = 25 ∧
    u.off = kRate u.fn ∧ (c.stag f.ss).t = false ∧ 0 < (c.sreg f.ss).toNat ∧ (c.sreg f.ss).toNat ≤ 512 :=
  at_core { hashing with kk := [(1, { HashUnit.empty with live := true, fn := 2, h := keccakZero, fin := true, off := kRate 2 })] }
    { zeroWord with vd := 30, ss := 6, imm := 1, fn := 2 } _ (by decide) (by dsimp only; unfold FieldsOk; decide +kernel)

theorem witness_ksts : At .ksts fun _ _ c f => FieldsOk f [.vd, .imm, .msk] [0] ∧ (f.msk = true → f.vd + 2 ≤ 32) ∧
    (c.kku (f.imm % 2)).live = true :=
  at_core hashing { zeroWord with vd := 30, imm := 1, fn := 2 } _ (by decide) (by unfold FieldsOk; decide)

theorem witness_akey : At .akey fun s v c f => FieldsOk f (unitFields f [.va, .imm]) [0] ∧ f.imm % 4 = 2 ∧
    (∃ x tg, unitValue f c = .ok (x, tg)) ∧ unitDraw f = 12288 ∧ MasksFor s v (unitDraw f) :=
  at_core hashing { zeroWord with va := 3, imm := 2, fn := 3 } _ (by decide)
    ⟨by unfold FieldsOk; decide, by decide, ⟨hashing.xorSet 3 3, true, set_value _ _ (by decide +kernel)⟩, by decide,
     by unfold MasksFor; decide +kernel⟩

theorem witness_aes : ∀ cmd ∈ [Instr.aenc, .adec, .actr], At cmd fun _ _ c f => FieldsOk f [.vd, .va, .msk] [0] ∧
    (f.msk = true → f.vd + 2 ≤ 32) ∧ c.aes.live = true ∧ c.aes.key.length ∈ [16, 24, 32] := fun cmd h =>
  at_core hashing { zeroWord with vd := 30, va := 3, fn := 2 } _ (by decide) (by unfold FieldsOk; decide)
    ((by decide +kernel : ∀ cmd ∈ [Instr.aenc, .adec, .actr], kdecode (wordFor (cmd 5 { zeroWord with vd := 30, va := 3, fn := 2 })) =
      kernelCode (cmd 5 { zeroWord with vd := 30, va := 3, fn := 2 })) cmd h)

theorem witness_mrd : At .mrd fun s v _ f => FieldsOk f [.vd] [0] ∧ MasksFor s v 4096 :=
  at_core coreFive { zeroWord with vd := 2 } _ (by decide) (by unfold FieldsOk MasksFor; decide +kernel)

/-! ## Masked operations -/

/-- What a masked operation asks of a share set at a register. -/
def SourceOk (c : VCore) (f : VFields) (r : Nat) : Prop :=
  r + f.shares ≤ 32 ∧ setOk (c.vtags r f.shares) = true ∧ partOverlap f.vd f.shares r f.shares = false

theorem witness_split : At .split fun s v c f => f.vd + f.shares = 32 ∧ (c.order = 2 → f.ord = 1) ∧
    FieldsOk f ([.w, .vd, .va, .ord, .imm] ++ domFields f) allW ∧ DomainOk f c [0, 1, 2] ∧
    MasksFor s v (4096 * (f.shares - 1)) ∧ SourceOk c f f.va :=
  at_core { sharing with order := 2 } { zeroWord with w := 1, vd := 29, va := 3, imm := 2, fn := 1 } _ (by decide)
    (by unfold FieldsOk DomainOk MasksFor SourceOk; decide +kernel)

theorem witness_refresh_widens : At .refresh fun s v c f => f.vd + f.shares ≤ 32 ∧ (c.order = 2 → f.ord = 1) ∧ f.shares = 3 ∧
    FieldsOk f ([.w, .vd, .va, .ord, .imm] ++ domFields f) allW ∧ DomainOk f c [0, 1, 2] ∧ MasksFor s v 8192 ∧
    f.va + 2 ≤ 32 ∧ setOk (c.vtags f.va 2) = true ∧ setOk (c.vtags f.va 3) = false ∧ partOverlap f.vd 3 f.va 2 = false :=
  at_core sharing { zeroWord with w := 3, vd := 20, va := 8, fn := 1 } _ (by decide)
    (by unfold FieldsOk DomainOk MasksFor; decide +kernel)

theorem witness_gmulq : At .gmulq fun s v c f => f.vd + f.shares ≤ 32 ∧ (c.order = 2 → f.ord = 1) ∧ f.shares = 3 ∧
    FieldsOk f [.w, .vd, .va, .vb, .qs, .ord] [1, 2] ∧ badModulus f.w (c.modq f) = false ∧ SourceOk c f f.va ∧
    SourceOk c f f.vb ∧ MasksFor s v 12288 :=
  at_core sharing { zeroWord with w := 1, vd := 20, va := 3, vb := 3, fn := 1 } _ (by decide)
    (by unfold FieldsOk MasksFor SourceOk; decide +kernel)

theorem witness_gand : At .gand fun s v c f => f.vd + f.shares ≤ 32 ∧ (c.order = 2 → f.ord = 1) ∧ f.shares = 2 ∧
    FieldsOk f [.w, .vd, .va, .vb, .ord] allW ∧ SourceOk c f f.va ∧ SourceOk c f f.vb ∧ MasksFor s v 4096 :=
  at_core sharing { zeroWord with w := 3, vd := 8, va := 8, vb := 8 } _ (by decide)
    (by unfold FieldsOk MasksFor SourceOk; decide +kernel)

theorem witness_conversions : ∀ k ∈ [1, 2], ∀ cmd ∈ [Instr.ga2b, .gb2a], At cmd fun s v c f => f.vd + f.shares ≤ 32 ∧ (c.order = 2 → f.ord = 1) ∧ f.shares = 2 ∧
    f.imm = k ∧ FieldsOk f ([.w, .vd, .va, .ord, .imm] ++ domFields f) [1, 2] ∧ DomainOk f c [1, 2] ∧ SourceOk c f f.va ∧
    MasksFor s v 12288 := by
  intro k hk cmd h
  refine at_core sharing { zeroWord with w := 1, vd := 20, va := 8, imm := k } _ (by decide) ?_
    ((by decide +kernel : ∀ k ∈ [1, 2], ∀ cmd ∈ [Instr.ga2b, .gb2a],
      kdecode (wordFor (cmd 5 { zeroWord with w := 1, vd := 20, va := 8, imm := k })) =
        kernelCode (cmd 5 { zeroWord with w := 1, vd := 20, va := 8, imm := k })) k hk cmd h)
  unfold FieldsOk DomainOk MasksFor SourceOk
  revert k cmd; decide +kernel

theorem witness_ga2b_full_draw : At .ga2b fun s v c f => f.vd + f.shares ≤ 32 ∧ (c.order = 2 → f.ord = 1) ∧ f.shares = 3 ∧
    FieldsOk f ([.w, .vd, .va, .ord, .imm] ++ domFields f) [1, 2] ∧ DomainOk f c [1, 2] ∧ SourceOk c f f.va ∧ MasksFor s v 32768 :=
  at_core sharing { zeroWord with w := 1, vd := 20, va := 3, imm := 1, fn := 1 } _ (by decide)
    (by unfold FieldsOk DomainOk MasksFor SourceOk; decide +kernel)

/-! ## Tags -/

theorem witness_tagv : ∀ cmd ∈ [Instr.tagv, .tags], At cmd fun _ _ _ f => FieldsOk f [.vd] [0] := fun cmd h =>
  at_core coreFive { zeroWord with vd := 31 } _ (by decide) (by unfold FieldsOk; decide)
    ((by decide +kernel : ∀ cmd ∈ [Instr.tagv, .tags], kdecode (wordFor (cmd 5 { zeroWord with vd := 31 })) =
      kernelCode (cmd 5 { zeroWord with vd := 31 })) cmd h)

theorem witness_declassify : ∀ cmd ∈ [Instr.declv, .decls], At cmd fun _ _ c f =>
    FieldsOk f [.w, .va, .vd] allW ∧ f.msk = false ∧ c.sites.contains c.pc = true := fun cmd h =>
  at_core sharing { zeroWord with w := 3, va := 3, vd := 2 } _ (by decide) (by unfold FieldsOk; decide)
    ((by decide +kernel : ∀ cmd ∈ [Instr.declv, .decls], kdecode (wordFor (cmd 5 { zeroWord with w := 3, va := 3, vd := 2 })) =
      kernelCode (cmd 5 { zeroWord with w := 3, va := 3, vd := 2 })) cmd h)

theorem witness_declassify_set : At .declv fun _ _ c f => FieldsOk f ([.w, .vd, .va, .msk, .ord, .imm] ++ domFields f) allW ∧
    f.msk = true ∧ DomainOk f c [0, 1, 2] ∧ c.sites.contains c.pc = true ∧ f.va + f.shares ≤ 32 ∧
    setOk (c.vtags f.va f.shares) = true :=
  at_core sharing { zeroWord with w := 1, va := 3, vd := 2, imm := 2, fn := 3 } _ (by decide)
    (by unfold FieldsOk DomainOk; decide +kernel)

theorem witness_declassify_scalars : At .decls fun _ _ c f => FieldsOk f ([.w, .vd, .va, .msk, .ord, .imm] ++ domFields f) allW ∧
    f.msk = true ∧ DomainOk f c [0, 1, 2] ∧ c.sites.contains c.pc = true ∧ f.va + f.shares = 32 ∧ f.imm % 4 = 0 ∧
    setOk ((regRange f.va f.shares).map c.stag) = true :=
  at_core { coreFive with st := [(30, ⟨true, 1, 5⟩), (31, ⟨true, 2, 5⟩)] } { zeroWord with va := 30, vd := 2, fn := 2 } _ (by decide)
    (by unfold FieldsOk DomainOk; decide +kernel)

theorem witness_undeclared : ∀ cmd ∈ [Instr.declv, .decls], At cmd fun _ _ c f => c.sites.contains c.pc = false ∧ f.cut = f ∧
    f.clean [.w, .vd, .va] = true ∧ f.msk = false := fun cmd h =>
  at_core { coreFive with pc := 4 } { zeroWord with va := 3, vd := 2 } _ (by decide) (by decide)
    ((by decide +kernel : ∀ cmd ∈ [Instr.declv, .decls], kdecode (wordFor (cmd 5 { zeroWord with va := 3, vd := 2 })) =
      kernelCode (cmd 5 { zeroWord with va := 3, vd := 2 })) cmd h)

/-! ## Entries and limits -/

theorem witness_end : ∃ s v j f i e, Executing s v j ∧ Fetched s v (.endOp v f) ∧ FieldsOk f [.ss, .imm] [0] ∧ j.oper = some (.kernel i e) ∧ j.lie = none ∧
    (s.core v).checking = false ∧ f.imm % 2 = 0 ∧ byteAt ((s.kernelAt i).entry e) 20 = 0xFF ∧
    ((s.core v).sreg f.ss).toNat = j.outLen ∧ ((s.core v).sreg f.ss).toNat ≤ ((s.kernelAt i).outSeg e).2 :=
  ⟨onWord (scalars [(6, 64)]) kernelJob (wordFor (.endOp 5 { zeroWord with ss := 6 })), 5, kernelJob, { zeroWord with ss := 6 }, 2, 0,
   by unfold Executing; decide +kernel, word_fetched _ _ _ rfl (by decide +kernel), by unfold FieldsOk; decide, by decide +kernel⟩

theorem witness_yield : At .yieldOp fun s _ c f => FieldsOk f [] [0] ∧ c.unitHeld = false ∧ s.yieldOver c.fenced = false ∧
    c.preempt = false :=
  at_core coreFive zeroWord _ (by decide) (by unfold FieldsOk; decide +kernel)

theorem witness_yield_preempted : At .yieldOp fun s v c f => FieldsOk f [] [0] ∧ c.unitHeld = false ∧ s.yieldOver c.fenced = false ∧
    c.preempt = true ∧ s.saveRoom v = true :=
  at_core { coreFive with preempt := true } zeroWord _ (by decide) (by unfold FieldsOk; decide +kernel)

theorem witness_count_passed : ∃ s v j, Executing s v j ∧ (s.core v).passed = false ∧ s.declaredOf j + 1 = (s.core v).cycles ∧
    s.evr.fifo.length < 64 :=
  ⟨onCore { coreFive with cycles := 1000001 } kernelJob, 5, kernelJob, by unfold Executing; decide +kernel, by decide +kernel⟩

theorem witness_call_kernel : ∃ (s : State) (v : Nat) (j : Job) (i e : Nat), s.job? j.id = some j ∧
    j.oper = some (.kernel i e) ∧ j.core = some v ∧ j.phase = .bound ∧ s.fget .VC_STATE_STATE v = 1 ∧
    (s.core v).job = some j.id ∧ (s.core v).codeLen = 0 ∧ 2048 ≤ (s.kernelAt i).code.length :=
  ⟨onCore { VCore.idle with job := some 7 } kernelJob, 5, kernelJob, 2, 0, by decide +kernel⟩

theorem witness_yield_fence : At .yieldOp fun s _ c f => FieldsOk f [] [0] ∧ c.unitHeld = false ∧ s.yieldOver c.fenced = true :=
  at_core { coreFive with s2 := [(0, { HashUnit.empty with doneAt := 3000 })] } zeroWord _ (by decide) (by unfold FieldsOk; decide +kernel)

/-- A word of a reserved major opcode. -/
theorem witness_reserved_word : ∃ s v j, Executing s v j ∧ WordsGood s v ∧ kdecode (s.kernelWord v) = none :=
  ⟨onWord coreFive kernelJob (2 ^ 64 - 1), 5, kernelJob, witness_executing_word _, ⟨rfl, rfl⟩,
   by rw [word_read _ _ _ rfl (by decide)]; decide +kernel⟩

theorem witness_yield_over : ∃ (s : State) (v : Nat) (j : Job), s.issuing v = some j ∧ s.yieldOver (s.caught v) = true :=
  ⟨onCore { coreFive with sinceYield := 3000 } kernelJob, 5, kernelJob, by decide +kernel⟩

theorem witness_run_over : ∃ (s : State) (v : Nat) (j : Job), s.issuing v = some j ∧ s.runOver j (s.caught v) = true :=
  ⟨onCore { coreFive with cycles := 4000000 } kernelJob, 5, kernelJob, by decide +kernel⟩

theorem witness_fault : ∃ (s : State) (v : Nat) (j : Job), s.fget .VC_STATE_STATE v = 1 ∧ s.job? j.id = some j ∧ j.core = some v ∧
    (s.core v).checking = false :=
  ⟨onCore coreFive kernelJob, 5, kernelJob, by decide +kernel⟩

end Sys2Proof.Tests
end

section
/-!
What the operations of the state leave of the OTP (R5, log entry 6). Only the programming operations write it; every other one
leaves it whole (`_otp`), and those that may program other words of it leave its F2 bit (`_f2`). One lemma for each operation,
in the order of the model; a function that takes an operation as its argument has the argument's law as its hypothesis.
-/

namespace Sys2Proof.Machine

/-! ## Operations that leave the OTP -/

/-- An operation after which the OTP is what it was. -/
def LeavesOtp (f : State → State) : Prop := ∀ s, (f s).otp = s.otp

@[simp] theorem leavesOtp_iff (f : State → State) : LeavesOtp f ↔ ∀ s, (f s).otp = s.otp := Iff.rfl

/-- An operation after which the F2 bit is what it was. -/
def LeavesF2 (f : State → State) : Prop := ∀ s, (f s).otp.f2 = s.otp.f2

@[simp] theorem leavesF2_iff (f : State → State) : LeavesF2 f ↔ ∀ s, (f s).otp.f2 = s.otp.f2 := Iff.rfl

@[simp] theorem otp_ite (c : Prop) [Decidable c] (a b : State) : (if c then a else b).otp = if c then a.otp else b.otp := by
  split <;> rfl

@[simp] theorem f2_ite (c : Prop) [Decidable c] (a b : Otp) : (if c then a else b).f2 = if c then a.f2 else b.f2 := by
  split <;> rfl

@[simp] theorem foldl_otp {α : Type} (f : State → α → State) (hf : ∀ a, LeavesOtp (fun s => f s a)) (l : List α)
    (s : State) : (l.foldl f s).otp = s.otp := foldl_same State.otp f (fun s a => hf a s) l s

@[simp] theorem foldl_f2 {α : Type} (f : State → α → State) (hf : ∀ a, LeavesF2 (fun s => f s a)) (l : List α)
    (s : State) : (l.foldl f s).otp.f2 = s.otp.f2 := foldl_same (fun s => s.otp.f2) f (fun s a => hf a s) l s

/-- The state of an answer whose parts are known. -/
theorem otp_of_snd {α : Type} {x : α × State} {a : α} {s t : State} (h : x.2.otp = s.otp) (e : x = (a, t)) :
    t.otp = s.otp := by
  rw [e] at h
  exact h

/-- A command whose next state has the OTP of the state it ran on. -/
def OtpKept (s : State) (o : Out) : Prop := ∀ t, o = .next t → t.otp = s.otp

@[simp] theorem otpKept_next (s t : State) : OtpKept s (.next t) ↔ t.otp = s.otp :=
  ⟨fun h => h t rfl, fun h _ e => by cases e; exact h⟩

theorem OtpKept.next {s t : State} (h : t.otp = s.otp) : OtpKept s (.next t) := (otpKept_next s t).2 h

/-- A command whose next state has the F2 bit of the state it ran on. -/
def F2Kept (s : State) (o : Out) : Prop := ∀ t, o = .next t → t.otp.f2 = s.otp.f2

@[simp] theorem f2Kept_next (s t : State) : F2Kept s (.next t) ↔ t.otp.f2 = s.otp.f2 :=
  ⟨fun h => h t rfl, fun h _ e => by cases e; exact h⟩

theorem F2Kept.next {s t : State} (h : t.otp.f2 = s.otp.f2) : F2Kept s (.next t) := (f2Kept_next s t).2 h

@[simp] theorem OtpKept.f2 {s : State} {o : Out} (h : OtpKept s o) : F2Kept s o := fun t e => congrArg Otp.f2 (h t e)

/-- A command's work that may be put off: where it answers a state, its OTP is `o`. -/
def OptKept (o : Otp) (x : Option State) : Prop := ∀ t, x = some t → t.otp = o

@[simp] theorem optKept_none (o : Otp) : OptKept o none := fun _ e => by cases e

@[simp] theorem optKept_some (o : Otp) (t : State) : OptKept o (some t) ↔ t.otp = o :=
  ⟨fun h => h t rfl, fun h _ e => by cases e; exact h⟩

@[simp] theorem optKept_ite (o : Otp) (c : Prop) [Decidable c] (a b : Option State) :
    OptKept o (if c then a else b) ↔ if c then OptKept o a else OptKept o b := by split <;> rfl

/-! ### Machine/Ops -/

@[simp] theorem State.draw_otp (s : State) : s.draw.2.otp = s.otp := by simp [State.draw]

@[simp] theorem State.drawBytes_otp (s : State) (n : Nat) : (s.drawBytes n).2.otp = s.otp := by simp [State.drawBytes]

@[simp] theorem State.emit_otp (s : State) (m : OutMsg) : (s.emit m).otp = s.otp := by simp [State.emit]

@[simp] theorem State.tiWrite_otp (s : State) (ti : Nat) (ring : Option Nat) (addr : Nat) (data : Bytes) :
    (s.tiWrite ti ring addr data).otp = s.otp := by
  unfold State.tiWrite
  split <;> simp

@[simp] theorem State.tiRead_otp (s : State) (ti addr len : Nat) : (s.tiRead ti addr len).otp = s.otp := by
  unfold State.tiRead
  split <;> simp

/-! ### Machine/Ready -/

@[simp] theorem State.updateAll_otp (s : State) : s.updateAll.otp = s.otp := by simp [State.updateAll]

@[simp] theorem State.readySet_otp (s : State) (f : Fld) (i v : Nat) : (s.readySet f i v).otp = s.otp := by
  simp [State.readySet]

@[simp] theorem State.readyBit_otp (s : State) (f : Fld) (i b : Nat) (on : Bool) : (s.readyBit f i b on).otp = s.otp := by
  simp [State.readyBit]

@[simp] theorem State.groupBits_otp (s : State) (d : Nat) : (s.groupBits d).otp = s.otp := by simp [State.groupBits]

@[simp] theorem State.vcReady_otp (s : State) (v : Nat) (on : Bool) : (s.vcReady v on).otp = s.otp := by simp [State.vcReady]

/-! ### Machine/Slots -/

@[simp] theorem State.recount_otp (s : State) (ti : Nat) : (s.recount ti).otp = s.otp := by simp [State.recount]

@[simp] theorem State.setSlot_otp (s : State) (ti slot : Nat) (k : KeySlot) : (s.setSlot ti slot k).otp = s.otp := by
  simp [State.setSlot]

@[simp] theorem State.emptySlot_otp (s : State) (ti slot : Nat) : (s.emptySlot ti slot).otp = s.otp := by simp [State.emptySlot]

@[simp] theorem State.storeKey_otp (s : State) (ti slot typ usage : Nat) (b : Bytes) :
    (s.storeKey ti slot typ usage b).otp = s.otp := by simp [State.storeKey]

@[simp] theorem State.reserveSlot_otp (s : State) (ti slot typ granules job : Nat) :
    (s.reserveSlot ti slot typ granules job).otp = s.otp := by simp [State.reserveSlot]

/-! ### Machine/Rng -/

@[simp] theorem State.rngEvent_otp (s : State) (code sev d d1 d2 : Nat) : (s.rngEvent code sev d d1 d2).otp = s.otp := by
  simp [State.rngEvent]

@[simp] theorem State.reborrowOne_otp (s : State) (d : Nat) : (s.reborrowOne d).otp = s.otp := by
  unfold State.reborrowOne
  dsimp only
  repeat' split
  all_goals simp -implicitDefEqProofs

@[simp] theorem State.reborrow_otp (s : State) : s.reborrow.otp = s.otp := by simp [State.reborrow]

@[simp] theorem State.setFifo_otp (s : State) (d : Nat) (l : List Bytes) : (s.setFifo d l).otp = s.otp := by
  simp [State.setFifo]

@[simp] theorem State.dropNewSeed_otp (s : State) (d : Nat) : (s.dropNewSeed d).otp = s.otp := by simp [State.dropNewSeed]

@[simp] theorem State.excludeBank_otp (s : State) (d b cause : Nat) : (s.excludeBank d b cause).otp = s.otp := by
  simp [State.excludeBank]

@[simp] theorem State.readmitBank_otp (s : State) (d b : Nat) : (s.readmitBank d b).otp = s.otp := by simp [State.readmitBank]

@[simp] theorem State.countFail_otp (s : State) (d b test : Nat) : (s.countFail d b test).otp = s.otp := by
  simp [State.countFail]

@[simp] theorem State.entropyEnable_otp (s : State) (d : Nat) : (s.entropyEnable d).otp = s.otp := by simp [State.entropyEnable]

@[simp] theorem State.reseedWith_otp (s : State) (d : Nat) (g : Drbg) (seed : Bytes) : (s.reseedWith d g seed).otp = s.otp := by
  simp [State.reseedWith]

@[simp] theorem State.dueReseed_otp (s : State) (d : Nat) : (s.dueReseed d).otp = s.otp := by
  unfold State.dueReseed
  dsimp only
  repeat' split
  all_goals simp

@[simp] theorem State.request_otp (s : State) (d n : Nat) : (s.request d n).2.otp = s.otp := by
  unfold State.request
  dsimp only
  repeat' split
  all_goals simp

@[simp] theorem State.requests_otp (d k n : Nat) (s : State) : (State.requests d k n s).2.otp = s.otp := by
  induction k generalizing n s with
  | zero => rfl
  | succ k ih =>
    unfold State.requests
    split
    · rfl
    · split
      · exact otp_of_snd (s.request_otp d _) ‹_›
      · next s' e =>
        have h : s'.otp = s.otp := otp_of_snd (s.request_otp d _) e
        split
        · exact (otp_of_snd (ih _ s') ‹_›).trans h
        · exact (otp_of_snd (ih _ s') ‹_›).trans h

@[simp] theorem State.drbgTake_otp (s : State) (d n : Nat) : (s.drbgTake d n).2.otp = s.otp := by simp [State.drbgTake]

@[simp] theorem State.giveDraw_otp (s : State) (d : Nat) (who : Option Nat) (b : Bytes) : (s.giveDraw d who b).otp = s.otp := by
  unfold State.giveDraw
  split <;> simp

@[simp] theorem State.mpDraw_otp (s : State) (n : Nat) : (s.mpDraw n).2.otp = s.otp := by
  unfold State.mpDraw
  dsimp only
  split
  · rfl
  · split
    · split <;> simp [otp_of_snd (s.drbgTake_otp 0 n) ‹_›]
    · rfl

@[simp] theorem State.mpFresh_otp (s : State) (n : Nat) : (s.mpFresh n).2.otp = s.otp := by
  unfold State.mpFresh
  dsimp only
  repeat' split
  all_goals simp

@[simp] theorem State.dropMpDraw_otp (s : State) : s.dropMpDraw.otp = s.otp := by simp [State.dropMpDraw]

@[simp] theorem State.jobDraw_otp (s : State) (d j n : Nat) (fresh : Bool) : (s.jobDraw d j n fresh).2.otp = s.otp := by
  unfold State.jobDraw
  dsimp only
  split
  · simp
  · split
    · split <;> simp [otp_of_snd (s.drbgTake_otp d n) ‹_›]
    · simp

@[simp] theorem State.dropDraws_otp (s : State) (d j : Nat) : (s.dropDraws d j).otp = s.otp := by simp [State.dropDraws]

@[simp] theorem State.remaskDone_otp (s : State) (d : Nat) (b : Bytes) : (s.remaskDone d b).otp = s.otp := by
  simp [State.remaskDone]

@[simp] theorem State.remaskSkip_otp (s : State) (d : Nat) : (s.remaskSkip d).otp = s.otp := by simp [State.remaskSkip]

@[simp] theorem State.serveLow_otp (s : State) (die : Nat) : (s.serveLow die).otp = s.otp := by
  unfold State.serveLow
  dsimp only
  split
  · split
    · exact otp_of_snd (s.drbgTake_otp die _) ‹_›
    · simp [otp_of_snd (s.drbgTake_otp die _) ‹_›]
  · split
    · split
      · exact otp_of_snd (s.drbgTake_otp die _) ‹_›
      · simp [otp_of_snd (s.drbgTake_otp die _) ‹_›]
    · rfl

@[simp] theorem State.serveOwed_otp (s : State) (d : Nat) (who : Option Nat) (n : Nat) : (s.serveOwed d who n).otp = s.otp := by
  unfold State.serveOwed
  split
  · simp [otp_of_snd (s.drbgTake_otp d n) ‹_›]
  · exact otp_of_snd (s.drbgTake_otp d n) ‹_›

@[simp] theorem State.seedArrive_otp (s : State) (d : Nat) (seed : Bytes) (fresh : Bool) :
    (s.seedArrive d seed fresh).otp = s.otp := by
  unfold State.seedArrive
  dsimp only
  repeat' split
  all_goals simp

@[simp] theorem State.roundWords_otp (s : State) (d : Nat) : (s.roundWords d).otp = s.otp := by simp [State.roundWords]

@[simp] theorem State.lendFromFifo_otp (s : State) (die : Nat) : (s.lendFromFifo die).otp = s.otp := by
  unfold State.lendFromFifo
  dsimp only
  repeat' split
  all_goals simp

@[simp] theorem State.rngHold_otp (s : State) : s.rngHold.otp = s.otp := by simp [State.rngHold]

@[simp] theorem State.mgenApply_otp (s : State) (v : Nat) : (s.mgenApply v).otp = s.otp := by simp [State.mgenApply]

@[simp] theorem State.rngErase_otp (s : State) (d : Nat) : (s.rngErase d).otp = s.otp := by
  simp -implicitDefEqProofs [State.rngErase]

/-! ### Machine/Cost -/

@[simp] theorem State.setJob_otp (s : State) (j : Job) : (s.setJob j).otp = s.otp := by simp [State.setJob]

@[simp] theorem State.showHeld_otp (s : State) (ti d : Nat) : (s.showHeld ti d).otp = s.otp := by simp [State.showHeld]

@[simp] theorem State.unreserve_otp (s : State) (v : Nat) : (s.unreserve v).otp = s.otp := by simp [State.unreserve]

/-! ### Machine/Dge -/

@[simp] theorem State.dgeAbsorb_otp (s : State) (c : Nat) (b : Bytes) : (s.dgeAbsorb c b).otp = s.otp := by
  simp [State.dgeAbsorb]

@[simp] theorem State.dgeDigest_otp (s : State) (c : Nat) : (s.dgeDigest c).2.otp = s.otp := by
  unfold State.dgeDigest
  dsimp only
  repeat' split
  all_goals simp

@[simp] theorem State.dgeShow_otp (s : State) (c : Nat) (d : Bytes) : (s.dgeShow c d).otp = s.otp := by simp [State.dgeShow]

@[simp] theorem State.dgeFinish_otp (s : State) (c : Nat) : (s.dgeFinish c).otp = s.otp := by
  simp -implicitDefEqProofs [State.dgeFinish]

@[simp] theorem State.dgeLieEnd_otp (s : State) (k : Nat) : (s.dgeLieEnd k).otp = s.otp := by simp [State.dgeLieEnd]

@[simp] theorem State.dgeStart_otp (s : State) (c fn : Nat) : (s.dgeStart c fn).otp = s.otp := by simp [State.dgeStart]

@[simp] theorem State.dgeLie_otp (s : State) (k : Nat) (d : Nat × Bytes × Bool) : (s.dgeLie k d).otp = s.otp := by
  simp [State.dgeLie]

@[simp] theorem State.dgeClear_otp (s : State) (c : Nat) : (s.dgeClear c).otp = s.otp := by
  simp -implicitDefEqProofs [State.dgeClear]

@[simp] theorem execDgeInit_otp (chan func : Nat) (s : State) : OtpKept s (execDgeInit chan func s) := by
  unfold execDgeInit
  split <;> simp

@[simp] theorem execDgeData_otp (chan word : Nat) (s : State) : OtpKept s (execDgeData chan word s) := by
  unfold execDgeData
  repeat' split
  all_goals simp

@[simp] theorem execDgeFin_otp (chan : Nat) (s : State) : OtpKept s (execDgeFin chan s) := by
  unfold execDgeFin
  repeat' split
  all_goals simp

@[simp] theorem execDgeCompare_otp (chan len : Nat) (s : State) : OtpKept s (execDgeCompare chan len s) := by
  unfold execDgeCompare
  split <;> simp

@[simp] theorem State.dgeBindTo_otp (s : State) (c fn : Nat) (pre : Bytes) (b : DgeBind) :
    (s.dgeBindTo c fn pre b).otp = s.otp := by simp [State.dgeBindTo]

@[simp] theorem State.bindIn0_otp (s : State) (j : Job) (x : (Nat × Bytes) × Nat) : (s.bindIn0 j x).otp = s.otp := by
  simp [State.bindIn0]

@[simp] theorem State.snoopBind_otp (s : State) (j : Job) : (s.snoopBind j).otp = s.otp := by simp [State.snoopBind]

@[simp] theorem State.snoopEnd_otp (s : State) (j : Job) : (s.snoopEnd j).otp = s.otp := by
  refine foldl_otp _ (fun c s => ?_) _ s
  dsimp only
  split
  · simp
  · rfl

@[simp] theorem State.snoopFeed_otp (s : State) (c : Nat) (d : Bytes) : (s.snoopFeed c d).otp = s.otp := by
  unfold State.snoopFeed
  split <;> simp

@[simp] theorem State.snoopDrop_otp (s : State) (c : Nat) : (s.snoopDrop c).otp = s.otp := by
  unfold State.snoopDrop
  split <;> simp -implicitDefEqProofs

@[simp] theorem State.snoopStage_otp (s : State) (c fn src n : Nat) : (s.snoopStage c fn src n).otp = s.otp := by
  simp [State.snoopStage]

@[simp] theorem State.compareWith_otp (s : State) (c : Nat) (e : Bytes) : (s.compareWith c e).otp = s.otp := by
  simp -implicitDefEqProofs [State.compareWith]

/-! ### Machine/Mailbox -/

@[simp] theorem State.success_otp (s : State) : s.success.otp = s.otp := by simp [State.success]

@[simp] theorem State.consumeNonce_otp (s : State) : s.consumeNonce.otp = s.otp := by simp [State.consumeNonce]

@[simp] theorem State.go_otp (s : State) : s.go.otp = s.otp := by
  unfold State.go
  dsimp only
  repeat' split
  all_goals simp

@[simp] theorem State.dropUnlock_otp (s : State) : s.dropUnlock.otp = s.otp := by simp [State.dropUnlock]

@[simp] theorem State.abandon_otp (s : State) (st : Nat) : (s.abandon st).otp = s.otp := by simp [State.abandon]

@[simp] theorem State.mbxAbort_otp (s : State) : s.mbxAbort.otp = s.otp := by
  unfold State.mbxAbort
  dsimp only
  repeat' split
  all_goals simp

@[simp] theorem State.cmd_otp (s : State) (op : Nat) (f : State → Bytes → State) (hf : ∀ p, LeavesOtp (fun s => f s p)) :
    (s.cmd op f).otp = s.otp := by
  unfold State.cmd
  split
  · exact hf _ s
  · rfl

@[simp] theorem State.cmdIf_otp (s : State) (op : Nat) (checks : State → Bytes → List (Bool × Nat × Nat))
    (f : State → Bytes → State) (hf : ∀ p, LeavesOtp (fun s => f s p)) : (s.cmdIf op checks f).otp = s.otp := by
  refine s.cmd_otp op _ (fun p s => ?_)
  dsimp only
  split
  · simp
  · exact hf p s

@[simp] theorem State.program_f2 (s : State) (f : State → State) (hf : LeavesF2 f) : (s.program f).otp.f2 = s.otp.f2 := by
  unfold State.program
  split
  · exact hf s
  · split <;> simp

@[simp] theorem State.mbxWait_otp (s : State) (jobs : List Nat) (ring seq : Option Nat) :
    (s.mbxWait jobs ring seq).otp = s.otp := by simp [State.mbxWait]

/-! ### Machine/Host -/

@[simp] theorem State.imtFire_otp (s : State) (n : Nat) : (s.imtFire n).otp = s.otp := by simp [State.imtFire]

@[simp] theorem State.imtUnmask_otp (s : State) (n : Nat) : (s.imtUnmask n).otp = s.otp := by simp [State.imtUnmask]

@[simp] theorem State.writeHeader_otp (s : State) (r : Nat) : (s.writeHeader r).otp = s.otp := by simp [State.writeHeader]

@[simp] theorem State.ringFire_otp (s : State) (r : Nat) : (s.ringFire r).otp = s.otp := by simp [State.ringFire]

@[simp] theorem State.ringCount_otp (s : State) (r : Nat) (dl : Bool) : (s.ringCount r dl).otp = s.otp := by
  simp [State.ringCount]

@[simp] theorem State.fireChange_otp (s : State) (r : Nat) : (s.fireChange r).otp = s.otp := by
  unfold State.fireChange
  repeat' split
  all_goals simp

@[simp] theorem State.readHeader_otp (s : State) (r : Nat) : (s.readHeader r).otp = s.otp := by simp [State.readHeader]

@[simp] theorem State.ringDoorbell_otp (s : State) (r : Nat) (ctl : Bool) : (s.ringDoorbell r ctl).otp = s.otp := by
  simp [State.ringDoorbell]

@[simp] theorem State.countAlert_otp (s : State) (f : Fld) (i : Nat) : (s.countAlert f i).otp = s.otp := by
  simp [State.countAlert]

@[simp] theorem State.rejectDoorbell_otp (s : State) (n ring off : Nat) : (s.rejectDoorbell n ring off).otp = s.otp := by
  simp [State.rejectDoorbell]

@[simp] theorem State.doorbell_otp (s : State) (off : Nat) (data : Bytes) : (s.doorbell off data).otp = s.otp := by
  simp [State.doorbell]

/-! ### Machine/Job -/

@[simp] theorem State.mirrorSend_otp (s : State) (b : MirrorBody) : (s.mirrorSend b).2.otp = s.otp := by simp [State.mirrorSend]

@[simp] theorem State.mirrorWrite_otp (s : State) (b : MirrorBody) (job : Option Nat) (ti : Nat) :
    (s.mirrorWrite b job ti).2.otp = s.otp := by simp [State.mirrorWrite]

@[simp] theorem State.mirrorSlot_otp (s : State) (ti slot : Nat) (deleted carries : Bool) (job : Option Nat) :
    (s.mirrorSlot ti slot deleted carries job).2.otp = s.otp := by
  unfold State.mirrorSlot
  split <;> simp

@[simp] theorem State.deleteKey_otp (s : State) (ti slot : Nat) (job : Option Nat) : (s.deleteKey ti slot job).2.otp = s.otp :=
    by simp [State.deleteKey]

@[simp] theorem State.createKey_otp (s : State) (ti slot typ usage : Nat) (b : Bytes) (job : Option Nat) :
    (s.createKey ti slot typ usage b job).2.otp = s.otp := by simp [State.createKey]

@[simp] theorem State.dropTarget_otp (s : State) (j : Job) : (s.dropTarget j).otp = s.otp := by
  unfold State.dropTarget
  split <;> simp

@[simp] theorem State.freeVc_otp (s : State) (v : Nat) : (s.freeVc v).otp = s.otp := by simp [State.freeVc]

@[simp] theorem State.clearLie_otp (s : State) (k : Nat) : (s.clearLie k).otp = s.otp := by simp [State.clearLie]

@[simp] theorem State.zeroSlot_otp (s : State) (k : Nat) : (s.zeroSlot k).otp = s.otp := by simp [State.zeroSlot]

@[simp] theorem State.dropSaves_otp (s : State) (id : Nat) : (s.dropSaves id).otp = s.otp := by simp [State.dropSaves]

@[simp] theorem State.saveFull_otp (s : State) (d : Nat) : (s.saveFull d).otp = s.otp := by simp [State.saveFull]

@[simp] theorem State.releaseUnits_otp (s : State) (j : Job) (cleared : Bool) : (s.releaseUnits j cleared).otp = s.otp := by
  unfold State.releaseUnits
  split <;> simp

@[simp] theorem State.dropJob_otp (s : State) (id : Nat) : (s.dropJob id).otp = s.otp := by simp [State.dropJob]

@[simp] theorem State.eraseKernel_otp (s : State) (i : Nat) : (s.eraseKernel i).otp = s.otp := by simp [State.eraseKernel]

@[simp] theorem State.mbxSettle_otp (s : State) : s.mbxSettle.otp = s.otp := by simp [State.mbxSettle]

@[simp] theorem State.writeEntry_otp (s : State) (r : Nat) (e : Bytes) (dl : Bool) : (s.writeEntry r e dl).otp = s.otp := by
  simp [State.writeEntry]

@[simp] theorem State.postCqe_otp (s : State) (cq : Nat) (h : HeldCqe) : (s.postCqe cq h).otp = s.otp := by simp [State.postCqe]

@[simp] theorem State.publish_otp (s : State) (r : Nat) : (s.publish r).otp = s.otp := by simp [State.publish]

@[simp] theorem State.writeOut_otp (s : State) (ti ring : Nat) (l : List (Nat × Nat)) (b : Bytes) :
    (s.writeOut ti ring l b).otp = s.otp := by
  induction l generalizing s b with
  | nil => rfl
  | cons x t ih => simp [State.writeOut, ih]

@[simp] theorem State.deadlineFault_otp (s : State) (j : Job) (kind late : Nat) : (s.deadlineFault j kind late).otp = s.otp :=
    by simp [State.deadlineFault]

@[simp] theorem State.complete_otp (s : State) (j : Job) (st detail : Nat) (part : Bool) (out : Bytes) (wait : Option Nat) :
    (s.complete j st detail part out wait).otp = s.otp := by
  unfold State.complete
  dsimp only
  repeat' split
  all_goals simp

@[simp] theorem State.releaseCqe_otp (s : State) (id : Nat) : (s.releaseCqe id).otp = s.otp := by
  unfold State.releaseCqe
  split <;> simp

@[simp] theorem State.endJob_otp (s : State) (j : Job) (st detail : Nat) (part : Bool) :
    (s.endJob j st detail part).otp = s.otp := by simp [State.endJob]

@[simp] theorem State.endQuiet_otp (s : State) (j : Job) : (s.endQuiet j).otp = s.otp := by simp [State.endQuiet]

@[simp] theorem State.joinList_otp (s : State) (die cls ti : Nat) : (s.joinList die cls ti).otp = s.otp := by
  unfold State.joinList
  repeat' split
  all_goals simp

@[simp] theorem State.replay_otp (s : State) (j : Job) : (s.replay j).otp = s.otp := by simp [State.replay]

@[simp] theorem State.checkJob_otp (s : State) (j : Job) (detail : Nat) : (s.checkJob j detail).otp = s.otp := by
  simp [State.checkJob]

@[simp] theorem State.abortJob_otp (s : State) (j : Job) : (s.abortJob j).otp = s.otp := by simp [State.abortJob]

@[simp] theorem State.lockJob_otp (s : State) (j : Job) : (s.lockJob j).otp = s.otp := by simp [State.lockJob]

@[simp] theorem State.holdJob_otp (s : State) (j : Job) : (s.holdJob j).otp = s.otp := by
  unfold State.holdJob
  dsimp only
  repeat' split
  all_goals simp

@[simp] theorem State.eachJob_otp (s : State) (p : Job → Bool) (f : State → Job → State)
    (hf : ∀ j, LeavesOtp (fun s => f s j)) : (s.eachJob p f).otp = s.otp := by
  refine foldl_otp _ (fun j s => ?_) _ s
  dsimp only
  split
  · exact hf _ s
  · rfl

@[simp] theorem State.advanceVt_otp (s : State) (j : Job) (cores : List Nat) (ps : Nat) :
    (s.advanceVt j cores ps).otp = s.otp := by simp [State.advanceVt]

@[simp] theorem State.refuseJob_otp (s : State) (j : Job) (p : List Nat × Option Nat) (st detail : Nat) :
    (s.refuseJob j p st detail).otp = s.otp := by simp [State.refuseJob]

@[simp] theorem State.jobRandom_otp (s : State) (j : Job) (n : Nat) (fresh : Bool) : (s.jobRandom j n fresh).2.otp = s.otp := by
  unfold State.jobRandom
  repeat' split
  all_goals simp

/-! ### Machine/Micro -/

@[simp] theorem State.flipGold_otp (s : State) (cl a m : Nat) : (s.flipGold cl a m).otp = s.otp := by simp [State.flipGold]

@[simp] theorem State.reloadCtl_otp (s : State) (v : Nat) : (s.reloadCtl v).otp = s.otp := by simp [State.reloadCtl]

@[simp] theorem State.reloadKrn_otp (s : State) (v : Nat) : (s.reloadKrn v).otp = s.otp := by simp [State.reloadKrn]

/-! ### Machine/Deckle -/

@[simp] theorem State.countRefusal_otp (s : State) (k m off : Nat) : (s.countRefusal k m off).otp = s.otp := by
  simp -implicitDefEqProofs [State.countRefusal]

@[simp] theorem State.mpRefused_otp (s : State) (m : Nat) : (s.mpRefused m).otp = s.otp := by simp [State.mpRefused]

@[simp] theorem State.refusePart_otp (s : State) (k m : Nat) (write : Bool) (off bus : Nat) :
    (s.refusePart k m write off bus).otp = s.otp := by simp [State.refusePart]

@[simp] theorem State.putRegionWord_otp (s : State) (k r w v : Nat) : (s.putRegionWord k r w v).otp = s.otp := by
  simp [State.putRegionWord]

@[simp] theorem State.writeRegion_otp (s : State) (k r w v : Nat) : (s.writeRegion k r w v).otp = s.otp := by
  simp [State.writeRegion]

@[simp] theorem State.rulesUpdated_otp (s : State) (k : Nat) : (s.rulesUpdated k).otp = s.otp := by simp [State.rulesUpdated]

@[simp] theorem State.loadRules_otp (s : State) (k : Nat) : (s.loadRules k).otp = s.otp := by simp [State.loadRules]

@[simp] theorem State.loadDieRules_otp (s : State) (d : Nat) : (s.loadDieRules d).otp = s.otp := by simp [State.loadDieRules]

@[simp] theorem State.answerRefused_otp (s : State) (m : Nat) (write : Bool) (size : Nat) :
    (s.answerRefused m write size).otp = s.otp := by simp [State.answerRefused]

@[simp] theorem State.setHeld_otp (s : State) (k : Nat) (l : List HeldAccess) : (s.setHeld k l).otp = s.otp := by
  simp [State.setHeld]

@[simp] theorem State.refuseHeld_otp (s : State) (k : Nat) (h : HeldAccess) : (s.refuseHeld k h).otp = s.otp := by
  simp [State.refuseHeld]

@[simp] theorem State.refuseAllHeld_otp (s : State) : s.refuseAllHeld.otp = s.otp := by simp [State.refuseAllHeld]

@[simp] theorem State.holdRefused_otp (s : State) (k : Nat) (h : HeldAccess) (why : Nat) :
    (s.holdRefused k h why).otp = s.otp := by simp -implicitDefEqProofs [State.holdRefused]

@[simp] theorem State.holdTimeout_otp (s : State) (k : Nat) : (s.holdTimeout k).otp = s.otp := by simp [State.holdTimeout]

/-! ### Machine/Ring -/

@[simp] theorem State.wipeRing_otp (s : State) (r : Nat) : (s.wipeRing r).otp = s.otp := by simp [State.wipeRing]

@[simp] theorem State.discardPrefetch_otp (s : State) (r : Nat) : (s.discardPrefetch r).otp = s.otp := by
  simp [State.discardPrefetch]

@[simp] theorem State.enterError_otp (s : State) (r code idx : Nat) : (s.enterError r code idx).otp = s.otp := by
  simp [State.enterError]

@[simp] theorem State.dropHeld_otp (s : State) (sq : Nat) : (s.dropHeld sq).otp = s.otp := by simp [State.dropHeld]

@[simp] theorem State.partnerError_otp (s : State) (sq : Nat) : (s.partnerError sq).otp = s.otp := by simp [State.partnerError]

@[simp] theorem State.ringFail_otp (s : State) (r code idx : Nat) : (s.ringFail r code idx).otp = s.otp := by
  simp [State.ringFail]

@[simp] theorem State.restartFull_otp (s : State) (r : Nat) : (s.restartFull r).otp = s.otp := by simp [State.restartFull]

@[simp] theorem State.restartFetch_otp (s : State) (r : Nat) : (s.restartFetch r).otp = s.otp := by simp [State.restartFetch]

@[simp] theorem State.enableRing_otp (s : State) (r : Nat) (tenant : Bool) : (s.enableRing r tenant).otp = s.otp := by
  simp [State.enableRing]

@[simp] theorem State.startDisable_otp (s : State) (r : Nat) (abort tenant : Bool) (seq : Option Nat) :
    (s.startDisable r abort tenant seq).otp = s.otp := by simp [State.startDisable]

@[simp] theorem State.finishDisable_otp (s : State) (r : Nat) : (s.finishDisable r).otp = s.otp := by
  unfold State.finishDisable
  dsimp only
  repeat' split
  all_goals simp

@[simp] theorem State.ctlAck_otp (s : State) (r ctl : Nat) (refused : Bool) : (s.ctlAck r ctl refused).otp = s.otp := by
  simp [State.ctlAck]

@[simp] theorem State.tenantCtl_otp (s : State) (r ctl : Nat) : (s.tenantCtl r ctl).otp = s.otp := by
  unfold State.tenantCtl
  split <;> simp

@[simp] theorem State.takeIndex_otp (s : State) (r tidx : Nat) : (s.takeIndex r tidx).otp = s.otp := by simp [State.takeIndex]

@[simp] theorem State.refill_otp (s : State) (l : List Nat) : (s.refill l).otp = s.otp := by simp [State.refill]

@[simp] theorem State.readEntries_otp (s : State) (r f n : Nat) : (s.readEntries r f n).otp = s.otp := by
  simp [State.readEntries]

@[simp] theorem State.dmaEvent_otp (s : State) (ti kind addr : Nat) : (s.dmaEvent ti kind addr).otp = s.otp := by
  simp [State.dmaEvent]

@[simp] theorem State.bufferFault_otp (s : State) (j : Job) (which : Nat) : (s.bufferFault j which).otp = s.otp := by
  simp [State.bufferFault]

@[simp] theorem State.dmaFail_otp (s : State) (t : DmaTarget) (kind addr : Nat) : (s.dmaFail t kind addr).otp = s.otp := by
  unfold State.dmaFail
  dsimp only
  repeat' split
  all_goals simp

@[simp] theorem State.reopenDma_otp (s : State) : s.reopenDma.otp = s.otp := by simp [State.reopenDma]

@[simp] theorem State.makeRing_otp (s : State) (r : Nat) (p : Bytes) : (s.makeRing r p).otp = s.otp := by
  unfold State.makeRing
  dsimp only
  split <;> simp

@[simp] theorem State.unsubscribe_otp (s : State) (r : Nat) : (s.unsubscribe r).otp = s.otp := by simp [State.unsubscribe]

@[simp] theorem State.removeRing_otp (s : State) (r : Nat) : (s.removeRing r).otp = s.otp := by simp [State.removeRing]

/-! ### Machine/Modes -/

@[simp] theorem State.smbAlert_otp (s : State) : s.smbAlert.otp = s.otp := by simp [State.smbAlert]

@[simp] theorem State.endHold_otp (s : State) : s.endHold.otp = s.otp := by simp [State.endHold]

@[simp] theorem State.startHold_otp (s : State) : s.startHold.otp = s.otp := by simp [State.startHold]

@[simp] theorem State.setMode_otp (s : State) (m cause : Nat) : (s.setMode m cause).otp = s.otp := by simp [State.setMode]

@[simp] theorem State.dropPrefetch_otp (s : State) : s.dropPrefetch.otp = s.otp := by simp [State.dropPrefetch]

@[simp] theorem State.eraseRings_otp (s : State) : s.eraseRings.otp = s.otp := by simp [State.eraseRings]

@[simp] theorem State.enterLockdown_otp (s : State) (cause : Nat) : (s.enterLockdown cause).otp = s.otp := by
  simp [State.enterLockdown]

@[simp] theorem State.unreadyDie_otp (s : State) (d : Nat) : (s.unreadyDie d).otp = s.otp := by simp [State.unreadyDie]

/-! ### Machine/Sched -/

@[simp] theorem State.windowFault_otp (s : State) (j : Job) (addr : Nat) : (s.windowFault j addr).otp = s.otp := by
  simp [State.windowFault]

@[simp] theorem State.enlist_otp (s : State) (j : Job) (d : Nat) : (s.enlist j d).otp = s.otp := by simp [State.enlist]

@[simp] theorem State.acceptEntry_otp (s : State) (r : Nat) : (s.acceptEntry r).otp = s.otp := by simp [State.acceptEntry]

@[simp] theorem State.readLead_otp (s : State) (j : Job) (arr lead : Bytes) : (s.readLead j arr lead).otp = s.otp := by
  unfold State.readLead
  dsimp only
  repeat' split
  all_goals simp

@[simp] theorem State.placeRead_otp (s : State) (j : Job) : (s.placeRead j).otp = s.otp := by
  unfold State.placeRead
  repeat' split
  all_goals simp

@[simp] theorem State.placeJob_otp (s : State) (j : Job) (arr lead : Bytes) (fault : Nat) :
    (s.placeJob j arr lead fault).otp = s.otp := by
  unfold State.placeJob
  split <;> simp

@[simp] theorem State.setDrain_otp (s : State) (d : Nat) : (s.setDrain d).otp = s.otp := by simp [State.setDrain]

@[simp] theorem State.requestYield_otp (s : State) (j : Job) : (s.requestYield j).otp = s.otp := by
  unfold State.requestYield
  dsimp only
  repeat' split
  all_goals simp

@[simp] theorem State.moveJob_otp (s : State) (j : Job) (d : Nat) : (s.moveJob j d).otp = s.otp := by simp [State.moveJob]

@[simp] theorem State.startLie_otp (s : State) (k code : Nat) : (s.startLie k code).otp = s.otp := by simp [State.startLie]

@[simp] theorem State.bindLie_otp (s : State) (j : Job) (k : Nat) : (s.bindLie j k).otp = s.otp := by
  unfold State.bindLie
  split <;> simp

@[simp] theorem State.showSegs_otp (s : State) (v : Nat) (l : List (Nat × Nat × Bool × Bool)) : (s.showSegs v l).otp = s.otp :=
    by simp [State.showSegs]

@[simp] theorem State.bindCores_otp (s : State) (j : Job) (cores : List Nat) : (s.bindCores j cores).otp = s.otp := by
  unfold State.bindCores
  split <;> simp

@[simp] theorem State.bindJob_otp (s : State) (j : Job) (o : Oper) (p : List Nat × Option Nat) (charge : Nat) :
    (s.bindJob j o p charge).otp = s.otp := by
  unfold State.bindJob
  dsimp only
  repeat' split
  all_goals simp -implicitDefEqProofs

@[simp] theorem State.readSegs_otp (s : State) (ti : Nat) (l : List (Nat × Nat)) : (s.readSegs ti l).otp = s.otp := by
  simp [State.readSegs]

@[simp] theorem State.readLists_otp (s : State) (j : Job) : (s.readLists j).otp = s.otp := by simp [State.readLists]

theorem State.startJob_otp (s : State) (j : Job) (o : Oper) (p : List Nat × Option Nat) (b : Bufs) (rd : JobRead) :
    OptKept s.otp (s.startJob j o p b rd) := by
  unfold State.startJob
  dsimp only
  repeat' split
  all_goals simp

@[simp] theorem State.startRestore_otp (s : State) (j : Job) (v : Nat) : (s.startRestore j v).otp = s.otp := by
  simp [State.startRestore]

theorem State.dispatchTo_otp (s : State) (j : Job) (p : List Nat × Option Nat) (reads : List JobRead) :
    OptKept s.otp (s.dispatchTo j p reads) := by
  have h := fun o b rd => (s.readLists j).startJob_otp j o p b rd
  rw [s.readLists_otp j] at h
  unfold State.dispatchTo
  dsimp only
  repeat' split
  all_goals simp [h]

@[simp] theorem State.growReserve_otp (ti d n : Nat) (s : State) : (State.growReserve ti d n s).otp = s.otp := by
  induction n generalizing s with
  | zero => rfl
  | succ n ih =>
    unfold State.growReserve
    split
    · rfl
    · split
      · rfl
      · simp [ih]

@[simp] theorem State.growAll_otp (s : State) (d : Nat) : (s.growAll d).otp = s.otp := by simp [State.growAll]

theorem State.consider_otp (s : State) (j : Job) (reads : List JobRead) : OptKept s.otp (s.consider j reads) := by
  have hlate : ∀ x p, OptKept s.otp ((s.setJob x).dispatchTo x p reads) := fun x p => by
    have h := (s.setJob x).dispatchTo_otp x p reads
    rwa [State.setJob_otp] at h
  unfold State.consider
  split
  · simp
  · extract_lets units
    clear_value units
    cases units with
    | none => simp
    | some p =>
      have hr : (p.1.head?.elim s (s.startRestore j)).otp = s.otp := by cases p.1.head? <;> simp
      simp only [optKept_ite, optKept_some, State.dispatchTo_otp, hlate, hr]
      cases s.offerDie j <;> simp

@[simp] theorem State.passClass_otp (d cls : Nat) (reads : List JobRead) (n : Nat) (seen : List Nat) (s : State) :
    (State.passClass d cls reads n seen s).1.otp = s.otp := by
  induction n generalizing seen s with
  | zero => rfl
  | succ n ih =>
    unfold State.passClass
    dsimp only
    split
    · simp
    · split
      · simp
      · next t h => rw [ih, State.consider_otp _ _ _ t h, State.setDrain_otp]

@[simp] theorem State.passAll_otp (s : State) (d : Nat) (reads : List JobRead) : (s.passAll d reads).otp = s.otp := by
  refine foldl_keeps (fun x : State × Bool => x.1.otp = s.otp) _ (fun x c hx => ?_) _ _ rfl
  split
  · rw [State.passClass_otp, hx]
  · exact hx

@[simp] theorem State.showLoads_otp (s : State) : s.showLoads.otp = s.otp := by simp [State.showLoads]

@[simp] theorem State.balanceMoves_otp (a b n : Nat) (s : State) : (State.balanceMoves a b n s).otp = s.otp := by
  induction n generalizing s with
  | zero => rfl
  | succ n ih =>
    unfold State.balanceMoves
    split
    · rfl
    · split
      · rfl
      · simp [ih]

@[simp] theorem State.lieOfflineNow_otp (s : State) (k why ring : Nat) : (s.lieOfflineNow k why ring).otp = s.otp := by
  simp [State.lieOfflineNow]

@[simp] theorem State.resetLie_otp (s : State) (k code ring : Nat) : (s.resetLie k code ring).otp = s.otp := by
  simp [State.resetLie]

/-! ### Machine/LieJob -/

@[simp] theorem State.passSecret_otp (s : State) (j : Job) (i : LieIn) : (s.passSecret j i).otp = s.otp := by
  unfold State.passSecret
  split <;> simp

@[simp] theorem State.ranLie_otp (s : State) (j : Job) (k : Nat) (refused : Bool) (i : LieIn) :
    (s.ranLie j k refused i).otp = s.otp := by simp [State.ranLie]

@[simp] theorem State.engineRuns_otp (s : State) (j : Job) (r : Bytes) (x : OpRes) : (s.engineRuns j r x).2.otp = s.otp := by
  unfold State.engineRuns
  split <;> simp

/-! ### Machine/OpCore -/

@[simp] theorem State.setResult_otp (s : State) (j : Job) (r : OpRes) : (s.setResult j r).otp = s.otp := by
  simp [State.setResult]

@[simp] theorem State.chargeAgain_otp (s : State) (j : Job) : (s.chargeAgain j).otp = s.otp := by simp [State.chargeAgain]

@[simp] theorem State.runOp_otp (s : State) (id : Nat) (fresh : Bool) (f : Job → Oper → Option (Nat × (Bytes → OpRes))) :
    (s.runOp id fresh f).otp = s.otp := by
  unfold State.runOp
  split
  · rfl
  · split
    · split
      · rfl
      · split
        · exact otp_of_snd (s.jobRandom_otp _ _ fresh) ‹_›
        · next s' e =>
          have h : s'.otp = s.otp := otp_of_snd (s.jobRandom_otp _ _ fresh) e
          simp [h]
    · rfl

/-! ### Machine/OpsKey -/

@[simp] theorem State.reviseStream_otp (s : State) (n : Nat) (x : Stream) : (s.reviseStream n x).otp = s.otp := by
  simp [State.reviseStream]

@[simp] theorem State.streamOp_otp (s : State) (job : Nat) (next : Bool) : (s.streamOp job next).otp = s.otp := by
  simp [State.streamOp]

/-! ### Machine/Streams -/

@[simp] theorem State.frameEvent_otp (s : State) (code sev n d1 d2 : Nat) : (s.frameEvent code sev n d1 d2).otp = s.otp := by
  simp [State.frameEvent]

@[simp] theorem State.countStream_otp (s : State) (n i : Nat) : (s.countStream n i).otp = s.otp := by simp [State.countStream]

@[simp] theorem State.mirrorStream_otp (s : State) (n : Nat) (job : Option Nat) : (s.mirrorStream n job).2.otp = s.otp := by
  unfold State.mirrorStream
  dsimp only
  repeat' split
  all_goals simp

@[simp] theorem State.promote_otp (s : State) (n why : Nat) : (s.promote n why).otp = s.otp := by
  unfold State.promote
  dsimp only
  repeat' split
  all_goals simp

@[simp] theorem State.promoteIfDue_otp (s : State) (n : Nat) : (s.promoteIfDue n).otp = s.otp := by
  unfold State.promoteIfDue
  dsimp only
  repeat' split
  all_goals simp

@[simp] theorem State.installStream_otp (s : State) (j : Job) (next : Bool) : (s.installStream j next).2.otp = s.otp := by
  simp [State.installStream]

@[simp] theorem State.clearStreamKeys_otp (s : State) (n : Nat) : (s.clearStreamKeys n).otp = s.otp := by
  simp [State.clearStreamKeys]

@[simp] theorem State.unmirrorStream_otp (s : State) (n owner : Nat) : (s.unmirrorStream n owner).otp = s.otp := by
  simp [State.unmirrorStream]

@[simp] theorem State.dropStream_otp (s : State) (n : Nat) : (s.dropStream n).otp = s.otp := by simp [State.dropStream]

/-! ### Machine/Recorder -/

@[simp] theorem State.setChan_otp (s : State) (c : Nat) (l : List EvRec) : (s.setChan c l).otp = s.otp := by
  simp [State.setChan]

@[simp] theorem State.recVector_otp (s : State) (before : Bool) : (s.recVector before).otp = s.otp := by simp [State.recVector]

@[simp] theorem State.moveCursors_otp (s : State) (c j : Nat) : (s.moveCursors c j).otp = s.otp := by simp [State.moveCursors]

@[simp] theorem State.appendRec_otp (s : State) (e : EvRec) (l : List EvRec) (wasFull : Bool) :
    (s.appendRec e l wasFull).otp = s.otp := by simp [State.appendRec]

@[simp] theorem State.commitEvent_otp (s : State) (e : EvRec) : (s.commitEvent e).otp = s.otp := by
  unfold State.commitEvent
  dsimp only
  split
  · next t h =>
    split at h
    · split at h
      · cases h; simp
      · cases h
    · cases h
  · split
    · simp
    · split
      · simp
      · split <;> simp

@[simp] theorem State.aoEvent_otp (s : State) (code sev d0 d1 d2 : Nat) : (s.aoEvent code sev d0 d1 d2).otp = s.otp := by
  simp [State.aoEvent]

@[simp] theorem State.setCursor_otp (s : State) (m : Master) (c i : Nat) : (s.setCursor m c i).otp = s.otp := by
  unfold State.setCursor
  split <;> simp

@[simp] theorem State.windowRead_otp (s : State) (m : Master) (w : Nat) : (s.windowRead m w).2.otp = s.otp := by
  unfold State.windowRead
  dsimp only
  repeat' split
  all_goals simp

@[simp] theorem State.clearChan_otp (s : State) (c who : Nat) : (s.clearChan c who).otp = s.otp := by simp [State.clearChan]

/-! ### Machine/Tenancy -/

@[simp] theorem State.reserveGranules_otp (s : State) (d old new : Nat) : (s.reserveGranules d old new).otp = s.otp := by
  simp [State.reserveGranules]

@[simp] theorem State.setImportPair_otp (s : State) (ti gen : Nat) (r : Bytes) : (s.setImportPair ti gen r).otp = s.otp := by
  simp [State.setImportPair]

@[simp] theorem State.makeTi_otp (s : State) (n d : Nat) (p r : Bytes) : (s.makeTi n d p r).otp = s.otp := by
  simp [State.makeTi]

@[simp] theorem State.duplexHold_otp (s : State) (n : Nat) : (s.duplexHold n).otp = s.otp := by simp [State.duplexHold]

@[simp] theorem State.clearWindow_otp (s : State) (n w : Nat) : (s.clearWindow n w).otp = s.otp := by simp [State.clearWindow]

@[simp] theorem State.releaseImt_otp (s : State) (e : Nat) : (s.releaseImt e).otp = s.otp := by simp [State.releaseImt]

@[simp] theorem State.playDoorbell_otp (s : State) (r : Nat) : (s.playDoorbell r).otp = s.otp := by
  unfold State.playDoorbell
  dsimp only
  repeat' split
  all_goals simp

@[simp] theorem State.resumeTi_otp (s : State) (n : Nat) : (s.resumeTi n).otp = s.otp := by simp [State.resumeTi]

@[simp] theorem State.zeroTiKeys_otp (s : State) (n : Nat) : (s.zeroTiKeys n).otp = s.otp := by simp [State.zeroTiKeys]

@[simp] theorem State.dropTiStreams_otp (s : State) (n : Nat) : (s.dropTiStreams n).otp = s.otp := by simp [State.dropTiStreams]

@[simp] theorem State.dropReserves_otp (s : State) (n : Nat) : (s.dropReserves n).otp = s.otp := by simp [State.dropReserves]

@[simp] theorem State.dropTiObjects_otp (s : State) (n : Nat) : (s.dropTiObjects n).otp = s.otp := by simp [State.dropTiObjects]

@[simp] theorem State.wipeTi_otp (s : State) (n : Nat) : (s.wipeTi n).otp = s.otp := by simp [State.wipeTi]

@[simp] theorem State.destroyTi_otp (s : State) (n : Nat) (byReset : Bool) : (s.destroyTi n byReset).otp = s.otp := by
  simp [State.destroyTi]

@[simp] theorem State.destroyAll_otp (s : State) : s.destroyAll.otp = s.otp := by simp [State.destroyAll]

@[simp] theorem State.resetMailbox_otp (s : State) : s.resetMailbox.otp = s.otp := by simp [State.resetMailbox]

@[simp] theorem State.resetInterrupts_otp (s : State) : s.resetInterrupts.otp = s.otp := by simp [State.resetInterrupts]

@[simp] theorem State.resetConfig_otp (s : State) : s.resetConfig.otp = s.otp := by simp [State.resetConfig]

@[simp] theorem State.portsOf_otp (s old : State) : (s.portsOf old).otp = s.otp := by simp [State.portsOf]

@[simp] theorem State.functionReset_otp (s : State) : s.functionReset.otp = s.otp := by simp [State.functionReset]

/-! ### Machine/Keys -/

@[simp] theorem State.moveHome_otp (s : State) (n d : Nat) : (s.moveHome n d).otp = s.otp := by
  simp -implicitDefEqProofs [State.moveHome]

@[simp] theorem State.rootSlots_otp (s : State) : s.rootSlots.otp = s.otp := by simp [State.rootSlots]

@[simp] theorem State.dropPair_otp (s : State) : s.dropPair.otp = s.otp := by simp [State.dropPair]

@[simp] theorem State.provision_f2 (s : State) (k : Nat) (r : Bytes) : (s.provision k r).otp.f2 = s.otp.f2 := by
  simp [State.provision]

@[simp] theorem State.unsealed_otp (s : State) (n slot : Nat) (b k : Bytes) : (s.unsealed n slot b k).otp = s.otp := by
  simp [State.unsealed]

@[simp] theorem State.countWait_otp (s : State) (die cls ring : Nat) : (s.countWait die cls ring).otp = s.otp := by
  simp [State.countWait]

/-! ### Machine/Release -/

@[simp] theorem State.coreCheck_otp (s : State) (v cause groups uaddr ring : Nat) :
    (s.coreCheck v cause groups uaddr ring).otp = s.otp := by simp [State.coreCheck]

@[simp] theorem State.failCheck_otp (s : State) (j : Job) (o : Oper) : (s.failCheck j o).otp = s.otp := by
  unfold State.failCheck
  dsimp only
  split
  · simp
  · split <;> simp

@[simp] theorem State.makeKey_otp (s : State) (j : Job) (k : Bytes) : (s.makeKey j k).2.otp = s.otp := by simp [State.makeKey]

@[simp] theorem State.finish_otp (s : State) (j : Job) (o : Oper) : (s.finish j o).otp = s.otp := by
  unfold State.finish
  split
  · simp
  · simp
  · simp
  · simp
  · split <;> simp

@[simp] theorem State.releaseJob_otp (s : State) (j : Job) (pass : Bool) : (s.releaseJob j pass).otp = s.otp := by
  unfold State.releaseJob
  split <;> simp

@[simp] theorem State.freeEngine_otp (s : State) (j : Job) (k : Nat) : (s.freeEngine j k).otp = s.otp := by
  simp [State.freeEngine]

/-! ### Machine/Lie -/

@[simp] theorem State.lieEvent_otp (s : State) (code sev k d1 ring : Nat) : (s.lieEvent code sev k d1 ring).otp = s.otp := by
  simp [State.lieEvent]

@[simp] theorem State.setLieWindow_otp (s : State) (k w v : Nat) : (s.setLieWindow k w v).otp = s.otp := by
  simp [State.setLieWindow]

@[simp] theorem State.directEnd_otp (s : State) (k code size base : Nat) : (s.directEnd k code size base).otp = s.otp := by
  simp [State.directEnd]

@[simp] theorem State.directStart_otp (s : State) (k code size base : Nat) : (s.directStart k code size base).otp = s.otp := by
  simp [State.directStart]

@[simp] theorem State.writeSlotWords_otp (s : State) (k v : Nat) : (s.writeSlotWords k v).otp = s.otp := by
  simp [State.writeSlotWords]

@[simp] theorem State.enterDiag_otp (s : State) (k : Nat) : (s.enterDiag k).otp = s.otp := by simp [State.enterDiag]

@[simp] theorem State.leaveDiag_otp (s : State) (k : Nat) : (s.leaveDiag k).otp = s.otp := by simp [State.leaveDiag]

@[simp] theorem State.lieFault_otp (s : State) (k : Nat) : (s.lieFault k).otp = s.otp := by
  unfold State.lieFault
  split <;> simp

@[simp] theorem State.lieErase_otp (s : State) (k : Nat) : (s.lieErase k).otp = s.otp := by simp [State.lieErase]

/-! ### Machine/Protect -/

@[simp] theorem State.holdTrack_otp (s : State) : s.holdTrack.otp = s.otp := by simp [State.holdTrack]

@[simp] theorem State.report_otp (s : State) (src die : Nat) (on : Bool) (d1 d2 : Nat) :
    (s.report src die on d1 d2).otp = s.otp := by simp [State.report]

@[simp] theorem State.eraseJobs_otp (s : State) : s.eraseJobs.otp = s.otp := by simp [State.eraseJobs]

@[simp] theorem State.eraseKeys_otp (s : State) : s.eraseKeys.otp = s.otp := by simp [State.eraseKeys]

@[simp] theorem State.eraseUnits_otp (s : State) : s.eraseUnits.otp = s.otp := by simp [State.eraseUnits]

@[simp] theorem State.eraseEntropy_otp (s : State) : s.eraseEntropy.otp = s.otp := by simp [State.eraseEntropy]

@[simp] theorem State.eraseBbks_otp (s : State) : s.eraseBbks.otp = s.otp := by simp [State.eraseBbks]

@[simp] theorem State.eraseAll_otp (s : State) : s.eraseAll.otp = s.otp := by simp [State.eraseAll]

@[simp] theorem State.startErase_otp (s : State) (src mask : Nat) : (s.startErase src mask).otp = s.otp := by
  simp [State.startErase]

@[simp] theorem State.eraseOnVbat_otp (s : State) (src mask : Nat) : (s.eraseOnVbat src mask).otp = s.otp := by
  simp [State.eraseOnVbat]

@[simp] theorem State.eraseRecords_otp (s : State) (n : Nat) : (s.eraseRecords n).otp = s.otp := by
  induction n generalizing s with
  | zero => rfl
  | succ n ih => simp [State.eraseRecords, ih]

@[simp] theorem State.alertFrom_otp (s : State) (before : Nat) : (s.alertFrom before).otp = s.otp := by simp [State.alertFrom]

@[simp] theorem State.recordAlarm_otp (s : State) (src : Nat) : (s.recordAlarm src).otp = s.otp := by
  unfold State.recordAlarm
  split <;> simp

@[simp] theorem State.respondAlarms_otp (s : State) (new : Nat) : (s.respondAlarms new).otp = s.otp := by
  simp [State.respondAlarms]

@[simp] theorem State.respondOnVbat_otp (s : State) (new : Nat) : (s.respondOnVbat new).otp = s.otp := by
  simp [State.respondOnVbat]

@[simp] theorem State.eraseDie_otp (s : State) (d : Nat) : (s.eraseDie d).otp = s.otp := by simp [State.eraseDie]

@[simp] theorem State.eraseWired_otp (s : State) : s.eraseWired.otp = s.otp := by simp [State.eraseWired]

@[simp] theorem State.evaluate_otp (s : State) : s.evaluate.otp = s.otp := by simp [State.evaluate]

@[simp] theorem State.alarmClear_otp (s : State) (mask : Nat) : (s.alarmClear mask).otp = s.otp := by simp [State.alarmClear]

@[simp] theorem State.bistShow_otp (s : State) (i : Nat) : (s.bistShow i).otp = s.otp := by simp [State.bistShow]

@[simp] theorem State.startBist_otp (s : State) : s.startBist.otp = s.otp := by simp [State.startBist]

@[simp] theorem State.endBist_otp (s : State) (a b : Nat) : (s.endBist a b).otp = s.otp := by simp [State.endBist]

@[simp] theorem State.bicMismatch_otp (s : State) (master addr die : Nat) (keyPath : Bool) :
    (s.bicMismatch master addr die keyPath).otp = s.otp := by simp [State.bicMismatch]

@[simp] theorem State.arm_otp (s : State) (p seeds : Bytes) : (s.arm p seeds).otp = s.otp := by simp [State.arm]

/-! ### Machine/Reset -/

@[simp] theorem State.settleErase_otp (s : State) : s.settleErase.otp = s.otp := by simp [State.settleErase]

@[simp] theorem State.cleared_otp (s : State) : s.cleared.otp = s.otp := by simp [State.cleared]

@[simp] theorem State.afterReset_otp (s old : State) : (s.afterReset old).otp = s.otp := by simp [State.afterReset]

@[simp] theorem State.deviceReset_otp (s : State) (cause : Fld) : (s.deviceReset cause).otp = s.otp := by
  simp [State.deviceReset]

@[simp] theorem State.dropAo_otp (s : State) : s.dropAo.otp = s.otp := by simp [State.dropAo]

@[simp] theorem State.thermalShutdown_otp (s : State) : s.thermalShutdown.otp = s.otp := by simp [State.thermalShutdown]

@[simp] theorem State.mailboxUp_otp (s : State) : s.mailboxUp.otp = s.otp := by simp [State.mailboxUp]

/-! ### Machine/Lifecycle -/

@[simp] theorem State.revokeOwner_f2 (s : State) : s.revokeOwner.otp.f2 = s.otp.f2 := by
  unfold State.revokeOwner
  split <;> simp

@[simp] theorem State.zeroShare_otp (s : State) : s.zeroShare.otp = s.otp := by simp [State.zeroShare]

@[simp] theorem State.enterState_f2 (s : State) (t : Nat) : (s.enterState t).otp.f2 = s.otp.f2 := by
  unfold State.enterState
  repeat' split
  all_goals simp

@[simp] theorem State.doubt_otp (s : State) (d : Doubled) : (s.doubt d).otp = s.otp := by simp [State.doubt]

@[simp] theorem State.commitLife_f2 (s : State) (t : Nat) : (s.commitLife t).otp.f2 = s.otp.f2 := by
  unfold State.commitLife
  split <;> simp

@[simp] theorem State.lcsRequest_f2 (s : State) (dbg : Bool) (t : Nat) : (s.lcsRequest dbg t).otp.f2 = s.otp.f2 := by
  unfold State.lcsRequest
  dsimp only
  repeat' split
  all_goals simp

@[simp] theorem State.lcsWrite_f2 (s : State) (m : Master) (t : Nat) : (s.lcsWrite m t).otp.f2 = s.otp.f2 := by
  unfold State.lcsWrite
  split <;> simp

@[simp] theorem State.finishTransfer_f2 (s : State) : s.finishTransfer.otp.f2 = s.otp.f2 := by
  unfold State.finishTransfer
  dsimp only
  repeat' split
  all_goals simp

@[simp] theorem State.decodeState_otp (s : State) : s.decodeState.otp = s.otp := by simp [State.decodeState]

@[simp] theorem State.decodeLife_f2 (s : State) : s.decodeLife.otp.f2 = s.otp.f2 := by
  unfold State.decodeLife
  split <;> simp

@[simp] theorem State.setOwner_f2 (s : State) (k : Nat) (o : OwnerSlot) : (s.setOwner k o).otp.f2 = s.otp.f2 := by
  simp [State.setOwner]

@[simp] theorem State.newChallenge_otp (s : State) : s.newChallenge.otp = s.otp := by simp [State.newChallenge]

@[simp] theorem State.setLevel_otp (s : State) (l why : Nat) : (s.setLevel l why).otp = s.otp := by simp [State.setLevel]

@[simp] theorem State.lockKeyStore_otp (s : State) : s.lockKeyStore.otp = s.otp := by simp [State.lockKeyStore]

@[simp] theorem State.refuseToken_otp (s : State) (err via : Nat) : (s.refuseToken err via).otp = s.otp := by
  simp [State.refuseToken]

@[simp] theorem State.grant_otp (s : State) (t : Bytes) : (s.grant t).otp = s.otp := by simp [State.grant]

@[simp] theorem State.token_otp (s : State) (t : Bytes) (via : Nat) : (s.token t via).2.otp = s.otp := by
  unfold State.token
  dsimp only
  repeat' split
  all_goals simp

@[simp] theorem State.dropLevel_otp (s : State) (why : Nat) : (s.dropLevel why).otp = s.otp := by simp [State.dropLevel]

@[simp] theorem State.tapSelect_otp (s : State) (ir : Nat) : (s.tapSelect ir).otp = s.otp := by simp [State.tapSelect]

@[simp] theorem State.shiftOut_otp (s : State) (bits v : Nat) : (s.shiftOut bits v).otp = s.otp := by simp [State.shiftOut]

@[simp] theorem State.asBypass_otp (s : State) : s.asBypass.otp = s.otp := by simp [State.asBypass]

@[simp] theorem State.tap?_otp (s : State) (ir : Nat) (ok : Bool) (f : State → State) (hf : LeavesOtp f) :
    (s.tap? ir ok f).otp = s.otp := by
  have h := hf (s.tapSelect ir)
  simp [State.tap?, h]

/-! ### Machine/Time -/

@[simp] theorem State.timeInt_otp (s : State) (f en : Fld) : (s.timeInt f en).otp = s.otp := by simp [State.timeInt]

@[simp] theorem State.checkTarget_otp (s : State) : s.checkTarget.otp = s.otp := by simp [State.checkTarget]

@[simp] theorem State.writeTarget_otp (s : State) (v : Nat) : (s.writeTarget v).otp = s.otp := by simp [State.writeTarget]

@[simp] theorem State.commitStep_otp (s : State) (kind : Nat) (v : Int) : (s.commitStep kind v).otp = s.otp := by
  simp [State.commitStep]

@[simp] theorem State.writeSlew_otp (s : State) (v : Nat) : (s.writeSlew v).otp = s.otp := by simp [State.writeSlew]

@[simp] theorem State.applyStep_otp (s : State) (kind : Nat) (v : Int) : (s.applyStep kind v).otp = s.otp := by
  simp [State.applyStep]

@[simp] theorem execTimeSet_otp (value : Nat) (s : State) : OtpKept s (execTimeSet value s) := .next (by simp)
@[simp] theorem execTimeStep_otp (value : Nat) (s : State) : OtpKept s (execTimeStep value s) := .next (by simp)

/-! ### Machine/Access -/

@[simp] theorem State.plainWrite_otp (s : State) (k : RegKind) (i v : Nat) : (s.plainWrite k i v).otp = s.otp := by
  simp [State.plainWrite]

theorem ran_otp (o : Out) (s : State) (h : OtpKept s o) : (ran o s).otp = s.otp := by
  cases o with
  | next t => exact h t rfl
  | fault => rfl
  | refused => rfl

@[simp] theorem State.writeTimeCtl_otp (s : State) (v : Nat) : (s.writeTimeCtl v).otp = s.otp := by simp [State.writeTimeCtl]

@[simp] theorem State.writeImt_otp (s : State) (k : RegKind) (n v : Nat) : (s.writeImt k n v).otp = s.otp := by
  simp [State.writeImt]

@[simp] theorem State.writeImtMask_otp (s : State) (n v : Nat) : (s.writeImtMask n v).otp = s.otp := by
  simp [State.writeImtMask]

@[simp] theorem State.writeDgeCtl_otp (s : State) (c v : Nat) : (s.writeDgeCtl c v).otp = s.otp := by
  simp [State.writeDgeCtl, ran_otp, execDgeInit_otp, execDgeFin_otp]

@[simp] theorem State.writeRngCtl_otp (s : State) (d v : Nat) : (s.writeRngCtl d v).otp = s.otp := by simp [State.writeRngCtl]

@[simp] theorem State.dklDisable_otp (s : State) (k : Nat) : (s.dklDisable k).otp = s.otp := by simp [State.dklDisable]

@[simp] theorem State.dklMark_otp (s : State) (k : Nat) : (s.dklMark k).otp = s.otp := by simp [State.dklMark]

@[simp] theorem State.dklRegion_otp (s : State) (k r w v writer : Nat) : (s.dklRegion k r w v writer).otp = s.otp := by
  simp [State.dklRegion]

@[simp] theorem State.commitReg_f2 (s : State) (m : Master) (k : RegKind) (i v : Nat) :
    (s.commitReg m k i v).otp.f2 = s.otp.f2 := by
  unfold State.commitReg
  split <;> simp [ran_otp, execTimeSet_otp, execTimeStep_otp, execDgeData_otp, execDgeCompare_otp]

@[simp] theorem State.captureFrac_otp (s : State) (m : Master) : (s.captureFrac m).otp = s.otp := by simp [State.captureFrac]

@[simp] theorem State.readReg_otp (s : State) (m : Master) (k : RegKind) (i : Nat) : (s.readReg m k i).2.otp = s.otp := by
  unfold State.readReg
  split <;> simp

@[simp] theorem State.setHalf_otp (s : State) (m : Master) (x : Master64) : (s.setHalf m x).otp = s.otp := by
  unfold State.setHalf
  split <;> simp

@[simp] theorem State.writePiece_f2 (s : State) (m : Master) (a : Nat) (b : Bytes) :
    (s.writePiece m a b).otp.f2 = s.otp.f2 := by
  unfold State.writePiece
  dsimp only
  repeat' split
  all_goals simp

@[simp] theorem State.readPiece_otp (s : State) (m : Master) (a n : Nat) : (s.readPiece m a n).2.otp = s.otp := by
  unfold State.readPiece
  dsimp only
  repeat' split
  all_goals simp

@[simp] theorem Running.go_f2 (r : Running) (k : Nat) (m : Master) (write : Bool) (bus : Int) (data : Bytes) (a w : Nat) :
    (r.go k m write bus data a w).st.otp.f2 = r.st.otp.f2 := by
  unfold Running.go
  dsimp only
  repeat' split
  all_goals simp

@[simp] theorem Running.all_f2 (k : Nat) (m : Master) (write : Bool) (bus : Int) (r : Running) (data : Bytes)
    (l : List (Nat × Nat)) : (Running.all k m write bus r data l).st.otp.f2 = r.st.otp.f2 := by
  induction l generalizing r data with
  | nil => rfl
  | cons x t ih => simp [Running.all, ih]

@[simp] theorem State.answer_otp (s : State) (m : Master) (write : Bool) (data : Bytes) (refused : Bool) :
    (s.answer m write data refused).otp = s.otp := by
  unfold State.answer
  split <;> simp

@[simp] theorem State.runAccess_f2 (s : State) (k : Nat) (m : Master) (write : Bool) (a bus : Nat) (data : Bytes) (n : Nat) :
    (s.runAccess k m write a bus data n).otp.f2 = s.otp.f2 := by simp [State.runAccess]

@[simp] theorem State.runHeld_f2 (s : State) (k : Nat) (h : HeldAccess) : (s.runHeld k h).otp.f2 = s.otp.f2 := by
  simp [State.runHeld]

@[simp] theorem State.atDeckle_f2 (s : State) (k : Nat) (h : HeldAccess) : (s.atDeckle k h).otp.f2 = s.otp.f2 := by
  unfold State.atDeckle
  repeat' split
  all_goals simp

@[simp] theorem State.drainBehind_f2 (s : State) : s.drainBehind.otp.f2 = s.otp.f2 := by simp [State.drainBehind]

@[simp] theorem State.dklEnable_f2 (s : State) (k : Nat) : (s.dklEnable k).otp.f2 = s.otp.f2 := by simp [State.dklEnable]

@[simp] theorem State.arrive_f2 (s : State) (m : Master) (write : Bool) (a bus : Nat) (data : Bytes) (n : Nat) :
    (s.arrive m write a bus data n).otp.f2 = s.otp.f2 := by
  unfold State.arrive
  repeat' split
  all_goals simp

@[simp] theorem State.refuseWhole_otp (s : State) (m : Master) (write : Bool) (a n : Nat) :
    (s.refuseWhole m write a n).otp = s.otp := by
  unfold State.refuseWhole
  split <;> simp

@[simp] theorem State.bar0_f2 (s : State) (m : Master) (write : Bool) (a : Nat) (data : Bytes) (n : Nat) (full : Bool)
    (code : Nat) : (s.bar0 m write a data n full code).otp.f2 = s.otp.f2 := by
  simp [State.bar0]

@[simp] theorem State.writeMsix_otp (s : State) (a v : Nat) : (s.writeMsix a v).otp = s.otp := by
  unfold State.writeMsix
  repeat' split
  all_goals simp

@[simp] theorem State.writeBar4_otp (s : State) (a : Nat) (l : List Bytes) : (s.writeBar4 a l).otp = s.otp := by
  induction l generalizing s a with
  | nil => rfl
  | cons b t ih => simp [State.writeBar4, ih]

@[simp] theorem State.writeCfg_otp (s : State) (n v : Nat) : (s.writeCfg n v).otp = s.otp := by
  unfold State.writeCfg
  split <;> simp

@[simp] theorem State.writeLieCmd_f2 (s : State) (m : Master) (k code size base : Nat) :
    (s.writeLieCmd m k code size base).otp.f2 = s.otp.f2 := by
  unfold State.writeLieCmd
  split <;> simp

@[simp] theorem State.dklBy_otp (s : State) (k writer off : Nat) (f : State → State) (hf : LeavesOtp f) :
    (s.dklBy k writer off f).otp = s.otp := by
  simp [State.dklBy, hf s]

@[simp] theorem State.debugDenied_otp (s : State) (addr : Nat) (write : Bool) : (s.debugDenied addr write).otp = s.otp := by
  simp [State.debugDenied]

@[simp] theorem State.programVendor_f2 (s : State) (n : Nat) (v : Bytes) : (s.programVendor n v).otp.f2 = s.otp.f2 := by
  unfold State.programVendor
  dsimp only
  repeat' split
  all_goals simp

@[simp] theorem State.haltUnit_otp (s : State) (u : Nat) (halt : Bool) : (s.haltUnit u halt).otp = s.otp := by
  simp [State.haltUnit]

@[simp] theorem State.debugAccess_f2 (s : State) (addr : Nat) (t : DbgTarget) (write : Bool) (data : Nat) :
    (s.debugAccess addr t write data).otp.f2 = s.otp.f2 := by
  unfold State.debugAccess
  dsimp only
  repeat' split
  all_goals simp

/-! ### Machine/Issue -/

@[simp] theorem State.showReloads_otp (s : State) (cl : Nat) : (s.showReloads cl).otp = s.otp := by simp [State.showReloads]

@[simp] theorem State.exclude_otp (s : State) (v : Nat) : (s.exclude v).otp = s.otp := by simp [State.exclude]

@[simp] theorem State.queueReload_otp (s : State) (v : Nat) : (s.queueReload v).otp = s.otp := by simp [State.queueReload]

@[simp] theorem State.retireCore_otp (s : State) (v cause : Nat) : (s.retireCore v cause).otp = s.otp := by
  simp [State.retireCore]

@[simp] theorem State.machineCheck_otp (s : State) (v cause groups addr : Nat) :
    (s.machineCheck v cause groups addr).otp = s.otp := by
  unfold State.machineCheck
  dsimp only
  repeat' split
  all_goals simp

@[simp] theorem State.vcFault_otp (s : State) (v : Nat) (j : Job) (kernel pc cause : Nat) :
    (s.vcFault v j kernel pc cause).otp = s.otp := by simp [State.vcFault]

@[simp] theorem State.countCorrected_otp (s : State) (v : Nat) : (s.countCorrected v).otp = s.otp := by
  simp [State.countCorrected]

@[simp] theorem State.waitOn_otp (s : State) (v : Nat) (masks : Bool) : (s.waitOn v masks).otp = s.otp := by simp [State.waitOn]

@[simp] theorem State.vcDone_otp (s : State) (v : Nat) (c : VCore) (free : Nat) (shared : Memory) (cyc drawn : Nat) :
    (s.vcDone v c free shared cyc drawn).otp = s.otp := by simp [State.vcDone]

@[simp] theorem State.issueFaults_otp (s : State) (v : Nat) (j : Job) (c : VCore) (i : Nat × Nat) (f : VFields) (x : Nat) :
    (s.issueFaults v j c i f x).otp = s.otp := by
  unfold State.issueFaults
  repeat' split
  all_goals simp

@[simp] theorem State.yieldPoint_otp (s : State) (v : Nat) : (s.yieldPoint v).otp = s.otp := by
  unfold State.yieldPoint
  dsimp only
  repeat' split
  all_goals simp

/-- What holds of the sequencer's move holds of the word. The definition is unfolded unapplied: applied, its body makes the
kernel evaluate the microword. -/
theorem State.microStep_keeps (P : State → Prop) (s : State) (v : Nat) (hq : ∀ q n, P { s.setSeq v q with free := n })
    (hy : ∀ u, P u → P (u.yieldPoint v)) (i : Nat × Nat) (f : VFields) (c : VCore) : P (s.microStep v i f c) := by
  suffices h : ∀ F, F = State.microStep → P (F s v i f c) from h _ rfl
  intro F hF
  delta State.microStep at hF
  have e := congrFun (congrFun (congrFun (congrFun (congrFun hF s) v) i) f) c
  rw [e]
  extract_lets q yields
  generalize (s.setSeq v q).nextMicro v f (kword i.1 i.2 f) (s.core v) = x
  obtain ⟨a, st⟩ := x
  cases yields
  · exact hq _ _
  · exact hy _ (hq _ _)

@[simp] theorem State.microStep_otp (s : State) (v : Nat) (i : Nat × Nat) (f : VFields) (c : VCore) :
    (s.microStep v i f c).otp = s.otp :=
  State.microStep_keeps (fun t => t.otp = s.otp) s v (fun q _ => s.setSeq_otp v q) (fun u h => (u.yieldPoint_otp v).trans h)
    i f c

@[simp] theorem State.fetched_otp (s : State) (v : Nat) (i : Nat × Nat) (f : VFields) (k : Job → VCore → State → State)
    (hk : ∀ j c, LeavesOtp (k j c)) : (s.fetched v i f k).otp = s.otp := by
  have h : ∀ j c s, (k j c s).otp = s.otp := hk
  unfold State.fetched
  dsimp only
  repeat' split
  all_goals simp [h]

@[simp] theorem State.issueWith_otp (s : State) (v : Nat) (i : Nat × Nat) (f : VFields) (op : Job → VOp) (control : Bool) :
    (s.issueWith v i f op control).otp = s.otp := by
  refine s.fetched_otp v i f _ (fun j c s => ?_)
  split <;> simp

@[simp] theorem State.issue_otp (s : State) (v : Nat) (i : Nat × Nat) (f : VFields) (op : VOp) :
    (s.issue v i f op).otp = s.otp := by simp [State.issue]

@[simp] theorem State.issueControl_otp (s : State) (v : Nat) (i : Nat × Nat) (f : VFields) (op : VOp) :
    (s.issueControl v i f op).otp = s.otp := by simp [State.issueControl]

@[simp] theorem State.doubtLoad_otp (s : State) (v : Nat) : (s.doubtLoad v).otp = s.otp := by simp [State.doubtLoad]

@[simp] theorem State.issueKey_otp (s : State) (v : Nat) (i : Nat × Nat) (f : VFields) : (s.issueKey v i f).otp = s.otp := by
  refine s.fetched_otp v i f _ (fun j c s => ?_)
  repeat' split
  all_goals simp

@[simp] theorem State.issueYield_otp (s : State) (v : Nat) (i : Nat × Nat) (f : VFields) : (s.issueYield v i f).otp = s.otp := by
  refine s.fetched_otp v i f _ (fun j c s => ?_)
  split <;> simp

@[simp] theorem State.kernelEnd_otp (s : State) (v : Nat) (j : Job) (c : VCore) (st n : Nat) :
    (s.kernelEnd v j c st n).otp = s.otp := by
  unfold State.kernelEnd
  split <;> simp

@[simp] theorem State.issueEnd_otp (s : State) (v : Nat) (i : Nat × Nat) (f : VFields) : (s.issueEnd v i f).otp = s.otp := by
  simp [State.issueEnd]

/-! ### Machine/Kernels -/

@[simp] theorem State.upset_otp (s : State) (v kind mask addr : Nat) : (s.upset v kind mask addr).otp = s.otp := by
  unfold State.upset
  split <;> simp

@[simp] theorem State.reloaded_otp (s : State) (v : Nat) : (s.reloaded v).otp = s.otp := by simp [State.reloaded]

@[simp] theorem State.writeStores_otp (s : State) (a n : Nat) : (s.writeStores a n).otp = s.otp := by simp [State.writeStores]

@[simp] theorem State.ownerKeyCompared_otp (s : State) : s.ownerKeyCompared.otp = s.otp := by simp [State.ownerKeyCompared]

/-! ### Machine/Boot -/

@[simp] theorem State.measure_otp (s : State) (b : Bytes) : (s.measure b).otp = s.otp := by
  simp -implicitDefEqProofs [State.measure]

@[simp] theorem State.keyCompared_otp (s : State) (pk hash : Bytes) : (s.keyCompared pk hash).otp = s.otp := by
  simp [State.keyCompared]

@[simp] theorem State.measureSlot_otp (s : State) (f : Bytes) (step : Nat) : (s.measureSlot f step).otp = s.otp := by
  simp [State.measureSlot]

@[simp] theorem State.trialStep_otp (s : State) : s.trialStep.otp = s.otp := by simp [State.trialStep]

@[simp] theorem State.readFlash_otp (s : State) (k : Nat) : (s.readFlash k).otp = s.otp := by simp [State.readFlash]

@[simp] theorem State.trySlot_otp (s : State) (k : Nat) : (s.trySlot k).2.otp = s.otp := by simp [State.trySlot]

@[simp] theorem State.loadKernels_otp (s : State) (f : Bytes) : (s.loadKernels f).otp = s.otp := by
  refine foldl_otp _ (fun x s => ?_) _ s
  dsimp only
  split <;> rfl

@[simp] theorem State.startFirmware_otp (s : State) : s.startFirmware.otp = s.otp := by simp [State.startFirmware]

@[simp] theorem State.bootFrom_otp (s : State) (k : Nat) (fallback : Bool) : (s.bootFrom k fallback).otp = s.otp := by
  simp [State.bootFrom]

@[simp] theorem State.passVerdict_otp (s : State) (k : Nat) (fallback : Bool) : (s.passVerdict k fallback).otp = s.otp := by
  simp [State.passVerdict]

@[simp] theorem State.rootCheckNow_otp (s : State) : s.rootCheckNow.otp = s.otp := by simp [State.rootCheckNow]

@[simp] theorem State.startPair_otp (s : State) : s.startPair.otp = s.otp := by simp [State.startPair]

@[simp] theorem State.bootEnds_otp (s : State) : s.bootEnds.otp = s.otp := by simp [State.bootEnds]

@[simp] theorem State.unitReady_otp (s : State) (x1 : ReadyUnit) : (s.unitReady x1).otp = s.otp := by
  unfold State.unitReady
  split <;> simp

/-! ### Machine/Commit -/

@[simp] theorem State.agreed_f2 (s : State) (x1 : Doubled) : (s.agreed x1).otp.f2 = s.otp.f2 := by
  unfold State.agreed
  repeat' split
  all_goals simp

@[simp] theorem State.measureOtp_f2 (s : State) (mv : Nat) : (s.measureOtp mv).otp.f2 = s.otp.f2 := by
  unfold State.measureOtp
  dsimp only
  repeat' split
  all_goals simp

/-! ### Machine/Frames -/

@[simp] theorem State.setLink_otp (s : State) (p : Nat) (up : Bool) (speed : Nat) : (s.setLink p up speed).otp = s.otp := by
  simp [State.setLink]

@[simp] theorem State.sendPause_otp (s : State) (p quanta : Nat) : (s.sendPause p quanta).otp = s.otp := by
  simp [State.sendPause]

@[simp] theorem State.pauseGen_otp (s : State) (p : Nat) : (s.pauseGen p).otp = s.otp := by simp [State.pauseGen]

@[simp] theorem State.dropFrame_otp (s : State) (f : RxFrame) : (s.dropFrame f).otp = s.otp := by simp [State.dropFrame]

@[simp] theorem State.bufferHigh_otp (s : State) (d : Nat) : (s.bufferHigh d).otp = s.otp := by simp [State.bufferHigh]

@[simp] theorem State.storeFrame_otp (s : State) (f : RxFrame) : (s.storeFrame f).otp = s.otp := by simp [State.storeFrame]

@[simp] theorem State.takePause_otp (s : State) (p q : Nat) : (s.takePause p q).otp = s.otp := by simp [State.takePause]

@[simp] theorem State.unjudged_otp (s : State) (f : RxFrame) (cls : Nat) (above : Bool) :
    (s.unjudged f cls above).otp = s.otp := by
  unfold State.unjudged
  split <;> simp

@[simp] theorem State.atEntry_otp (s : State) (lineNs : Nat) : (s.atEntry lineNs).otp = s.otp := by simp [State.atEntry]

@[simp] theorem State.parseFrame_otp (s : State) (p : Nat) (data : Bytes) (ingress lineNs : Nat) (e : Extension) :
    (s.parseFrame p data ingress lineNs e).otp = s.otp := by
  unfold State.parseFrame
  dsimp only
  repeat' split
  all_goals simp -implicitDefEqProofs

@[simp] theorem State.commitPass_otp (s : State) (n : Nat) (f : RxFrame) : (s.commitPass n f).otp = s.otp := by
  unfold State.commitPass
  dsimp only
  repeat' split
  all_goals simp

@[simp] theorem State.pipeDisagree_otp (s : State) (f : RxFrame) (n : Nat) : (s.pipeDisagree f n).otp = s.otp := by
  simp [State.pipeDisagree]

@[simp] theorem State.awaitDelivery_otp (s : State) (f : RxFrame) (v : Nat) (rings : List Nat) :
    (s.awaitDelivery f v rings).otp = s.otp := by simp [State.awaitDelivery]

@[simp] theorem State.postVerdict_otp (s : State) (f : RxFrame) (n : Nat) (disagree : Bool) :
    (s.postVerdict f n disagree).otp = s.otp := by
  unfold State.postVerdict
  extract_lets x p lat v a b c d e g
  have ha : a.otp = s.otp := by simp only [a]; split <;> simp
  have hb : b.otp = a.otp := by simp only [b]; split <;> simp
  have hc : c.otp = b.otp := by simp only [c]; split <;> simp
  have hd : d.otp = c.otp := State.countStream_otp ..
  clear_value a b c d
  have he : e.otp = d.otp := by simp [e]
  have hg : g.otp = e.otp := by simp [g]
  clear_value e g
  split
  · simp [*]
  · split <;> simp [*]

@[simp] theorem State.discardFrame_otp (s : State) (f : RxFrame) : (s.discardFrame f).otp = s.otp := by
  simp [State.discardFrame]

@[simp] theorem State.deliveryOver_otp (s : State) (f : RxFrame) (r : Nat) : (s.deliveryOver f r).otp = s.otp := by
  simp [State.deliveryOver]

@[simp] theorem State.dropDelivery_otp (s : State) (f : RxFrame) (r cause : Nat) : (s.dropDelivery f r cause).otp = s.otp := by
  unfold State.dropDelivery
  repeat' split
  all_goals simp

@[simp] theorem State.deliver_otp (s : State) (f : RxFrame) (r : Nat) : (s.deliver f r).otp = s.otp := by
  unfold State.deliver
  split <;> simp

/-! ### Machine/Duplex -/

@[simp] theorem State.setDup_otp (s : State) (x : Nat) : (s.setDup x).otp = s.otp := by simp [State.setDup]

@[simp] theorem State.mirrorEvent_otp (s : State) (code sev d0 d1 d2 : Nat) : (s.mirrorEvent code sev d0 d1 d2).otp = s.otp :=
    by simp [State.mirrorEvent]

@[simp] theorem State.mirrorRole_otp (s : State) (p : Nat) (on : Bool) : (s.mirrorRole p on).otp = s.otp := by
  simp [State.mirrorRole]

@[simp] theorem State.startPairing_otp (s : State) (initiator renew : Bool) (hash r : Bytes) :
    (s.startPairing initiator renew hash r).otp = s.otp := by simp [State.startPairing]

@[simp] theorem State.learnMac_otp (s : State) (link : Nat) (mac : Bytes) : (s.learnMac link mac).otp = s.otp := by
  simp [State.learnMac]

@[simp] theorem State.establish_otp (s : State) (p : Pairing) (secret : Bytes) : (s.establish p secret).otp = s.otp := by
  simp [State.establish]

@[simp] theorem State.lagNow_otp (s : State) : s.lagNow.otp = s.otp := by simp [State.lagNow]

@[simp] theorem State.startResync_otp (s : State) : s.startResync.otp = s.otp := by simp [State.startResync]

@[simp] theorem State.settleRoles_otp (s : State) (peer : Nat) : (s.settleRoles peer).otp = s.otp := by simp [State.settleRoles]

@[simp] theorem State.degrade_otp (s : State) (q ti why : Nat) : (s.degrade q ti why).otp = s.otp := by simp [State.degrade]

@[simp] theorem State.settleAck_otp (s : State) (u : Nat × Nat × Option Nat × Nat) : (s.settleAck u).otp = s.otp := by
  unfold State.settleAck
  split <;> simp

@[simp] theorem State.takeAck_otp (s : State) (q : Nat) (accepted : Bool) : (s.takeAck q accepted).otp = s.otp := by
  unfold State.takeAck
  split <;> simp

@[simp] theorem State.takeKey_otp (s : State) (ti slot gen typ usage : Nat) (b : Bytes) :
    (s.takeKey ti slot gen typ usage b).2.otp = s.otp := by
  unfold State.takeKey
  dsimp only
  repeat' split
  all_goals simp

@[simp] theorem State.takeDelete_otp (s : State) (ti slot : Nat) : (s.takeDelete ti slot).2.otp = s.otp := by
  unfold State.takeDelete
  split <;> simp

@[simp] theorem State.takeContext_otp (s : State) (n : Nat) (x : Stream) : (s.takeContext n x).2.otp = s.otp := by
  unfold State.takeContext
  dsimp only
  repeat' split
  all_goals simp

@[simp] theorem State.takeDrop_otp (s : State) (n : Nat) : (s.takeDrop n).2.otp = s.otp := by
  unfold State.takeDrop
  dsimp only
  repeat' split
  all_goals simp

@[simp] theorem State.takeSyncEnd_otp (s : State) : s.takeSyncEnd.2.otp = s.otp := by
  unfold State.takeSyncEnd
  split <;> simp

@[simp] theorem State.takeSyncBegin_otp (s : State) : s.takeSyncBegin.otp = s.otp := by simp [State.takeSyncBegin]

@[simp] theorem mirrorAnswer_otp (seq : Nat) (r : Bool × State) : (mirrorAnswer seq r).otp = r.2.otp := by
  simp [mirrorAnswer]

@[simp] theorem State.apply_otp (s : State) (seq : Nat) (b : MirrorBody) : (s.apply seq b).otp = s.otp := by
  unfold State.apply
  cases b <;> simp

@[simp] theorem State.hear_otp (s : State) (link : Nat) : (s.hear link).otp = s.otp := by simp [State.hear]

@[simp] theorem State.heardRole_otp (s : State) (b : MirrorBody) : (s.heardRole b).otp = s.otp := by
  unfold State.heardRole
  split <;> simp

@[simp] theorem State.mirrorReceive_otp (s : State) (link seq : Nat) (authentic : Bool) (b : MirrorBody) :
    (s.mirrorReceive link seq authentic b).otp = s.otp := by simp [State.mirrorReceive]

@[simp] theorem State.unhold_otp (s : State) (n : Nat) : (s.unhold n).otp = s.otp := by simp [State.unhold]

@[simp] theorem State.promoteRole_otp (s : State) (why : Nat) : (s.promoteRole why).otp = s.otp := by simp [State.promoteRole]

/-! ### Machine/Firmware -/

@[simp] theorem State.setFlash_otp (s : State) (k : Nat) (b : Bytes) : (s.setFlash k b).otp = s.otp := by simp [State.setFlash]

@[simp] theorem State.retest_otp (s : State) (d b fail : Nat) : (s.retest d b fail).otp = s.otp := by simp [State.retest]

@[simp] theorem State.bankOut_otp (s : State) (d b : Nat) : (s.bankOut d b).otp = s.otp := by simp [State.bankOut]

@[simp] theorem State.clusterReady_otp (s : State) (cl : Nat) (on : Bool) : (s.clusterReady cl on).otp = s.otp := by
  simp [State.clusterReady]

@[simp] theorem State.dropCopies_otp (s : State) (cl : Nat) : (s.dropCopies cl).otp = s.otp := by simp [State.dropCopies]

@[simp] theorem State.overwrite_otp (s : State) (cl kind : Nat) : (s.overwrite cl kind).otp = s.otp := by simp [State.overwrite]

@[simp] theorem State.keepOr_otp (s : State) (f : Fld) (i v : Nat) : (s.keepOr f i v).otp = s.otp := by simp [State.keepOr]

@[simp] theorem State.rngSet_otp (s : State) (p : Bytes) (d : Nat) : (s.rngSet p d).otp = s.otp := by simp [State.rngSet]

/-! ### Machine/Ftx -/

@[simp] theorem State.takeFtx_otp (r : Nat) (l : List Bytes) (s : State) : (State.takeFtx r l s).otp = s.otp := by
  induction l generalizing s with
  | nil => rfl
  | cons b t ih => simp [State.takeFtx, ih]

@[simp] theorem State.dropTx_otp (s : State) (f : TxFrame) : (s.dropTx f).otp = s.otp := by simp [State.dropTx]

@[simp] theorem State.reportTx_otp (s : State) (f : TxFrame) (st detail : Nat) : (s.reportTx f st detail).otp = s.otp := by
  simp [State.reportTx]

@[simp] theorem State.refuseTx_otp (s : State) (f : TxFrame) (st : Nat) : (s.refuseTx f st).otp = s.otp := by
  simp [State.refuseTx]

@[simp] theorem State.settleTx_otp (s : State) (f : TxFrame) : (s.settleTx f).otp = s.otp := by
  unfold State.settleTx
  dsimp only
  repeat' split
  all_goals simp

@[simp] theorem State.lateTx_otp (s : State) (f : TxFrame) (p : Nat) : (s.lateTx f p).1.otp = s.otp := by simp [State.lateTx]

@[simp] theorem State.queueTx_otp (s : State) (f : TxFrame) (data : Bytes) (t : Nat) : (s.queueTx f data t).otp = s.otp := by
  unfold State.queueTx
  extract_lets ps a both q u g r
  have hu : u.otp = s.otp := by
    simp only [u]
    split <;> simp
  have hr : r.1.otp = u.otp :=
    foldl_keeps (fun x : State × TxFrame => x.1.otp = u.otp) _ (fun x p hx => by rw [State.lateTx_otp, hx]) _ _ rfl
  split
  · rw [State.settleTx_otp, hr, hu]
  · rw [State.settleTx_otp, hu]

@[simp] theorem State.readTx_otp (s : State) (f : TxFrame) (data : Bytes) (fault : Nat) :
    (s.readTx f data fault).otp = s.otp := by
  unfold State.readTx
  dsimp only
  repeat' split
  all_goals simp

@[simp] theorem State.startTx_otp (s : State) (f : TxFrame) (p : Nat) : (s.startTx f p).otp = s.otp := by simp [State.startTx]

/-! ### Machine/Power -/

@[simp] theorem State.runAt_otp (s : State) (d old new why : Nat) : (s.runAt d old new why).otp = s.otp := by simp [State.runAt]

@[simp] theorem State.setVcore_otp (s : State) (d p : Nat) : (s.setVcore d p).otp = s.otp := by simp [State.setVcore]

@[simp] theorem State.stepDown_otp (s : State) (d why : Nat) : (s.stepDown d why).otp = s.otp := by simp [State.stepDown]

@[simp] theorem State.stepUp_otp (s : State) (d why : Nat) : (s.stepUp d why).otp = s.otp := by simp [State.stepUp]

@[simp] theorem State.endChange_otp (s : State) (d : Nat) : (s.endChange d).otp = s.otp := by simp [State.endChange]

@[simp] theorem State.capping_otp (s : State) : s.capping.otp = s.otp := by simp [State.capping]

@[simp] theorem State.capUnmet_otp (s : State) (above : Bool) : (s.capUnmet above).otp = s.otp := by simp [State.capUnmet]

@[simp] theorem State.capEvaluate_otp (s : State) : s.capEvaluate.otp = s.otp := by
  unfold State.capEvaluate
  dsimp only
  repeat' split
  all_goals simp

@[simp] theorem State.throttle_otp (s : State) (d : Nat) : (s.throttle d).otp = s.otp := by simp [State.throttle]

@[simp] theorem State.thermPin_otp (s : State) : s.thermPin.otp = s.otp := by simp [State.thermPin]

@[simp] theorem State.sample_otp (s : State) (temps : List Int) : (s.sample temps).otp = s.otp := by simp [State.sample]

@[simp] theorem State.smbRead_otp (s : State) (cmd n v : Nat) (withPec : Bool) : (s.smbRead cmd n v withPec).otp = s.otp := by
  simp [State.smbRead]

/-! ### Machine/Save -/

@[simp] theorem State.storeSlot_otp (s : State) (k : Nat) (c : VCore) : (s.storeSlot k c).otp = s.otp := by
  simp [State.storeSlot]

@[simp] theorem State.refreshDraw_otp (s : State) (v bits : Nat) : OptKept s.otp (s.refreshDraw v bits) := by
  simp [State.refreshDraw]

theorem State.refreshed_otp (s t : State) (v : Nat) (c c' : VCore) (h : s.refreshed v c = some (c', t)) : t.otp = s.otp := by
  obtain ⟨u, hu, e⟩ := Option.map_eq_some_iff.1 h
  cases e
  exact s.refreshDraw_otp v _ u hu

@[simp] theorem State.saveJob_otp (s : State) (j : Job) (v k : Nat) (c : VCore) : (s.saveJob j v k c).otp = s.otp := by
  simp [State.saveJob]

@[simp] theorem State.resume_otp (s : State) (j : Job) (v : Nat) (c : VCore) : (s.resume j v c).otp = s.otp := by
  simp [State.resume]

end Sys2Proof.Machine
end

section
/-!
What every instruction but PROT_F2_SET leaves: the OTP, or where it may program other words of it, the F2 bit. O3 and O4 follow
(R5, R432).
-/

namespace Sys2Proof.Machine

@[simp] theorem State.cmd_f2 (s : State) (op : Nat) (f : State → Bytes → State) (hf : ∀ p, LeavesF2 (fun s => f s p)) :
    (s.cmd op f).otp.f2 = s.otp.f2 := by
  unfold State.cmd
  split
  · exact hf _ s
  · rfl

@[simp] theorem State.cmdIf_f2 (s : State) (op : Nat) (checks : State → Bytes → List (Bool × Nat × Nat))
    (f : State → Bytes → State) (hf : ∀ p, LeavesF2 (fun s => f s p)) : (s.cmdIf op checks f).otp.f2 = s.otp.f2 := by
  refine s.cmd_f2 op _ (fun p s => ?_)
  dsimp only
  split
  · simp
  · exact hf p s

@[simp] theorem State.tap?_f2 (s : State) (ir : Nat) (ok : Bool) (f : State → State) (hf : LeavesF2 f) :
    (s.tap? ir ok f).otp.f2 = s.otp.f2 := by
  have h := hf (s.tapSelect ir)
  simp [State.tap?, h]

@[simp] theorem State.dklBy_f2 (s : State) (k writer off : Nat) (f : State → State) (hf : LeavesF2 f) :
    (s.dklBy k writer off f).otp.f2 = s.otp.f2 := by
  simp [State.dklBy, hf s]

/-! ### Machine/Rng -/

@[simp] theorem execEntropyEnable_otp (die : Nat) (s : State) : OtpKept s (execEntropyEnable die s) := by
  unfold execEntropyEnable
  split <;> simp

@[simp] theorem execStartupTestEnd_otp (die failRct failApt : Nat) (s : State) :
    OtpKept s (execStartupTestEnd die failRct failApt s) := by
  unfold execStartupTestEnd
  split <;> simp

@[simp] theorem execBankHealthFailure_otp (die bank test : Nat) (s : State) :
    OtpKept s (execBankHealthFailure die bank test s) := by
  unfold execBankHealthFailure
  split <;> simp

@[simp] theorem execBankRetry_otp (die bank fail dt : Nat) (s : State) : OtpKept s (execBankRetry die bank fail dt s) := by
  unfold execBankRetry
  dsimp only
  repeat' split
  all_goals simp

@[simp] theorem execDrbgGenerate_otp (die : Nat) (s : State) : OtpKept s (execDrbgGenerate die s) := by
  unfold execDrbgGenerate
  dsimp only
  split
  · split
    · exact .next (otp_of_snd (s.drbgTake_otp die 32) ‹_›)
    · next t e => exact .next (by simp [otp_of_snd (s.drbgTake_otp die 32) e])
  · split
    · exact .next rfl
    · split
      · exact .next (otp_of_snd (s.drbgTake_otp die _) ‹_›)
      · next t e => exact .next (by simp [otp_of_snd (s.drbgTake_otp die _) e])
  · exact .next (by simp)

@[simp] theorem execDrbgReseed_otp (die : Nat) (s : State) : OtpKept s (execDrbgReseed die s) := .next (by simp)

@[simp] theorem execIntakeRound_otp (die : Nat) (arrived : List Nat) (dt : Nat) (s : State) :
    OtpKept s (execIntakeRound die arrived dt s) := by
  unfold execIntakeRound
  dsimp only
  repeat' split
  all_goals simp

@[simp] theorem execBorrowedSeedArrival_otp (die : Nat) (s : State) : OtpKept s (execBorrowedSeedArrival die s) := by
  unfold execBorrowedSeedArrival
  dsimp only
  repeat' split
  all_goals simp

@[simp] theorem execMgenBlock_otp (vc dt : Nat) (s : State) : OtpKept s (execMgenBlock vc dt s) := by
  unfold execMgenBlock
  dsimp only
  repeat' split
  all_goals simp

@[simp] theorem execMgenReseedRequest_otp (vc : Nat) (s : State) : OtpKept s (execMgenReseedRequest vc s) := by
  unfold execMgenReseedRequest
  split <;> simp

@[simp] theorem execMgenSeedArrival_otp (vc : Nat) (s : State) : OtpKept s (execMgenSeedArrival vc s) := by
  unfold execMgenSeedArrival
  repeat' split
  all_goals simp

@[simp] theorem execMgenSeedApply_otp (vc : Nat) (s : State) : OtpKept s (execMgenSeedApply vc s) := by
  unfold execMgenSeedApply
  repeat' split
  all_goals simp

/-! ### Machine/Dge -/

@[simp] theorem execSnoopSelfFinish_otp (chan : Nat) (s : State) : OtpKept s (execSnoopSelfFinish chan s) := by
  unfold execSnoopSelfFinish
  split
  · simp
  · split
    · simp
    · split <;> split <;> simp -implicitDefEqProofs

/-! ### Machine/Mailbox -/

@[simp] theorem execMailboxGo_otp (s : State) : OtpKept s (execMailboxGo s) := .next (by simp)
@[simp] theorem execMailboxAbort_otp (s : State) : OtpKept s (execMailboxAbort s) := .next (by simp)

@[simp] theorem execMailboxTimeout_otp (dt : Nat) (s : State) : OtpKept s (execMailboxTimeout dt s) := by
  unfold execMailboxTimeout
  dsimp only
  repeat' split
  all_goals simp

@[simp] theorem execEcho_otp (s : State) : OtpKept s (execEcho s) := .next (by simp)

/-! ### Machine/Host -/

@[simp] theorem execImtUnmask_otp (entry : Nat) (s : State) : OtpKept s (execImtUnmask entry s) := by
  unfold execImtUnmask
  split <;> simp

@[simp] theorem execMsixRelease_otp (vector : Nat) (s : State) : OtpKept s (execMsixRelease vector s) := by
  unfold execMsixRelease
  split <;> simp

@[simp] theorem execCoalesceTimer_otp (ring dt : Nat) (s : State) : OtpKept s (execCoalesceTimer ring dt s) := by
  unfold execCoalesceTimer
  dsimp only
  repeat' split
  all_goals simp

@[simp] theorem execDoorbell_otp (offset : Nat) (data : Bytes) (s : State) : OtpKept s (execDoorbell offset data s) :=
    .next (by simp)

/-! ### Machine/Ring -/

@[simp] theorem execCqFullTimeout_otp (ring dt : Nat) (s : State) : OtpKept s (execCqFullTimeout ring dt s) := by
  unfold execCqFullTimeout
  dsimp only
  repeat' split
  all_goals simp

@[simp] theorem execHeldCqeWrite_otp (ring : Nat) (s : State) : OtpKept s (execHeldCqeWrite ring s) := by
  unfold execHeldCqeWrite
  dsimp only
  repeat' split
  all_goals simp

@[simp] theorem execRingDisableComplete_otp (ring : Nat) (s : State) : OtpKept s (execRingDisableComplete ring s) := by
  unfold execRingDisableComplete
  split <;> simp

@[simp] theorem execTenantEnableRequest_otp (ring ctl : Nat) (s : State) : OtpKept s (execTenantEnableRequest ring ctl s) := by
  unfold execTenantEnableRequest
  split <;> simp

@[simp] theorem execTenantDisableRequest_otp (ring ctl : Nat) (s : State) :
    OtpKept s (execTenantDisableRequest ring ctl s) := by
  unfold execTenantDisableRequest
  split <;> simp

@[simp] theorem execTenantCtlRefused_otp (ring ctl : Nat) (s : State) : OtpKept s (execTenantCtlRefused ring ctl s) := by
  unfold execTenantCtlRefused
  split <;> simp

@[simp] theorem execHeaderReadComplete_otp (ring tidx ctl : Nat) (s : State) :
    OtpKept s (execHeaderReadComplete ring tidx ctl s) := by
  unfold execHeaderReadComplete
  dsimp only
  repeat' split
  all_goals simp

@[simp] theorem execConsumerIndexPoll_otp (ring tidx dt : Nat) (s : State) :
    OtpKept s (execConsumerIndexPoll ring tidx dt s) := by
  unfold execConsumerIndexPoll
  dsimp only
  repeat' split
  all_goals simp

@[simp] theorem execSqFetch_otp (entries : List Bytes) (s : State) : OtpKept s (execSqFetch entries s) := by
  unfold execSqFetch
  dsimp only
  repeat' split
  all_goals simp -implicitDefEqProofs

@[simp] theorem execPublishedHeadWrite_otp (ring dt : Nat) (s : State) : OtpKept s (execPublishedHeadWrite ring dt s) := by
  unfold execPublishedHeadWrite
  dsimp only
  repeat' split
  all_goals simp

@[simp] theorem execDmaReadError_otp (target : DmaTarget) (kind addr : Nat) (s : State) :
    OtpKept s (execDmaReadError target kind addr s) := by
  unfold execDmaReadError
  split <;> simp

@[simp] theorem execDmaCompletionTimeout_otp (target : DmaTarget) (addr dt : Nat) (s : State) :
    OtpKept s (execDmaCompletionTimeout target addr dt s) := by
  unfold execDmaCompletionTimeout
  dsimp only
  repeat' split
  all_goals simp

@[simp] theorem execBusMasterDisable_otp (d3 : Bool) (s : State) : OtpKept s (execBusMasterDisable d3 s) := .next (by simp)
@[simp] theorem execBusMasterEnable_otp (d3 : Bool) (s : State) : OtpKept s (execBusMasterEnable d3 s) := .next (by simp)

@[simp] theorem execRingCreate_otp (s : State) : OtpKept s (execRingCreate s) := by
  refine .next (s.cmd_otp _ _ (fun p s => ?_))
  dsimp only
  repeat' split
  all_goals simp

@[simp] theorem execRingDestroy_otp (s : State) : OtpKept s (execRingDestroy s) := by
  refine .next (s.cmd_otp _ _ (fun p s => ?_))
  dsimp only
  repeat' split
  all_goals simp

@[simp] theorem execRingEnable_otp (s : State) : OtpKept s (execRingEnable s) := by
  refine .next (s.cmd_otp _ _ (fun p s => ?_))
  dsimp only
  repeat' split
  all_goals simp

@[simp] theorem execRingDisable_otp (s : State) : OtpKept s (execRingDisable s) := by
  refine .next (s.cmd_otp _ _ (fun p s => ?_))
  dsimp only
  repeat' split
  all_goals simp

@[simp] theorem execRingSetArb_otp (s : State) : OtpKept s (execRingSetArb s) := by
  refine .next (s.cmd_otp _ _ (fun p s => ?_))
  dsimp only
  repeat' split
  all_goals simp

@[simp] theorem execRingSetInt_otp (s : State) : OtpKept s (execRingSetInt s) := by
  refine .next (s.cmd_otp _ _ (fun p s => ?_))
  dsimp only
  repeat' split
  all_goals simp

/-! ### Machine/Modes -/

@[simp] theorem execHoldEnd_otp (dt : Nat) (s : State) : OtpKept s (execHoldEnd dt s) := by
  unfold execHoldEnd
  dsimp only
  repeat' split
  all_goals simp

@[simp] theorem execDgeCompareDone_otp (chan faultA faultB dt : Nat) (s : State) :
    OtpKept s (execDgeCompareDone chan faultA faultB dt s) := by
  unfold execDgeCompareDone
  dsimp only
  repeat' split
  all_goals simp

@[simp] theorem execIdlClockLoss_otp (a b : Nat) (s : State) : OtpKept s (execIdlClockLoss a b s) := by
  unfold execIdlClockLoss
  dsimp only
  repeat' split
  all_goals simp

/-! ### Machine/Sched -/

@[simp] theorem execSqeAccept_otp (ring : Nat) (lead : LeadBytes) (readFault : Nat) (s : State) :
    OtpKept s (execSqeAccept ring lead readFault s) := by
  unfold execSqeAccept
  dsimp only
  repeat' split
  all_goals simp

@[simp] theorem execDispatchPass_otp (die : Nat) (reads : List JobRead) (s : State) :
    OtpKept s (execDispatchPass die reads s) := by
  unfold execDispatchPass
  split <;> simp

@[simp] theorem execKeyArrival_otp (job dt : Nat) (s : State) : OtpKept s (execKeyArrival job dt s) := by
  unfold execKeyArrival
  dsimp only
  repeat' split
  all_goals simp

@[simp] theorem execClockMeasurementWindow_otp (vc mhz dt : Nat) (s : State) :
    OtpKept s (execClockMeasurementWindow vc mhz dt s) := by
  unfold execClockMeasurementWindow
  dsimp only
  repeat' split
  all_goals simp

@[simp] theorem execBalancerPeriod_otp (dt : Nat) (s : State) : OtpKept s (execBalancerPeriod dt s) := by
  unfold execBalancerPeriod
  dsimp only
  repeat' split
  all_goals simp

@[simp] theorem execWaitTimeout_otp (job dt : Nat) (s : State) : OtpKept s (execWaitTimeout job dt s) := by
  unfold execWaitTimeout
  dsimp only
  repeat' split
  all_goals simp

@[simp] theorem execSchedSetShare_otp (s : State) : OtpKept s (execSchedSetShare s) := by
  refine .next (s.cmd_otp _ _ (fun p s => ?_))
  dsimp only
  repeat' split
  all_goals simp

@[simp] theorem execSchedSetReserve_otp (s : State) : OtpKept s (execSchedSetReserve s) := by
  refine .next (s.cmd_otp _ _ (fun p s => ?_))
  dsimp only
  repeat' split
  all_goals simp

@[simp] theorem execSchedSetBalance_otp (s : State) : OtpKept s (execSchedSetBalance s) := by
  refine .next (s.cmd_otp _ _ (fun p s => ?_))
  dsimp only
  repeat' split
  all_goals simp

@[simp] theorem execSchedSetWait_otp (s : State) : OtpKept s (execSchedSetWait s) := by
  refine .next (s.cmd_otp _ _ (fun p s => ?_))
  dsimp only
  split <;> simp

/-! ### Machine/OpsEc -/

@[simp] theorem execRsaPssSign_otp (job : Nat) (s : State) : OtpKept s (execRsaPssSign job s) := .next (by simp)
@[simp] theorem execRsaPssVerify_otp (job : Nat) (s : State) : OtpKept s (execRsaPssVerify job s) := .next (by simp)
@[simp] theorem execRsaPkcs1Sign_otp (job : Nat) (s : State) : OtpKept s (execRsaPkcs1Sign job s) := .next (by simp)
@[simp] theorem execRsaPkcs1Verify_otp (job : Nat) (s : State) : OtpKept s (execRsaPkcs1Verify job s) := .next (by simp)
@[simp] theorem execRsaOaepDecrypt_otp (job : Nat) (s : State) : OtpKept s (execRsaOaepDecrypt job s) := .next (by simp)
@[simp] theorem execRsaOaepEncrypt_otp (job : Nat) (s : State) : OtpKept s (execRsaOaepEncrypt job s) := .next (by simp)
@[simp] theorem execEcKeygen_otp (job : Nat) (s : State) : OtpKept s (execEcKeygen job s) := .next (by simp)
@[simp] theorem execEcSign_otp (job : Nat) (s : State) : OtpKept s (execEcSign job s) := .next (by simp)
@[simp] theorem execEcVerify_otp (job : Nat) (s : State) : OtpKept s (execEcVerify job s) := .next (by simp)
@[simp] theorem execEcDerive_otp (job : Nat) (s : State) : OtpKept s (execEcDerive job s) := .next (by simp)
@[simp] theorem execHybridKeygen_otp (job : Nat) (s : State) : OtpKept s (execHybridKeygen job s) := .next (by simp)
@[simp] theorem execHybridEncapsOrSign_otp (job : Nat) (s : State) : OtpKept s (execHybridEncapsOrSign job s) := .next (by simp)

@[simp] theorem execHybridDecapsOrVerify_otp (job : Nat) (s : State) : OtpKept s (execHybridDecapsOrVerify job s) :=
    .next (by simp)

/-! ### Machine/OpsSym -/

@[simp] theorem execSha2Digest_otp (job : Nat) (s : State) : OtpKept s (execSha2Digest job s) := .next (by simp)
@[simp] theorem execSha3Digest_otp (job : Nat) (s : State) : OtpKept s (execSha3Digest job s) := .next (by simp)
@[simp] theorem execShakeOutput_otp (job : Nat) (s : State) : OtpKept s (execShakeOutput job s) := .next (by simp)
@[simp] theorem execCshakeOutput_otp (job : Nat) (s : State) : OtpKept s (execCshakeOutput job s) := .next (by simp)
@[simp] theorem execHmacTag_otp (job : Nat) (s : State) : OtpKept s (execHmacTag job s) := .next (by simp)
@[simp] theorem execHmacVerify_otp (job : Nat) (s : State) : OtpKept s (execHmacVerify job s) := .next (by simp)
@[simp] theorem execKmacTag_otp (job : Nat) (s : State) : OtpKept s (execKmacTag job s) := .next (by simp)
@[simp] theorem execKmacVerify_otp (job : Nat) (s : State) : OtpKept s (execKmacVerify job s) := .next (by simp)
@[simp] theorem execGcmEncrypt_otp (job : Nat) (s : State) : OtpKept s (execGcmEncrypt job s) := .next (by simp)
@[simp] theorem execGcmDecrypt_otp (job : Nat) (s : State) : OtpKept s (execGcmDecrypt job s) := .next (by simp)
@[simp] theorem execGmacGenerate_otp (job : Nat) (s : State) : OtpKept s (execGmacGenerate job s) := .next (by simp)
@[simp] theorem execGmacVerify_otp (job : Nat) (s : State) : OtpKept s (execGmacVerify job s) := .next (by simp)
@[simp] theorem execKeyWrap_otp (job : Nat) (s : State) : OtpKept s (execKeyWrap job s) := .next (by simp)
@[simp] theorem execKeyUnwrap_otp (job : Nat) (s : State) : OtpKept s (execKeyUnwrap job s) := .next (by simp)
@[simp] theorem execKeyWrapPad_otp (job : Nat) (s : State) : OtpKept s (execKeyWrapPad job s) := .next (by simp)
@[simp] theorem execKeyUnwrapPad_otp (job : Nat) (s : State) : OtpKept s (execKeyUnwrapPad job s) := .next (by simp)
@[simp] theorem execRandomBytes_otp (job : Nat) (s : State) : OtpKept s (execRandomBytes job s) := .next (by simp)
@[simp] theorem execRandomBytesPr_otp (job : Nat) (s : State) : OtpKept s (execRandomBytesPr job s) := .next (by simp)

/-! ### Machine/OpsKey -/

@[simp] theorem execGenerateSecretKey_otp (job : Nat) (s : State) : OtpKept s (execGenerateSecretKey job s) := .next (by simp)
@[simp] theorem execKmacDerive_otp (job : Nat) (s : State) : OtpKept s (execKmacDerive job s) := .next (by simp)
@[simp] theorem execKeyImport_otp (job : Nat) (s : State) : OtpKept s (execKeyImport job s) := .next (by simp)
@[simp] theorem execExportWrapped_otp (job : Nat) (s : State) : OtpKept s (execExportWrapped job s) := .next (by simp)
@[simp] theorem execDeleteAndZeroise_otp (job : Nat) (s : State) : OtpKept s (execDeleteAndZeroise job s) := .next (by simp)
@[simp] theorem execReadPublicKey_otp (job : Nat) (s : State) : OtpKept s (execReadPublicKey job s) := .next (by simp)

@[simp] theorem execMakePublicKeyResident_otp (job : Nat) (s : State) : OtpKept s (execMakePublicKeyResident job s) :=
    .next (by simp)

@[simp] theorem execKeyInformation_otp (job : Nat) (s : State) : OtpKept s (execKeyInformation job s) := .next (by simp)
@[simp] theorem execAttestationQuote_otp (job : Nat) (s : State) : OtpKept s (execAttestationQuote job s) := .next (by simp)

@[simp] theorem execInstallNextStreamKey_otp (job : Nat) (s : State) : OtpKept s (execInstallNextStreamKey job s) :=
    .next (by simp)

@[simp] theorem execReplaceCurrentStreamKey_otp (job : Nat) (s : State) : OtpKept s (execReplaceCurrentStreamKey job s) :=
    .next (by simp)

/-! ### Machine/Recorder -/

@[simp] theorem execEventCommit_otp (s : State) : OtpKept s (execEventCommit s) := by
  unfold execEventCommit
  split <;> simp

@[simp] theorem execEvrWindow0Read_otp (master : Master) (s : State) : OtpKept s (execEvrWindow0Read master s) := by
  unfold execEvrWindow0Read
  split <;> simp

@[simp] theorem execEvrWindow7Read_otp (master : Master) (s : State) : OtpKept s (execEvrWindow7Read master s) := by
  unfold execEvrWindow7Read
  split <;> simp

/-! ### Machine/Tenancy -/

@[simp] theorem execDevInfo_otp (s : State) : OtpKept s (execDevInfo s) := .next (by simp)
@[simp] theorem execDevCaps_otp (s : State) : OtpKept s (execDevCaps s) := .next (by simp)
@[simp] theorem execDevPools_otp (s : State) : OtpKept s (execDevPools s) := .next (by simp)
@[simp] theorem execTiQuery_otp (s : State) : OtpKept s (execTiQuery s) := .next (by simp)

@[simp] theorem execRingQuery_otp (s : State) : OtpKept s (execRingQuery s) := by
  refine .next (s.cmd_otp _ _ (fun p s => ?_))
  dsimp only
  repeat' split
  all_goals simp

@[simp] theorem execSchedQuery_otp (s : State) : OtpKept s (execSchedQuery s) := .next (by simp)

@[simp] theorem execTiCreate_otp (s : State) : OtpKept s (execTiCreate s) := by
  refine .next (s.cmdIf_otp _ _ _ (fun p s => ?_))
  dsimp only
  split
  · exact otp_of_snd (s.mpDraw_otp _) ‹_›
  · next t e => simp [otp_of_snd (s.mpDraw_otp _) e]

@[simp] theorem execTiBind_otp (s : State) : OtpKept s (execTiBind s) := .next (by simp)
@[simp] theorem execTiSetQuota_otp (s : State) : OtpKept s (execTiSetQuota s) := .next (by simp)
@[simp] theorem execTiAddWindow_otp (s : State) : OtpKept s (execTiAddWindow s) := .next (by simp)
@[simp] theorem execTiRemoveWindow_otp (s : State) : OtpKept s (execTiRemoveWindow s) := .next (by simp)
@[simp] theorem execTiAssignImt_otp (s : State) : OtpKept s (execTiAssignImt s) := .next (by simp)
@[simp] theorem execTiReleaseImt_otp (s : State) : OtpKept s (execTiReleaseImt s) := .next (by simp)
@[simp] theorem execTiQuiesce_otp (s : State) : OtpKept s (execTiQuiesce s) := .next (by simp)
@[simp] theorem execTiResume_otp (s : State) : OtpKept s (execTiResume s) := .next (by simp)
@[simp] theorem execTiDestroy_otp (s : State) : OtpKept s (execTiDestroy s) := .next (by simp)
@[simp] theorem execFunctionLevelReset_otp (s : State) : OtpKept s (execFunctionLevelReset s) := .next (by simp)

/-! ### Machine/Keys -/

@[simp] theorem execKeyInfo_otp (s : State) : OtpKept s (execKeyInfo s) := .next (by simp)

@[simp] theorem execKeyDelete_otp (s : State) : OtpKept s (execKeyDelete s) := by
  refine .next (s.cmdIf_otp _ _ _ (fun p s => ?_))
  dsimp only
  split
  · next t e => simp [otp_of_snd (s.deleteKey_otp _ _ none) e]
  · next t e => simp [otp_of_snd (s.deleteKey_otp _ _ none) e]

@[simp] theorem execKsQuery_otp (s : State) : OtpKept s (execKsQuery s) := .next (by simp)
@[simp] theorem execKeyMoveHome_otp (s : State) : OtpKept s (execKeyMoveHome s) := .next (by simp)
@[simp] theorem execKeyPlaceCopy_otp (s : State) : OtpKept s (execKeyPlaceCopy s) := .next (by simp)

@[simp] theorem execRootProvision_f2 (s : State) : F2Kept s (execRootProvision s) := by
  refine .next (s.cmdIf_f2 _ _ _ (fun p s => ?_))
  dsimp only
  split
  · simp
  · split
    · rfl
    · refine s.program_f2 _ ?_
      intro s
      dsimp only
      split
      · next t _ e _ => rw [State.success_otp, State.provision_f2, otp_of_snd (s.mpFresh_otp _) e]
      · next t e _ => rw [otp_of_snd (s.mpFresh_otp _) e]

@[simp] theorem execIdentityRead_otp (s : State) : OtpKept s (execIdentityRead s) := .next (by simp)

@[simp] theorem execKeySeal_otp (s : State) : OtpKept s (execKeySeal s) := by
  refine .next (s.cmdIf_otp _ _ _ (fun p s => ?_))
  dsimp only
  split
  · rfl
  · split
    · exact otp_of_snd (s.mpDraw_otp _) ‹_›
    · next t e => simp [otp_of_snd (s.mpDraw_otp _) e]

@[simp] theorem execKeyUnseal_otp (s : State) : OtpKept s (execKeyUnseal s) := by
  refine .next (s.cmdIf_otp _ _ _ (fun p s => ?_))
  dsimp only
  split
  · rfl
  · split
    · split
      · exact otp_of_snd (s.mpDraw_otp _) ‹_›
      · next t e => split <;> simp [otp_of_snd (s.mpDraw_otp _) e]
    · simp

@[simp] theorem execImportKeyRotate_otp (s : State) : OtpKept s (execImportKeyRotate s) := by
  refine .next (s.cmdIf_otp _ _ _ (fun p s => ?_))
  dsimp only
  split
  · rfl
  · split
    · exact otp_of_snd (s.mpDraw_otp _) ‹_›
    · next t e => simp [otp_of_snd (s.mpDraw_otp _) e]

@[simp] theorem execKeyRemaskPass_otp (die dt : Nat) (s : State) : OtpKept s (execKeyRemaskPass die dt s) := by
  unfold execKeyRemaskPass
  dsimp only
  repeat' split
  all_goals simp

@[simp] theorem execKeyStoreEccLoss_otp (ti slot : Nat) (single : Bool) (s : State) :
    OtpKept s (execKeyStoreEccLoss ti slot single s) := by
  unfold execKeyStoreEccLoss
  dsimp only
  repeat' split
  all_goals simp

@[simp] theorem execRandomWaitTimeout_otp (die cls job dt : Nat) (s : State) :
    OtpKept s (execRandomWaitTimeout die cls job dt s) := by
  unfold execRandomWaitTimeout
  dsimp only
  repeat' split
  all_goals simp

/-! ### Machine/Release -/

@[simp] theorem execJobCompletion_otp (job : Nat) (pass : Bool) (dt : Nat) (s : State) :
    OtpKept s (execJobCompletion job pass dt s) := by
  unfold execJobCompletion
  dsimp only
  repeat' split
  all_goals simp

@[simp] theorem execLieCompletion_otp (engine : Nat) (pass : Bool) (dt : Nat) (s : State) :
    OtpKept s (execLieCompletion engine pass dt s) := by
  unfold execLieCompletion
  dsimp only
  repeat' split
  all_goals simp

/-! ### Machine/Lie -/

@[simp] theorem execDirectCommandDone_otp (engine dt : Nat) (s : State) : OtpKept s (execDirectCommandDone engine dt s) := by
  unfold execDirectCommandDone
  dsimp only
  repeat' split
  all_goals simp

@[simp] theorem execDiagLie_otp (s : State) : OtpKept s (execDiagLie s) := .next (by simp)

@[simp] theorem execLieClearDone_otp (engine dt : Nat) (s : State) : OtpKept s (execLieClearDone engine dt s) := by
  unfold execLieClearDone
  dsimp only
  repeat' split
  all_goals simp

@[simp] theorem execLieEccUncorrectable_otp (engine slot word : Nat) (single : Bool) (s : State) :
    OtpKept s (execLieEccUncorrectable engine slot word single s) := by
  unfold execLieEccUncorrectable
  dsimp only
  repeat' split
  all_goals simp

@[simp] theorem execLieTablesRewritten_otp (engine : Nat) (good : Bool) (dt : Nat) (s : State) :
    OtpKept s (execLieTablesRewritten engine good dt s) := by
  unfold execLieTablesRewritten
  dsimp only
  repeat' split
  all_goals simp

/-! ### Machine/Protect -/

@[simp] theorem execCaseSwitchOpen_otp (sw : Nat) (isOpen : Bool) (s : State) : OtpKept s (execCaseSwitchOpen sw isOpen s) :=
    .next (by simp)

@[simp] theorem execLoopOpen_otp (loop : Nat) (isOpen : Bool) (s : State) : OtpKept s (execLoopOpen loop isOpen s) :=
    .next (by simp)

@[simp] theorem execWatermarkMismatch_otp (loop dt : Nat) (s : State) : OtpKept s (execWatermarkMismatch loop dt s) := by
  unfold execWatermarkMismatch
  dsimp only
  repeat' split
  all_goals simp

@[simp] theorem execOvervoltage_otp (rail die mv : Nat) (s : State) : OtpKept s (execOvervoltage rail die mv s) :=
    .next (by simp)

@[simp] theorem execVbatLow_otp (mv : Nat) (s : State) : OtpKept s (execVbatLow mv s) := .next (by simp)

@[simp] theorem execTemperatureLimit_otp (sensor : Nat) (c : Int) (s : State) :
    OtpKept s (execTemperatureLimit sensor c s) := by
  unfold execTemperatureLimit
  repeat' split
  all_goals simp

@[simp] theorem execRefclockFault_otp (clock die kind : Nat) (s : State) : OtpKept s (execRefclockFault clock die kind s) :=
    .next (by simp)

@[simp] theorem execAoXtalStop_otp (stopped : Bool) (s : State) : OtpKept s (execAoXtalStop stopped s) := .next (by simp)

@[simp] theorem execEraseComplete_otp (dt : Nat) (s : State) : OtpKept s (execEraseComplete dt s) := by
  unfold execEraseComplete
  dsimp only
  repeat' split
  all_goals simp

@[simp] theorem execAlarmEvaluation_otp (dt : Nat) (s : State) : OtpKept s (execAlarmEvaluation dt s) := .next (by simp)
@[simp] theorem execProtAlarmClear_otp (mask : Nat) (s : State) : OtpKept s (execProtAlarmClear mask s) := .next (by simp)

@[simp] theorem execBistChannelTest_otp (pass : Bool) (dt : Nat) (s : State) : OtpKept s (execBistChannelTest pass dt s) := by
  unfold execBistChannelTest
  dsimp only
  repeat' split
  all_goals simp

@[simp] theorem execProtQuery_otp (s : State) : OtpKept s (execProtQuery s) := .next (by simp)
@[simp] theorem execProtSetMap_otp (s : State) : OtpKept s (execProtSetMap s) := .next (by simp)

@[simp] theorem execProtArm_otp (s : State) : OtpKept s (execProtArm s) := by
  refine .next (s.cmdIf_otp _ _ _ (fun p s => ?_))
  dsimp only
  split
  · simp
  · split
    · exact otp_of_snd (s.mpDraw_otp _) ‹_›
    · next t e => split <;> simp [otp_of_snd (s.mpDraw_otp _) e]

@[simp] theorem execProtBist_otp (s : State) : OtpKept s (execProtBist s) := .next (by simp)

/-- PROT_F2_SET programs the bit and no command of its kind clears it (R432). -/
theorem execProtF2Set_sets (s t : State) (h : s.otp.f2 = true) (e : execProtF2Set s = .next t) : t.otp.f2 = true := by
  cases e
  unfold State.cmdIf State.cmd
  split
  · dsimp only
    split
    · simp [h]
    · unfold State.program
      split
      · simp
      · split <;> simp [h]
  · exact h

/-! ### Machine/Reset -/

@[simp] theorem execPowerOnReset_otp (s : State) : OtpKept s (execPowerOnReset s) := .next (by simp)

@[simp] theorem execPwrgoodFall_otp (s : State) : OtpKept s (execPwrgoodFall s) := by
  unfold execPwrgoodFall
  split <;> simp

@[simp] theorem execResetPin_otp (low : Bool) (dt : Nat) (s : State) : OtpKept s (execResetPin low dt s) := by
  unfold execResetPin
  dsimp only
  repeat' split
  all_goals simp

@[simp] theorem execSupplyReset_otp (rail die mv : Nat) (s : State) : OtpKept s (execSupplyReset rail die mv s) := by
  unfold execSupplyReset
  dsimp only
  repeat' split
  all_goals simp

@[simp] theorem execThermalShutdown_otp (sensor : Nat) (first second : Int) (s : State) :
    OtpKept s (execThermalShutdown sensor first second s) := .next (by simp)

@[simp] theorem execThermalShutdownRelease_otp (dt : Nat) (s : State) : OtpKept s (execThermalShutdownRelease dt s) :=
    .next (by simp)

@[simp] theorem execMainPowerLoss_otp (s : State) : OtpKept s (execMainPowerLoss s) := by
  unfold execMainPowerLoss
  split <;> simp

@[simp] theorem execVbatApplied_otp (s : State) : OtpKept s (execVbatApplied s) := .next (by simp)
@[simp] theorem execVbatExhausted_otp (s : State) : OtpKept s (execVbatExhausted s) := .next (by simp)
@[simp] theorem execPerstAssert_otp (s : State) : OtpKept s (execPerstAssert s) := .next (by simp -implicitDefEqProofs)

@[simp] theorem execPerstDeassert_otp (s : State) : OtpKept s (execPerstDeassert s) := by
  unfold execPerstDeassert
  split <;> simp

/-! ### Machine/Lifecycle -/

@[simp] theorem execLcsToTest_f2 (master : Master) (s : State) : F2Kept s (execLcsToTest master s) := .next (by simp)
@[simp] theorem execLcsToSealed_f2 (master : Master) (s : State) : F2Kept s (execLcsToSealed master s) := .next (by simp)
@[simp] theorem execLcsToOwned_f2 (master : Master) (s : State) : F2Kept s (execLcsToOwned master s) := .next (by simp)
@[simp] theorem execLcsToReturned_f2 (master : Master) (s : State) : F2Kept s (execLcsToReturned master s) := .next (by simp)
@[simp] theorem execLcsToScrap_f2 (master : Master) (s : State) : F2Kept s (execLcsToScrap master s) := .next (by simp)
@[simp] theorem execLcsQuery_otp (s : State) : OtpKept s (execLcsQuery s) := .next (by simp)

@[simp] theorem execAuthNonce_otp (s : State) : OtpKept s (execAuthNonce s) := by
  refine .next (s.cmdIf_otp _ _ _ (fun p s => ?_))
  dsimp only
  split
  · exact otp_of_snd (s.mpDraw_otp _) ‹_›
  · next t e => simp [otp_of_snd (s.mpDraw_otp _) e]

@[simp] theorem execOwnerClaim_f2 (s : State) : F2Kept s (execOwnerClaim s) := .next (by simp)
@[simp] theorem execOwnerSetKeys_f2 (s : State) : F2Kept s (execOwnerSetKeys s) := .next (by simp)
@[simp] theorem execOwnerTransfer_f2 (s : State) : F2Kept s (execOwnerTransfer s) := .next (by simp)
@[simp] theorem execReturnAuthorise_otp (s : State) : OtpKept s (execReturnAuthorise s) := .next (by simp)
@[simp] theorem execDbgChallenge_otp (s : State) : OtpKept s (execDbgChallenge s) := .next (by simp)

@[simp] theorem execDbgUnlock_otp (s : State) : OtpKept s (execDbgUnlock s) := by
  refine .next (s.cmd_otp _ _ (fun p s => ?_))
  dsimp only
  split
  · rfl
  · split
    · next t e => simp [otp_of_snd (s.token_otp p 1) e]
    · exact otp_of_snd (s.token_otp p 1) ‹_›

@[simp] theorem execDbgRelock_otp (s : State) : OtpKept s (execDbgRelock s) := .next (by simp)
@[simp] theorem execDebugGrantExpiry_otp (dt : Nat) (s : State) : OtpKept s (execDebugGrantExpiry dt s) := .next (by simp)
@[simp] theorem execTapReset_otp (s : State) : OtpKept s (execTapReset s) := .next (by simp)
@[simp] theorem execIdcode_otp (s : State) : OtpKept s (execIdcode s) := .next (by simp)

@[simp] theorem execSamplePreload_otp (bits pins preload : Nat) (s : State) :
    OtpKept s (execSamplePreload bits pins preload s) := .next (by simp)

@[simp] theorem execBypass_otp (bits value : Nat) (s : State) : OtpKept s (execBypass bits value s) := .next (by simp)

@[simp] theorem execExtest_otp (bits pins preload : Nat) (s : State) : OtpKept s (execExtest bits pins preload s) :=
    .next (by simp)

@[simp] theorem execTapDbgChal_otp (s : State) : OtpKept s (execTapDbgChal s) := .next (by simp)
@[simp] theorem execTapDbgToken_otp (token : Bytes) (s : State) : OtpKept s (execTapDbgToken token s) := .next (by simp)
@[simp] theorem execTapDbgStatus_otp (s : State) : OtpKept s (execTapDbgStatus s) := .next (by simp)
@[simp] theorem execTapDbgRelock_otp (s : State) : OtpKept s (execTapDbgRelock s) := .next (by simp)

/-! ### Machine/Rules -/

@[simp] theorem execAclQuery_otp (s : State) : OtpKept s (execAclQuery s) := .next (by simp)
@[simp] theorem execAclTest_otp (s : State) : OtpKept s (execAclTest s) := .next (by simp)
@[simp] theorem execAclRecord_otp (s : State) : OtpKept s (execAclRecord s) := .next (by simp)

/-! ### Machine/Time -/

@[simp] theorem execTimeSlew_otp (value : Nat) (s : State) : OtpKept s (execTimeSlew value s) := .next (by simp)

@[simp] theorem execStepTakesEffect_otp (dt : Nat) (s : State) : OtpKept s (execStepTakesEffect dt s) := by
  unfold execStepTakesEffect
  dsimp only
  repeat' split
  all_goals simp

@[simp] theorem execTimeTarget_otp (value : Nat) (s : State) : OtpKept s (execTimeTarget value s) := .next (by simp)
@[simp] theorem execTargetReached_otp (dt : Nat) (s : State) : OtpKept s (execTargetReached dt s) := .next (by simp)
@[simp] theorem execPpsOutEdge_otp (dt : Nat) (s : State) : OtpKept s (execPpsOutEdge dt s) := .next (by simp)

@[simp] theorem execPpsOutPulseEnd_otp (dt : Nat) (s : State) : OtpKept s (execPpsOutPulseEnd dt s) := by
  unfold execPpsOutPulseEnd
  dsimp only
  repeat' split
  all_goals simp

@[simp] theorem execPpsInEdge_otp (falling : Bool) (dt : Nat) (s : State) : OtpKept s (execPpsInEdge falling dt s) := by
  unfold execPpsInEdge
  dsimp only
  repeat' split
  all_goals simp

@[simp] theorem execPpsInLost_otp (dt : Nat) (s : State) : OtpKept s (execPpsInLost dt s) := by
  unfold execPpsInLost
  dsimp only
  repeat' split
  all_goals simp

@[simp] theorem execReplicaCorrection_otp (dt : Nat) (s : State) : OtpKept s (execReplicaCorrection dt s) := .next (by simp)

/-! ### Machine/Access -/

@[simp] theorem execHeldAccessTimeout_f2 (deckle dt : Nat) (s : State) : F2Kept s (execHeldAccessTimeout deckle dt s) :=
    .next (by simp)

@[simp] theorem execRegisterWrite_f2 (master : Master) (space : Space) (addr : Nat) (data : Bytes)
    (full : Bool) (code : Nat) (s : State) : F2Kept s (execRegisterWrite master space addr data full code s) := by
  unfold execRegisterWrite
  repeat' split
  all_goals simp

@[simp] theorem execRcRegisterRead_f2 (master : Master) (space : Space) (addr size code : Nat) (s : State) :
    F2Kept s (execRcRegisterRead master space addr size code s) := by
  unfold execRcRegisterRead
  repeat' split
  all_goals simp

@[simp] theorem execTimeNowCaptureRead_f2 (master : Master) (wide : Bool) (s : State) :
    F2Kept s (execTimeNowCaptureRead master wide s) := .next (by simp)

@[simp] theorem execLieSlotWordsWrite_f2 (master : Master) (engine value : Nat) (s : State) :
    F2Kept s (execLieSlotWordsWrite master engine value s) := .next (by simp)

@[simp] theorem execDirectRsaPrivate_f2 (master : Master) (engine size base : Nat) (s : State) :
    F2Kept s (execDirectRsaPrivate master engine size base s) := .next (by simp)

@[simp] theorem execDirectRsaPublic_f2 (master : Master) (engine size base : Nat) (s : State) :
    F2Kept s (execDirectRsaPublic master engine size base s) := .next (by simp)

@[simp] theorem execDirectEcdsaKeygen_f2 (master : Master) (engine size base : Nat) (s : State) :
    F2Kept s (execDirectEcdsaKeygen master engine size base s) := .next (by simp)

@[simp] theorem execDirectEcdsaSign_f2 (master : Master) (engine size base : Nat) (s : State) :
    F2Kept s (execDirectEcdsaSign master engine size base s) := .next (by simp)

@[simp] theorem execDirectEcdsaVerify_f2 (master : Master) (engine size base : Nat) (s : State) :
    F2Kept s (execDirectEcdsaVerify master engine size base s) := .next (by simp)

@[simp] theorem execDirectEcdh_f2 (master : Master) (engine size base : Nat) (s : State) :
    F2Kept s (execDirectEcdh master engine size base s) := .next (by simp)

@[simp] theorem execDirectEddsaKeygen_f2 (master : Master) (engine size base : Nat) (s : State) :
    F2Kept s (execDirectEddsaKeygen master engine size base s) := .next (by simp)

@[simp] theorem execDirectEddsaSign_f2 (master : Master) (engine size base : Nat) (s : State) :
    F2Kept s (execDirectEddsaSign master engine size base s) := .next (by simp)

@[simp] theorem execDirectEddsaVerify_f2 (master : Master) (engine size base : Nat) (s : State) :
    F2Kept s (execDirectEddsaVerify master engine size base s) := .next (by simp)

@[simp] theorem execDirectXKeygen_f2 (master : Master) (engine size base : Nat) (s : State) :
    F2Kept s (execDirectXKeygen master engine size base s) := .next (by simp)

@[simp] theorem execDirectXDerive_f2 (master : Master) (engine size base : Nat) (s : State) :
    F2Kept s (execDirectXDerive master engine size base s) := .next (by simp)

@[simp] theorem execDklDisable_otp (deckle writer : Nat) (s : State) : OtpKept s (execDklDisable deckle writer s) :=
    .next (by simp)

@[simp] theorem execDklEnable_f2 (deckle writer : Nat) (s : State) : F2Kept s (execDklEnable deckle writer s) := .next (by simp)

@[simp] theorem execDklRegionWrite_otp (deckle region word value writer : Nat) (s : State) :
    OtpKept s (execDklRegionWrite deckle region word value writer s) := .next (by simp)

@[simp] theorem execDbgAccess_f2 (address : Nat) (target : DbgTarget) (write : Bool) (data : Nat) (s : State) :
    F2Kept s (execDbgAccess address target write data s) := .next (by simp)

/-! ### Machine/Issue -/

@[simp] theorem execHashUnitComplete_otp (vc unit : Nat) (s : State) : OtpKept s (execHashUnitComplete vc unit s) := by
  unfold execHashUnitComplete
  repeat' split
  all_goals simp

@[simp] theorem execYieldIntervalExceeded_otp (vc : Nat) (s : State) : OtpKept s (execYieldIntervalExceeded vc s) := by
  unfold execYieldIntervalExceeded
  repeat' split
  all_goals simp

@[simp] theorem execDeclaredCountPassed_otp (vc : Nat) (s : State) : OtpKept s (execDeclaredCountPassed vc s) := by
  unfold execDeclaredCountPassed
  dsimp only
  repeat' split
  all_goals simp

@[simp] theorem execRunLimitReached_otp (vc : Nat) (s : State) : OtpKept s (execRunLimitReached vc s) := by
  unfold execRunLimitReached
  repeat' split
  all_goals simp

@[simp] theorem execOwnerKernelCall_otp (job : Nat) (s : State) : OtpKept s (execOwnerKernelCall job s) := by
  unfold execOwnerKernelCall
  dsimp only
  repeat' split
  all_goals simp

/-! ### Machine/Kernels -/

@[simp] theorem execControlStoreScrub_otp (vc cause groups addr : Nat) (s : State) :
    OtpKept s (execControlStoreScrub vc cause groups addr s) := by
  unfold execControlStoreScrub
  dsimp only
  repeat' split
  all_goals simp

@[simp] theorem execControlStoreReloadDone_otp (vc : Nat) (good : Bool) (corrected bad dt : Nat) (s : State) :
    OtpKept s (execControlStoreReloadDone vc good corrected bad dt s) := by
  unfold execControlStoreReloadDone
  dsimp only
  repeat' split
  all_goals simp

@[simp] theorem execKernelStoreRewriteDone_otp (vc dt : Nat) (s : State) : OtpKept s (execKernelStoreRewriteDone vc dt s) := by
  unfold execKernelStoreRewriteDone
  dsimp only
  repeat' split
  all_goals simp

@[simp] theorem execGoldenCopyRewriteDone_otp (cluster dt : Nat) (s : State) :
    OtpKept s (execGoldenCopyRewriteDone cluster dt s) := by
  unfold execGoldenCopyRewriteDone
  dsimp only
  repeat' split
  all_goals simp

@[simp] theorem execKernelStageOpen_otp (s : State) : OtpKept s (execKernelStageOpen s) := by
  refine .next (s.cmd_otp _ _ (fun p s => ?_))
  dsimp only
  repeat' split
  all_goals simp

@[simp] theorem execKernelStageData_otp (s : State) : OtpKept s (execKernelStageData s) := by
  refine .next (s.cmd_otp _ _ (fun p s => ?_))
  dsimp only
  repeat' split
  all_goals simp

@[simp] theorem execKernelCommit_otp (s : State) : OtpKept s (execKernelCommit s) := by
  refine .next (s.cmd_otp _ _ (fun p s => ?_))
  dsimp only
  repeat' split
  all_goals simp

@[simp] theorem execKernelRemove_otp (s : State) : OtpKept s (execKernelRemove s) := by
  refine .next (s.cmd_otp _ _ (fun p s => ?_))
  dsimp only
  repeat' split
  all_goals simp

@[simp] theorem execKernelQuery_otp (s : State) : OtpKept s (execKernelQuery s) := by
  refine .next (s.cmd_otp _ _ (fun p s => ?_))
  dsimp only
  repeat' split
  all_goals simp

/-! ### Machine/Boot -/

@[simp] theorem execResetRelease_f2 (sel : Nat) (s : State) : F2Kept s (execResetRelease sel s) := by
  unfold execResetRelease
  dsimp only
  repeat' split
  all_goals simp

@[simp] theorem execBootVerdict_otp (dt : Nat) (s : State) : OtpKept s (execBootVerdict dt s) := by
  unfold execBootVerdict
  dsimp only
  repeat' split
  all_goals simp

@[simp] theorem execLeaveBoot_otp (dt : Nat) (s : State) : OtpKept s (execLeaveBoot dt s) := by
  unfold execLeaveBoot
  dsimp only
  repeat' split
  all_goals simp

@[simp] theorem execUnitReady_otp (unit : ReadyUnit) (s : State) : OtpKept s (execUnitReady unit s) := .next (by simp)

/-! ### Machine/Commit -/

@[simp] theorem execF2SecondEvaluation_f2 (decision delay : Nat) (agree : Bool) (dt : Nat) (s : State) :
    F2Kept s (execF2SecondEvaluation decision delay agree dt s) := by
  unfold execF2SecondEvaluation
  dsimp only
  repeat' split
  all_goals simp

@[simp] theorem execSupplyWarning_f2 (rail die mv : Nat) (s : State) : F2Kept s (execSupplyWarning rail die mv s) :=
    .next (by simp)

/-! ### Machine/Frames -/

@[simp] theorem execLinkChange_otp (port : Nat) (up : Bool) (speed : Nat) (s : State) :
    OtpKept s (execLinkChange port up speed s) := by
  unfold execLinkChange
  dsimp only
  repeat' split
  all_goals simp

@[simp] theorem execFrameReceived_otp (port : Nat) (data : Bytes) (fcsOk : Bool) (lineNs : Nat) (parsed : Extension) (s : State) :
    OtpKept s (execFrameReceived port data fcsOk lineNs parsed s) := by
  unfold execFrameReceived
  dsimp only
  repeat' split
  all_goals simp

@[simp] theorem execVerdictPost_otp (frame : Nat) (disagree : Bool) (dt : Nat) (s : State) :
    OtpKept s (execVerdictPost frame disagree dt s) := by
  unfold execVerdictPost
  dsimp only
  repeat' split
  all_goals simp

@[simp] theorem execFrameBudgetExpiry_otp (frame dt : Nat) (s : State) : OtpKept s (execFrameBudgetExpiry frame dt s) := by
  unfold execFrameBudgetExpiry
  dsimp only
  repeat' split
  all_goals simp

@[simp] theorem execFrxDelivery_otp (frame ring dt : Nat) (s : State) : OtpKept s (execFrxDelivery frame ring dt s) := by
  unfold execFrxDelivery
  dsimp only
  repeat' split
  all_goals simp

@[simp] theorem execFrxMaxWaitExpiry_otp (frame ring dt : Nat) (s : State) :
    OtpKept s (execFrxMaxWaitExpiry frame ring dt s) := by
  unfold execFrxMaxWaitExpiry
  dsimp only
  repeat' split
  all_goals simp

@[simp] theorem execPromotionTimeReached_otp (context dt : Nat) (s : State) :
    OtpKept s (execPromotionTimeReached context dt s) := .next (by simp)

/-! ### Machine/Duplex -/

@[simp] theorem execDuplexConfig_otp (s : State) : OtpKept s (execDuplexConfig s) := .next (by simp)
@[simp] theorem execDuplexMirrorTi_otp (s : State) : OtpKept s (execDuplexMirrorTi s) := .next (by simp)
@[simp] theorem execDuplexQuery_otp (s : State) : OtpKept s (execDuplexQuery s) := .next (by simp)

@[simp] theorem execDuplexPair_otp (s : State) : OtpKept s (execDuplexPair s) := by
  refine .next (s.cmdIf_otp _ _ _ (fun p s => ?_))
  dsimp only
  split
  · rfl
  · split
    · simp
    · split
      · exact otp_of_snd (s.mpDraw_otp _) ‹_›
      · next t e => simp [otp_of_snd (s.mpDraw_otp _) e]

@[simp] theorem execPair1_otp (link : Nat) (mac data : Bytes) (s : State) : OtpKept s (execPair1 link mac data s) := by
  unfold execPair1
  split
  · exact .next rfl
  · split
    · exact .next rfl
    · split
      · exact .next (otp_of_snd (s.mpDraw_otp _) ‹_›)
      · next t e => exact .next (by simp [otp_of_snd (s.mpDraw_otp _) e])

@[simp] theorem execPair2_otp (link : Nat) (mac data : Bytes) (s : State) : OtpKept s (execPair2 link mac data s) := by
  unfold execPair2
  split
  · exact .next rfl
  · dsimp only
    split
    · exact .next rfl
    · split
      · exact .next (otp_of_snd (s.mpDraw_otp _) ‹_›)
      · next t e => exact .next (by simp [otp_of_snd (s.mpDraw_otp _) e])

@[simp] theorem execPair3_otp (link : Nat) (mac data : Bytes) (s : State) : OtpKept s (execPair3 link mac data s) := by
  unfold execPair3
  repeat' split
  all_goals simp

@[simp] theorem execPairingTimeout_otp (dt : Nat) (s : State) : OtpKept s (execPairingTimeout dt s) := by
  unfold execPairingTimeout
  dsimp only
  repeat' split
  all_goals simp

@[simp] theorem execPairRekey_otp (dt : Nat) (s : State) : OtpKept s (execPairRekey dt s) := by
  unfold execPairRekey
  dsimp only
  have hd := (s.elapse dt).mpDraw_otp pairDraw1
  rw [State.elapse_otp] at hd
  split
  · split
    · exact .next (otp_of_snd hd ‹_›)
    · next t e => exact .next (by simp [otp_of_snd hd e])
  · exact .next (s.elapse_otp dt)

@[simp] theorem execDuplexUnpair_otp (s : State) : OtpKept s (execDuplexUnpair s) := .next (by simp)

@[simp] theorem execMirrorAckTimeout_otp (dt : Nat) (s : State) : OtpKept s (execMirrorAckTimeout dt s) := by
  unfold execMirrorAckTimeout
  dsimp only
  repeat' split
  all_goals simp

@[simp] theorem execMirrorMessage_otp (link seq : Nat) (authentic : Bool) (body : MirrorBody) (s : State) :
    OtpKept s (execMirrorMessage link seq authentic body s) := .next (by simp)

@[simp] theorem execKeyPut_otp (link seq ti slot gen typ usage : Nat) (stored : Bytes) (s : State) :
    OtpKept s (execKeyPut link seq ti slot gen typ usage stored s) := .next (by simp)

@[simp] theorem execMirrorAck_otp (link seq of_ : Nat) (accepted : Bool) (s : State) :
    OtpKept s (execMirrorAck link seq of_ accepted s) := .next (by simp)

@[simp] theorem execSyncBegin_otp (link seq : Nat) (s : State) : OtpKept s (execSyncBegin link seq s) := .next (by simp)
@[simp] theorem execSyncEnd_otp (link seq : Nat) (s : State) : OtpKept s (execSyncEnd link seq s) := .next (by simp)

@[simp] theorem execHeartbeatReceived_otp (link seq role epoch state : Nat) (s : State) :
    OtpKept s (execHeartbeatReceived link seq role epoch state s) := .next (by simp)

@[simp] theorem execHeartbeat_otp (dt : Nat) (s : State) : OtpKept s (execHeartbeat dt s) := by
  unfold execHeartbeat
  dsimp only
  repeat' split
  all_goals simp

@[simp] theorem execMirrorLinkLost_otp (dt : Nat) (s : State) : OtpKept s (execMirrorLinkLost dt s) := by
  unfold execMirrorLinkLost
  dsimp only
  repeat' split
  all_goals simp

@[simp] theorem execDuplexPromote_otp (s : State) : OtpKept s (execDuplexPromote s) := .next (by simp)
@[simp] theorem execDuplexDemote_otp (s : State) : OtpKept s (execDuplexDemote s) := .next (by simp)

/-! ### Machine/Firmware -/

@[simp] theorem execFwStageOpen_otp (s : State) : OtpKept s (execFwStageOpen s) := .next (by simp)
@[simp] theorem execFwStageData_otp (s : State) : OtpKept s (execFwStageData s) := .next (by simp)
@[simp] theorem execFwInstall_otp (s : State) : OtpKept s (execFwInstall s) := .next (by simp)

@[simp] theorem execFwInstallDone_otp (dt : Nat) (s : State) : OtpKept s (execFwInstallDone dt s) := by
  unfold execFwInstallDone
  dsimp only
  repeat' split
  all_goals simp

@[simp] theorem execFwActivate_otp (s : State) : OtpKept s (execFwActivate s) := .next (by simp)
@[simp] theorem execFwConfirm_otp (s : State) : OtpKept s (execFwConfirm s) := .next (by simp)
@[simp] theorem execFwAdvanceSvn_f2 (s : State) : F2Kept s (execFwAdvanceSvn s) := .next (by simp)
@[simp] theorem execFwQuery_otp (s : State) : OtpKept s (execFwQuery s) := .next (by simp)
@[simp] theorem execModeEnter_otp (s : State) : OtpKept s (execModeEnter s) := .next (by simp)
@[simp] theorem execDevReset_otp (s : State) : OtpKept s (execDevReset s) := .next (by simp)

@[simp] theorem execDiagRngCapture_otp (bits : Bytes) (fail : Nat) (s : State) : OtpKept s (execDiagRngCapture bits fail s) :=
    .next (by simp)

@[simp] theorem execDiagBist_otp (s : State) : OtpKept s (execDiagBist s) := .next (by simp)

@[simp] theorem execDiagBistDone_otp (bad : Option Nat) (dt : Nat) (s : State) : OtpKept s (execDiagBistDone bad dt s) := by
  unfold execDiagBistDone
  dsimp only
  repeat' split
  all_goals simp

@[simp] theorem execDiagResult_otp (s : State) : OtpKept s (execDiagResult s) := .next (by simp)
@[simp] theorem execRngQuery_otp (s : State) : OtpKept s (execRngQuery s) := .next (by simp)
@[simp] theorem execRngSet_otp (s : State) : OtpKept s (execRngSet s) := .next (by simp)
@[simp] theorem execRngBank_otp (fail : Nat) (s : State) : OtpKept s (execRngBank fail s) := .next (by simp)

/-! ### Machine/Ftx -/

@[simp] theorem execFtxFetch_otp (entries : List Bytes) (s : State) : OtpKept s (execFtxFetch entries s) := by
  unfold execFtxFetch
  dsimp only
  repeat' split
  all_goals simp

@[simp] theorem execFtxFrameRead_otp (frame : Nat) (data : Bytes) (fault dt : Nat) (s : State) :
    OtpKept s (execFtxFrameRead frame data fault dt s) := by
  unfold execFtxFrameRead
  dsimp only
  repeat' split
  all_goals simp

@[simp] theorem execFtxLaunch_otp (frame port dt : Nat) (s : State) : OtpKept s (execFtxLaunch frame port dt s) := by
  unfold execFtxLaunch
  dsimp only
  repeat' split
  all_goals simp

@[simp] theorem execTxSlipExpiry_otp (frame port dt : Nat) (s : State) : OtpKept s (execTxSlipExpiry frame port dt s) := by
  unfold execTxSlipExpiry
  dsimp only
  repeat' split
  all_goals simp

/-! ### Machine/FrameCmds -/

@[simp] theorem execPortConfig_otp (s : State) : OtpKept s (execPortConfig s) := .next (by simp)
@[simp] theorem execPrpPair_otp (s : State) : OtpKept s (execPrpPair s) := .next (by simp)
@[simp] theorem execPortQuery_otp (s : State) : OtpKept s (execPortQuery s) := .next (by simp)
@[simp] theorem execStreamCreate_otp (s : State) : OtpKept s (execStreamCreate s) := .next (by simp)
@[simp] theorem execStreamModify_otp (s : State) : OtpKept s (execStreamModify s) := .next (by simp)
@[simp] theorem execStreamSubscribe_otp (s : State) : OtpKept s (execStreamSubscribe s) := .next (by simp)
@[simp] theorem execStreamDestroy_otp (s : State) : OtpKept s (execStreamDestroy s) := .next (by simp)
@[simp] theorem execStreamResetState_otp (s : State) : OtpKept s (execStreamResetState s) := .next (by simp)
@[simp] theorem execStreamClearKeys_otp (s : State) : OtpKept s (execStreamClearKeys s) := .next (by simp)
@[simp] theorem execFpSetGlobal_otp (s : State) : OtpKept s (execFpSetGlobal s) := .next (by simp)
@[simp] theorem execStreamQuery_otp (s : State) : OtpKept s (execStreamQuery s) := .next (by simp)

/-! ### Machine/OpsPq -/

@[simp] theorem execMlKemKeygen_otp (job : Nat) (s : State) : OtpKept s (execMlKemKeygen job s) := .next (by simp)
@[simp] theorem execMlKemEncaps_otp (job : Nat) (s : State) : OtpKept s (execMlKemEncaps job s) := .next (by simp)
@[simp] theorem execMlKemDecaps_otp (job : Nat) (s : State) : OtpKept s (execMlKemDecaps job s) := .next (by simp)
@[simp] theorem execMlDsaKeygen_otp (job : Nat) (s : State) : OtpKept s (execMlDsaKeygen job s) := .next (by simp)
@[simp] theorem execMlDsaSign_otp (job : Nat) (s : State) : OtpKept s (execMlDsaSign job s) := .next (by simp)
@[simp] theorem execMlDsaVerify_otp (job : Nat) (s : State) : OtpKept s (execMlDsaVerify job s) := .next (by simp)
@[simp] theorem execMlDsaPrehashSign_otp (job : Nat) (s : State) : OtpKept s (execMlDsaPrehashSign job s) := .next (by simp)
@[simp] theorem execMlDsaPrehashVerify_otp (job : Nat) (s : State) : OtpKept s (execMlDsaPrehashVerify job s) := .next (by simp)
@[simp] theorem execSlhDsaKeygen_otp (job : Nat) (s : State) : OtpKept s (execSlhDsaKeygen job s) := .next (by simp)
@[simp] theorem execSlhDsaSign_otp (job : Nat) (s : State) : OtpKept s (execSlhDsaSign job s) := .next (by simp)
@[simp] theorem execSlhDsaVerify_otp (job : Nat) (s : State) : OtpKept s (execSlhDsaVerify job s) := .next (by simp)
@[simp] theorem execSlhDsaPrehashSign_otp (job : Nat) (s : State) : OtpKept s (execSlhDsaPrehashSign job s) := .next (by simp)

@[simp] theorem execSlhDsaPrehashVerify_otp (job : Nat) (s : State) : OtpKept s (execSlhDsaPrehashVerify job s) :=
    .next (by simp)

@[simp] theorem execLmsVerify_otp (job : Nat) (s : State) : OtpKept s (execLmsVerify job s) := .next (by simp)
@[simp] theorem execHssVerify_otp (job : Nat) (s : State) : OtpKept s (execHssVerify job s) := .next (by simp)
@[simp] theorem execXmssVerify_otp (job : Nat) (s : State) : OtpKept s (execXmssVerify job s) := .next (by simp)
@[simp] theorem execXmssMtVerify_otp (job : Nat) (s : State) : OtpKept s (execXmssMtVerify job s) := .next (by simp)
@[simp] theorem execHqcKeygen_otp (job : Nat) (s : State) : OtpKept s (execHqcKeygen job s) := .next (by simp)
@[simp] theorem execHqcEncaps_otp (job : Nat) (s : State) : OtpKept s (execHqcEncaps job s) := .next (by simp)
@[simp] theorem execHqcDecaps_otp (job : Nat) (s : State) : OtpKept s (execHqcDecaps job s) := .next (by simp)
@[simp] theorem execMcelieceKeygen_otp (job : Nat) (s : State) : OtpKept s (execMcelieceKeygen job s) := .next (by simp)
@[simp] theorem execMcelieceEncaps_otp (job : Nat) (s : State) : OtpKept s (execMcelieceEncaps job s) := .next (by simp)
@[simp] theorem execMcelieceDecaps_otp (job : Nat) (s : State) : OtpKept s (execMcelieceDecaps job s) := .next (by simp)

/-! ### Machine/Power -/

@[simp] theorem execRegulatorSettled_otp (die dt : Nat) (s : State) : OtpKept s (execRegulatorSettled die dt s) := by
  unfold execRegulatorSettled
  dsimp only
  repeat' split
  all_goals simp

@[simp] theorem execRegulatorTimeout_otp (die kind dt : Nat) (s : State) : OtpKept s (execRegulatorTimeout die kind dt s) := by
  unfold execRegulatorTimeout
  dsimp only
  repeat' split
  all_goals simp

@[simp] theorem execPowerCapEvaluation_otp (pkg : Nat) (dies : List Nat) (dt : Nat) (s : State) :
    OtpKept s (execPowerCapEvaluation pkg dies dt s) := .next (by simp)

@[simp] theorem execThermalSample_otp (temps : List Int) (dt : Nat) (s : State) : OtpKept s (execThermalSample temps dt s) := by
  unfold execThermalSample
  dsimp only
  repeat' split
  all_goals simp

@[simp] theorem execSmbusMode_otp (withPec : Bool) (s : State) : OtpKept s (execSmbusMode withPec s) := .next (by simp)
@[simp] theorem execSmbusReady_otp (withPec : Bool) (s : State) : OtpKept s (execSmbusReady withPec s) := .next (by simp)

@[simp] theorem execSmbusTemperature_otp (withPec : Bool) (s : State) : OtpKept s (execSmbusTemperature withPec s) :=
    .next (by simp)

@[simp] theorem execSmbusPower_otp (withPec : Bool) (s : State) : OtpKept s (execSmbusPower withPec s) := .next (by simp)

@[simp] theorem execSmbusAlarmSummary_otp (withPec : Bool) (s : State) : OtpKept s (execSmbusAlarmSummary withPec s) :=
    .next (by simp)

@[simp] theorem execSmbusLifecycle_otp (withPec : Bool) (s : State) : OtpKept s (execSmbusLifecycle withPec s) :=
    .next (by simp)

@[simp] theorem execSmbusFirmware_otp (withPec : Bool) (s : State) : OtpKept s (execSmbusFirmware withPec s) := .next (by simp)
@[simp] theorem execSmbusAlertResponse_otp (s : State) : OtpKept s (execSmbusAlertResponse s) := .next (by simp)

/-! ### Machine/RecorderCmds -/

@[simp] theorem execEvrQuery_otp (s : State) : OtpKept s (execEvrQuery s) := .next (by simp)
@[simp] theorem execEvrRead_otp (s : State) : OtpKept s (execEvrRead s) := .next (by simp)
@[simp] theorem execEvrClear_otp (s : State) : OtpKept s (execEvrClear s) := .next (by simp)
@[simp] theorem execEvrSet_otp (s : State) : OtpKept s (execEvrSet s) := .next (by simp)

/-! ### Machine/Save -/

@[simp] theorem execJobPreemptSave_otp (job dt : Nat) (s : State) : OtpKept s (execJobPreemptSave job dt s) := by
  unfold execJobPreemptSave
  dsimp only
  split
  · exact .next (by simp)
  · split
    · exact .next (by simp)
    · split
      · exact .next (by simp)
      · split
        · exact .next (by simp)
        · split
          · exact .next (by simp)
          · next t e => exact .next (by simp [State.refreshed_otp _ _ _ _ _ e])

@[simp] theorem execJobRestore_otp (job vc dt : Nat) (s : State) : OtpKept s (execJobRestore job vc dt s) := by
  unfold execJobRestore
  dsimp only
  split
  · split
    · split
      · exact .next (by simp)
      · split
        · exact .next (by simp)
        · next t e => exact .next (by simp [State.refreshed_otp _ _ _ _ _ e])
    · exact .next (by simp)
  · exact .next (by simp)

/-! ### Machine/VecRows -/

@[simp] theorem execVadd_otp (vc : Nat) (f : VFields) (s : State) : OtpKept s (execVadd vc f s) := .next (by simp)
@[simp] theorem execVsub_otp (vc : Nat) (f : VFields) (s : State) : OtpKept s (execVsub vc f s) := .next (by simp)
@[simp] theorem execVand_otp (vc : Nat) (f : VFields) (s : State) : OtpKept s (execVand vc f s) := .next (by simp)
@[simp] theorem execVor_otp (vc : Nat) (f : VFields) (s : State) : OtpKept s (execVor vc f s) := .next (by simp)
@[simp] theorem execVxor_otp (vc : Nat) (f : VFields) (s : State) : OtpKept s (execVxor vc f s) := .next (by simp)
@[simp] theorem execVandn_otp (vc : Nat) (f : VFields) (s : State) : OtpKept s (execVandn vc f s) := .next (by simp)
@[simp] theorem execVminu_otp (vc : Nat) (f : VFields) (s : State) : OtpKept s (execVminu vc f s) := .next (by simp)
@[simp] theorem execVmaxu_otp (vc : Nat) (f : VFields) (s : State) : OtpKept s (execVmaxu vc f s) := .next (by simp)
@[simp] theorem execVmin_otp (vc : Nat) (f : VFields) (s : State) : OtpKept s (execVmin vc f s) := .next (by simp)
@[simp] theorem execVmax_otp (vc : Nat) (f : VFields) (s : State) : OtpKept s (execVmax vc f s) := .next (by simp)
@[simp] theorem execVneg_otp (vc : Nat) (f : VFields) (s : State) : OtpKept s (execVneg vc f s) := .next (by simp)
@[simp] theorem execVsel_otp (vc : Nat) (f : VFields) (s : State) : OtpKept s (execVsel vc f s) := .next (by simp)
@[simp] theorem execVaddi_otp (vc : Nat) (f : VFields) (s : State) : OtpKept s (execVaddi vc f s) := .next (by simp)
@[simp] theorem execVsll_otp (vc : Nat) (f : VFields) (s : State) : OtpKept s (execVsll vc f s) := .next (by simp)
@[simp] theorem execVsrl_otp (vc : Nat) (f : VFields) (s : State) : OtpKept s (execVsrl vc f s) := .next (by simp)
@[simp] theorem execVsra_otp (vc : Nat) (f : VFields) (s : State) : OtpKept s (execVsra vc f s) := .next (by simp)
@[simp] theorem execVrol_otp (vc : Nat) (f : VFields) (s : State) : OtpKept s (execVrol vc f s) := .next (by simp)
@[simp] theorem execVsllv_otp (vc : Nat) (f : VFields) (s : State) : OtpKept s (execVsllv vc f s) := .next (by simp)
@[simp] theorem execVsrlv_otp (vc : Nat) (f : VFields) (s : State) : OtpKept s (execVsrlv vc f s) := .next (by simp)
@[simp] theorem execVsrav_otp (vc : Nat) (f : VFields) (s : State) : OtpKept s (execVsrav vc f s) := .next (by simp)
@[simp] theorem execVrolv_otp (vc : Nat) (f : VFields) (s : State) : OtpKept s (execVrolv vc f s) := .next (by simp)
@[simp] theorem execVceq_otp (vc : Nat) (f : VFields) (s : State) : OtpKept s (execVceq vc f s) := .next (by simp)
@[simp] theorem execVcne_otp (vc : Nat) (f : VFields) (s : State) : OtpKept s (execVcne vc f s) := .next (by simp)
@[simp] theorem execVcltu_otp (vc : Nat) (f : VFields) (s : State) : OtpKept s (execVcltu vc f s) := .next (by simp)
@[simp] theorem execVcgeu_otp (vc : Nat) (f : VFields) (s : State) : OtpKept s (execVcgeu vc f s) := .next (by simp)
@[simp] theorem execVclt_otp (vc : Nat) (f : VFields) (s : State) : OtpKept s (execVclt vc f s) := .next (by simp)
@[simp] theorem execVcge_otp (vc : Nat) (f : VFields) (s : State) : OtpKept s (execVcge vc f s) := .next (by simp)
@[simp] theorem execVmull_otp (vc : Nat) (f : VFields) (s : State) : OtpKept s (execVmull vc f s) := .next (by simp)
@[simp] theorem execVmulhu_otp (vc : Nat) (f : VFields) (s : State) : OtpKept s (execVmulhu vc f s) := .next (by simp)
@[simp] theorem execVmulhs_otp (vc : Nat) (f : VFields) (s : State) : OtpKept s (execVmulhs vc f s) := .next (by simp)
@[simp] theorem execVmulweu_otp (vc : Nat) (f : VFields) (s : State) : OtpKept s (execVmulweu vc f s) := .next (by simp)
@[simp] theorem execVmulwou_otp (vc : Nat) (f : VFields) (s : State) : OtpKept s (execVmulwou vc f s) := .next (by simp)
@[simp] theorem execVmulwes_otp (vc : Nat) (f : VFields) (s : State) : OtpKept s (execVmulwes vc f s) := .next (by simp)
@[simp] theorem execVmulwos_otp (vc : Nat) (f : VFields) (s : State) : OtpKept s (execVmulwos vc f s) := .next (by simp)
@[simp] theorem execVmacl_otp (vc : Nat) (f : VFields) (s : State) : OtpKept s (execVmacl vc f s) := .next (by simp)
@[simp] theorem execVdot4b_otp (vc : Nat) (f : VFields) (s : State) : OtpKept s (execVdot4b vc f s) := .next (by simp)
@[simp] theorem execVdot4bs_otp (vc : Nat) (f : VFields) (s : State) : OtpKept s (execVdot4bs vc f s) := .next (by simp)
@[simp] theorem execVdot2h_otp (vc : Nat) (f : VFields) (s : State) : OtpKept s (execVdot2h vc f s) := .next (by simp)
@[simp] theorem execVdot2hs_otp (vc : Nat) (f : VFields) (s : State) : OtpKept s (execVdot2hs vc f s) := .next (by simp)
@[simp] theorem execVdot4h_otp (vc : Nat) (f : VFields) (s : State) : OtpKept s (execVdot4h vc f s) := .next (by simp)
@[simp] theorem execVdot4hs_otp (vc : Nat) (f : VFields) (s : State) : OtpKept s (execVdot4hs vc f s) := .next (by simp)
@[simp] theorem execVclmul_otp (vc : Nat) (f : VFields) (s : State) : OtpKept s (execVclmul vc f s) := .next (by simp)
@[simp] theorem execVclmulx_otp (vc : Nat) (f : VFields) (s : State) : OtpKept s (execVclmulx vc f s) := .next (by simp)
@[simp] theorem execVpermv_otp (vc : Nat) (f : VFields) (s : State) : OtpKept s (execVpermv vc f s) := .next (by simp)
@[simp] theorem execVslideup_otp (vc : Nat) (f : VFields) (s : State) : OtpKept s (execVslideup vc f s) := .next (by simp)
@[simp] theorem execVslideups_otp (vc : Nat) (f : VFields) (s : State) : OtpKept s (execVslideups vc f s) := .next (by simp)
@[simp] theorem execVslidedn_otp (vc : Nat) (f : VFields) (s : State) : OtpKept s (execVslidedn vc f s) := .next (by simp)
@[simp] theorem execVslidedns_otp (vc : Nat) (f : VFields) (s : State) : OtpKept s (execVslidedns vc f s) := .next (by simp)
@[simp] theorem execVbcast_otp (vc : Nat) (f : VFields) (s : State) : OtpKept s (execVbcast vc f s) := .next (by simp)
@[simp] theorem execVziplo_otp (vc : Nat) (f : VFields) (s : State) : OtpKept s (execVziplo vc f s) := .next (by simp)
@[simp] theorem execVziphi_otp (vc : Nat) (f : VFields) (s : State) : OtpKept s (execVziphi vc f s) := .next (by simp)
@[simp] theorem execVunzipe_otp (vc : Nat) (f : VFields) (s : State) : OtpKept s (execVunzipe vc f s) := .next (by simp)
@[simp] theorem execVunzipo_otp (vc : Nat) (f : VFields) (s : State) : OtpKept s (execVunzipo vc f s) := .next (by simp)
@[simp] theorem execVtr32_otp (vc : Nat) (f : VFields) (s : State) : OtpKept s (execVtr32 vc f s) := .next (by simp)
@[simp] theorem execVtr8_otp (vc : Nat) (f : VFields) (s : State) : OtpKept s (execVtr8 vc f s) := .next (by simp)
@[simp] theorem execVpopc_otp (vc : Nat) (f : VFields) (s : State) : OtpKept s (execVpopc vc f s) := .next (by simp)
@[simp] theorem execVbrev_otp (vc : Nat) (f : VFields) (s : State) : OtpKept s (execVbrev vc f s) := .next (by simp)
@[simp] theorem execVbitsel_otp (vc : Nat) (f : VFields) (s : State) : OtpKept s (execVbitsel vc f s) := .next (by simp)
@[simp] theorem execVmov_otp (vc : Nat) (f : VFields) (s : State) : OtpKept s (execVmov vc f s) := .next (by simp)
@[simp] theorem execVmovi_otp (vc : Nat) (f : VFields) (s : State) : OtpKept s (execVmovi vc f s) := .next (by simp)
@[simp] theorem execVmovs_otp (vc : Nat) (f : VFields) (s : State) : OtpKept s (execVmovs vc f s) := .next (by simp)
@[simp] theorem execVext_otp (vc : Nat) (f : VFields) (s : State) : OtpKept s (execVext vc f s) := .next (by simp)
@[simp] theorem execVins_otp (vc : Nat) (f : VFields) (s : State) : OtpKept s (execVins vc f s) := .next (by simp)
@[simp] theorem execVzero_otp (vc : Nat) (f : VFields) (s : State) : OtpKept s (execVzero vc f s) := .next (by simp)
@[simp] theorem execPand_otp (vc : Nat) (f : VFields) (s : State) : OtpKept s (execPand vc f s) := .next (by simp)
@[simp] theorem execPor_otp (vc : Nat) (f : VFields) (s : State) : OtpKept s (execPor vc f s) := .next (by simp)
@[simp] theorem execPxor_otp (vc : Nat) (f : VFields) (s : State) : OtpKept s (execPxor vc f s) := .next (by simp)
@[simp] theorem execPnot_otp (vc : Nat) (f : VFields) (s : State) : OtpKept s (execPnot vc f s) := .next (by simp)
@[simp] theorem execPset_otp (vc : Nat) (f : VFields) (s : State) : OtpKept s (execPset vc f s) := .next (by simp)
@[simp] theorem execPcnt_otp (vc : Nat) (f : VFields) (s : State) : OtpKept s (execPcnt vc f s) := .next (by simp)
@[simp] theorem execQset_otp (vc : Nat) (f : VFields) (s : State) : OtpKept s (execQset vc f s) := .next (by simp)
@[simp] theorem execQrd_otp (vc : Nat) (f : VFields) (s : State) : OtpKept s (execQrd vc f s) := .next (by simp)
@[simp] theorem execMadd_otp (vc : Nat) (f : VFields) (s : State) : OtpKept s (execMadd vc f s) := .next (by simp)
@[simp] theorem execMsub_otp (vc : Nat) (f : VFields) (s : State) : OtpKept s (execMsub vc f s) := .next (by simp)
@[simp] theorem execMneg_otp (vc : Nat) (f : VFields) (s : State) : OtpKept s (execMneg vc f s) := .next (by simp)
@[simp] theorem execMred_otp (vc : Nat) (f : VFields) (s : State) : OtpKept s (execMred vc f s) := .next (by simp)
@[simp] theorem execMmulm_otp (vc : Nat) (f : VFields) (s : State) : OtpKept s (execMmulm vc f s) := .next (by simp)
@[simp] theorem execMmulb_otp (vc : Nat) (f : VFields) (s : State) : OtpKept s (execMmulb vc f s) := .next (by simp)
@[simp] theorem execMtom_otp (vc : Nat) (f : VFields) (s : State) : OtpKept s (execMtom vc f s) := .next (by simp)
@[simp] theorem execMfromm_otp (vc : Nat) (f : VFields) (s : State) : OtpKept s (execMfromm vc f s) := .next (by simp)
@[simp] theorem execMcsub_otp (vc : Nat) (f : VFields) (s : State) : OtpKept s (execMcsub vc f s) := .next (by simp)
@[simp] theorem execMcenter_otp (vc : Nat) (f : VFields) (s : State) : OtpKept s (execMcenter vc f s) := .next (by simp)
@[simp] theorem execBfct_otp (vc : Nat) (f : VFields) (s : State) : OtpKept s (execBfct vc f s) := .next (by simp)
@[simp] theorem execBfgs_otp (vc : Nat) (f : VFields) (s : State) : OtpKept s (execBfgs vc f s) := .next (by simp)
@[simp] theorem execBfcti_otp (vc : Nat) (f : VFields) (s : State) : OtpKept s (execBfcti vc f s) := .next (by simp)
@[simp] theorem execBfgsi_otp (vc : Nat) (f : VFields) (s : State) : OtpKept s (execBfgsi vc f s) := .next (by simp)
@[simp] theorem execS2init_otp (vc : Nat) (f : VFields) (s : State) : OtpKept s (execS2init vc f s) := .next (by simp)
@[simp] theorem execS2abs_otp (vc : Nat) (f : VFields) (s : State) : OtpKept s (execS2abs vc f s) := .next (by simp)
@[simp] theorem execS2fin_otp (vc : Nat) (f : VFields) (s : State) : OtpKept s (execS2fin vc f s) := .next (by simp)
@[simp] theorem execS2lds_otp (vc : Nat) (f : VFields) (s : State) : OtpKept s (execS2lds vc f s) := .next (by simp)
@[simp] theorem execS2sts_otp (vc : Nat) (f : VFields) (s : State) : OtpKept s (execS2sts vc f s) := .next (by simp)
@[simp] theorem execKinit_otp (vc : Nat) (f : VFields) (s : State) : OtpKept s (execKinit vc f s) := .next (by simp)
@[simp] theorem execKabs_otp (vc : Nat) (f : VFields) (s : State) : OtpKept s (execKabs vc f s) := .next (by simp)
@[simp] theorem execKfin_otp (vc : Nat) (f : VFields) (s : State) : OtpKept s (execKfin vc f s) := .next (by simp)
@[simp] theorem execKsqz_otp (vc : Nat) (f : VFields) (s : State) : OtpKept s (execKsqz vc f s) := .next (by simp)
@[simp] theorem execKperm_otp (vc : Nat) (f : VFields) (s : State) : OtpKept s (execKperm vc f s) := .next (by simp)
@[simp] theorem execKlds_otp (vc : Nat) (f : VFields) (s : State) : OtpKept s (execKlds vc f s) := .next (by simp)
@[simp] theorem execKsts_otp (vc : Nat) (f : VFields) (s : State) : OtpKept s (execKsts vc f s) := .next (by simp)
@[simp] theorem execAkey_otp (vc : Nat) (f : VFields) (s : State) : OtpKept s (execAkey vc f s) := .next (by simp)
@[simp] theorem execAenc_otp (vc : Nat) (f : VFields) (s : State) : OtpKept s (execAenc vc f s) := .next (by simp)
@[simp] theorem execAdec_otp (vc : Nat) (f : VFields) (s : State) : OtpKept s (execAdec vc f s) := .next (by simp)
@[simp] theorem execActr_otp (vc : Nat) (f : VFields) (s : State) : OtpKept s (execActr vc f s) := .next (by simp)
@[simp] theorem execMrd_otp (vc : Nat) (f : VFields) (s : State) : OtpKept s (execMrd vc f s) := .next (by simp)
@[simp] theorem execMstat_otp (vc : Nat) (f : VFields) (s : State) : OtpKept s (execMstat vc f s) := .next (by simp)
@[simp] theorem execTagv_otp (vc : Nat) (f : VFields) (s : State) : OtpKept s (execTagv vc f s) := .next (by simp)
@[simp] theorem execTags_otp (vc : Nat) (f : VFields) (s : State) : OtpKept s (execTags vc f s) := .next (by simp)
@[simp] theorem execTagrd_otp (vc : Nat) (f : VFields) (s : State) : OtpKept s (execTagrd vc f s) := .next (by simp)
@[simp] theorem execSplit_otp (vc : Nat) (f : VFields) (s : State) : OtpKept s (execSplit vc f s) := .next (by simp)
@[simp] theorem execRefresh_otp (vc : Nat) (f : VFields) (s : State) : OtpKept s (execRefresh vc f s) := .next (by simp)
@[simp] theorem execGmulq_otp (vc : Nat) (f : VFields) (s : State) : OtpKept s (execGmulq vc f s) := .next (by simp)
@[simp] theorem execGand_otp (vc : Nat) (f : VFields) (s : State) : OtpKept s (execGand vc f s) := .next (by simp)
@[simp] theorem execGa2b_otp (vc : Nat) (f : VFields) (s : State) : OtpKept s (execGa2b vc f s) := .next (by simp)
@[simp] theorem execGb2a_otp (vc : Nat) (f : VFields) (s : State) : OtpKept s (execGb2a vc f s) := .next (by simp)
@[simp] theorem execDeclv_otp (vc : Nat) (f : VFields) (s : State) : OtpKept s (execDeclv vc f s) := .next (by simp)
@[simp] theorem execDecls_otp (vc : Nat) (f : VFields) (s : State) : OtpKept s (execDecls vc f s) := .next (by simp)
@[simp] theorem execVld_otp (vc : Nat) (f : VFields) (s : State) : OtpKept s (execVld vc f s) := .next (by simp)
@[simp] theorem execVlds_otp (vc : Nat) (f : VFields) (s : State) : OtpKept s (execVlds vc f s) := .next (by simp)
@[simp] theorem execVldff_otp (vc : Nat) (f : VFields) (s : State) : OtpKept s (execVldff vc f s) := .next (by simp)
@[simp] theorem execVldsh_otp (vc : Nat) (f : VFields) (s : State) : OtpKept s (execVldsh vc f s) := .next (by simp)
@[simp] theorem execVst_otp (vc : Nat) (f : VFields) (s : State) : OtpKept s (execVst vc f s) := .next (by simp)
@[simp] theorem execVsts_otp (vc : Nat) (f : VFields) (s : State) : OtpKept s (execVsts vc f s) := .next (by simp)
@[simp] theorem execVstsh_otp (vc : Nat) (f : VFields) (s : State) : OtpKept s (execVstsh vc f s) := .next (by simp)
@[simp] theorem execVgather_otp (vc : Nat) (f : VFields) (s : State) : OtpKept s (execVgather vc f s) := .next (by simp)
@[simp] theorem execVscatter_otp (vc : Nat) (f : VFields) (s : State) : OtpKept s (execVscatter vc f s) := .next (by simp)
@[simp] theorem execSld_otp (vc : Nat) (f : VFields) (s : State) : OtpKept s (execSld vc f s) := .next (by simp)
@[simp] theorem execSst_otp (vc : Nat) (f : VFields) (s : State) : OtpKept s (execSst vc f s) := .next (by simp)
@[simp] theorem execKeyload_otp (vc : Nat) (f : VFields) (s : State) : OtpKept s (execKeyload vc f s) := .next (by simp)
@[simp] theorem execSadd_otp (vc : Nat) (f : VFields) (s : State) : OtpKept s (execSadd vc f s) := .next (by simp)
@[simp] theorem execSsub_otp (vc : Nat) (f : VFields) (s : State) : OtpKept s (execSsub vc f s) := .next (by simp)
@[simp] theorem execSand_otp (vc : Nat) (f : VFields) (s : State) : OtpKept s (execSand vc f s) := .next (by simp)
@[simp] theorem execSor_otp (vc : Nat) (f : VFields) (s : State) : OtpKept s (execSor vc f s) := .next (by simp)
@[simp] theorem execSxor_otp (vc : Nat) (f : VFields) (s : State) : OtpKept s (execSxor vc f s) := .next (by simp)
@[simp] theorem execSsll_otp (vc : Nat) (f : VFields) (s : State) : OtpKept s (execSsll vc f s) := .next (by simp)
@[simp] theorem execSsrl_otp (vc : Nat) (f : VFields) (s : State) : OtpKept s (execSsrl vc f s) := .next (by simp)
@[simp] theorem execSsra_otp (vc : Nat) (f : VFields) (s : State) : OtpKept s (execSsra vc f s) := .next (by simp)
@[simp] theorem execSmul_otp (vc : Nat) (f : VFields) (s : State) : OtpKept s (execSmul vc f s) := .next (by simp)
@[simp] theorem execSaddi_otp (vc : Nat) (f : VFields) (s : State) : OtpKept s (execSaddi vc f s) := .next (by simp)
@[simp] theorem execSlui_otp (vc : Nat) (f : VFields) (s : State) : OtpKept s (execSlui vc f s) := .next (by simp)
@[simp] theorem execSltu_otp (vc : Nat) (f : VFields) (s : State) : OtpKept s (execSltu vc f s) := .next (by simp)
@[simp] theorem execSlt_otp (vc : Nat) (f : VFields) (s : State) : OtpKept s (execSlt vc f s) := .next (by simp)
@[simp] theorem execBranch_otp (vc : Nat) (f : VFields) (s : State) : OtpKept s (execBranch vc f s) := .next (by simp)
@[simp] theorem execBeqz_otp (vc : Nat) (f : VFields) (s : State) : OtpKept s (execBeqz vc f s) := .next (by simp)
@[simp] theorem execBnez_otp (vc : Nat) (f : VFields) (s : State) : OtpKept s (execBnez vc f s) := .next (by simp)
@[simp] theorem execBltz_otp (vc : Nat) (f : VFields) (s : State) : OtpKept s (execBltz vc f s) := .next (by simp)
@[simp] theorem execBgez_otp (vc : Nat) (f : VFields) (s : State) : OtpKept s (execBgez vc f s) := .next (by simp)
@[simp] theorem execLoopOp_otp (vc : Nat) (f : VFields) (s : State) : OtpKept s (execLoopOp vc f s) := .next (by simp)
@[simp] theorem execCallOp_otp (vc : Nat) (f : VFields) (s : State) : OtpKept s (execCallOp vc f s) := .next (by simp)
@[simp] theorem execRetOp_otp (vc : Nat) (f : VFields) (s : State) : OtpKept s (execRetOp vc f s) := .next (by simp)
@[simp] theorem execYieldOp_otp (vc : Nat) (f : VFields) (s : State) : OtpKept s (execYieldOp vc f s) := .next (by simp)
@[simp] theorem execEndOp_otp (vc : Nat) (f : VFields) (s : State) : OtpKept s (execEndOp vc f s) := .next (by simp)
@[simp] theorem execFence_otp (vc : Nat) (f : VFields) (s : State) : OtpKept s (execFence vc f s) := .next (by simp)
@[simp] theorem execNop_otp (vc : Nat) (f : VFields) (s : State) : OtpKept s (execNop vc f s) := .next (by simp)
@[simp] theorem execSparam_otp (vc : Nat) (f : VFields) (s : State) : OtpKept s (execSparam vc f s) := .next (by simp)

/-! ### Every step -/

/-- Every instruction other than PROT_F2_SET leaves the F2 bit as it was. -/
theorem exec_f2 (i : Instr) (hi : i ≠ .protF2Set) (s : State) : F2Kept s (exec i s) := by
  cases i with
  | protF2Set => exact absurd rfl hi
  | _ => dsimp only [exec]; simp

theorem exec_f2Set (i : Instr) (s t : State) (h : F2Set s) (e : exec i s = .next t) : F2Set t := by
  by_cases hi : i = .protF2Set
  · subst hi
    exact execProtF2Set_sets s t h e
  · exact (exec_f2 i hi s t e).trans h

/-- Settles O3: PROT_F2_SET only programs the bit, and every other instruction and the idle tick leave it. -/
theorem f2BitStaysProgrammed : Obligations.F2BitStaysProgrammed := by
  intro s t hs ht
  obtain ⟨-, rfl⟩ | ⟨c, rest, -, he⟩ := step_cases s t ht
  · exact (congrArg Otp.f2 (s.tick_otp 1)).trans hs
  · exact exec_f2Set c { s with pending := rest } t hs he

/-! ### The reset state -/

theorem reset_f2 : State.reset.otp.f2 = false := rfl

/-- PROT_F2_SET as the running command, with a good OTP supply and the bit not programmed, programs it (R432). -/
theorem execProtF2Set_programs (s : State) (hp : s.mbx.phase = .running) (ho : s.cmdOpcode = 0x0905) (hf : s.otp.f2 = false)
    (hg : s.otpGood = true) :
    execProtF2Set s = .next ({ s with otp := { s.otp with f2 := true } } : State).success := by
  unfold execProtF2Set State.cmdIf
  rw [s.cmd_runs _ _ hp ho]
  simp only [firstFail, hf, Bool.false_eq_true, if_false, State.program, hg, if_true]

/-- Settles O4: the reset state's OTP is not programmed (log entry 6), and the command programs the bit where VDD_OTP is good
(log entry 87). -/
theorem f2BitAfterReset : Obligations.F2BitAfterReset := by
  refine ⟨reset_f2, fun s hq hp ho hf hg => ?_⟩
  have he : step s = execProtF2Set { s with pending := [] } := by
    rw [step, hq]
    rfl
  rw [execProtF2Set_programs { s with pending := [] } hp ho hf hg] at he
  exact ⟨_, he, congrArg Otp.f2 (State.respond_otp ..)⟩

end Sys2Proof.Machine
end

section
/-!
What one access to BAR0 does where its deckle allows it at once: it reads or writes one piece and is answered (R11, R12, R14,
R439, R441, R491, R492). O6 to O10 follow.
-/

namespace Sys2Proof.Machine

open Sys2Proof.Claims

/-! ### Byte strings -/

/-- The value of a string of `k` bytes is the value that was written, cut to its width. -/
theorem leNat_leBytes_mod (k n : Nat) : leNat (leBytes k n) = n % 256 ^ k := by
  induction k generalizing n with
  | zero => simp [leBytes, leNat, Nat.mod_one]
  | succ k ih =>
    rw [leBytes, leNat, ih, BitVec.toNat_ofNat, Nat.pow_succ' (m := 256) (n := k), Nat.mod_mul]

/-- A string of `k` bytes holds a value cut to its width. -/
theorem leBytes_mod (k n : Nat) : leBytes k (n % 256 ^ k) = leBytes k n := by
  induction k generalizing n with
  | zero => rfl
  | succ k ih =>
    have hlow : BitVec.ofNat 8 (n % 256 ^ (k + 1)) = BitVec.ofNat 8 n := by
      refine BitVec.eq_of_toNat_eq ?_
      rw [BitVec.toNat_ofNat, BitVec.toNat_ofNat, Nat.mod_mod_of_dvd n ⟨256 ^ k, Nat.pow_succ'⟩]
    have hrest : n % 256 ^ (k + 1) / 256 = n / 256 % 256 ^ k := by
      rw [Nat.pow_succ', Nat.mod_mul_right_div_self]
    rw [leBytes, leBytes, hlow, hrest, ih]

/-! ### What an answer says -/

/-- The debug master's response byte for an allowed access is not the 1 of a denied one (R414). -/
theorem debugResponse_ne_one (f : Nat) : (f % 255 + 2) % 256 ≠ 1 := by omega

@[simp] theorem State.answer_regs (s : State) (m : Master) (write : Bool) (data : Bytes) :
    (s.answer m write data false).regs = s.regs := by
  cases m <;> cases write <;> rfl

/-- A master other than the debug master is answered with the data alone. -/
theorem State.answer_read_host (s : State) (m : Master) (data : Bytes) (hm : m ≠ .dbg) :
    s.answer m false data false = s.emitLocal (.readReturn data) := by
  cases m with
  | pf0 => rfl
  | mp => rfl
  | dbg => exact absurd rfl hm

/-- The answer of a read: the state after the read differs from the base state in registers only, and for the debug master not
at all. -/
theorem readAnswered_answer (s t : State) (m : Master) (v : Nat) (h : t = { s with regs := t.regs }) (hd : m = .dbg → t = s) :
    ReadAnswered s (t.answer m false (leBytes 4 v) false) m v := by
  have hout : t.out = s.out := by rw [h]
  refine ⟨fun hm => ?_, fun hm => ?_⟩
  · rw [t.answer_read_host m _ hm, State.emitLocal, hout]
    exact congrArg (fun x : State => { x with out := s.out ++ [OutMsg.readReturn (leBytes 4 v)] }) h
  · obtain rfl := hd hm
    subst hm
    have hv : v % 2 ^ 32 = leNat (leBytes 4 v) := (leNat_leBytes_mod 4 v).symm
    exact ⟨rfl, _, debugResponse_ne_one _, by rw [hv]; rfl⟩

/-- The answer of a write: the debug master's response, and nothing for another master. -/
theorem writeAnswered_answer (s : State) (m : Master) : WriteAnswered s (s.answer m true [] false) m := by
  refine ⟨fun hm => ?_, fun hm => ?_⟩
  · cases m
    · rfl
    · rfl
    · exact absurd rfl hm
  · subst hm
    exact ⟨rfl, _, debugResponse_ne_one _, rfl⟩

/-! ### An access that is checked at once -/

theorem masterOf_masterId (m : Master) : masterOf (masterId m) = m := by cases m <;> rfl

theorem State.offsetOf_of_deckleOf {s : State} {a k off : Nat} (h : s.deckleOf a = some (k, off)) : s.offsetOf a = off := by
  simp [State.offsetOf, h]

/-- Four bytes are one access. -/
theorem State.cuts_word (s : State) (a : Nat) : s.cuts 17 a 4 = [(a, 4)] := by simp [State.cuts]

/-- A 64-bit register covered whole is one access. -/
theorem State.cuts_wide (s : State) (a : Nat) (h : s.wideAt a = true) : s.cuts 17 a 8 = [(a, 8)] := by simp [State.cuts, h]

/-- A read that is one access, granted by its deckle. -/
theorem State.runAccess_read (s : State) (m : Master) (a k off n : Nat) (hc : s.cuts 17 a n = [(a, n)])
    (ho : s.deckleOf a = some (k, off)) (hd : s.decision k (masterId m) false off = 1) :
    s.runAccess k m false a a [] n = (s.readPiece m a n).2.answer m false (leBytes n (s.readPiece m a n).1) false := by
  simp [State.runAccess, hc, Running.all, Running.go, State.offsetOf_of_deckleOf ho, hd]

/-- A write that is one access, granted by its deckle. -/
theorem State.runAccess_write (s : State) (m : Master) (a k off : Nat) (data : Bytes) (hl : data.length = 4)
    (ho : s.deckleOf a = some (k, off)) (hd : s.decision k (masterId m) true off = 1) :
    s.runAccess k m true a a data 4 = (s.writePiece m a data).answer m true [] false := by
  have ht : data.take 4 = data := List.take_of_length_le (Nat.le_of_eq hl)
  simp [State.runAccess, State.cuts_word, Running.all, Running.go, State.offsetOf_of_deckleOf ho, hd, ht]

/-- Where no access waits, none must wait for another (R32). -/
theorem State.mustWait_of_clear (s : State) (k : Nat) (h : HeldAccess)
    (hc : ∀ e ∈ s.dkl, e.2.held = [] ∧ e.2.behind = []) : s.mustWait k h = false := by
  refine List.any_eq_false.2 (fun e he => ?_)
  obtain ⟨hheld, hbehind⟩ := hc e he
  simp [hheld, hbehind]

/-- An access that is neither held nor behind another is checked now (R441). -/
theorem State.atDeckle_runs (s : State) (k : Nat) (h : HeldAccess) (hc : ∀ e ∈ s.dkl, e.2.held = [] ∧ e.2.behind = [])
    (he : s.flag .DKL_CTL_EN k = true ∨ inDkl h.addr = true) : s.atDeckle k h = s.runHeld k h := by
  have ho : (s.flag .DKL_CTL_EN k || inDkl h.addr) = true := by simpa using he
  simp only [State.atDeckle, s.mustWait_of_clear k h hc, ho, Bool.false_and, Bool.false_eq_true, if_false, if_true]

/-- Only a write of DKL_CTL can set EN. -/
theorem State.setsEn_none (s : State) (m : Master) (write : Bool) (a : Nat) (data : Bytes) (n : Nat)
    (h : write = true → ∀ i, s.regAt a ≠ some (.DKL_CTL, i, 0)) : s.setsEn m write a data n = none := by
  unfold State.setsEn
  split
  · next i e =>
    cases write with
    | false => simp
    | true => exact absurd e (h rfl i)
  · rfl

/-! ### Granted accesses -/

theorem reaches_of_granted {s : State} {m : Master} {write : Bool} {a n code : Nat} {data : Bytes}
    (h : Granted s m write a data n code) : s.reaches m .bar0 = true := by
  obtain ⟨hmode, hpf0, -⟩ := h
  have hv : s.onVbat = false := by simpa [State.onVbat, modeRetention] using hmode
  by_cases hm : m = .pf0
  · simp [State.reaches, hv, hpf0 hm]
  · simp [State.reaches, hv, hm]

/-- A granted access that does not set EN is run by its deckle at once. -/
theorem State.bar0_granted (s : State) (m : Master) (write : Bool) (a : Nat) (data : Bytes) (n code : Nat)
    (h : Granted s m write a data n code) (hshape : (if write then writeShape a n true else readShape a n) = true)
    (hen : s.setsEn m write a data n = none) :
    ∃ k off, s.deckleOf a = some (k, off) ∧ s.decision k (masterId m) write off = 1 ∧
      s.bar0 m write a data n true code = s.runAccess k m write a a data n := by
  obtain ⟨-, -, hcodes, k, off, ho, he, hd, hc⟩ := h
  refine ⟨k, off, ho, hd, ?_⟩
  simp only [State.bar0, hshape, hcodes, Bool.not_true, Bool.false_eq_true, if_false, State.arrive, ho, hen]
  rw [State.atDeckle_runs _ _ _ hc he, State.runHeld, masterOf_masterId]

/-- A granted read of a word, or of a 64-bit register whole. -/
theorem exec_read_granted (s : State) (m : Master) (a n code : Nat) (h : Granted s m false a [] n code)
    (hshape : readShape a n = true) (hc : s.cuts 17 a n = [(a, n)]) :
    exec (.rcRegisterRead m .bar0 a n code) s =
      .next ((s.readPiece m a n).2.answer m false (leBytes n (s.readPiece m a n).1) false) := by
  obtain ⟨k, off, ho, hd, hrun⟩ := s.bar0_granted m false a [] n code h hshape (s.setsEn_none _ _ _ _ _ (fun e => by cases e))
  have hr := reaches_of_granted h
  change execRcRegisterRead m .bar0 a n code s = _
  simp only [execRcRegisterRead, hr, Bool.not_true, Bool.false_eq_true, if_false, hrun, s.runAccess_read m a k off n hc ho hd]

theorem exec_readWord_granted (s : State) (m : Master) (a code : Nat) (h : Granted s m false a [] 4 code) (ha : a % 4 = 0) :
    exec (.rcRegisterRead m .bar0 a 4 code) s =
      .next ((s.readPiece m a 4).2.answer m false (leBytes 4 (s.readPiece m a 4).1) false) :=
  exec_read_granted s m a 4 code h (by simp [readShape, ha]) (s.cuts_word a)

/-- A granted write of a word that does not set EN. -/
theorem exec_writeWord_granted (s : State) (m : Master) (a code : Nat) (data : Bytes) (h : Granted s m true a data 4 code)
    (hl : data.length = 4) (ha : a % 4 = 0) (hk : ∀ i, s.regAt a ≠ some (.DKL_CTL, i, 0)) :
    exec (.registerWrite m .bar0 a data true code) s = .next ((s.writePiece m a data).answer m true [] false) := by
  have hshape : writeShape a 4 true = true := by
    have : a % 4096 + 4 ≤ 4096 := by omega
    simp [writeShape, ha, this]
  obtain ⟨k, off, ho, hd, hrun⟩ := s.bar0_granted m true a data 4 code h hshape (s.setsEn_none _ _ _ _ _ (fun _ => hk))
  have hr := reaches_of_granted h
  change execRegisterWrite m .bar0 a data true code s = _
  simp only [execRegisterWrite, hr, Bool.not_true, Bool.false_eq_true, if_false, hl, hrun,
    s.runAccess_write m a k off data hl ho hd]

/-! ### Registers that follow the access codes -/

/-- The state after a master's read of a register: its RC bits clear, but not for the debug master (R12, R14). -/
def State.afterRead (s : State) (m : Master) (k : RegKind) (i : Nat) : State :=
  if m = .dbg || (regRow k).rc = 0 then s else s.setReg k i (s.reg k i &&& ~~~(BitVec.ofNat 64 (regRow k).rc))

/-- A register without a rule of its own reads as it shows. -/
theorem State.readReg_plain (s : State) (m : Master) (k : RegKind) (i : Nat) (h : k ∉ specialReads) :
    s.readReg m k i = (s.view k i, s.afterRead m k i) := by
  unfold State.readReg
  split
  case h_11 => rfl
  all_goals exact absurd (by decide) h

@[simp] theorem State.afterRead_dbg (s : State) (k : RegKind) (i : Nat) : s.afterRead .dbg k i = s := rfl

@[simp] theorem State.afterRead_noRc (s : State) (m : Master) (k : RegKind) (i : Nat) (h : (regRow k).rc = 0) :
    s.afterRead m k i = s := by simp [State.afterRead, h]

theorem State.afterRead_cases (s : State) (m : Master) (k : RegKind) (i : Nat) :
    s.afterRead m k i = s ∨ s.afterRead m k i = s.setReg k i (s.reg k i &&& ~~~(BitVec.ofNat 64 (regRow k).rc)) := by
  unfold State.afterRead
  split
  · exact .inl rfl
  · exact .inr rfl

theorem State.afterRead_frame (s : State) (m : Master) (k : RegKind) (i : Nat) :
    s.afterRead m k i = { s with regs := (s.afterRead m k i).regs } := by
  obtain h | h := s.afterRead_cases m k i
  · rw [h]
  · rw [h]
    rfl

theorem State.reg_afterRead_other (s : State) (m : Master) (k l : RegKind) (i j : Nat) (h : ¬ (l = k ∧ j = i)) :
    (s.afterRead m k i).reg l j = s.reg l j := by
  obtain e | e := s.afterRead_cases m k i <;> rw [e]
  exact s.reg_setReg_other k l i j _ h

/-- The bits that a host's read leaves in the register. -/
theorem State.getLsbD_afterRead (s : State) (m : Master) (k : RegKind) (i j : Nat) (hm : m ≠ .dbg) (hj : j < 64) :
    ((s.afterRead m k i).reg k i).getLsbD j = ((s.reg k i).getLsbD j && !(regRow k).rc.testBit j) := by
  by_cases hrc : (regRow k).rc = 0
  · simp [hrc]
  · simp [State.afterRead, hm, hrc, hj, BitVec.getLsbD_ofNat, -BitVec.getLsbD_eq_getElem]

/-- A register without an effect of its own takes a write by the access codes of its bits. -/
theorem State.commitReg_plain (s : State) (m : Master) (k : RegKind) (i v : Nat) (h : k ∉ specialWrites) :
    s.commitReg m k i v = s.plainWrite k i v := by
  unfold State.commitReg
  split
  case h_35 => rfl
  all_goals exact absurd (by decide) h

/-! ### One piece -/

/-- A 32-bit register is read by the access itself. -/
theorem State.readPiece_narrow (s : State) (m : Master) (a n : Nat) (k : RegKind) (i : Nat) (h : s.regAt a = some (k, i, 0))
    (hw : (regRow k).width = 32) : s.readPiece m a n = s.readReg m k i := by simp [State.readPiece, h, hw]

/-- A 32-bit register is written by the access itself. -/
theorem State.writePiece_narrow (s : State) (m : Master) (a : Nat) (b : Bytes) (k : RegKind) (i : Nat)
    (h : s.regAt a = some (k, i, 0)) (hw : (regRow k).width = 32) : s.writePiece m a b = s.commitReg m k i (leNat b) := by
  simp [State.writePiece, h, hw]

/-- An offset without a register reads as zero. -/
theorem State.readPiece_unallocated (s : State) (m : Master) (a n : Nat) (h : s.regAt a = none) : s.readPiece m a n = (0, s) := by
  simp [State.readPiece, h]

/-- An offset without a register ignores a write. -/
theorem State.writePiece_unallocated (s : State) (m : Master) (a : Nat) (b : Bytes) (h : s.regAt a = none) :
    s.writePiece m a b = s := by
  simp [State.writePiece, h]

/-- A 32-bit register read by a granted access. -/
theorem exec_readReg_granted (s : State) (m : Master) (a code : Nat) (k : RegKind) (i : Nat) (h : Granted s m false a [] 4 code)
    (ha : a % 4 = 0) (hr : s.regAt a = some (k, i, 0)) (hw : (regRow k).width = 32) :
    exec (.rcRegisterRead m .bar0 a 4 code) s =
      .next ((s.readReg m k i).2.answer m false (leBytes 4 (s.readReg m k i).1) false) := by
  rw [exec_readWord_granted s m a code h ha, s.readPiece_narrow m a 4 k i hr hw]

theorem State.reg_answer (s : State) (m : Master) (write : Bool) (data : Bytes) (k : RegKind) (i : Nat) :
    (s.answer m write data false).reg k i = s.reg k i := by
  cases m <;> cases write <;> rfl

/-- A bit after a write by the access codes (Table 00.5). -/
theorem getLsbD_plainWrite (w : RegWord) (row : RegRow) (v j : Nat) (hj : j < 64) :
    ((((w &&& ~~~(BitVec.ofNat 64 row.rw)) ||| (BitVec.ofNat 64 v &&& BitVec.ofNat 64 row.rw)) |||
        (BitVec.ofNat 64 v &&& BitVec.ofNat 64 row.w1s)) &&& ~~~(BitVec.ofNat 64 v &&& BitVec.ofNat 64 row.w1c)).getLsbD j =
      writtenBit row w.toNat v j := by
  have hw : w.getLsbD j = w.toNat.testBit j := rfl
  simp only [BitVec.getLsbD_and, BitVec.getLsbD_or, BitVec.getLsbD_not, BitVec.getLsbD_ofNat, hj, decide_true, Bool.true_and, hw,
    writtenBit]
  cases row.rw.testBit j <;> cases row.w1s.testBit j <;> cases row.w1c.testBit j <;> cases v.testBit j <;> simp

/-- Where only register `k` at index `i` may differ, every other register is kept. -/
theorem regsKept_of_reg {s t : State} {k : RegKind} {i : Nat} (h : ∀ l j, ¬ (l = k ∧ j = i) → t.reg l j = s.reg l j) :
    RegsKept s t [k] ∧ KeptBut s t k [i] :=
  ⟨fun l j hl => h l j (fun e => hl (by simp [e.1])), fun j hj => h k j (fun e => hj (by simp [e.2]))⟩

/-! ### The statements about 32-bit registers -/

/-- Settles O6: the read is one piece of one register, which is answered with what it shows and clears its RC bits. -/
theorem registerReads : Obligations.RegisterReads := by
  intro s m a code k i hg ha hr hw hk
  have he := exec_readReg_granted s m a code k i hg ha hr hw
  rw [s.readReg_plain m k i hk] at he
  obtain ⟨hregs, hkept⟩ := regsKept_of_reg (t := (s.afterRead m k i).answer m false (leBytes 4 (s.view k i)) false)
    (fun l j h => (State.reg_answer ..).trans (s.reg_afterRead_other m k l i j h))
  refine ⟨_, he, readAnswered_answer s _ m _ (s.afterRead_frame m k i) ?_, hregs, hkept, ?_, ?_⟩
  · rintro rfl
    rfl
  · rintro rfl
    exact State.reg_answer ..
  · intro hm j hj
    rw [State.reg_answer, s.getLsbD_afterRead m k i j hm hj]

/-- Settles O7: for the debug master the state after the read of the register is the state before it. -/
theorem debugReadClearsNothing : Obligations.DebugReadClearsNothing := by
  intro s a code k i hg ha hr hw _ hk
  have he := exec_readReg_granted s .dbg a code k i hg ha hr hw
  rw [s.readReg_plain .dbg k i hk, State.afterRead_dbg] at he
  obtain ⟨-, hd⟩ := readAnswered_answer s s .dbg (s.view k i) rfl (fun _ => rfl)
  obtain ⟨-, x, -, hout⟩ := hd rfl
  exact ⟨_, x, he, State.answer_regs .., hout⟩

/-- Settles O8: the write is one piece of one register, whose bits take it by their access codes. -/
theorem registerWrites : Obligations.RegisterWrites := by
  intro s m a code data k i hg hl ha hr hw hk
  have hctl : ∀ x, s.regAt a ≠ some (.DKL_CTL, x, 0) := by
    intro x e
    obtain ⟨rfl, -⟩ := Prod.mk.inj (Option.some.inj (hr.symm.trans e))
    exact hk (by decide)
  have he := exec_writeWord_granted s m a code data hg hl ha hctl
  rw [s.writePiece_narrow m a data k i hr hw, s.commitReg_plain m k i _ hk] at he
  obtain ⟨hregs, hkept⟩ := regsKept_of_reg (t := (s.plainWrite k i (leNat data)).answer m true [] false)
    (fun l j h => (State.reg_answer ..).trans (s.reg_setReg_other k l i j _ h))
  refine ⟨_, he, ?_, hregs, hkept, fun j hj => ?_⟩
  · rw [State.answer_regs]
    exact writeAnswered_answer (s.plainWrite k i (leNat data)) m
  · rw [State.reg_answer, State.plainWrite, State.reg_setReg_same]
    exact getLsbD_plainWrite (s.reg k i) (regRow k) (leNat data) j hj

/-- Settles O10: the piece of an access at an offset without a register reads as zero and writes nothing. -/
theorem unallocatedOffsets : Obligations.UnallocatedOffsets := by
  intro s m a code hr ha
  refine ⟨fun hg => ?_, fun data hl hg => ?_⟩
  · have he := exec_readWord_granted s m a code hg ha
    rw [s.readPiece_unallocated m a 4 hr] at he
    exact ⟨_, he, State.answer_regs .., readAnswered_answer s s m 0 rfl (fun _ => rfl)⟩
  · have he := exec_writeWord_granted s m a code data hg hl ha (fun x e => by simp [hr] at e)
    rw [s.writePiece_unallocated m a data hr] at he
    exact ⟨_, he, writeAnswered_answer s m⟩

/-! ### The halves of 64-bit registers (R11) -/

theorem State.setHalf_half (s : State) (m : Master) : s.setHalf m (s.half m) = s := by cases m <;> rfl

section
variable (s : State) (m : Master) (a : Nat) (k : RegKind) (i : Nat) (hw : (regRow k).width = 64)
include hw

/-- The low half of a register that a read does not change: the high half goes into the master's shadow. -/
theorem State.readPiece_low (hr : s.regAt a = some (k, i, 0)) (hk : k ∉ specialReads) (ht : k ≠ .TIME_NOW)
    (hrc : (regRow k).rc = 0) : s.readPiece m a 4 =
      (s.view k i % 2 ^ 32, withHalf s m (s.half m).staged (some (regKey k i, s.view k i / 2 ^ 32))) := by
  simp [State.readPiece, hr, hw, ht, s.readReg_plain m k i hk, hrc, withHalf]

/-- The high half after the low one: the shadow is read and emptied. -/
theorem State.readPiece_high (hr : s.regAt a = some (k, i, 4)) (hk : k ∉ specialReads) (hrc : (regRow k).rc = 0) (x : Nat)
    (hx : (s.half m).shadow = some (regKey k i, x)) : s.readPiece m a 4 = (x, withHalf s m (s.half m).staged none) := by
  simp [State.readPiece, hr, hw, s.readReg_plain m k i hk, hrc, hx, withHalf]

/-- The whole register in one access. -/
theorem State.readPiece_whole (hr : s.regAt a = some (k, i, 0)) (hk : k ∉ specialReads) (ht : k ≠ .TIME_NOW)
    (hrc : (regRow k).rc = 0) : s.readPiece m a 8 = (s.view k i, s) := by
  simp [State.readPiece, hr, hw, ht, s.readReg_plain m k i hk, hrc]

/-- The low half is staged. -/
theorem State.writePiece_low (hr : s.regAt a = some (k, i, 0)) (data : Bytes) (hl : data.length = 4) :
    s.writePiece m a data = withHalf s m (some (regKey k i, leNat data)) (s.half m).shadow := by
  simp [State.writePiece, hr, hw, hl, withHalf]

/-- The high half writes the register with the staged low one. -/
theorem State.writePiece_high (hr : s.regAt a = some (k, i, 4)) (data : Bytes) (hl : data.length = 4) (l : Nat)
    (hs : (s.half m).staged = some (regKey k i, l)) :
    s.writePiece m a data = (withHalf s m none (s.half m).shadow).commitReg m k i (l + leNat data * 2 ^ 32) := by
  simp [State.writePiece, hr, hw, hl, hs, withHalf]

/-- The high half alone writes the register with the low half that it shows. -/
theorem State.writePiece_highAlone (hr : s.regAt a = some (k, i, 4)) (hk : k ∉ specialReads) (data : Bytes) (hl : data.length = 4)
    (hs : (s.half m).staged = none) :
    s.writePiece m a data = s.commitReg m k i (s.view k i % 2 ^ 32 + leNat data * 2 ^ 32) := by
  simp [State.writePiece, hr, hw, hl, hs, s.readReg_plain m k i hk, s.setHalf_half m]

end

/-- A 64-bit register is not DKL_CTL. -/
theorem regAt_ne_dklCtl {s : State} {a : Nat} {k : RegKind} {i o : Nat} (hr : s.regAt a = some (k, i, o))
    (hw : (regRow k).width = 64) (x : Nat) : s.regAt a ≠ some (.DKL_CTL, x, 0) := by
  intro e
  obtain ⟨rfl, -⟩ := Prod.mk.inj (Option.some.inj (hr.symm.trans e))
  exact absurd hw (by decide)

/-- Settles O9: each access is one piece of the register, a half or the whole. -/
theorem sixtyFourBitHalves : Obligations.SixtyFourBitHalves := by
  intro s m a code k i hlow hhigh hw hk ht hrc ha
  have ha4 : a % 4 = 0 := by omega
  have ha4' : (a + 4) % 4 = 0 := by omega
  refine ⟨fun hg => ?_, fun hg x hx => ?_, fun hg hm => ?_, fun data hl hg => ?_, fun data hl hg l hs => ?_,
    fun data hl hg hs => ?_⟩
  · have he := exec_readWord_granted s m a code hg ha4
    rw [s.readPiece_low m a k i hw hlow hk ht hrc] at he
    rw [show leBytes 4 (s.view k i % 2 ^ 32) = leBytes 4 (s.view k i) from leBytes_mod 4 _] at he
    exact ⟨_, he, readAnswered_answer _ _ m _ rfl (fun _ => rfl)⟩
  · have he := exec_readWord_granted s m (a + 4) code hg ha4'
    rw [s.readPiece_high m (a + 4) k i hw hhigh hk hrc x hx] at he
    exact ⟨_, he, readAnswered_answer _ _ m _ rfl (fun _ => rfl)⟩
  · have hwide : s.wideAt a = true := by simp [State.wideAt, hlow, hw, ha]
    have he := exec_read_granted s m a 8 code hg (by simp [readShape, ha]) (s.cuts_wide a hwide)
    rw [s.readPiece_whole m a k i hw hlow hk ht hrc] at he
    dsimp only at he
    rw [s.answer_read_host m _ hm] at he
    exact ⟨_, he, rfl⟩
  · have he := exec_writeWord_granted s m a code data hg hl ha4 (regAt_ne_dklCtl hlow hw)
    rw [s.writePiece_low m a k i hw hlow data hl] at he
    exact ⟨_, he, writeAnswered_answer _ m⟩
  · have he := exec_writeWord_granted s m (a + 4) code data hg hl ha4' (regAt_ne_dklCtl hhigh hw)
    rw [s.writePiece_high m (a + 4) k i hw hhigh data hl l hs] at he
    exact ⟨_, he, writeAnswered_answer _ m⟩
  · have he := exec_writeWord_granted s m (a + 4) code data hg hl ha4' (regAt_ne_dklCtl hhigh hw)
    rw [s.writePiece_highAlone m (a + 4) k i hw hhigh hk data hl hs] at he
    exact ⟨_, he, writeAnswered_answer _ m⟩

end Sys2Proof.Machine
end
